-- ==== Sys2Proof/Word.lean ====
section
/-! DEFINITION. The word types of the machine (R5, R17). -/
namespace Sys2Proof

/-- A general register, an address or a system register: 64 bits (R17). -/
abbrev Word := BitVec 64

/-- One byte of memory (R5). -/
abbrev Byte := BitVec 8

/-- The image of a vector register: VLEN is at most 32,768 bits (R241), and bits from VLEN up are zero. -/
abbrev VReg := BitVec 32768

/-- A mask register: 4,096 bits (R241). -/
abbrev KReg := BitVec 4096

/-- One row of a subarray: 8,192 columns (R22). -/
abbrev Row := BitVec 8192

end Sys2Proof
end

