-- ==== Sys2Proof/Syntax.lean ====
section
/-! DEFINITION. The one syntax of the machine: a constructor for every row of the opcode table.
250 rows are instruction words (R180 to R200), with the operand fields of their encodings, those with no
operand field after the others (Lean's run time limits the place of a constructor that has fields);
the other 85 are steps of the device that no word encodes. What such a step needs from outside (what a
host, a peer, a sensor or a meter sends) and the unit it acts on stand in an `Input`, which the machine
holds in its state for the step. -/
namespace Sys2Proof

/-- One temperature reading of one sensor at a 1 ms sample (R462): 1/16 degree, two's complement. -/
structure SensorSample where
  temp : BitVec 16
  fault : Bool
  deriving DecidableEq, Repr

/-- How the owner of a sealed page answered a cast fetch (R436). -/
inductive CastAnswer where
  | sealed (gen : BitVec 16) (pointer : Nat) (data : List (BitVec 8))
  /-- no data: the page's generation, and whether it is OPEN -/
  | notSealed (gen : BitVec 16) (isOpen : Bool)
  | failed
  deriving DecidableEq, Repr

/-- What a message on the Aqueduct fabric asks or answers (R428, R429, R432 to R441).
`tok` is the token by which an answer finds the operation that asked. -/
inductive AqBody where
  /-- a peer asks for a line of this device's memory, as a leased copy when `lease` (R405); the owner sets the
  links of these names on the line (R411); a read of a vitrine page names its generation (R174, R175) -/
  | readLine (pa : BitVec 52) (lease : Bool) (links : List Nat) (gen : Option (BitVec 16)) (tok : Nat)
  /-- a load asks one owner for several lines without a lease, all at one point (R398, R414): each line's address, the links
  to set on it, and the generation of a vitrine page -/
  | readLines (lines : List (BitVec 52 × List Nat × Option (BitVec 16))) (tok : Nat)
  /-- the owner's answer: the lines in order, each with whether it is poisoned -/
  | linesData (tok : Nat) (lines : List (BitVec 512 × Bool))
  /-- the owner's answer: the line, the time in ns at which the lease that it granted expires (R405), and whether the
  line is poisoned (R459) -/
  | lineData (tok : Nat) (data : BitVec 512) (lease : Option Nat) (poisoned : Bool)
  /-- a peer writes the named bytes of a line at its owner (R406, R432) -/
  | writeLine (pa : BitVec 52) (data : BitVec 512) (bytes : BitVec 64) (tok : Nat)
  /-- a peer's store writes bytes of several lines of one owner, at one point (R399, R406): each line's address, data and
  named bytes -/
  | writeLines (lines : List (BitVec 52 × BitVec 512 × BitVec 64)) (tok : Nat)
  /-- a peer's conditional store to lines of one owner, at one point (R399, R415): each line's address, data, named bytes and
  link; `tok` and the numbers after it name the lines -/
  | storeLines (lines : List (BitVec 52 × BitVec 512 × BitVec 64 × Nat)) (tok : Nat)
  /-- the owner's answer: which lines it wrote -/
  | storeResults (tok : Nat) (done : List Bool)
  /-- the atomic add of `aq.sig` (R433) -/
  | addDword (pa : BitVec 52) (addend : BitVec 64) (tok : Nat)
  /-- the owner performed the write or the add that `tok` names -/
  | ack (tok : Nat)
  /-- the owner refused what `tok` names (AQSTAT.CAUSE 3 or 4, R434) -/
  | nack (tok : Nat) (cause : BitVec 3)
  /-- a command performed at the owner's home: 0 append, 1 seal, 2 sealq (R418 to R421), 3 the generation of a
  vitrine page (R175), 4 a conditional store under the link of that name (R411, R413), 5 a cast fetch (R436), 6 a decrement of a 32-bit counter unless it is 1, and 7 a write of 0
  to a counter that is 1 (R284); 6 and 7 answer the value before -/
  | homeCommand (pa : BitVec 52) (gen : BitVec 16) (op size : Nat) (data : List (BitVec 8)) (link tok : Nat)
  /-- the result of a `homeCommand`; `fault` is a cause of R446, or 0 -/
  | homeResult (tok : Nat) (value : BitVec 64) (fault : BitVec 8)
  /-- `aq.lease` releases the lines that it dropped of one owner (R435) -/
  | releaseLease (lines : List Nat)
  /-- the owner's answer to a cast fetch (R436) -/
  | castData (tok : Nat) (answer : CastAnswer)
  /-- a rank's write, for one step of a collective, to the named bytes of a line of the receiver's WORK (R438 to R440): rank N
  is the switch -/
  | collLine (seq : BitVec 64) (step rank : Nat) (pa : BitVec 52) (data : BitVec 512) (bytes : BitVec 64)
  /-- a rank's elements for the switch (R439) -/
  | collReduce (seq : BitVec 64) (rank : Nat) (data : List (BitVec 64))
  /-- a rank aborted the collective (R441) -/
  | collAbort (seq : BitVec 64)
  deriving DecidableEq, Repr

/-- A message with its sender and the sender's incarnation (R409, R427). -/
structure AqMsg where
  dev : BitVec 12
  inc : BitVec 16
  body : AqBody
  deriving DecidableEq, Repr

/-- The operands of a device step: which unit acts, and what arrives from outside. A step reads the
fields its meaning names, and no others. -/
structure Input where
  /-- the strand slot, core, quad, basin, launch or engine command the step acts on -/
  unit : Nat := 0
  /-- the bank, group or migration slot within it -/
  part : Nat := 0
  /-- the CXL port a host's access or message came through -/
  port : BitVec 1 := 0
  /-- a launch queue -/
  queue : BitVec 6 := 0
  /-- an offset in the annex register block -/
  off : BitVec 24 := 0
  /-- a value written, or the bytes of a line that are written -/
  value : BitVec 64 := 0
  /-- the incarnation a message carries (R409) -/
  inc : BitVec 16 := 0
  /-- an address -/
  addr : BitVec 64 := 0
  /-- a second address: the host physical address of an ATS answer -/
  target : BitVec 64 := 0
  pasid : BitVec 20 := 0
  ctx : BitVec 16 := 0
  /-- a fault tag (R456) -/
  tag : BitVec 32 := 0
  /-- a response, cause or kind code -/
  code : Nat := 0
  /-- a length or a log2 of a size -/
  len : Nat := 0
  /-- the bytes of an access to the annex register block (R114) -/
  size : Nat := 8
  dev : BitVec 12 := 0
  canRead : Bool := false
  canWrite : Bool := false
  /-- the 64 bytes of a line that is written -/
  line : Option (BitVec 512) := none
  samples : List SensorSample := []
  amounts : List Nat := []
  msg : Option AqMsg := none
  cast : Option CastAnswer := none
  deriving DecidableEq, Repr

/-- Every instruction and every step of the opcode table. -/
inductive Instr where
  /-- ADD (R219). -/
  | add (d : BitVec 5) (a : BitVec 5) (b : BitVec 5)
  /-- SUB (R219). -/
  | sub (d : BitVec 5) (a : BitVec 5) (b : BitVec 5)
  /-- AND (R219). -/
  | and (d : BitVec 5) (a : BitVec 5) (b : BitVec 5)
  /-- OR (R219). -/
  | or (d : BitVec 5) (a : BitVec 5) (b : BitVec 5)
  /-- XOR (R219). -/
  | xor (d : BitVec 5) (a : BitVec 5) (b : BitVec 5)
  /-- ANDN (R219). -/
  | andn (d : BitVec 5) (a : BitVec 5) (b : BitVec 5)
  /-- SLL (R219). -/
  | sll (d : BitVec 5) (a : BitVec 5) (b : BitVec 5)
  /-- SRL (R219). -/
  | srl (d : BitVec 5) (a : BitVec 5) (b : BitVec 5)
  /-- SRA (R219). -/
  | sra (d : BitVec 5) (a : BitVec 5) (b : BitVec 5)
  /-- SLT (R219). -/
  | slt (d : BitVec 5) (a : BitVec 5) (b : BitVec 5)
  /-- SLTN (R219). -/
  | sltn (d : BitVec 5) (a : BitVec 5) (b : BitVec 5)
  /-- MIN (R219). -/
  | min (d : BitVec 5) (a : BitVec 5) (b : BitVec 5)
  /-- MAX (R219). -/
  | max (d : BitVec 5) (a : BitVec 5) (b : BitVec 5)
  /-- MINN (R219). -/
  | minn (d : BitVec 5) (a : BitVec 5) (b : BitVec 5)
  /-- MAXN (R219). -/
  | maxn (d : BitVec 5) (a : BitVec 5) (b : BitVec 5)
  /-- MUL (R219). -/
  | mul (d : BitVec 5) (a : BitVec 5) (b : BitVec 5)
  /-- MULH (R219). -/
  | mulh (d : BitVec 5) (a : BitVec 5) (b : BitVec 5)
  /-- MULHN (R219). -/
  | mulhn (d : BitVec 5) (a : BitVec 5) (b : BitVec 5)
  /-- DIV (R220). -/
  | div (d : BitVec 5) (a : BitVec 5) (b : BitVec 5)
  /-- DIVN (R220). -/
  | divn (d : BitVec 5) (a : BitVec 5) (b : BitVec 5)
  /-- REM (R220). -/
  | rem (d : BitVec 5) (a : BitVec 5) (b : BitVec 5)
  /-- REMN (R220). -/
  | remn (d : BitVec 5) (a : BitVec 5) (b : BitVec 5)
  /-- CLZ (R219). -/
  | clz (d : BitVec 5) (a : BitVec 5)
  /-- CTZ (R219). -/
  | ctz (d : BitVec 5) (a : BitVec 5)
  /-- POPC (R219). -/
  | popc (d : BitVec 5) (a : BitVec 5)
  /-- SEXT (R219). -/
  | sext (d : BitVec 5) (a : BitVec 5) (n : BitVec 2)
  /-- ZEXT (R219). -/
  | zext (d : BitVec 5) (a : BitVec 5) (n : BitVec 2)
  /-- ADDI (R221). -/
  | addi (d : BitVec 5) (a : BitVec 5) (i : BitVec 16)
  /-- ANDI (R221). -/
  | andi (d : BitVec 5) (a : BitVec 5) (i : BitVec 16)
  /-- ORI (R221). -/
  | ori (d : BitVec 5) (a : BitVec 5) (i : BitVec 16)
  /-- XORI (R221). -/
  | xori (d : BitVec 5) (a : BitVec 5) (i : BitVec 16)
  /-- SLLI (R221). -/
  | slli (d : BitVec 5) (a : BitVec 5) (s : BitVec 6)
  /-- SRLI (R221). -/
  | srli (d : BitVec 5) (a : BitVec 5) (s : BitVec 6)
  /-- SRAI (R221). -/
  | srai (d : BitVec 5) (a : BitVec 5) (s : BitVec 6)
  /-- SLTI (R221). -/
  | slti (d : BitVec 5) (a : BitVec 5) (i : BitVec 16)
  /-- SLTNI (R221). -/
  | sltni (d : BitVec 5) (a : BitVec 5) (i : BitVec 16)
  /-- LDIH (R221). -/
  | ldih (d : BitVec 5) (a : BitVec 5) (i : BitVec 16)
  /-- ADPC (R221). -/
  | adpc (d : BitVec 5) (i : BitVec 16)
  /-- FADD (R225). -/
  | fadd (d : BitVec 5) (a : BitVec 5) (b : BitVec 5) (m : BitVec 3) (f : BitVec 2)
  /-- FSUB (R225). -/
  | fsub (d : BitVec 5) (a : BitVec 5) (b : BitVec 5) (m : BitVec 3) (f : BitVec 2)
  /-- FMUL (R225). -/
  | fmul (d : BitVec 5) (a : BitVec 5) (b : BitVec 5) (m : BitVec 3) (f : BitVec 2)
  /-- FDIV (R225). -/
  | fdiv (d : BitVec 5) (a : BitVec 5) (b : BitVec 5) (m : BitVec 3) (f : BitVec 2)
  /-- FSQRT (R225). -/
  | fsqrt (d : BitVec 5) (a : BitVec 5) (m : BitVec 3) (f : BitVec 2)
  /-- FMA (R225). -/
  | fma (d : BitVec 5) (a : BitVec 5) (b : BitVec 5) (m : BitVec 3) (f : BitVec 2)
  /-- FMIN (R226). -/
  | fmin (d : BitVec 5) (a : BitVec 5) (b : BitVec 5) (f : BitVec 2)
  /-- FMAX (R226). -/
  | fmax (d : BitVec 5) (a : BitVec 5) (b : BitVec 5) (f : BitVec 2)
  /-- FCMP (R227). -/
  | fcmp (d : BitVec 5) (a : BitVec 5) (b : BitVec 5) (f : BitVec 2) (p : BitVec 2)
  /-- FCVT (R229). -/
  | fcvt (d : BitVec 5) (a : BitVec 5) (s : BitVec 4) (m : BitVec 3) (t : BitVec 4)
  /-- FCLASS (R228). -/
  | fclass (d : BitVec 5) (a : BitVec 5) (f : BitVec 2)
  /-- BEQ (R230). -/
  | beq (a : BitVec 5) (b : BitVec 5) (o : BitVec 16)
  /-- BNE (R230). -/
  | bne (a : BitVec 5) (b : BitVec 5) (o : BitVec 16)
  /-- BLT (R230). -/
  | blt (a : BitVec 5) (b : BitVec 5) (o : BitVec 16)
  /-- BGE (R230). -/
  | bge (a : BitVec 5) (b : BitVec 5) (o : BitVec 16)
  /-- BLTN (R230). -/
  | bltn (a : BitVec 5) (b : BitVec 5) (o : BitVec 16)
  /-- BGEN (R230). -/
  | bgen (a : BitVec 5) (b : BitVec 5) (o : BitVec 16)
  /-- JAL (R231). -/
  | jal (o : BitVec 26)
  /-- JR (R232). -/
  | jr (a : BitVec 5)
  /-- LP_SET (R207). -/
  | lpSet (a : BitVec 5) (k : BitVec 16)
  /-- LP_BRK (R209). -/
  | lpBrk (a : BitVec 5)
  /-- LP_BRK_Z (R209). -/
  | lpBrkZ (a : BitVec 5)
  /-- RFRAME (R212). -/
  | rframe (g : BitVec 5) (n : BitVec 4) (d : BitVec 4) (a : BitVec 4) (b : BitVec 4)
  /-- LD_B (R318). -/
  | ldB (d : BitVec 5) (a : BitVec 5) (e : BitVec 12)
  /-- LD_BN (R318). -/
  | ldBn (d : BitVec 5) (a : BitVec 5) (e : BitVec 12)
  /-- LD_H (R318). -/
  | ldH (d : BitVec 5) (a : BitVec 5) (e : BitVec 12)
  /-- LD_HN (R318). -/
  | ldHn (d : BitVec 5) (a : BitVec 5) (e : BitVec 12)
  /-- LD_W (R318). -/
  | ldW (d : BitVec 5) (a : BitVec 5) (e : BitVec 12)
  /-- LD_WN (R318). -/
  | ldWn (d : BitVec 5) (a : BitVec 5) (e : BitVec 12)
  /-- LD_D (R318). -/
  | ldD (d : BitVec 5) (a : BitVec 5) (e : BitVec 12)
  /-- GL (R412). -/
  | gl (d : BitVec 5) (a : BitVec 5) (e : BitVec 12)
  /-- ST_B (R318). -/
  | stB (d : BitVec 5) (a : BitVec 5) (e : BitVec 12)
  /-- ST_H (R318). -/
  | stH (d : BitVec 5) (a : BitVec 5) (e : BitVec 12)
  /-- ST_W (R318). -/
  | stW (d : BitVec 5) (a : BitVec 5) (e : BitVec 12)
  /-- ST_D (R318). -/
  | stD (d : BitVec 5) (a : BitVec 5) (e : BitVec 12)
  /-- SC (R413). -/
  | sc (d : BitVec 5) (a : BitVec 5) (b : BitVec 5)
  /-- APND (R418). -/
  | apnd (d : BitVec 5) (a : BitVec 5) (b : BitVec 5) (z : BitVec 2)
  /-- SEAL (R420). -/
  | seal (a : BitVec 5)
  /-- SEALQ (R421). -/
  | sealq (d : BitVec 5) (a : BitVec 5)
  /-- SRD (R445). -/
  | srd (d : BitVec 5) (s : BitVec 16)
  /-- SWR (R445). -/
  | swr (a : BitVec 5) (s : BitVec 16)
  /-- SVC (R450). -/
  | svc (n : BitVec 10)
  /-- WAITC (R300). -/
  | waitc (l : BitVec 4) (s : BitVec 4) (c : BitVec 4) (t : BitVec 4)
  /-- CCLEAN (R328). -/
  | cclean (a : BitVec 5) (b : BitVec 5)
  /-- CINVAL (R328). -/
  | cinval (a : BitVec 5) (b : BitVec 5)
  /-- TLBINV (R330). -/
  | tlbinv (a : BitVec 5) (b : BitVec 5)
  /-- PCAL (R366). -/
  | pcal (a : BitVec 5)
  /-- VSAVE (R453). -/
  | vsave (a : BitVec 5)
  /-- VRESTORE (R453). -/
  | vrestore (a : BitVec 5)
  /-- VFREE (R458). -/
  | vfree (a : BitVec 5)
  /-- VSETN (R251). -/
  | vsetn (d : BitVec 5) (a : BitVec 5) (s : BitVec 2) (t : BitVec 3)
  /-- VSETN_FLOAT (R251). -/
  | vsetnFloat (d : BitVec 5) (a : BitVec 5) (s : BitVec 2) (t : BitVec 3)
  /-- VGETN (R252). -/
  | vgetn (d : BitVec 5)
  /-- VSLIP (R253). -/
  | vslip (s : BitVec 5)
  /-- KAND (R254). -/
  | kand (d : BitVec 3) (a : BitVec 3) (b : BitVec 3)
  /-- KOR (R254). -/
  | kor (d : BitVec 3) (a : BitVec 3) (b : BitVec 3)
  /-- KXOR (R254). -/
  | kxor (d : BitVec 3) (a : BitVec 3) (b : BitVec 3)
  /-- KANDN (R254). -/
  | kandn (d : BitVec 3) (a : BitVec 3) (b : BitVec 3)
  /-- KNOT (R254). -/
  | knot (d : BitVec 3) (a : BitVec 3)
  /-- KMOV (R254). -/
  | kmov (d : BitVec 3) (a : BitVec 3)
  /-- KPOP (R254). -/
  | kpop (d : BitVec 5) (a : BitVec 3)
  /-- KFIRST (R254). -/
  | kfirst (d : BitVec 5) (a : BitVec 3)
  /-- KSET (R254). -/
  | kset (d : BitVec 3) (a : BitVec 5)
  /-- KSHL (R254). -/
  | kshl (d : BitVec 3) (a : BitVec 3) (s : BitVec 5)
  /-- KSHR (R254). -/
  | kshr (d : BitVec 3) (a : BitVec 3) (s : BitVec 5)
  /-- VADD (R256). -/
  | vadd (d : BitVec 5) (a : BitVec 5) (b : BitVec 5) (k : BitVec 3) (t : BitVec 3)
  /-- VSUB (R256). -/
  | vsub (d : BitVec 5) (a : BitVec 5) (b : BitVec 5) (k : BitVec 3) (t : BitVec 3)
  /-- VRSUB (R256). -/
  | vrsub (d : BitVec 5) (a : BitVec 5) (b : BitVec 5) (k : BitVec 3) (t : BitVec 3)
  /-- VMUL (R256). -/
  | vmul (d : BitVec 5) (a : BitVec 5) (b : BitVec 5) (k : BitVec 3) (t : BitVec 3)
  /-- VMULH (R256). -/
  | vmulh (d : BitVec 5) (a : BitVec 5) (b : BitVec 5) (k : BitVec 3) (t : BitVec 3)
  /-- VMULHN (R256). -/
  | vmulhn (d : BitVec 5) (a : BitVec 5) (b : BitVec 5) (k : BitVec 3) (t : BitVec 3)
  /-- VMADD (R256). -/
  | vmadd (d : BitVec 5) (a : BitVec 5) (b : BitVec 5) (k : BitVec 3) (t : BitVec 3)
  /-- VMIN (R256). -/
  | vmin (d : BitVec 5) (a : BitVec 5) (b : BitVec 5) (k : BitVec 3) (t : BitVec 3)
  /-- VMAX (R256). -/
  | vmax (d : BitVec 5) (a : BitVec 5) (b : BitVec 5) (k : BitVec 3) (t : BitVec 3)
  /-- VMINN (R256). -/
  | vminn (d : BitVec 5) (a : BitVec 5) (b : BitVec 5) (k : BitVec 3) (t : BitVec 3)
  /-- VMAXN (R256). -/
  | vmaxn (d : BitVec 5) (a : BitVec 5) (b : BitVec 5) (k : BitVec 3) (t : BitVec 3)
  /-- VAND (R256). -/
  | vand (d : BitVec 5) (a : BitVec 5) (b : BitVec 5) (k : BitVec 3) (t : BitVec 3)
  /-- VOR (R256). -/
  | vor (d : BitVec 5) (a : BitVec 5) (b : BitVec 5) (k : BitVec 3) (t : BitVec 3)
  /-- VXOR (R256). -/
  | vxor (d : BitVec 5) (a : BitVec 5) (b : BitVec 5) (k : BitVec 3) (t : BitVec 3)
  /-- VSLL (R256). -/
  | vsll (d : BitVec 5) (a : BitVec 5) (b : BitVec 5) (k : BitVec 3) (t : BitVec 3)
  /-- VSRL (R256). -/
  | vsrl (d : BitVec 5) (a : BitVec 5) (b : BitVec 5) (k : BitVec 3) (t : BitVec 3)
  /-- VSRA (R256). -/
  | vsra (d : BitVec 5) (a : BitVec 5) (b : BitVec 5) (k : BitVec 3) (t : BitVec 3)
  /-- VSADD (R257). -/
  | vsadd (d : BitVec 5) (a : BitVec 5) (b : BitVec 5) (k : BitVec 3) (t : BitVec 3)
  /-- VSSUB (R257). -/
  | vssub (d : BitVec 5) (a : BitVec 5) (b : BitVec 5) (k : BitVec 3) (t : BitVec 3)
  /-- VADC (R258). -/
  | vadc (d : BitVec 5) (a : BitVec 5) (b : BitVec 5) (k : BitVec 3) (t : BitVec 3)
  /-- VSBC (R258). -/
  | vsbc (d : BitVec 5) (a : BitVec 5) (b : BitVec 5) (k : BitVec 3) (t : BitVec 3)
  /-- VMERGE (R261). -/
  | vmerge (d : BitVec 5) (a : BitVec 5) (b : BitVec 5) (k : BitVec 3) (t : BitVec 3)
  /-- VMOV (R256). -/
  | vmov (d : BitVec 5) (a : BitVec 5) (k : BitVec 3) (t : BitVec 3)
  /-- VSEXT (R261). -/
  | vsext (d : BitVec 5) (a : BitVec 5) (s : BitVec 3) (k : BitVec 3) (t : BitVec 3)
  /-- VZEXT (R261). -/
  | vzext (d : BitVec 5) (a : BitVec 5) (s : BitVec 3) (k : BitVec 3) (t : BitVec 3)
  /-- VCLZ (R256). -/
  | vclz (d : BitVec 5) (a : BitVec 5) (k : BitVec 3) (t : BitVec 3)
  /-- VPOPC (R256). -/
  | vpopc (d : BitVec 5) (a : BitVec 5) (k : BitVec 3) (t : BitVec 3)
  /-- VSLL_IMM (R256). -/
  | vsllImm (d : BitVec 5) (a : BitVec 5) (s : BitVec 5) (k : BitVec 3) (t : BitVec 3)
  /-- VSRL_IMM (R256). -/
  | vsrlImm (d : BitVec 5) (a : BitVec 5) (s : BitVec 5) (k : BitVec 3) (t : BitVec 3)
  /-- VSRA_IMM (R256). -/
  | vsraImm (d : BitVec 5) (a : BitVec 5) (s : BitVec 5) (k : BitVec 3) (t : BitVec 3)
  /-- VCMP_EQ (R259). -/
  | vcmpEq (d : BitVec 3) (a : BitVec 5) (b : BitVec 5) (k : BitVec 3) (t : BitVec 3)
  /-- VCMP_NE (R259). -/
  | vcmpNe (d : BitVec 3) (a : BitVec 5) (b : BitVec 5) (k : BitVec 3) (t : BitVec 3)
  /-- VCMP_LT (R259). -/
  | vcmpLt (d : BitVec 3) (a : BitVec 5) (b : BitVec 5) (k : BitVec 3) (t : BitVec 3)
  /-- VCMP_LE (R259). -/
  | vcmpLe (d : BitVec 3) (a : BitVec 5) (b : BitVec 5) (k : BitVec 3) (t : BitVec 3)
  /-- VCMP_LTN (R259). -/
  | vcmpLtn (d : BitVec 3) (a : BitVec 5) (b : BitVec 5) (k : BitVec 3) (t : BitVec 3)
  /-- VCMP_LEN (R259). -/
  | vcmpLen (d : BitVec 3) (a : BitVec 5) (b : BitVec 5) (k : BitVec 3) (t : BitVec 3)
  /-- VNARROW_WRAP (R260). -/
  | vnarrowWrap (d : BitVec 5) (a : BitVec 5) (s : BitVec 3) (k : BitVec 3) (t : BitVec 3)
  /-- VNARROW_SAT (R260). -/
  | vnarrowSat (d : BitVec 5) (a : BitVec 5) (s : BitVec 3) (k : BitVec 3) (t : BitVec 3)
  /-- VFADD (R262). -/
  | vfadd (d : BitVec 5) (a : BitVec 5) (b : BitVec 5) (k : BitVec 3) (t : BitVec 3)
  /-- VFSUB (R262). -/
  | vfsub (d : BitVec 5) (a : BitVec 5) (b : BitVec 5) (k : BitVec 3) (t : BitVec 3)
  /-- VFMUL (R262). -/
  | vfmul (d : BitVec 5) (a : BitVec 5) (b : BitVec 5) (k : BitVec 3) (t : BitVec 3)
  /-- VFDIV (R262). -/
  | vfdiv (d : BitVec 5) (a : BitVec 5) (b : BitVec 5) (k : BitVec 3) (t : BitVec 3)
  /-- VFSQRT (R262). -/
  | vfsqrt (d : BitVec 5) (a : BitVec 5) (k : BitVec 3) (t : BitVec 3)
  /-- VFMA (R262). -/
  | vfma (d : BitVec 5) (a : BitVec 5) (b : BitVec 5) (k : BitVec 3) (t : BitVec 3)
  /-- VFNMA (R262). -/
  | vfnma (d : BitVec 5) (a : BitVec 5) (b : BitVec 5) (k : BitVec 3) (t : BitVec 3)
  /-- VFMIN (R262). -/
  | vfmin (d : BitVec 5) (a : BitVec 5) (b : BitVec 5) (k : BitVec 3) (t : BitVec 3)
  /-- VFMAX (R262). -/
  | vfmax (d : BitVec 5) (a : BitVec 5) (b : BitVec 5) (k : BitVec 3) (t : BitVec 3)
  /-- VFEXP2 (R264). -/
  | vfexp2 (d : BitVec 5) (a : BitVec 5) (k : BitVec 3) (t : BitVec 3)
  /-- VFRSQRT (R264). -/
  | vfrsqrt (d : BitVec 5) (a : BitVec 5) (k : BitVec 3) (t : BitVec 3)
  /-- VFCVT (R265). -/
  | vfcvt (d : BitVec 5) (a : BitVec 5) (s : BitVec 2) (k : BitVec 3) (t : BitVec 3)
  /-- VFCVT_INT_TO_FLOAT (R265). -/
  | vfcvtIntToFloat (d : BitVec 5) (a : BitVec 5) (s : BitVec 3) (k : BitVec 3) (t : BitVec 3)
  /-- VFCVT_FLOAT_TO_INT (R265). -/
  | vfcvtFloatToInt (d : BitVec 5) (a : BitVec 5) (s : BitVec 2) (k : BitVec 3) (t : BitVec 3)
  /-- VFCMP_EQ (R263). -/
  | vfcmpEq (d : BitVec 3) (a : BitVec 5) (b : BitVec 5) (k : BitVec 3) (t : BitVec 3)
  /-- VFCMP_NE (R263). -/
  | vfcmpNe (d : BitVec 3) (a : BitVec 5) (b : BitVec 5) (k : BitVec 3) (t : BitVec 3)
  /-- VFCMP_LT (R263). -/
  | vfcmpLt (d : BitVec 3) (a : BitVec 5) (b : BitVec 5) (k : BitVec 3) (t : BitVec 3)
  /-- VFCMP_LE (R263). -/
  | vfcmpLe (d : BitVec 3) (a : BitVec 5) (b : BitVec 5) (k : BitVec 3) (t : BitVec 3)
  /-- VFCMP_UN (R263). -/
  | vfcmpUn (d : BitVec 3) (a : BitVec 5) (b : BitVec 5) (k : BitVec 3) (t : BitVec 3)
  /-- VREDSUM_WRAP (R266). -/
  | vredsumWrap (d : BitVec 5) (a : BitVec 5) (s : BitVec 5) (k : BitVec 3) (t : BitVec 3)
  /-- VREDSUM_SAT (R266). -/
  | vredsumSat (d : BitVec 5) (a : BitVec 5) (s : BitVec 5) (k : BitVec 3) (t : BitVec 3)
  /-- VREDMIN (R266). -/
  | vredmin (d : BitVec 5) (a : BitVec 5) (s : BitVec 5) (k : BitVec 3) (t : BitVec 3)
  /-- VREDMAX (R266). -/
  | vredmax (d : BitVec 5) (a : BitVec 5) (s : BitVec 5) (k : BitVec 3) (t : BitVec 3)
  /-- VFREDSUM (R266). -/
  | vfredsum (d : BitVec 5) (a : BitVec 5) (s : BitVec 5) (k : BitVec 3) (t : BitVec 3)
  /-- VFREDMAX (R266). -/
  | vfredmax (d : BitVec 5) (a : BitVec 5) (s : BitVec 5) (k : BitVec 3) (t : BitVec 3)
  /-- VSLIDEUP (R267). -/
  | vslideup (d : BitVec 5) (a : BitVec 5) (b : BitVec 5) (k : BitVec 3) (t : BitVec 3)
  /-- VSLIDEDN (R267). -/
  | vslidedn (d : BitVec 5) (a : BitVec 5) (b : BitVec 5) (k : BitVec 3) (t : BitVec 3)
  /-- VPERM (R267). -/
  | vperm (d : BitVec 5) (a : BitVec 5) (b : BitVec 5) (k : BitVec 3) (t : BitVec 3)
  /-- VCOMP (R267). -/
  | vcomp (d : BitVec 5) (a : BitVec 5) (k : BitVec 3) (t : BitVec 3)
  /-- VEXPAND (R267). -/
  | vexpand (d : BitVec 5) (a : BitVec 5) (k : BitVec 3) (t : BitVec 3)
  /-- VBCAST (R267). -/
  | vbcast (d : BitVec 5) (a : BitVec 5) (k : BitVec 3) (t : BitVec 3)
  /-- VEXT (R267). -/
  | vext (d : BitVec 5) (a : BitVec 5) (b : BitVec 5) (t : BitVec 3)
  /-- VINS (R267). -/
  | vins (d : BitVec 5) (a : BitVec 5) (b : BitVec 5) (t : BitVec 3)
  /-- VQUANT_I8 (R269). -/
  | vquantI8 (d : BitVec 5) (a : BitVec 5) (b : BitVec 5) (k : BitVec 3) (t : BitVec 3)
  /-- VQUANT_I4 (R269). -/
  | vquantI4 (d : BitVec 5) (a : BitVec 5) (b : BitVec 5) (k : BitVec 3) (t : BitVec 3)
  /-- VQUANT_TERN (R269). -/
  | vquantTern (d : BitVec 5) (a : BitVec 5) (b : BitVec 5) (k : BitVec 3) (t : BitVec 3)
  /-- VDEQ_NQ4 (R270). -/
  | vdeqNq4 (d : BitVec 5) (a : BitVec 5) (b : BitVec 5) (k : BitVec 3) (t : BitVec 3)
  /-- VDEQ_E2M1 (R270). -/
  | vdeqE2m1 (d : BitVec 5) (a : BitVec 5) (b : BitVec 5) (k : BitVec 3) (t : BitVec 3)
  /-- VDEQ_TERN (R270). -/
  | vdeqTern (d : BitVec 5) (a : BitVec 5) (b : BitVec 5) (k : BitVec 3) (t : BitVec 3)
  /-- VQUANT_PI (R269). -/
  | vquantPi (d : BitVec 5) (a : BitVec 5) (b : BitVec 5) (k : BitVec 3) (t : BitVec 3) (w : BitVec 3)
  /-- VLD (R321). -/
  | vld (d : BitVec 5) (a : BitVec 5) (k : BitVec 3) (t : BitVec 3)
  /-- VST (R321). -/
  | vst (d : BitVec 5) (a : BitVec 5) (k : BitVec 3) (t : BitVec 3)
  /-- VLDS (R321). -/
  | vlds (d : BitVec 5) (a : BitVec 5) (b : BitVec 5) (k : BitVec 3) (t : BitVec 3)
  /-- VSTS (R321). -/
  | vsts (d : BitVec 5) (a : BitVec 5) (b : BitVec 5) (k : BitVec 3) (t : BitVec 3)
  /-- VLDX (R321). -/
  | vldx (d : BitVec 5) (a : BitVec 5) (i : BitVec 5) (k : BitVec 3) (t : BitVec 3)
  /-- VSTX (R321). -/
  | vstx (d : BitVec 5) (a : BitVec 5) (i : BitVec 5) (k : BitVec 3) (t : BitVec 3)
  /-- VGL (R414). -/
  | vgl (d : BitVec 5) (a : BitVec 5) (i : BitVec 5) (k : BitVec 3) (t : BitVec 3)
  /-- VSC (R415). -/
  | vsc (d : BitVec 5) (a : BitVec 5) (i : BitVec 5) (k : BitVec 3) (t : BitVec 3)
  /-- VAPND (R419). -/
  | vapnd (s : BitVec 5) (a : BitVec 5) (d : BitVec 5) (k : BitVec 3) (t : BitVec 3)
  /-- VLDP (R327). -/
  | vldp (d : BitVec 5) (a : BitVec 5) (b : BitVec 5) (k : BitVec 3) (t : BitVec 3)
  /-- VSTP (R327). -/
  | vstp (d : BitVec 5) (a : BitVec 5) (b : BitVec 5) (k : BitVec 3) (t : BitVec 3)
  /-- VLDSP (R326). -/
  | vldsp (d : BitVec 5) (a : BitVec 5) (k : BitVec 3) (t : BitVec 3)
  /-- VSTSP (R326). -/
  | vstsp (d : BitVec 5) (a : BitVec 5) (k : BitVec 3) (t : BitVec 3)
  /-- PADD (R345). -/
  | padd (d : BitVec 5) (a : BitVec 5) (b : BitVec 5) (w : BitVec 5)
  /-- PSUB (R346). -/
  | psub (d : BitVec 5) (a : BitVec 5) (b : BitVec 5) (w : BitVec 5)
  /-- PMUL (R348). -/
  | pmul (d : BitVec 5) (a : BitVec 5) (b : BitVec 5) (w : BitVec 5)
  /-- PCMP (R347). -/
  | pcmp (d : BitVec 5) (a : BitVec 5) (b : BitVec 5) (w : BitVec 5)
  /-- PAND (R349). -/
  | pand (d : BitVec 5) (a : BitVec 5) (b : BitVec 5) (w : BitVec 5)
  /-- POR (R349). -/
  | por (d : BitVec 5) (a : BitVec 5) (b : BitVec 5) (w : BitVec 5)
  /-- PXOR (R349). -/
  | pxor (d : BitVec 5) (a : BitVec 5) (b : BitVec 5) (w : BitVec 5)
  /-- PNOT (R349). -/
  | pnot (d : BitVec 5) (a : BitVec 5) (w : BitVec 5)
  /-- PSEL (R351). -/
  | psel (d : BitVec 5) (a : BitVec 5) (b : BitVec 5) (w : BitVec 5)
  /-- PSHL (R350). -/
  | pshl (d : BitVec 5) (a : BitVec 5) (b : BitVec 5) (w : BitVec 5)
  /-- PSHR (R350). -/
  | pshr (d : BitVec 5) (a : BitVec 5) (b : BitVec 5) (w : BitVec 5)
  /-- PCOPY (R350). -/
  | pcopy (d : BitVec 5) (a : BitVec 5) (w : BitVec 5)
  /-- PFILL (R350). -/
  | pfill (d : BitVec 5) (b : BitVec 5) (w : BitVec 5)
  /-- PLOCK (R360). -/
  | plock (d : BitVec 5)
  /-- PUNLOCK (R361). -/
  | punlock (d : BitVec 5)
  /-- PPROG (R354). -/
  | pprog (d : BitVec 5) (a : BitVec 5) (n : BitVec 10)
  /-- ROWCP (R336). -/
  | rowcp (d : BitVec 5) (s : BitVec 5)
  /-- ROWMAJ (R336). -/
  | rowmaj (x : BitVec 5) (y : BitVec 5) (z : BitVec 5)
  /-- ROWNOT (R336). -/
  | rownot (d : BitVec 5) (s : BitVec 5)
  /-- ROWSHL (R336). -/
  | rowshl (d : BitVec 5) (s : BitVec 5) (c : BitVec 5)
  /-- ROWSHR (R336). -/
  | rowshr (d : BitVec 5) (s : BitVec 5) (c : BitVec 5)
  /-- PLANT (R372). -/
  | plant (a : BitVec 5) (b : BitVec 5) (n : BitVec 3)
  /-- PLANT_CHAINED (R373). -/
  | plantChained (d : BitVec 3) (a : BitVec 5) (b : BitVec 5) (n : BitVec 3) (m : BitVec 2)
  /-- FOLD (R377). -/
  | fold (d : BitVec 3) (a : BitVec 5) (b : BitVec 5) (m : BitVec 2)
  /-- FREAD (R388). -/
  | fread (d : BitVec 5) (a : BitVec 5) (b : BitVec 5) (y : BitVec 2) (s : BitVec 1) (n : BitVec 3)
  /-- FCLR (R389). -/
  | fclr (d : BitVec 3)
  /-- BKADD (R392). -/
  | bkadd (d : BitVec 5) (a : BitVec 5) (b : BitVec 5) (t : BitVec 3) (f : BitVec 1)
  /-- BKRED (R392). -/
  | bkred (d : BitVec 5) (a : BitVec 5) (b : BitVec 5) (t : BitVec 3) (f : BitVec 1)
  /-- BKCX (R392). -/
  | bkcx (d : BitVec 5) (a : BitVec 5) (b : BitVec 5) (t : BitVec 3) (f : BitVec 1)
  /-- BKSAX (R392). -/
  | bksax (d : BitVec 5) (a : BitVec 5) (b : BitVec 5) (t : BitVec 3)
  /-- LFORK (R275). -/
  | lfork (d : BitVec 5)
  /-- LJOIN (R277). -/
  | ljoin (a : BitVec 5)
  /-- VISSUE (R295). -/
  | vissue (a : BitVec 5) (k : BitVec 3)
  /-- CSPAWN (R283). -/
  | cspawn (a : BitVec 5)
  /-- CJOIN (R284). -/
  | cjoin (a : BitVec 5)
  /-- BAR_ARRIVE (R423). -/
  | barArrive (g : BitVec 16)
  /-- BAR_WAIT (R425). -/
  | barWait (g : BitVec 16)
  /-- BAR_SET (R423). -/
  | barSet (a : BitVec 5) (g : BitVec 16)
  /-- AQ_PUT (R432). -/
  | aqPut (d : BitVec 5) (a : BitVec 5) (b : BitVec 5)
  /-- AQ_GET (R432). -/
  | aqGet (d : BitVec 5) (a : BitVec 5) (b : BitVec 5)
  /-- AQ_SIG (R433). -/
  | aqSig (a : BitVec 5) (b : BitVec 5)
  /-- AQ_COLL (R437). -/
  | aqColl (a : BitVec 5) (b : BitVec 5)
  /-- AQ_LEASE (R435). -/
  | aqLease (d : BitVec 5) (a : BitVec 5) (b : BitVec 5)
  /-- HALT (R234). -/
  | halt
  /-- TRET (R450). -/
  | tret
  /-- FENCE_SV (R401). -/
  | fenceSv
  /-- FENCE_VS (R401). -/
  | fenceVs
  /-- FENCE_VV (R401). -/
  | fenceVv
  /-- FENCE_SYS (R401). -/
  | fenceSys
  /-- DRAIN_PLN (R331). -/
  | drainPln
  /-- DRAIN_SPM (R331). -/
  | drainSpm
  /-- DRAIN_FOLD (R331). -/
  | drainFold
  /-- DRAIN_BK (R331). -/
  | drainBk
  /-- DRAIN_AQ (R331). -/
  | drainAq
  /-- IDLE (R450). -/
  | idle
  /-- CEND (R285). -/
  | cend
  /-- DEVICE_RESET (R115). -/
  | deviceReset
  /-- RESET_RELEASED (R115). -/
  | resetReleased
  /-- VERIFY (R116). -/
  | verify
  /-- INIT (R117). -/
  | init
  /-- BOOTCMD (R119). -/
  | bootcmd
  /-- ATTESTATION_QUOTE (R120). -/
  | attestationQuote
  /-- CERTIFICATE_PIECE_FIRST (R120). -/
  | certificatePieceFirst
  /-- CERTIFICATE_PIECE_NEXT (R120). -/
  | certificatePieceNext
  /-- ATTESTATION_COMMAND_DONE (R120). -/
  | attestationCommandDone
  /-- LINK_TRAINING (R111). -/
  | linkTraining
  /-- PORT_LINK_DOWN (R457). -/
  | portLinkDown
  /-- RENEWAL (R122). -/
  | renewal
  /-- CLAIM (R122). -/
  | claim
  /-- RELEASE (R122). -/
  | release
  /-- LEASE_LAPSE (R124). -/
  | leaseLapse
  /-- DOORBELL (R129). -/
  | doorbell
  /-- QUEUE_ENABLE (R128). -/
  | queueEnable
  /-- QUEUE_DISABLE (R130). -/
  | queueDisable
  /-- QUEUE_RESET (R127). -/
  | queueReset
  /-- REGISTER_WRITE (R13). -/
  | registerWrite
  /-- LAUNCH_RECORD_HEAD (R139). -/
  | launchRecordHead
  /-- SIGNAL_REREAD (R138). -/
  | signalReread
  /-- SIGNAL_POLL (R138). -/
  | signalPoll
  /-- ADMISSION (R143). -/
  | admission
  /-- COPY_DESCRIPTOR_COMPLETE (R148). -/
  | copyDescriptorComplete
  /-- CONTINUATION_POP (R281). -/
  | continuationPop
  /-- AWAITED_CONDITION (R271). -/
  | awaitedCondition
  /-- STRAND_END (R285). -/
  | strandEnd
  /-- LAUNCH_RETIREMENT (R470). -/
  | launchRetirement
  /-- COMPLETION_RECORD (R473). -/
  | completionRecord
  /-- WEIR_CLK (R292). -/
  | weirClk
  /-- PULSE_FRAME (R293). -/
  | pulseFrame
  /-- PREEMPTION_REQUEST (R454). -/
  | preemptionRequest
  /-- PREEMPTION (R454). -/
  | preemption
  /-- LOOPLATE_COUNT (R455). -/
  | looplateCount
  /-- VECTOR_FAULT_DUMP (R451). -/
  | vectorFaultDump
  /-- CTXTAB_WRITE (R444). -/
  | ctxtabWrite
  /-- CTXID_WRITE (R443). -/
  | ctxidWrite
  /-- FCTL_WRITE (R53). -/
  | fctlWrite
  /-- HDMT_WRITE (R170). -/
  | hdmtWrite
  /-- ARF_WRITE (R169). -/
  | arfWrite
  /-- CASTPOOL_WRITE (R173). -/
  | castpoolWrite
  /-- MIGRATION_COPY (R178). -/
  | migrationCopy
  /-- MIGRATION_IDLE (R178). -/
  | migrationIdle
  /-- MIGRATION_LINE_COPY (R178). -/
  | migrationLineCopy
  /-- PAGE_WALK (R157). -/
  | pageWalk
  /-- ATS_TRANSLATION_COMPLETION (R308). -/
  | atsTranslationCompletion
  /-- PAGE_REQUEST_GROUP_RESPONSE (R457). -/
  | pageRequestGroupResponse
  /-- ATS_INVALIDATION_REQUEST (R310). -/
  | atsInvalidationRequest
  /-- INVALIDATION_COMPLETION (R310). -/
  | invalidationCompletion
  /-- HOST_SNOOP (R408). -/
  | hostSnoop
  /-- HDM_ACCESS (R170). -/
  | hdmAccess
  /-- BANK_SLOT (R355). -/
  | bankSlot
  /-- REFRESH_DEADLINE (R356). -/
  | refreshDeadline
  /-- SCRATCHPAD_REFRESH (R312). -/
  | scratchpadRefresh
  /-- THERMAL_SAMPLE (R463). -/
  | thermalSample
  /-- LOCK_GRANT (R360). -/
  | lockGrant
  /-- LOCK_RELEASE (R361). -/
  | lockRelease
  /-- PLANE_INSTRUCTION_COMPLETE (R365). -/
  | planeInstructionComplete
  /-- PLANT_LATCH_LOAD_COMPLETE (R374). -/
  | plantLatchLoadComplete
  /-- FOLD_COMPLETE (R382). -/
  | foldComplete
  /-- BANK_OPERATION_COMPLETE (R394). -/
  | bankOperationComplete
  /-- OPERATION_COMPLETION (R300). -/
  | operationCompletion
  /-- AQUEDUCT_MESSAGE (R429). -/
  | aqueductMessage
  /-- TRANSFER_FAILURE (R434). -/
  | transferFailure
  /-- PEER_LEASE_EXPIRY (R405). -/
  | peerLeaseExpiry
  /-- CAST_FETCH (R436). -/
  | castFetch
  /-- COLLECTIVE_STEP_TIMEOUT (R441). -/
  | collectiveStepTimeout
  /-- TIME_SYNC_EXCHANGE (R430). -/
  | timeSyncExchange
  /-- SYNC_LOSS (R430). -/
  | syncLoss
  /-- SUSPEND_ARM (R465). -/
  | suspendArm
  /-- RESUME_ARM (R465). -/
  | resumeArm
  /-- SUSPEND_CANCEL (R465). -/
  | suspendCancel
  /-- STOPPING (R466). -/
  | stopping
  /-- SUSPEND_ABANDONED (R466). -/
  | suspendAbandoned
  /-- SAVING (R466). -/
  | saving
  /-- RESTORING (R467). -/
  | restoring
  /-- CURRENT_HOLD (R476). -/
  | currentHold
  /-- CAP_HOLD (R476). -/
  | capHold
  /-- ENERGY_APPORTION (R475). -/
  | energyApportion
  /-- MONITOR_UPDATE (R478). -/
  | monitorUpdate
  /-- ILLEGAL_INSTRUCTION (R202). -/
  | illegalInstruction
  /-- CODE_END_FAULT (R204). -/
  | codeEndFault
  /-- CACHE_EVICTION (R174). -/
  | cacheEviction
  /-- LOGICAL_LEASE_EXPIRY (R400). -/
  | logicalLeaseExpiry
  deriving DecidableEq, Repr

end Sys2Proof
end

