-- ==== Sys2Proof/WellFormed.lean ====
section
/-! DEFINITION. Well-formed instructions: the operand values that the encoding tables allow
(R184, R186 to R202). A word whose fields break these is no instruction. -/
namespace Sys2Proof

/-- Log2 of the byte width of an integer or float type code: the low two bits (R42, R47 with `fwidth`). -/
def tyLog (t : BitVec 3) : Nat := (t.extractLsb' 0 2).toNat

/-- The element width in bits of an integer type code (R42). -/
def iwidth (t : BitVec 3) : Nat := 8 * 2 ^ tyLog t

/-- A float type code of R47 (b16, h16, f32, f64); 0b100 to 0b111 are reserved. -/
def floatTy (t : BitVec 3) : Bool := t.toNat < 4

/-- A rounding field that an instruction may hold (R48): 0b101 and 0b110 are reserved. -/
def roundOk (m : BitVec 3) : Bool := m ≠ 5 ∧ m ≠ 6

/-- The numbers that name a system register (R443 and the register maps of every chapter). -/
def sysRegister (s : BitVec 16) : Bool :=
  let n := s.toNat
  n = 0x4 || n = 0x5 || n = 0x6 || n = 0x8 || n = 0x10 || n = 0x12 || n = 0x18 || n = 0x19 ||
  (0x20 ≤ n && n ≤ 0x3F) || (0x40 ≤ n && n ≤ 0x43) || (0x58 ≤ n && n ≤ 0x5D) || (0x60 ≤ n && n ≤ 0x66) ||
  n = 0x68 || n = 0x69 || (0x70 ≤ n && n ≤ 0x77) || n = 0x80 || n = 0x81 || n = 0x90 || n = 0x91 ||
  (0xA0 ≤ n && n ≤ 0xA4) || (0xC0 ≤ n && n ≤ 0xCC) || (0xD0 ≤ n && n ≤ 0xD2) || n = 0xD4 ||
  n = 0xDA || n = 0xDB || n = 0xE0 || n = 0xE1 || (0xE7 ≤ n && n ≤ 0xFF) ||
  (0x100 ≤ n && n ≤ 0x17F)

/-- A type code of `fcvt` (R188): an integer code with bit 3 set, or a float code with bit 2 clear. -/
def fcvtType (c : BitVec 4) : Bool := c.getLsbD 3 || !c.getLsbD 2

/-- The operand values that the encodings allow, beside the must-be-zero fields (R184, R186 to R202). -/
def Instr.wellFormed : Instr → Bool
  | .sext _ _ n => n ≠ 3
  | .zext _ _ n => n ≠ 3
  | .fadd _ _ _ m _ => roundOk m
  | .fsub _ _ _ m _ => roundOk m
  | .fmul _ _ _ m _ => roundOk m
  | .fdiv _ _ _ m _ => roundOk m
  | .fsqrt _ _ m _ => roundOk m
  | .fma _ _ _ m _ => roundOk m
  | .fcvt _ _ s m t => fcvtType s && fcvtType t && !(s.getLsbD 3 && t.getLsbD 3) && roundOk m
  | .lpSet _ k => 2 ≤ k.toNat
  | .srd _ s => sysRegister s
  | .swr _ s => sysRegister s && s ≠ 0x4 && !(0x58 ≤ s.toNat && s.toNat ≤ 0x5D)
  | .vsetnFloat _ _ _ t => floatTy t
  | .vslip s => s.toNat < 8
  | .vadc _ _ _ k _ => k ≠ 0
  | .vsbc _ _ _ k _ => k ≠ 0
  | .vfadd _ _ _ _ t => floatTy t
  | .vfsub _ _ _ _ t => floatTy t
  | .vfmul _ _ _ _ t => floatTy t
  | .vfdiv _ _ _ _ t => floatTy t
  | .vfsqrt _ _ _ t => floatTy t
  | .vfma _ _ _ _ t => floatTy t
  | .vfnma _ _ _ _ t => floatTy t
  | .vfmin _ _ _ _ t => floatTy t
  | .vfmax _ _ _ _ t => floatTy t
  | .vfexp2 _ _ _ t => floatTy t
  | .vfrsqrt _ _ _ t => floatTy t
  | .vfcvt _ _ _ _ t => floatTy t
  | .vfcvtIntToFloat _ _ _ _ t => floatTy t
  | .vfcmpEq _ _ _ _ t => floatTy t
  | .vfcmpNe _ _ _ _ t => floatTy t
  | .vfcmpLt _ _ _ _ t => floatTy t
  | .vfcmpLe _ _ _ _ t => floatTy t
  | .vfcmpUn _ _ _ _ t => floatTy t
  | .vfredsum _ _ _ _ t => floatTy t
  | .vfredmax _ _ _ _ t => floatTy t
  | .vquantI8 _ _ _ _ t => floatTy t
  | .vquantI4 _ _ _ _ t => floatTy t
  | .vquantTern _ _ _ _ t => floatTy t
  | .vdeqNq4 _ _ _ _ t => floatTy t
  | .vdeqE2m1 _ _ _ _ t => floatTy t
  | .vdeqTern _ _ _ _ t => floatTy t
  | .vquantPi _ _ _ _ t _ => floatTy t
  | .vsc _ _ _ k _ => k ≠ 0
  | .padd _ _ _ w => w.toNat < 16
  | .psub _ _ _ w => w.toNat < 16
  | .pmul _ _ _ w => w.toNat < 16
  | .pcmp _ _ _ w => w.toNat < 16
  | .pand _ _ _ w => w.toNat < 16
  | .por _ _ _ w => w.toNat < 16
  | .pxor _ _ _ w => w.toNat < 16
  | .pnot _ _ w => w.toNat < 16
  | .psel _ _ _ w => w.toNat < 16
  | .pshl _ _ _ w => w.toNat < 16
  | .pshr _ _ _ w => w.toNat < 16
  | .pcopy _ _ w => w.toNat < 16
  | .pfill _ _ w => w.toNat < 16
  | .rowshl _ _ c => c ≠ 0
  | .rowshr _ _ c => c ≠ 0
  | .plantChained _ _ _ _ m => m ≠ 3
  | .fold _ _ _ m => m ≠ 3
  | .fread _ _ b y s _ => if y = 2 then s = 0 else (y ≠ 3 && b = 0)
  | .bkadd _ _ _ t f => f = 0 || floatTy t
  | .bkred _ _ _ t f => f = 0 || floatTy t
  | .bkcx _ _ _ t f => f = 0 || floatTy t
  | .bksax _ _ _ t => floatTy t
  | .barArrive g => g.toNat < 80
  | .barWait g => g.toNat < 80
  | .barSet _ g => g.toNat < 80
  | .add _ _ _ => true
  | .sub _ _ _ => true
  | .and _ _ _ => true
  | .or _ _ _ => true
  | .xor _ _ _ => true
  | .andn _ _ _ => true
  | .sll _ _ _ => true
  | .srl _ _ _ => true
  | .sra _ _ _ => true
  | .slt _ _ _ => true
  | .sltn _ _ _ => true
  | .min _ _ _ => true
  | .max _ _ _ => true
  | .minn _ _ _ => true
  | .maxn _ _ _ => true
  | .mul _ _ _ => true
  | .mulh _ _ _ => true
  | .mulhn _ _ _ => true
  | .div _ _ _ => true
  | .divn _ _ _ => true
  | .rem _ _ _ => true
  | .remn _ _ _ => true
  | .clz _ _ => true
  | .ctz _ _ => true
  | .popc _ _ => true
  | .addi _ _ _ => true
  | .andi _ _ _ => true
  | .ori _ _ _ => true
  | .xori _ _ _ => true
  | .slli _ _ _ => true
  | .srli _ _ _ => true
  | .srai _ _ _ => true
  | .slti _ _ _ => true
  | .sltni _ _ _ => true
  | .ldih _ _ _ => true
  | .adpc _ _ => true
  | .fmin _ _ _ _ => true
  | .fmax _ _ _ _ => true
  | .fcmp _ _ _ _ _ => true
  | .fclass _ _ _ => true
  | .beq _ _ _ => true
  | .bne _ _ _ => true
  | .blt _ _ _ => true
  | .bge _ _ _ => true
  | .bltn _ _ _ => true
  | .bgen _ _ _ => true
  | .jal _ => true
  | .jr _ => true
  | .lpBrk _ => true
  | .lpBrkZ _ => true
  | .rframe _ _ _ _ _ => true
  | .halt => true
  | .ldB _ _ _ => true
  | .ldBn _ _ _ => true
  | .ldH _ _ _ => true
  | .ldHn _ _ _ => true
  | .ldW _ _ _ => true
  | .ldWn _ _ _ => true
  | .ldD _ _ _ => true
  | .gl _ _ _ => true
  | .stB _ _ _ => true
  | .stH _ _ _ => true
  | .stW _ _ _ => true
  | .stD _ _ _ => true
  | .sc _ _ _ => true
  | .apnd _ _ _ _ => true
  | .seal _ => true
  | .sealq _ _ => true
  | .svc _ => true
  | .tret => true
  | .fenceSv => true
  | .fenceVs => true
  | .fenceVv => true
  | .fenceSys => true
  | .drainPln => true
  | .drainSpm => true
  | .drainFold => true
  | .drainBk => true
  | .drainAq => true
  | .idle => true
  | .waitc _ _ _ _ => true
  | .cclean _ _ => true
  | .cinval _ _ => true
  | .tlbinv _ _ => true
  | .pcal _ => true
  | .vsave _ => true
  | .vrestore _ => true
  | .vfree _ => true
  | .vsetn _ _ _ _ => true
  | .vgetn _ => true
  | .kand _ _ _ => true
  | .kor _ _ _ => true
  | .kxor _ _ _ => true
  | .kandn _ _ _ => true
  | .knot _ _ => true
  | .kmov _ _ => true
  | .kpop _ _ => true
  | .kfirst _ _ => true
  | .kset _ _ => true
  | .kshl _ _ _ => true
  | .kshr _ _ _ => true
  | .vadd _ _ _ _ _ => true
  | .vsub _ _ _ _ _ => true
  | .vrsub _ _ _ _ _ => true
  | .vmul _ _ _ _ _ => true
  | .vmulh _ _ _ _ _ => true
  | .vmulhn _ _ _ _ _ => true
  | .vmadd _ _ _ _ _ => true
  | .vmin _ _ _ _ _ => true
  | .vmax _ _ _ _ _ => true
  | .vminn _ _ _ _ _ => true
  | .vmaxn _ _ _ _ _ => true
  | .vand _ _ _ _ _ => true
  | .vor _ _ _ _ _ => true
  | .vxor _ _ _ _ _ => true
  | .vsll _ _ _ _ _ => true
  | .vsrl _ _ _ _ _ => true
  | .vsra _ _ _ _ _ => true
  | .vsadd _ _ _ _ _ => true
  | .vssub _ _ _ _ _ => true
  | .vmerge _ _ _ _ _ => true
  | .vmov _ _ _ _ => true
  | .vsext _ _ _ _ _ => true
  | .vzext _ _ _ _ _ => true
  | .vclz _ _ _ _ => true
  | .vpopc _ _ _ _ => true
  | .vsllImm _ _ _ _ _ => true
  | .vsrlImm _ _ _ _ _ => true
  | .vsraImm _ _ _ _ _ => true
  | .vcmpEq _ _ _ _ _ => true
  | .vcmpNe _ _ _ _ _ => true
  | .vcmpLt _ _ _ _ _ => true
  | .vcmpLe _ _ _ _ _ => true
  | .vcmpLtn _ _ _ _ _ => true
  | .vcmpLen _ _ _ _ _ => true
  | .vnarrowWrap _ _ _ _ _ => true
  | .vnarrowSat _ _ _ _ _ => true
  | .vfcvtFloatToInt _ _ _ _ _ => true
  | .vredsumWrap _ _ _ _ _ => true
  | .vredsumSat _ _ _ _ _ => true
  | .vredmin _ _ _ _ _ => true
  | .vredmax _ _ _ _ _ => true
  | .vslideup _ _ _ _ _ => true
  | .vslidedn _ _ _ _ _ => true
  | .vperm _ _ _ _ _ => true
  | .vcomp _ _ _ _ => true
  | .vexpand _ _ _ _ => true
  | .vbcast _ _ _ _ => true
  | .vext _ _ _ _ => true
  | .vins _ _ _ _ => true
  | .vld _ _ _ _ => true
  | .vst _ _ _ _ => true
  | .vlds _ _ _ _ _ => true
  | .vsts _ _ _ _ _ => true
  | .vldx _ _ _ _ _ => true
  | .vstx _ _ _ _ _ => true
  | .vgl _ _ _ _ _ => true
  | .vapnd _ _ _ _ _ => true
  | .vldp _ _ _ _ _ => true
  | .vstp _ _ _ _ _ => true
  | .vldsp _ _ _ _ => true
  | .vstsp _ _ _ _ => true
  | .plock _ => true
  | .punlock _ => true
  | .pprog _ _ _ => true
  | .rowcp _ _ => true
  | .rowmaj _ _ _ => true
  | .rownot _ _ => true
  | .plant _ _ _ => true
  | .fclr _ => true
  | .lfork _ => true
  | .ljoin _ => true
  | .vissue _ _ => true
  | .cspawn _ => true
  | .cjoin _ => true
  | .cend => true
  | .aqPut _ _ _ => true
  | .aqGet _ _ _ => true
  | .aqSig _ _ => true
  | .aqColl _ _ => true
  | .aqLease _ _ _ => true
  | .deviceReset => true
  | .resetReleased => true
  | .verify => true
  | .init => true
  | .bootcmd => true
  | .attestationQuote => true
  | .certificatePieceFirst => true
  | .certificatePieceNext => true
  | .attestationCommandDone => true
  | .linkTraining => true
  | .portLinkDown => true
  | .renewal => true
  | .claim => true
  | .release => true
  | .leaseLapse => true
  | .doorbell => true
  | .queueEnable => true
  | .queueDisable => true
  | .queueReset => true
  | .registerWrite => true
  | .launchRecordHead => true
  | .signalReread => true
  | .signalPoll => true
  | .admission => true
  | .copyDescriptorComplete => true
  | .continuationPop => true
  | .awaitedCondition => true
  | .strandEnd => true
  | .launchRetirement => true
  | .completionRecord => true
  | .weirClk => true
  | .pulseFrame => true
  | .preemptionRequest => true
  | .preemption => true
  | .looplateCount => true
  | .vectorFaultDump => true
  | .ctxtabWrite => true
  | .ctxidWrite => true
  | .fctlWrite => true
  | .hdmtWrite => true
  | .arfWrite => true
  | .castpoolWrite => true
  | .migrationCopy => true
  | .migrationIdle => true
  | .migrationLineCopy => true
  | .pageWalk => true
  | .atsTranslationCompletion => true
  | .pageRequestGroupResponse => true
  | .atsInvalidationRequest => true
  | .invalidationCompletion => true
  | .hostSnoop => true
  | .hdmAccess => true
  | .bankSlot => true
  | .refreshDeadline => true
  | .scratchpadRefresh => true
  | .thermalSample => true
  | .lockGrant => true
  | .lockRelease => true
  | .planeInstructionComplete => true
  | .plantLatchLoadComplete => true
  | .foldComplete => true
  | .bankOperationComplete => true
  | .operationCompletion => true
  | .aqueductMessage => true
  | .transferFailure => true
  | .peerLeaseExpiry => true
  | .castFetch => true
  | .collectiveStepTimeout => true
  | .timeSyncExchange => true
  | .syncLoss => true
  | .suspendArm => true
  | .resumeArm => true
  | .suspendCancel => true
  | .stopping => true
  | .suspendAbandoned => true
  | .saving => true
  | .restoring => true
  | .currentHold => true
  | .capHold => true
  | .energyApportion => true
  | .monitorUpdate => true
  | .illegalInstruction => true
  | .codeEndFault => true
  | .cacheEviction => true
  | .logicalLeaseExpiry => true

/-- The rows of the opcode table that are instruction words; the others are steps of the device. -/
def Instr.isWord : Instr → Bool
  | .add _ _ _ => true
  | .sub _ _ _ => true
  | .and _ _ _ => true
  | .or _ _ _ => true
  | .xor _ _ _ => true
  | .andn _ _ _ => true
  | .sll _ _ _ => true
  | .srl _ _ _ => true
  | .sra _ _ _ => true
  | .slt _ _ _ => true
  | .sltn _ _ _ => true
  | .min _ _ _ => true
  | .max _ _ _ => true
  | .minn _ _ _ => true
  | .maxn _ _ _ => true
  | .mul _ _ _ => true
  | .mulh _ _ _ => true
  | .mulhn _ _ _ => true
  | .div _ _ _ => true
  | .divn _ _ _ => true
  | .rem _ _ _ => true
  | .remn _ _ _ => true
  | .clz _ _ => true
  | .ctz _ _ => true
  | .popc _ _ => true
  | .sext _ _ _ => true
  | .zext _ _ _ => true
  | .addi _ _ _ => true
  | .andi _ _ _ => true
  | .ori _ _ _ => true
  | .xori _ _ _ => true
  | .slli _ _ _ => true
  | .srli _ _ _ => true
  | .srai _ _ _ => true
  | .slti _ _ _ => true
  | .sltni _ _ _ => true
  | .ldih _ _ _ => true
  | .adpc _ _ => true
  | .fadd _ _ _ _ _ => true
  | .fsub _ _ _ _ _ => true
  | .fmul _ _ _ _ _ => true
  | .fdiv _ _ _ _ _ => true
  | .fsqrt _ _ _ _ => true
  | .fma _ _ _ _ _ => true
  | .fmin _ _ _ _ => true
  | .fmax _ _ _ _ => true
  | .fcmp _ _ _ _ _ => true
  | .fcvt _ _ _ _ _ => true
  | .fclass _ _ _ => true
  | .beq _ _ _ => true
  | .bne _ _ _ => true
  | .blt _ _ _ => true
  | .bge _ _ _ => true
  | .bltn _ _ _ => true
  | .bgen _ _ _ => true
  | .jal _ => true
  | .jr _ => true
  | .lpSet _ _ => true
  | .lpBrk _ => true
  | .lpBrkZ _ => true
  | .rframe _ _ _ _ _ => true
  | .halt => true
  | .ldB _ _ _ => true
  | .ldBn _ _ _ => true
  | .ldH _ _ _ => true
  | .ldHn _ _ _ => true
  | .ldW _ _ _ => true
  | .ldWn _ _ _ => true
  | .ldD _ _ _ => true
  | .gl _ _ _ => true
  | .stB _ _ _ => true
  | .stH _ _ _ => true
  | .stW _ _ _ => true
  | .stD _ _ _ => true
  | .sc _ _ _ => true
  | .apnd _ _ _ _ => true
  | .seal _ => true
  | .sealq _ _ => true
  | .srd _ _ => true
  | .swr _ _ => true
  | .svc _ => true
  | .tret => true
  | .fenceSv => true
  | .fenceVs => true
  | .fenceVv => true
  | .fenceSys => true
  | .drainPln => true
  | .drainSpm => true
  | .drainFold => true
  | .drainBk => true
  | .drainAq => true
  | .idle => true
  | .waitc _ _ _ _ => true
  | .cclean _ _ => true
  | .cinval _ _ => true
  | .tlbinv _ _ => true
  | .pcal _ => true
  | .vsave _ => true
  | .vrestore _ => true
  | .vfree _ => true
  | .vsetn _ _ _ _ => true
  | .vsetnFloat _ _ _ _ => true
  | .vgetn _ => true
  | .vslip _ => true
  | .kand _ _ _ => true
  | .kor _ _ _ => true
  | .kxor _ _ _ => true
  | .kandn _ _ _ => true
  | .knot _ _ => true
  | .kmov _ _ => true
  | .kpop _ _ => true
  | .kfirst _ _ => true
  | .kset _ _ => true
  | .kshl _ _ _ => true
  | .kshr _ _ _ => true
  | .vadd _ _ _ _ _ => true
  | .vsub _ _ _ _ _ => true
  | .vrsub _ _ _ _ _ => true
  | .vmul _ _ _ _ _ => true
  | .vmulh _ _ _ _ _ => true
  | .vmulhn _ _ _ _ _ => true
  | .vmadd _ _ _ _ _ => true
  | .vmin _ _ _ _ _ => true
  | .vmax _ _ _ _ _ => true
  | .vminn _ _ _ _ _ => true
  | .vmaxn _ _ _ _ _ => true
  | .vand _ _ _ _ _ => true
  | .vor _ _ _ _ _ => true
  | .vxor _ _ _ _ _ => true
  | .vsll _ _ _ _ _ => true
  | .vsrl _ _ _ _ _ => true
  | .vsra _ _ _ _ _ => true
  | .vsadd _ _ _ _ _ => true
  | .vssub _ _ _ _ _ => true
  | .vadc _ _ _ _ _ => true
  | .vsbc _ _ _ _ _ => true
  | .vmerge _ _ _ _ _ => true
  | .vmov _ _ _ _ => true
  | .vsext _ _ _ _ _ => true
  | .vzext _ _ _ _ _ => true
  | .vclz _ _ _ _ => true
  | .vpopc _ _ _ _ => true
  | .vsllImm _ _ _ _ _ => true
  | .vsrlImm _ _ _ _ _ => true
  | .vsraImm _ _ _ _ _ => true
  | .vcmpEq _ _ _ _ _ => true
  | .vcmpNe _ _ _ _ _ => true
  | .vcmpLt _ _ _ _ _ => true
  | .vcmpLe _ _ _ _ _ => true
  | .vcmpLtn _ _ _ _ _ => true
  | .vcmpLen _ _ _ _ _ => true
  | .vnarrowWrap _ _ _ _ _ => true
  | .vnarrowSat _ _ _ _ _ => true
  | .vfadd _ _ _ _ _ => true
  | .vfsub _ _ _ _ _ => true
  | .vfmul _ _ _ _ _ => true
  | .vfdiv _ _ _ _ _ => true
  | .vfsqrt _ _ _ _ => true
  | .vfma _ _ _ _ _ => true
  | .vfnma _ _ _ _ _ => true
  | .vfmin _ _ _ _ _ => true
  | .vfmax _ _ _ _ _ => true
  | .vfexp2 _ _ _ _ => true
  | .vfrsqrt _ _ _ _ => true
  | .vfcvt _ _ _ _ _ => true
  | .vfcvtIntToFloat _ _ _ _ _ => true
  | .vfcvtFloatToInt _ _ _ _ _ => true
  | .vfcmpEq _ _ _ _ _ => true
  | .vfcmpNe _ _ _ _ _ => true
  | .vfcmpLt _ _ _ _ _ => true
  | .vfcmpLe _ _ _ _ _ => true
  | .vfcmpUn _ _ _ _ _ => true
  | .vredsumWrap _ _ _ _ _ => true
  | .vredsumSat _ _ _ _ _ => true
  | .vredmin _ _ _ _ _ => true
  | .vredmax _ _ _ _ _ => true
  | .vfredsum _ _ _ _ _ => true
  | .vfredmax _ _ _ _ _ => true
  | .vslideup _ _ _ _ _ => true
  | .vslidedn _ _ _ _ _ => true
  | .vperm _ _ _ _ _ => true
  | .vcomp _ _ _ _ => true
  | .vexpand _ _ _ _ => true
  | .vbcast _ _ _ _ => true
  | .vext _ _ _ _ => true
  | .vins _ _ _ _ => true
  | .vquantI8 _ _ _ _ _ => true
  | .vquantI4 _ _ _ _ _ => true
  | .vquantTern _ _ _ _ _ => true
  | .vdeqNq4 _ _ _ _ _ => true
  | .vdeqE2m1 _ _ _ _ _ => true
  | .vdeqTern _ _ _ _ _ => true
  | .vquantPi _ _ _ _ _ _ => true
  | .vld _ _ _ _ => true
  | .vst _ _ _ _ => true
  | .vlds _ _ _ _ _ => true
  | .vsts _ _ _ _ _ => true
  | .vldx _ _ _ _ _ => true
  | .vstx _ _ _ _ _ => true
  | .vgl _ _ _ _ _ => true
  | .vsc _ _ _ _ _ => true
  | .vapnd _ _ _ _ _ => true
  | .vldp _ _ _ _ _ => true
  | .vstp _ _ _ _ _ => true
  | .vldsp _ _ _ _ => true
  | .vstsp _ _ _ _ => true
  | .padd _ _ _ _ => true
  | .psub _ _ _ _ => true
  | .pmul _ _ _ _ => true
  | .pcmp _ _ _ _ => true
  | .pand _ _ _ _ => true
  | .por _ _ _ _ => true
  | .pxor _ _ _ _ => true
  | .pnot _ _ _ => true
  | .psel _ _ _ _ => true
  | .pshl _ _ _ _ => true
  | .pshr _ _ _ _ => true
  | .pcopy _ _ _ => true
  | .pfill _ _ _ => true
  | .plock _ => true
  | .punlock _ => true
  | .pprog _ _ _ => true
  | .rowcp _ _ => true
  | .rowmaj _ _ _ => true
  | .rownot _ _ => true
  | .rowshl _ _ _ => true
  | .rowshr _ _ _ => true
  | .plant _ _ _ => true
  | .plantChained _ _ _ _ _ => true
  | .fold _ _ _ _ => true
  | .fread _ _ _ _ _ _ => true
  | .fclr _ => true
  | .bkadd _ _ _ _ _ => true
  | .bkred _ _ _ _ _ => true
  | .bkcx _ _ _ _ _ => true
  | .bksax _ _ _ _ => true
  | .lfork _ => true
  | .ljoin _ => true
  | .vissue _ _ => true
  | .cspawn _ => true
  | .cjoin _ => true
  | .cend => true
  | .barArrive _ => true
  | .barWait _ => true
  | .barSet _ _ => true
  | .aqPut _ _ _ => true
  | .aqGet _ _ _ => true
  | .aqSig _ _ => true
  | .aqColl _ _ => true
  | .aqLease _ _ _ => true
  | .deviceReset => false
  | .resetReleased => false
  | .verify => false
  | .init => false
  | .bootcmd => false
  | .attestationQuote => false
  | .certificatePieceFirst => false
  | .certificatePieceNext => false
  | .attestationCommandDone => false
  | .linkTraining => false
  | .portLinkDown => false
  | .renewal => false
  | .claim => false
  | .release => false
  | .leaseLapse => false
  | .doorbell => false
  | .queueEnable => false
  | .queueDisable => false
  | .queueReset => false
  | .registerWrite => false
  | .launchRecordHead => false
  | .signalReread => false
  | .signalPoll => false
  | .admission => false
  | .copyDescriptorComplete => false
  | .continuationPop => false
  | .awaitedCondition => false
  | .strandEnd => false
  | .launchRetirement => false
  | .completionRecord => false
  | .weirClk => false
  | .pulseFrame => false
  | .preemptionRequest => false
  | .preemption => false
  | .looplateCount => false
  | .vectorFaultDump => false
  | .ctxtabWrite => false
  | .ctxidWrite => false
  | .fctlWrite => false
  | .hdmtWrite => false
  | .arfWrite => false
  | .castpoolWrite => false
  | .migrationCopy => false
  | .migrationIdle => false
  | .migrationLineCopy => false
  | .pageWalk => false
  | .atsTranslationCompletion => false
  | .pageRequestGroupResponse => false
  | .atsInvalidationRequest => false
  | .invalidationCompletion => false
  | .hostSnoop => false
  | .hdmAccess => false
  | .bankSlot => false
  | .refreshDeadline => false
  | .scratchpadRefresh => false
  | .thermalSample => false
  | .lockGrant => false
  | .lockRelease => false
  | .planeInstructionComplete => false
  | .plantLatchLoadComplete => false
  | .foldComplete => false
  | .bankOperationComplete => false
  | .operationCompletion => false
  | .aqueductMessage => false
  | .transferFailure => false
  | .peerLeaseExpiry => false
  | .castFetch => false
  | .collectiveStepTimeout => false
  | .timeSyncExchange => false
  | .syncLoss => false
  | .suspendArm => false
  | .resumeArm => false
  | .suspendCancel => false
  | .stopping => false
  | .suspendAbandoned => false
  | .saving => false
  | .restoring => false
  | .currentHold => false
  | .capHold => false
  | .energyApportion => false
  | .monitorUpdate => false
  | .illegalInstruction => false
  | .codeEndFault => false
  | .cacheEviction => false
  | .logicalLeaseExpiry => false

end Sys2Proof
end

