-- ==== Sys2Proof/Decode.lean ====
section
/-! DEFINITION. Decoding (R180 to R202), total on every 32-bit word, and the encoder written from the
same tables. `decodeRaw` splits a word by major opcode and function code and checks every field that
must be zero (R182); `decodeWord` also refuses the reserved field values of `Instr.wellFormed`. -/
namespace Sys2Proof

/-- Major 0x01: scalar integer, register forms (R186). -/
def decodeMajor01 (w : BitVec 32) : Option Instr :=
  match (w.extractLsb' 0 11).toNat with
  | 0 => some (.add (w.extractLsb' 21 5) (w.extractLsb' 16 5) (w.extractLsb' 11 5))
  | 1 => some (.sub (w.extractLsb' 21 5) (w.extractLsb' 16 5) (w.extractLsb' 11 5))
  | 2 => some (.and (w.extractLsb' 21 5) (w.extractLsb' 16 5) (w.extractLsb' 11 5))
  | 3 => some (.or (w.extractLsb' 21 5) (w.extractLsb' 16 5) (w.extractLsb' 11 5))
  | 4 => some (.xor (w.extractLsb' 21 5) (w.extractLsb' 16 5) (w.extractLsb' 11 5))
  | 5 => some (.andn (w.extractLsb' 21 5) (w.extractLsb' 16 5) (w.extractLsb' 11 5))
  | 6 => some (.sll (w.extractLsb' 21 5) (w.extractLsb' 16 5) (w.extractLsb' 11 5))
  | 7 => some (.srl (w.extractLsb' 21 5) (w.extractLsb' 16 5) (w.extractLsb' 11 5))
  | 8 => some (.sra (w.extractLsb' 21 5) (w.extractLsb' 16 5) (w.extractLsb' 11 5))
  | 9 => some (.slt (w.extractLsb' 21 5) (w.extractLsb' 16 5) (w.extractLsb' 11 5))
  | 10 => some (.sltn (w.extractLsb' 21 5) (w.extractLsb' 16 5) (w.extractLsb' 11 5))
  | 11 => some (.min (w.extractLsb' 21 5) (w.extractLsb' 16 5) (w.extractLsb' 11 5))
  | 12 => some (.max (w.extractLsb' 21 5) (w.extractLsb' 16 5) (w.extractLsb' 11 5))
  | 13 => some (.minn (w.extractLsb' 21 5) (w.extractLsb' 16 5) (w.extractLsb' 11 5))
  | 14 => some (.maxn (w.extractLsb' 21 5) (w.extractLsb' 16 5) (w.extractLsb' 11 5))
  | 15 => some (.mul (w.extractLsb' 21 5) (w.extractLsb' 16 5) (w.extractLsb' 11 5))
  | 16 => some (.mulh (w.extractLsb' 21 5) (w.extractLsb' 16 5) (w.extractLsb' 11 5))
  | 17 => some (.mulhn (w.extractLsb' 21 5) (w.extractLsb' 16 5) (w.extractLsb' 11 5))
  | 18 => some (.div (w.extractLsb' 21 5) (w.extractLsb' 16 5) (w.extractLsb' 11 5))
  | 19 => some (.divn (w.extractLsb' 21 5) (w.extractLsb' 16 5) (w.extractLsb' 11 5))
  | 20 => some (.rem (w.extractLsb' 21 5) (w.extractLsb' 16 5) (w.extractLsb' 11 5))
  | 21 => some (.remn (w.extractLsb' 21 5) (w.extractLsb' 16 5) (w.extractLsb' 11 5))
  | 22 => if (w.extractLsb' 11 5) = 0 then some (.clz (w.extractLsb' 21 5) (w.extractLsb' 16 5)) else none
  | 23 => if (w.extractLsb' 11 5) = 0 then some (.ctz (w.extractLsb' 21 5) (w.extractLsb' 16 5)) else none
  | 24 => if (w.extractLsb' 11 5) = 0 then some (.popc (w.extractLsb' 21 5) (w.extractLsb' 16 5)) else none
  | 25 => if (w.extractLsb' 13 3) = 0 then some (.sext (w.extractLsb' 21 5) (w.extractLsb' 16 5) (w.extractLsb' 11 2)) else none
  | 26 => if (w.extractLsb' 13 3) = 0 then some (.zext (w.extractLsb' 21 5) (w.extractLsb' 16 5) (w.extractLsb' 11 2)) else none
  | _ => none

/-- Major 0x06: shifts by an immediate (R187). -/
def decodeMajor06 (w : BitVec 32) : Option Instr :=
  match (w.extractLsb' 14 2).toNat with
  | 0 => if (w.extractLsb' 6 8) = 0 then some (.slli (w.extractLsb' 21 5) (w.extractLsb' 16 5) (w.extractLsb' 0 6)) else none
  | 1 => if (w.extractLsb' 6 8) = 0 then some (.srli (w.extractLsb' 21 5) (w.extractLsb' 16 5) (w.extractLsb' 0 6)) else none
  | 2 => if (w.extractLsb' 6 8) = 0 then some (.srai (w.extractLsb' 21 5) (w.extractLsb' 16 5) (w.extractLsb' 0 6)) else none
  | _ => none

/-- Major 0x0B: scalar floating point (R188). -/
def decodeMajor0B (w : BitVec 32) : Option Instr :=
  match (w.extractLsb' 7 4).toNat with
  | 0 => if (w.extractLsb' 0 2) = 0 then some (.fadd (w.extractLsb' 21 5) (w.extractLsb' 16 5) (w.extractLsb' 11 5) (w.extractLsb' 4 3) (w.extractLsb' 2 2)) else none
  | 1 => if (w.extractLsb' 0 2) = 0 then some (.fsub (w.extractLsb' 21 5) (w.extractLsb' 16 5) (w.extractLsb' 11 5) (w.extractLsb' 4 3) (w.extractLsb' 2 2)) else none
  | 2 => if (w.extractLsb' 0 2) = 0 then some (.fmul (w.extractLsb' 21 5) (w.extractLsb' 16 5) (w.extractLsb' 11 5) (w.extractLsb' 4 3) (w.extractLsb' 2 2)) else none
  | 3 => if (w.extractLsb' 0 2) = 0 then some (.fdiv (w.extractLsb' 21 5) (w.extractLsb' 16 5) (w.extractLsb' 11 5) (w.extractLsb' 4 3) (w.extractLsb' 2 2)) else none
  | 4 => if (w.extractLsb' 11 5) = 0 ∧ (w.extractLsb' 0 2) = 0 then some (.fsqrt (w.extractLsb' 21 5) (w.extractLsb' 16 5) (w.extractLsb' 4 3) (w.extractLsb' 2 2)) else none
  | 5 => if (w.extractLsb' 0 2) = 0 then some (.fma (w.extractLsb' 21 5) (w.extractLsb' 16 5) (w.extractLsb' 11 5) (w.extractLsb' 4 3) (w.extractLsb' 2 2)) else none
  | 6 => if (w.extractLsb' 4 3) = 0 ∧ (w.extractLsb' 0 2) = 0 then some (.fmin (w.extractLsb' 21 5) (w.extractLsb' 16 5) (w.extractLsb' 11 5) (w.extractLsb' 2 2)) else none
  | 7 => if (w.extractLsb' 4 3) = 0 ∧ (w.extractLsb' 0 2) = 0 then some (.fmax (w.extractLsb' 21 5) (w.extractLsb' 16 5) (w.extractLsb' 11 5) (w.extractLsb' 2 2)) else none
  | 8 => if (w.extractLsb' 4 3) = 0 then some (.fcmp (w.extractLsb' 21 5) (w.extractLsb' 16 5) (w.extractLsb' 11 5) (w.extractLsb' 2 2) (w.extractLsb' 0 2)) else none
  | 9 => if (w.extractLsb' 15 1) = 0 then some (.fcvt (w.extractLsb' 21 5) (w.extractLsb' 16 5) (w.extractLsb' 11 4) (w.extractLsb' 4 3) (w.extractLsb' 0 4)) else none
  | 10 => if (w.extractLsb' 11 5) = 0 ∧ (w.extractLsb' 4 3) = 0 ∧ (w.extractLsb' 0 2) = 0 then some (.fclass (w.extractLsb' 21 5) (w.extractLsb' 16 5) (w.extractLsb' 2 2)) else none
  | _ => none

/-- Major 0x13: control (R189). -/
def decodeMajor13 (w : BitVec 32) : Option Instr :=
  match (w.extractLsb' 16 5).toNat with
  | 0 => if (w.extractLsb' 0 16) = 0 then some (.jr (w.extractLsb' 21 5)) else none
  | 1 => some (.lpSet (w.extractLsb' 21 5) (w.extractLsb' 0 16))
  | 2 => if (w.extractLsb' 0 16) = 0 then some (.lpBrk (w.extractLsb' 21 5)) else if (w.extractLsb' 0 16) = 1 then some (.lpBrkZ (w.extractLsb' 21 5)) else none
  | 3 => some (.rframe (w.extractLsb' 21 5) (w.extractLsb' 12 4) (w.extractLsb' 8 4) (w.extractLsb' 4 4) (w.extractLsb' 0 4))
  | 4 => if (w.extractLsb' 21 5) = 0 ∧ (w.extractLsb' 0 16) = 0 then some (.halt) else none
  | _ => none

/-- Major 0x14: scalar loads and gl (R190). -/
def decodeMajor14 (w : BitVec 32) : Option Instr :=
  match (w.extractLsb' 0 4).toNat with
  | 0 => some (.ldB (w.extractLsb' 21 5) (w.extractLsb' 16 5) (w.extractLsb' 4 12))
  | 1 => some (.ldBn (w.extractLsb' 21 5) (w.extractLsb' 16 5) (w.extractLsb' 4 12))
  | 2 => some (.ldH (w.extractLsb' 21 5) (w.extractLsb' 16 5) (w.extractLsb' 4 12))
  | 3 => some (.ldHn (w.extractLsb' 21 5) (w.extractLsb' 16 5) (w.extractLsb' 4 12))
  | 4 => some (.ldW (w.extractLsb' 21 5) (w.extractLsb' 16 5) (w.extractLsb' 4 12))
  | 5 => some (.ldWn (w.extractLsb' 21 5) (w.extractLsb' 16 5) (w.extractLsb' 4 12))
  | 6 => some (.ldD (w.extractLsb' 21 5) (w.extractLsb' 16 5) (w.extractLsb' 4 12))
  | 7 => some (.gl (w.extractLsb' 21 5) (w.extractLsb' 16 5) (w.extractLsb' 4 12))
  | _ => none

/-- Major 0x15: scalar stores (R190). -/
def decodeMajor15 (w : BitVec 32) : Option Instr :=
  match (w.extractLsb' 0 4).toNat with
  | 0 => some (.stB (w.extractLsb' 21 5) (w.extractLsb' 16 5) (w.extractLsb' 4 12))
  | 1 => some (.stH (w.extractLsb' 21 5) (w.extractLsb' 16 5) (w.extractLsb' 4 12))
  | 2 => some (.stW (w.extractLsb' 21 5) (w.extractLsb' 16 5) (w.extractLsb' 4 12))
  | 3 => some (.stD (w.extractLsb' 21 5) (w.extractLsb' 16 5) (w.extractLsb' 4 12))
  | _ => none

/-- Major 0x16: sc, apnd, seal, sealq (R190). -/
def decodeMajor16 (w : BitVec 32) : Option Instr :=
  match (w.extractLsb' 8 3).toNat with
  | 0 => if (w.extractLsb' 0 8) = 0 then some (.sc (w.extractLsb' 21 5) (w.extractLsb' 16 5) (w.extractLsb' 11 5)) else none
  | 1 => if (w.extractLsb' 2 6) = 0 then some (.apnd (w.extractLsb' 21 5) (w.extractLsb' 16 5) (w.extractLsb' 11 5) (w.extractLsb' 0 2)) else none
  | 2 => if (w.extractLsb' 21 5) = 0 ∧ (w.extractLsb' 11 5) = 0 ∧ (w.extractLsb' 0 8) = 0 then some (.seal (w.extractLsb' 16 5)) else none
  | 3 => if (w.extractLsb' 11 5) = 0 ∧ (w.extractLsb' 0 8) = 0 then some (.sealq (w.extractLsb' 21 5) (w.extractLsb' 16 5)) else none
  | _ => none

/-- Major 0x1B: svc, tret, fences, drains, idle (R191). -/
def decodeMajor1B (w : BitVec 32) : Option Instr :=
  match (w.extractLsb' 0 16).toNat with
  | 0 => some (.svc (w.extractLsb' 16 10))
  | 1 => if (w.extractLsb' 16 10) = 0 then some (.tret) else none
  | 16 => if (w.extractLsb' 16 10) = 0 then some (.fenceSv) else none
  | 17 => if (w.extractLsb' 16 10) = 0 then some (.fenceVs) else none
  | 18 => if (w.extractLsb' 16 10) = 0 then some (.fenceVv) else none
  | 19 => if (w.extractLsb' 16 10) = 0 then some (.fenceSys) else none
  | 32 => if (w.extractLsb' 16 10) = 0 then some (.drainPln) else none
  | 33 => if (w.extractLsb' 16 10) = 0 then some (.drainSpm) else none
  | 34 => if (w.extractLsb' 16 10) = 0 then some (.drainFold) else none
  | 35 => if (w.extractLsb' 16 10) = 0 then some (.drainBk) else none
  | 36 => if (w.extractLsb' 16 10) = 0 then some (.drainAq) else none
  | 48 => if (w.extractLsb' 16 10) = 0 then some (.idle) else none
  | _ => none

/-- Major 0x1D: cache and TLB maintenance, pcal (R191). -/
def decodeMajor1D (w : BitVec 32) : Option Instr :=
  match (w.extractLsb' 0 11).toNat with
  | 0 => if (w.extractLsb' 21 5) = 0 then some (.cclean (w.extractLsb' 16 5) (w.extractLsb' 11 5)) else none
  | 1 => if (w.extractLsb' 21 5) = 0 then some (.cinval (w.extractLsb' 16 5) (w.extractLsb' 11 5)) else none
  | 2 => if (w.extractLsb' 21 5) = 0 then some (.tlbinv (w.extractLsb' 16 5) (w.extractLsb' 11 5)) else none
  | 3 => if (w.extractLsb' 21 5) = 0 ∧ (w.extractLsb' 11 5) = 0 then some (.pcal (w.extractLsb' 16 5)) else none
  | _ => none

/-- Major 0x1E: vsave, vrestore, vfree (R191). -/
def decodeMajor1E (w : BitVec 32) : Option Instr :=
  match (w.extractLsb' 0 11).toNat with
  | 0 => if (w.extractLsb' 21 5) = 0 ∧ (w.extractLsb' 11 5) = 0 then some (.vsave (w.extractLsb' 16 5)) else none
  | 1 => if (w.extractLsb' 21 5) = 0 ∧ (w.extractLsb' 11 5) = 0 then some (.vrestore (w.extractLsb' 16 5)) else none
  | 2 => if (w.extractLsb' 21 5) = 0 ∧ (w.extractLsb' 11 5) = 0 then some (.vfree (w.extractLsb' 16 5)) else none
  | _ => none

/-- Major 0x20: vsetn, vgetn, vslip (R192). -/
def decodeMajor20 (w : BitVec 32) : Option Instr :=
  match (w.extractLsb' 0 5).toNat with
  | 0 => if (w.extractLsb' 13 3) = 0 ∧ (w.extractLsb' 8 3) = 0 then some (.vsetn (w.extractLsb' 21 5) (w.extractLsb' 16 5) (w.extractLsb' 11 2) (w.extractLsb' 5 3)) else none
  | 1 => if (w.extractLsb' 13 3) = 0 ∧ (w.extractLsb' 8 3) = 0 then some (.vsetnFloat (w.extractLsb' 21 5) (w.extractLsb' 16 5) (w.extractLsb' 11 2) (w.extractLsb' 5 3)) else none
  | 2 => if (w.extractLsb' 5 16) = 0 then some (.vgetn (w.extractLsb' 21 5)) else none
  | 3 => if (w.extractLsb' 16 10) = 0 ∧ (w.extractLsb' 5 6) = 0 then some (.vslip (w.extractLsb' 11 5)) else none
  | _ => none

/-- Major 0x21: mask instructions (R192). -/
def decodeMajor21 (w : BitVec 32) : Option Instr :=
  match (w.extractLsb' 0 5).toNat with
  | 0 => if (w.extractLsb' 24 2) = 0 ∧ (w.extractLsb' 19 2) = 0 ∧ (w.extractLsb' 14 2) = 0 ∧ (w.extractLsb' 5 6) = 0 then some (.kand (w.extractLsb' 21 3) (w.extractLsb' 16 3) (w.extractLsb' 11 3)) else none
  | 1 => if (w.extractLsb' 24 2) = 0 ∧ (w.extractLsb' 19 2) = 0 ∧ (w.extractLsb' 14 2) = 0 ∧ (w.extractLsb' 5 6) = 0 then some (.kor (w.extractLsb' 21 3) (w.extractLsb' 16 3) (w.extractLsb' 11 3)) else none
  | 2 => if (w.extractLsb' 24 2) = 0 ∧ (w.extractLsb' 19 2) = 0 ∧ (w.extractLsb' 14 2) = 0 ∧ (w.extractLsb' 5 6) = 0 then some (.kxor (w.extractLsb' 21 3) (w.extractLsb' 16 3) (w.extractLsb' 11 3)) else none
  | 3 => if (w.extractLsb' 24 2) = 0 ∧ (w.extractLsb' 19 2) = 0 ∧ (w.extractLsb' 14 2) = 0 ∧ (w.extractLsb' 5 6) = 0 then some (.kandn (w.extractLsb' 21 3) (w.extractLsb' 16 3) (w.extractLsb' 11 3)) else none
  | 4 => if (w.extractLsb' 24 2) = 0 ∧ (w.extractLsb' 19 2) = 0 ∧ (w.extractLsb' 5 11) = 0 then some (.knot (w.extractLsb' 21 3) (w.extractLsb' 16 3)) else none
  | 5 => if (w.extractLsb' 24 2) = 0 ∧ (w.extractLsb' 19 2) = 0 ∧ (w.extractLsb' 5 11) = 0 then some (.kmov (w.extractLsb' 21 3) (w.extractLsb' 16 3)) else none
  | 6 => if (w.extractLsb' 19 2) = 0 ∧ (w.extractLsb' 5 11) = 0 then some (.kpop (w.extractLsb' 21 5) (w.extractLsb' 16 3)) else none
  | 7 => if (w.extractLsb' 19 2) = 0 ∧ (w.extractLsb' 5 11) = 0 then some (.kfirst (w.extractLsb' 21 5) (w.extractLsb' 16 3)) else none
  | 8 => if (w.extractLsb' 24 2) = 0 ∧ (w.extractLsb' 5 11) = 0 then some (.kset (w.extractLsb' 21 3) (w.extractLsb' 16 5)) else none
  | 9 => if (w.extractLsb' 24 2) = 0 ∧ (w.extractLsb' 19 2) = 0 ∧ (w.extractLsb' 5 6) = 0 then some (.kshl (w.extractLsb' 21 3) (w.extractLsb' 16 3) (w.extractLsb' 11 5)) else none
  | 10 => if (w.extractLsb' 24 2) = 0 ∧ (w.extractLsb' 19 2) = 0 ∧ (w.extractLsb' 5 6) = 0 then some (.kshr (w.extractLsb' 21 3) (w.extractLsb' 16 3) (w.extractLsb' 11 5)) else none
  | _ => none

/-- Major 0x22: vector integer (R193). -/
def decodeMajor22 (w : BitVec 32) : Option Instr :=
  match (w.extractLsb' 0 5).toNat with
  | 0 => some (.vadd (w.extractLsb' 21 5) (w.extractLsb' 16 5) (w.extractLsb' 11 5) (w.extractLsb' 8 3) (w.extractLsb' 5 3))
  | 1 => some (.vsub (w.extractLsb' 21 5) (w.extractLsb' 16 5) (w.extractLsb' 11 5) (w.extractLsb' 8 3) (w.extractLsb' 5 3))
  | 2 => some (.vrsub (w.extractLsb' 21 5) (w.extractLsb' 16 5) (w.extractLsb' 11 5) (w.extractLsb' 8 3) (w.extractLsb' 5 3))
  | 3 => some (.vmul (w.extractLsb' 21 5) (w.extractLsb' 16 5) (w.extractLsb' 11 5) (w.extractLsb' 8 3) (w.extractLsb' 5 3))
  | 4 => some (.vmulh (w.extractLsb' 21 5) (w.extractLsb' 16 5) (w.extractLsb' 11 5) (w.extractLsb' 8 3) (w.extractLsb' 5 3))
  | 5 => some (.vmulhn (w.extractLsb' 21 5) (w.extractLsb' 16 5) (w.extractLsb' 11 5) (w.extractLsb' 8 3) (w.extractLsb' 5 3))
  | 6 => some (.vmadd (w.extractLsb' 21 5) (w.extractLsb' 16 5) (w.extractLsb' 11 5) (w.extractLsb' 8 3) (w.extractLsb' 5 3))
  | 7 => some (.vmin (w.extractLsb' 21 5) (w.extractLsb' 16 5) (w.extractLsb' 11 5) (w.extractLsb' 8 3) (w.extractLsb' 5 3))
  | 8 => some (.vmax (w.extractLsb' 21 5) (w.extractLsb' 16 5) (w.extractLsb' 11 5) (w.extractLsb' 8 3) (w.extractLsb' 5 3))
  | 9 => some (.vminn (w.extractLsb' 21 5) (w.extractLsb' 16 5) (w.extractLsb' 11 5) (w.extractLsb' 8 3) (w.extractLsb' 5 3))
  | 10 => some (.vmaxn (w.extractLsb' 21 5) (w.extractLsb' 16 5) (w.extractLsb' 11 5) (w.extractLsb' 8 3) (w.extractLsb' 5 3))
  | 11 => some (.vand (w.extractLsb' 21 5) (w.extractLsb' 16 5) (w.extractLsb' 11 5) (w.extractLsb' 8 3) (w.extractLsb' 5 3))
  | 12 => some (.vor (w.extractLsb' 21 5) (w.extractLsb' 16 5) (w.extractLsb' 11 5) (w.extractLsb' 8 3) (w.extractLsb' 5 3))
  | 13 => some (.vxor (w.extractLsb' 21 5) (w.extractLsb' 16 5) (w.extractLsb' 11 5) (w.extractLsb' 8 3) (w.extractLsb' 5 3))
  | 14 => some (.vsll (w.extractLsb' 21 5) (w.extractLsb' 16 5) (w.extractLsb' 11 5) (w.extractLsb' 8 3) (w.extractLsb' 5 3))
  | 15 => some (.vsrl (w.extractLsb' 21 5) (w.extractLsb' 16 5) (w.extractLsb' 11 5) (w.extractLsb' 8 3) (w.extractLsb' 5 3))
  | 16 => some (.vsra (w.extractLsb' 21 5) (w.extractLsb' 16 5) (w.extractLsb' 11 5) (w.extractLsb' 8 3) (w.extractLsb' 5 3))
  | 17 => some (.vsadd (w.extractLsb' 21 5) (w.extractLsb' 16 5) (w.extractLsb' 11 5) (w.extractLsb' 8 3) (w.extractLsb' 5 3))
  | 18 => some (.vssub (w.extractLsb' 21 5) (w.extractLsb' 16 5) (w.extractLsb' 11 5) (w.extractLsb' 8 3) (w.extractLsb' 5 3))
  | 19 => some (.vadc (w.extractLsb' 21 5) (w.extractLsb' 16 5) (w.extractLsb' 11 5) (w.extractLsb' 8 3) (w.extractLsb' 5 3))
  | 20 => some (.vsbc (w.extractLsb' 21 5) (w.extractLsb' 16 5) (w.extractLsb' 11 5) (w.extractLsb' 8 3) (w.extractLsb' 5 3))
  | 21 => some (.vmerge (w.extractLsb' 21 5) (w.extractLsb' 16 5) (w.extractLsb' 11 5) (w.extractLsb' 8 3) (w.extractLsb' 5 3))
  | 22 => if (w.extractLsb' 11 5) = 0 then some (.vmov (w.extractLsb' 21 5) (w.extractLsb' 16 5) (w.extractLsb' 8 3) (w.extractLsb' 5 3)) else none
  | 23 => if (w.extractLsb' 14 2) = 0 then some (.vsext (w.extractLsb' 21 5) (w.extractLsb' 16 5) (w.extractLsb' 11 3) (w.extractLsb' 8 3) (w.extractLsb' 5 3)) else none
  | 24 => if (w.extractLsb' 14 2) = 0 then some (.vzext (w.extractLsb' 21 5) (w.extractLsb' 16 5) (w.extractLsb' 11 3) (w.extractLsb' 8 3) (w.extractLsb' 5 3)) else none
  | 25 => if (w.extractLsb' 11 5) = 0 then some (.vclz (w.extractLsb' 21 5) (w.extractLsb' 16 5) (w.extractLsb' 8 3) (w.extractLsb' 5 3)) else none
  | 26 => if (w.extractLsb' 11 5) = 0 then some (.vpopc (w.extractLsb' 21 5) (w.extractLsb' 16 5) (w.extractLsb' 8 3) (w.extractLsb' 5 3)) else none
  | _ => none

/-- Major 0x23: vector shifts by an immediate (R193). -/
def decodeMajor23 (w : BitVec 32) : Option Instr :=
  match (w.extractLsb' 0 5).toNat with
  | 0 => some (.vsllImm (w.extractLsb' 21 5) (w.extractLsb' 16 5) (w.extractLsb' 11 5) (w.extractLsb' 8 3) (w.extractLsb' 5 3))
  | 1 => some (.vsrlImm (w.extractLsb' 21 5) (w.extractLsb' 16 5) (w.extractLsb' 11 5) (w.extractLsb' 8 3) (w.extractLsb' 5 3))
  | 2 => some (.vsraImm (w.extractLsb' 21 5) (w.extractLsb' 16 5) (w.extractLsb' 11 5) (w.extractLsb' 8 3) (w.extractLsb' 5 3))
  | _ => none

/-- Major 0x24: vcmp (R193). -/
def decodeMajor24 (w : BitVec 32) : Option Instr :=
  match (w.extractLsb' 0 5).toNat with
  | 0 => if (w.extractLsb' 24 2) = 0 then some (.vcmpEq (w.extractLsb' 21 3) (w.extractLsb' 16 5) (w.extractLsb' 11 5) (w.extractLsb' 8 3) (w.extractLsb' 5 3)) else none
  | 1 => if (w.extractLsb' 24 2) = 0 then some (.vcmpNe (w.extractLsb' 21 3) (w.extractLsb' 16 5) (w.extractLsb' 11 5) (w.extractLsb' 8 3) (w.extractLsb' 5 3)) else none
  | 2 => if (w.extractLsb' 24 2) = 0 then some (.vcmpLt (w.extractLsb' 21 3) (w.extractLsb' 16 5) (w.extractLsb' 11 5) (w.extractLsb' 8 3) (w.extractLsb' 5 3)) else none
  | 3 => if (w.extractLsb' 24 2) = 0 then some (.vcmpLe (w.extractLsb' 21 3) (w.extractLsb' 16 5) (w.extractLsb' 11 5) (w.extractLsb' 8 3) (w.extractLsb' 5 3)) else none
  | 4 => if (w.extractLsb' 24 2) = 0 then some (.vcmpLtn (w.extractLsb' 21 3) (w.extractLsb' 16 5) (w.extractLsb' 11 5) (w.extractLsb' 8 3) (w.extractLsb' 5 3)) else none
  | 5 => if (w.extractLsb' 24 2) = 0 then some (.vcmpLen (w.extractLsb' 21 3) (w.extractLsb' 16 5) (w.extractLsb' 11 5) (w.extractLsb' 8 3) (w.extractLsb' 5 3)) else none
  | _ => none

/-- Major 0x25: vnarrow (R193). -/
def decodeMajor25 (w : BitVec 32) : Option Instr :=
  match (w.extractLsb' 0 5).toNat with
  | 0 => if (w.extractLsb' 14 2) = 0 then some (.vnarrowWrap (w.extractLsb' 21 5) (w.extractLsb' 16 5) (w.extractLsb' 11 3) (w.extractLsb' 8 3) (w.extractLsb' 5 3)) else none
  | 1 => if (w.extractLsb' 14 2) = 0 then some (.vnarrowSat (w.extractLsb' 21 5) (w.extractLsb' 16 5) (w.extractLsb' 11 3) (w.extractLsb' 8 3) (w.extractLsb' 5 3)) else none
  | _ => none

/-- Major 0x26: vector floating point (R194). -/
def decodeMajor26 (w : BitVec 32) : Option Instr :=
  match (w.extractLsb' 0 5).toNat with
  | 0 => some (.vfadd (w.extractLsb' 21 5) (w.extractLsb' 16 5) (w.extractLsb' 11 5) (w.extractLsb' 8 3) (w.extractLsb' 5 3))
  | 1 => some (.vfsub (w.extractLsb' 21 5) (w.extractLsb' 16 5) (w.extractLsb' 11 5) (w.extractLsb' 8 3) (w.extractLsb' 5 3))
  | 2 => some (.vfmul (w.extractLsb' 21 5) (w.extractLsb' 16 5) (w.extractLsb' 11 5) (w.extractLsb' 8 3) (w.extractLsb' 5 3))
  | 3 => some (.vfdiv (w.extractLsb' 21 5) (w.extractLsb' 16 5) (w.extractLsb' 11 5) (w.extractLsb' 8 3) (w.extractLsb' 5 3))
  | 4 => if (w.extractLsb' 11 5) = 0 then some (.vfsqrt (w.extractLsb' 21 5) (w.extractLsb' 16 5) (w.extractLsb' 8 3) (w.extractLsb' 5 3)) else none
  | 5 => some (.vfma (w.extractLsb' 21 5) (w.extractLsb' 16 5) (w.extractLsb' 11 5) (w.extractLsb' 8 3) (w.extractLsb' 5 3))
  | 6 => some (.vfnma (w.extractLsb' 21 5) (w.extractLsb' 16 5) (w.extractLsb' 11 5) (w.extractLsb' 8 3) (w.extractLsb' 5 3))
  | 7 => some (.vfmin (w.extractLsb' 21 5) (w.extractLsb' 16 5) (w.extractLsb' 11 5) (w.extractLsb' 8 3) (w.extractLsb' 5 3))
  | 8 => some (.vfmax (w.extractLsb' 21 5) (w.extractLsb' 16 5) (w.extractLsb' 11 5) (w.extractLsb' 8 3) (w.extractLsb' 5 3))
  | 9 => if (w.extractLsb' 11 5) = 0 then some (.vfexp2 (w.extractLsb' 21 5) (w.extractLsb' 16 5) (w.extractLsb' 8 3) (w.extractLsb' 5 3)) else none
  | 10 => if (w.extractLsb' 11 5) = 0 then some (.vfrsqrt (w.extractLsb' 21 5) (w.extractLsb' 16 5) (w.extractLsb' 8 3) (w.extractLsb' 5 3)) else none
  | 16 => if (w.extractLsb' 13 3) = 0 then some (.vfcvt (w.extractLsb' 21 5) (w.extractLsb' 16 5) (w.extractLsb' 11 2) (w.extractLsb' 8 3) (w.extractLsb' 5 3)) else none
  | 17 => if (w.extractLsb' 14 2) = 0 then some (.vfcvtIntToFloat (w.extractLsb' 21 5) (w.extractLsb' 16 5) (w.extractLsb' 11 3) (w.extractLsb' 8 3) (w.extractLsb' 5 3)) else none
  | 18 => if (w.extractLsb' 13 3) = 0 then some (.vfcvtFloatToInt (w.extractLsb' 21 5) (w.extractLsb' 16 5) (w.extractLsb' 11 2) (w.extractLsb' 8 3) (w.extractLsb' 5 3)) else none
  | _ => none

/-- Major 0x27: vfcmp (R194). -/
def decodeMajor27 (w : BitVec 32) : Option Instr :=
  match (w.extractLsb' 0 5).toNat with
  | 0 => if (w.extractLsb' 24 2) = 0 then some (.vfcmpEq (w.extractLsb' 21 3) (w.extractLsb' 16 5) (w.extractLsb' 11 5) (w.extractLsb' 8 3) (w.extractLsb' 5 3)) else none
  | 1 => if (w.extractLsb' 24 2) = 0 then some (.vfcmpNe (w.extractLsb' 21 3) (w.extractLsb' 16 5) (w.extractLsb' 11 5) (w.extractLsb' 8 3) (w.extractLsb' 5 3)) else none
  | 2 => if (w.extractLsb' 24 2) = 0 then some (.vfcmpLt (w.extractLsb' 21 3) (w.extractLsb' 16 5) (w.extractLsb' 11 5) (w.extractLsb' 8 3) (w.extractLsb' 5 3)) else none
  | 3 => if (w.extractLsb' 24 2) = 0 then some (.vfcmpLe (w.extractLsb' 21 3) (w.extractLsb' 16 5) (w.extractLsb' 11 5) (w.extractLsb' 8 3) (w.extractLsb' 5 3)) else none
  | 4 => if (w.extractLsb' 24 2) = 0 then some (.vfcmpUn (w.extractLsb' 21 3) (w.extractLsb' 16 5) (w.extractLsb' 11 5) (w.extractLsb' 8 3) (w.extractLsb' 5 3)) else none
  | _ => none

/-- Major 0x28: reductions (R195). -/
def decodeMajor28 (w : BitVec 32) : Option Instr :=
  match (w.extractLsb' 0 5).toNat with
  | 0 => some (.vredsumWrap (w.extractLsb' 21 5) (w.extractLsb' 16 5) (w.extractLsb' 11 5) (w.extractLsb' 8 3) (w.extractLsb' 5 3))
  | 1 => some (.vredsumSat (w.extractLsb' 21 5) (w.extractLsb' 16 5) (w.extractLsb' 11 5) (w.extractLsb' 8 3) (w.extractLsb' 5 3))
  | 2 => some (.vredmin (w.extractLsb' 21 5) (w.extractLsb' 16 5) (w.extractLsb' 11 5) (w.extractLsb' 8 3) (w.extractLsb' 5 3))
  | 3 => some (.vredmax (w.extractLsb' 21 5) (w.extractLsb' 16 5) (w.extractLsb' 11 5) (w.extractLsb' 8 3) (w.extractLsb' 5 3))
  | 4 => some (.vfredsum (w.extractLsb' 21 5) (w.extractLsb' 16 5) (w.extractLsb' 11 5) (w.extractLsb' 8 3) (w.extractLsb' 5 3))
  | 5 => some (.vfredmax (w.extractLsb' 21 5) (w.extractLsb' 16 5) (w.extractLsb' 11 5) (w.extractLsb' 8 3) (w.extractLsb' 5 3))
  | _ => none

/-- Major 0x29: permutations (R195). -/
def decodeMajor29 (w : BitVec 32) : Option Instr :=
  match (w.extractLsb' 0 5).toNat with
  | 0 => some (.vslideup (w.extractLsb' 21 5) (w.extractLsb' 16 5) (w.extractLsb' 11 5) (w.extractLsb' 8 3) (w.extractLsb' 5 3))
  | 1 => some (.vslidedn (w.extractLsb' 21 5) (w.extractLsb' 16 5) (w.extractLsb' 11 5) (w.extractLsb' 8 3) (w.extractLsb' 5 3))
  | 2 => some (.vperm (w.extractLsb' 21 5) (w.extractLsb' 16 5) (w.extractLsb' 11 5) (w.extractLsb' 8 3) (w.extractLsb' 5 3))
  | 3 => if (w.extractLsb' 11 5) = 0 then some (.vcomp (w.extractLsb' 21 5) (w.extractLsb' 16 5) (w.extractLsb' 8 3) (w.extractLsb' 5 3)) else none
  | 4 => if (w.extractLsb' 11 5) = 0 then some (.vexpand (w.extractLsb' 21 5) (w.extractLsb' 16 5) (w.extractLsb' 8 3) (w.extractLsb' 5 3)) else none
  | 5 => if (w.extractLsb' 11 5) = 0 then some (.vbcast (w.extractLsb' 21 5) (w.extractLsb' 16 5) (w.extractLsb' 8 3) (w.extractLsb' 5 3)) else none
  | 6 => if (w.extractLsb' 8 3) = 0 then some (.vext (w.extractLsb' 21 5) (w.extractLsb' 16 5) (w.extractLsb' 11 5) (w.extractLsb' 5 3)) else none
  | 7 => if (w.extractLsb' 8 3) = 0 then some (.vins (w.extractLsb' 21 5) (w.extractLsb' 16 5) (w.extractLsb' 11 5) (w.extractLsb' 5 3)) else none
  | _ => none

/-- Major 0x2A: vquant and vdeq (R195). -/
def decodeMajor2A (w : BitVec 32) : Option Instr :=
  match (w.extractLsb' 0 5).toNat with
  | 0 => some (.vquantI8 (w.extractLsb' 21 5) (w.extractLsb' 16 5) (w.extractLsb' 11 5) (w.extractLsb' 8 3) (w.extractLsb' 5 3))
  | 1 => some (.vquantI4 (w.extractLsb' 21 5) (w.extractLsb' 16 5) (w.extractLsb' 11 5) (w.extractLsb' 8 3) (w.extractLsb' 5 3))
  | 2 => some (.vquantTern (w.extractLsb' 21 5) (w.extractLsb' 16 5) (w.extractLsb' 11 5) (w.extractLsb' 8 3) (w.extractLsb' 5 3))
  | 8 => some (.vdeqNq4 (w.extractLsb' 21 5) (w.extractLsb' 16 5) (w.extractLsb' 11 5) (w.extractLsb' 8 3) (w.extractLsb' 5 3))
  | 9 => some (.vdeqE2m1 (w.extractLsb' 21 5) (w.extractLsb' 16 5) (w.extractLsb' 11 5) (w.extractLsb' 8 3) (w.extractLsb' 5 3))
  | 10 => some (.vdeqTern (w.extractLsb' 21 5) (w.extractLsb' 16 5) (w.extractLsb' 11 5) (w.extractLsb' 8 3) (w.extractLsb' 5 3))
  | _ => if (w.extractLsb' 3 2) = 2 then some (.vquantPi (w.extractLsb' 21 5) (w.extractLsb' 16 5) (w.extractLsb' 11 5) (w.extractLsb' 8 3) (w.extractLsb' 5 3) (w.extractLsb' 0 3)) else none

/-- Major 0x2E: vld, vst (R196). -/
def decodeMajor2E (w : BitVec 32) : Option Instr :=
  match (w.extractLsb' 0 5).toNat with
  | 0 => if (w.extractLsb' 11 5) = 0 then some (.vld (w.extractLsb' 21 5) (w.extractLsb' 16 5) (w.extractLsb' 8 3) (w.extractLsb' 5 3)) else none
  | 1 => if (w.extractLsb' 11 5) = 0 then some (.vst (w.extractLsb' 21 5) (w.extractLsb' 16 5) (w.extractLsb' 8 3) (w.extractLsb' 5 3)) else none
  | _ => none

/-- Major 0x2F: vlds, vsts (R196). -/
def decodeMajor2F (w : BitVec 32) : Option Instr :=
  match (w.extractLsb' 0 5).toNat with
  | 0 => some (.vlds (w.extractLsb' 21 5) (w.extractLsb' 16 5) (w.extractLsb' 11 5) (w.extractLsb' 8 3) (w.extractLsb' 5 3))
  | 1 => some (.vsts (w.extractLsb' 21 5) (w.extractLsb' 16 5) (w.extractLsb' 11 5) (w.extractLsb' 8 3) (w.extractLsb' 5 3))
  | _ => none

/-- Major 0x30: vldx, vstx, vgl, vsc (R196). -/
def decodeMajor30 (w : BitVec 32) : Option Instr :=
  match (w.extractLsb' 0 5).toNat with
  | 0 => some (.vldx (w.extractLsb' 21 5) (w.extractLsb' 16 5) (w.extractLsb' 11 5) (w.extractLsb' 8 3) (w.extractLsb' 5 3))
  | 1 => some (.vstx (w.extractLsb' 21 5) (w.extractLsb' 16 5) (w.extractLsb' 11 5) (w.extractLsb' 8 3) (w.extractLsb' 5 3))
  | 2 => some (.vgl (w.extractLsb' 21 5) (w.extractLsb' 16 5) (w.extractLsb' 11 5) (w.extractLsb' 8 3) (w.extractLsb' 5 3))
  | 3 => some (.vsc (w.extractLsb' 21 5) (w.extractLsb' 16 5) (w.extractLsb' 11 5) (w.extractLsb' 8 3) (w.extractLsb' 5 3))
  | _ => none

/-- Major 0x31: vapnd, vldp, vstp, vldsp, vstsp (R196). -/
def decodeMajor31 (w : BitVec 32) : Option Instr :=
  match (w.extractLsb' 0 5).toNat with
  | 0 => some (.vapnd (w.extractLsb' 21 5) (w.extractLsb' 16 5) (w.extractLsb' 11 5) (w.extractLsb' 8 3) (w.extractLsb' 5 3))
  | 1 => some (.vldp (w.extractLsb' 21 5) (w.extractLsb' 16 5) (w.extractLsb' 11 5) (w.extractLsb' 8 3) (w.extractLsb' 5 3))
  | 2 => some (.vstp (w.extractLsb' 21 5) (w.extractLsb' 16 5) (w.extractLsb' 11 5) (w.extractLsb' 8 3) (w.extractLsb' 5 3))
  | 3 => if (w.extractLsb' 11 5) = 0 then some (.vldsp (w.extractLsb' 21 5) (w.extractLsb' 16 5) (w.extractLsb' 8 3) (w.extractLsb' 5 3)) else none
  | 4 => if (w.extractLsb' 11 5) = 0 then some (.vstsp (w.extractLsb' 21 5) (w.extractLsb' 16 5) (w.extractLsb' 8 3) (w.extractLsb' 5 3)) else none
  | _ => none

/-- Major 0x34: plane elementwise (R197). -/
def decodeMajor34 (w : BitVec 32) : Option Instr :=
  match (w.extractLsb' 0 6).toNat with
  | 0 => some (.padd (w.extractLsb' 21 5) (w.extractLsb' 16 5) (w.extractLsb' 11 5) (w.extractLsb' 6 5))
  | 1 => some (.psub (w.extractLsb' 21 5) (w.extractLsb' 16 5) (w.extractLsb' 11 5) (w.extractLsb' 6 5))
  | 2 => some (.pmul (w.extractLsb' 21 5) (w.extractLsb' 16 5) (w.extractLsb' 11 5) (w.extractLsb' 6 5))
  | 3 => some (.pcmp (w.extractLsb' 21 5) (w.extractLsb' 16 5) (w.extractLsb' 11 5) (w.extractLsb' 6 5))
  | 4 => some (.pand (w.extractLsb' 21 5) (w.extractLsb' 16 5) (w.extractLsb' 11 5) (w.extractLsb' 6 5))
  | 5 => some (.por (w.extractLsb' 21 5) (w.extractLsb' 16 5) (w.extractLsb' 11 5) (w.extractLsb' 6 5))
  | 6 => some (.pxor (w.extractLsb' 21 5) (w.extractLsb' 16 5) (w.extractLsb' 11 5) (w.extractLsb' 6 5))
  | 7 => if (w.extractLsb' 11 5) = 0 then some (.pnot (w.extractLsb' 21 5) (w.extractLsb' 16 5) (w.extractLsb' 6 5)) else none
  | 8 => some (.psel (w.extractLsb' 21 5) (w.extractLsb' 16 5) (w.extractLsb' 11 5) (w.extractLsb' 6 5))
  | 9 => some (.pshl (w.extractLsb' 21 5) (w.extractLsb' 16 5) (w.extractLsb' 11 5) (w.extractLsb' 6 5))
  | 10 => some (.pshr (w.extractLsb' 21 5) (w.extractLsb' 16 5) (w.extractLsb' 11 5) (w.extractLsb' 6 5))
  | 11 => if (w.extractLsb' 11 5) = 0 then some (.pcopy (w.extractLsb' 21 5) (w.extractLsb' 16 5) (w.extractLsb' 6 5)) else none
  | 12 => if (w.extractLsb' 16 5) = 0 then some (.pfill (w.extractLsb' 21 5) (w.extractLsb' 11 5) (w.extractLsb' 6 5)) else none
  | _ => none

/-- Major 0x35: plock, punlock, pprog (R197). -/
def decodeMajor35 (w : BitVec 32) : Option Instr :=
  match (w.extractLsb' 0 6).toNat with
  | 0 => if (w.extractLsb' 6 15) = 0 then some (.plock (w.extractLsb' 21 5)) else none
  | 1 => if (w.extractLsb' 6 15) = 0 then some (.punlock (w.extractLsb' 21 5)) else none
  | 2 => some (.pprog (w.extractLsb' 21 5) (w.extractLsb' 16 5) (w.extractLsb' 6 10))
  | _ => none

/-- Major 0x36: row micro-ops (R198). -/
def decodeMajor36 (w : BitVec 32) : Option Instr :=
  match (w.extractLsb' 0 6).toNat with
  | 0 => if (w.extractLsb' 6 10) = 0 then some (.rowcp (w.extractLsb' 21 5) (w.extractLsb' 16 5)) else none
  | 1 => if (w.extractLsb' 21 5) = 0 then some (.rowmaj (w.extractLsb' 16 5) (w.extractLsb' 11 5) (w.extractLsb' 6 5)) else none
  | 2 => if (w.extractLsb' 6 10) = 0 then some (.rownot (w.extractLsb' 21 5) (w.extractLsb' 16 5)) else none
  | 3 => if (w.extractLsb' 11 5) = 0 then some (.rowshl (w.extractLsb' 21 5) (w.extractLsb' 16 5) (w.extractLsb' 6 5)) else none
  | 4 => if (w.extractLsb' 11 5) = 0 then some (.rowshr (w.extractLsb' 21 5) (w.extractLsb' 16 5) (w.extractLsb' 6 5)) else none
  | _ => none

/-- Major 0x38: plant (R199). -/
def decodeMajor38 (w : BitVec 32) : Option Instr :=
  match (w.extractLsb' 7 1).toNat with
  | 0 => if (w.extractLsb' 21 5) = 0 ∧ (w.extractLsb' 0 7) = 0 then some (.plant (w.extractLsb' 16 5) (w.extractLsb' 11 5) (w.extractLsb' 8 3)) else none
  | 1 => if (w.extractLsb' 24 2) = 0 ∧ (w.extractLsb' 0 5) = 0 then some (.plantChained (w.extractLsb' 21 3) (w.extractLsb' 16 5) (w.extractLsb' 11 5) (w.extractLsb' 8 3) (w.extractLsb' 5 2)) else none
  | _ => none

/-- Major 0x39: fold, fread, fclr (R199). -/
def decodeMajor39 (w : BitVec 32) : Option Instr :=
  match (w.extractLsb' 8 3).toNat with
  | 0 => if (w.extractLsb' 24 2) = 0 ∧ (w.extractLsb' 0 6) = 0 then some (.fold (w.extractLsb' 21 3) (w.extractLsb' 16 5) (w.extractLsb' 11 5) (w.extractLsb' 6 2)) else none
  | 1 => if (w.extractLsb' 3 2) = 0 then some (.fread (w.extractLsb' 21 5) (w.extractLsb' 16 5) (w.extractLsb' 11 5) (w.extractLsb' 6 2) (w.extractLsb' 5 1) (w.extractLsb' 0 3)) else none
  | 2 => if (w.extractLsb' 24 2) = 0 ∧ (w.extractLsb' 11 10) = 0 ∧ (w.extractLsb' 0 8) = 0 then some (.fclr (w.extractLsb' 21 3)) else none
  | _ => none

/-- Major 0x3A: bank operations (R199). -/
def decodeMajor3A (w : BitVec 32) : Option Instr :=
  match (w.extractLsb' 8 3).toNat with
  | 0 => if (w.extractLsb' 0 4) = 0 then some (.bkadd (w.extractLsb' 21 5) (w.extractLsb' 16 5) (w.extractLsb' 11 5) (w.extractLsb' 5 3) (w.extractLsb' 4 1)) else none
  | 1 => if (w.extractLsb' 0 4) = 0 then some (.bkred (w.extractLsb' 21 5) (w.extractLsb' 16 5) (w.extractLsb' 11 5) (w.extractLsb' 5 3) (w.extractLsb' 4 1)) else none
  | 2 => if (w.extractLsb' 0 4) = 0 then some (.bkcx (w.extractLsb' 21 5) (w.extractLsb' 16 5) (w.extractLsb' 11 5) (w.extractLsb' 5 3) (w.extractLsb' 4 1)) else none
  | 3 => if (w.extractLsb' 0 5) = 16 then some (.bksax (w.extractLsb' 21 5) (w.extractLsb' 16 5) (w.extractLsb' 11 5) (w.extractLsb' 5 3)) else none
  | _ => none

/-- Major 0x3B: strands and vissue (R200). -/
def decodeMajor3B (w : BitVec 32) : Option Instr :=
  match (w.extractLsb' 0 5).toNat with
  | 0 => if (w.extractLsb' 5 16) = 0 then some (.lfork (w.extractLsb' 21 5)) else none
  | 1 => if (w.extractLsb' 21 5) = 0 ∧ (w.extractLsb' 5 11) = 0 then some (.ljoin (w.extractLsb' 16 5)) else none
  | 2 => if (w.extractLsb' 21 5) = 0 ∧ (w.extractLsb' 11 5) = 0 ∧ (w.extractLsb' 5 3) = 0 then some (.vissue (w.extractLsb' 16 5) (w.extractLsb' 8 3)) else none
  | 3 => if (w.extractLsb' 21 5) = 0 ∧ (w.extractLsb' 5 11) = 0 then some (.cspawn (w.extractLsb' 16 5)) else none
  | 4 => if (w.extractLsb' 21 5) = 0 ∧ (w.extractLsb' 5 11) = 0 then some (.cjoin (w.extractLsb' 16 5)) else none
  | 5 => if (w.extractLsb' 5 21) = 0 then some (.cend) else none
  | _ => none

/-- Major 0x3C: barriers (R200). -/
def decodeMajor3C (w : BitVec 32) : Option Instr :=
  match (w.extractLsb' 16 5).toNat with
  | 0 => if (w.extractLsb' 21 5) = 0 then some (.barArrive (w.extractLsb' 0 16)) else none
  | 1 => if (w.extractLsb' 21 5) = 0 then some (.barWait (w.extractLsb' 0 16)) else none
  | 2 => some (.barSet (w.extractLsb' 21 5) (w.extractLsb' 0 16))
  | _ => none

/-- Major 0x3D: Aqueduct (R200). -/
def decodeMajor3D (w : BitVec 32) : Option Instr :=
  match (w.extractLsb' 8 3).toNat with
  | 0 => if (w.extractLsb' 0 8) = 0 then some (.aqPut (w.extractLsb' 21 5) (w.extractLsb' 16 5) (w.extractLsb' 11 5)) else none
  | 1 => if (w.extractLsb' 0 8) = 0 then some (.aqGet (w.extractLsb' 21 5) (w.extractLsb' 16 5) (w.extractLsb' 11 5)) else none
  | 2 => if (w.extractLsb' 21 5) = 0 ∧ (w.extractLsb' 0 8) = 0 then some (.aqSig (w.extractLsb' 16 5) (w.extractLsb' 11 5)) else none
  | 3 => if (w.extractLsb' 21 5) = 0 ∧ (w.extractLsb' 0 8) = 0 then some (.aqColl (w.extractLsb' 16 5) (w.extractLsb' 11 5)) else none
  | 4 => if (w.extractLsb' 0 8) = 0 then some (.aqLease (w.extractLsb' 21 5) (w.extractLsb' 16 5) (w.extractLsb' 11 5)) else none
  | _ => none

/-- A word split by its major opcode (R185); a major that R185 leaves unassigned or illegal gives none. -/
def decodeRaw (w : BitVec 32) : Option Instr :=
  match (w.extractLsb' 26 6).toNat with
  | 0x01 => decodeMajor01 w
  | 0x02 => some (.addi (w.extractLsb' 21 5) (w.extractLsb' 16 5) (w.extractLsb' 0 16))
  | 0x03 => some (.andi (w.extractLsb' 21 5) (w.extractLsb' 16 5) (w.extractLsb' 0 16))
  | 0x04 => some (.ori (w.extractLsb' 21 5) (w.extractLsb' 16 5) (w.extractLsb' 0 16))
  | 0x05 => some (.xori (w.extractLsb' 21 5) (w.extractLsb' 16 5) (w.extractLsb' 0 16))
  | 0x06 => decodeMajor06 w
  | 0x07 => some (.slti (w.extractLsb' 21 5) (w.extractLsb' 16 5) (w.extractLsb' 0 16))
  | 0x08 => some (.sltni (w.extractLsb' 21 5) (w.extractLsb' 16 5) (w.extractLsb' 0 16))
  | 0x09 => some (.ldih (w.extractLsb' 21 5) (w.extractLsb' 16 5) (w.extractLsb' 0 16))
  | 0x0A => if (w.extractLsb' 16 5) = 0 then some (.adpc (w.extractLsb' 21 5) (w.extractLsb' 0 16)) else none
  | 0x0B => decodeMajor0B w
  | 0x0C => some (.beq (w.extractLsb' 21 5) (w.extractLsb' 16 5) (w.extractLsb' 0 16))
  | 0x0D => some (.bne (w.extractLsb' 21 5) (w.extractLsb' 16 5) (w.extractLsb' 0 16))
  | 0x0E => some (.blt (w.extractLsb' 21 5) (w.extractLsb' 16 5) (w.extractLsb' 0 16))
  | 0x0F => some (.bge (w.extractLsb' 21 5) (w.extractLsb' 16 5) (w.extractLsb' 0 16))
  | 0x10 => some (.bltn (w.extractLsb' 21 5) (w.extractLsb' 16 5) (w.extractLsb' 0 16))
  | 0x11 => some (.bgen (w.extractLsb' 21 5) (w.extractLsb' 16 5) (w.extractLsb' 0 16))
  | 0x12 => some (.jal (w.extractLsb' 0 26))
  | 0x13 => decodeMajor13 w
  | 0x14 => decodeMajor14 w
  | 0x15 => decodeMajor15 w
  | 0x16 => decodeMajor16 w
  | 0x19 => if (w.extractLsb' 16 5) = 0 then some (.srd (w.extractLsb' 21 5) (w.extractLsb' 0 16)) else none
  | 0x1A => if (w.extractLsb' 21 5) = 0 then some (.swr (w.extractLsb' 16 5) (w.extractLsb' 0 16)) else none
  | 0x1B => decodeMajor1B w
  | 0x1C => if (w.extractLsb' 16 10) = 0 then some (.waitc (w.extractLsb' 12 4) (w.extractLsb' 8 4) (w.extractLsb' 4 4) (w.extractLsb' 0 4)) else none
  | 0x1D => decodeMajor1D w
  | 0x1E => decodeMajor1E w
  | 0x20 => decodeMajor20 w
  | 0x21 => decodeMajor21 w
  | 0x22 => decodeMajor22 w
  | 0x23 => decodeMajor23 w
  | 0x24 => decodeMajor24 w
  | 0x25 => decodeMajor25 w
  | 0x26 => decodeMajor26 w
  | 0x27 => decodeMajor27 w
  | 0x28 => decodeMajor28 w
  | 0x29 => decodeMajor29 w
  | 0x2A => decodeMajor2A w
  | 0x2E => decodeMajor2E w
  | 0x2F => decodeMajor2F w
  | 0x30 => decodeMajor30 w
  | 0x31 => decodeMajor31 w
  | 0x34 => decodeMajor34 w
  | 0x35 => decodeMajor35 w
  | 0x36 => decodeMajor36 w
  | 0x38 => decodeMajor38 w
  | 0x39 => decodeMajor39 w
  | 0x3A => decodeMajor3A w
  | 0x3B => decodeMajor3B w
  | 0x3C => decodeMajor3C w
  | 0x3D => decodeMajor3D w
  | _ => none

/-- The instruction a word encodes; none is a word that is not an instruction (R202). -/
def decodeWord (w : BitVec 32) : Option Instr :=
  match decodeRaw w with
  | some i => if i.wellFormed then some i else none
  | none => none

/-- Four bytes of memory, lowest address first, as an instruction word (R7, R180). -/
def wordOfBytes (b0 b1 b2 b3 : BitVec 8) : BitVec 32 := b3 ++ b2 ++ b1 ++ b0

/-- Decoding on any bytes: the instruction and the bytes after it (R180). -/
def decodeBytes : List (BitVec 8) → Option (Instr × List (BitVec 8))
  | b0 :: b1 :: b2 :: b3 :: rest =>
    match decodeWord (wordOfBytes b0 b1 b2 b3) with
    | some i => some (i, rest)
    | none => none
  | _ => none

/-- The word of an instruction, from the encoding tables of R185 to R200. A step of the device that no
word encodes is given the all-zero word, which is no instruction (R90). -/
def encode : Instr → BitVec 32
  | .add d a b => 0x01#6 ++ d ++ a ++ b ++ 0#11
  | .sub d a b => 0x01#6 ++ d ++ a ++ b ++ 1#11
  | .and d a b => 0x01#6 ++ d ++ a ++ b ++ 2#11
  | .or d a b => 0x01#6 ++ d ++ a ++ b ++ 3#11
  | .xor d a b => 0x01#6 ++ d ++ a ++ b ++ 4#11
  | .andn d a b => 0x01#6 ++ d ++ a ++ b ++ 5#11
  | .sll d a b => 0x01#6 ++ d ++ a ++ b ++ 6#11
  | .srl d a b => 0x01#6 ++ d ++ a ++ b ++ 7#11
  | .sra d a b => 0x01#6 ++ d ++ a ++ b ++ 8#11
  | .slt d a b => 0x01#6 ++ d ++ a ++ b ++ 9#11
  | .sltn d a b => 0x01#6 ++ d ++ a ++ b ++ 10#11
  | .min d a b => 0x01#6 ++ d ++ a ++ b ++ 11#11
  | .max d a b => 0x01#6 ++ d ++ a ++ b ++ 12#11
  | .minn d a b => 0x01#6 ++ d ++ a ++ b ++ 13#11
  | .maxn d a b => 0x01#6 ++ d ++ a ++ b ++ 14#11
  | .mul d a b => 0x01#6 ++ d ++ a ++ b ++ 15#11
  | .mulh d a b => 0x01#6 ++ d ++ a ++ b ++ 16#11
  | .mulhn d a b => 0x01#6 ++ d ++ a ++ b ++ 17#11
  | .div d a b => 0x01#6 ++ d ++ a ++ b ++ 18#11
  | .divn d a b => 0x01#6 ++ d ++ a ++ b ++ 19#11
  | .rem d a b => 0x01#6 ++ d ++ a ++ b ++ 20#11
  | .remn d a b => 0x01#6 ++ d ++ a ++ b ++ 21#11
  | .clz d a => 0x01#6 ++ d ++ a ++ 22#16
  | .ctz d a => 0x01#6 ++ d ++ a ++ 23#16
  | .popc d a => 0x01#6 ++ d ++ a ++ 24#16
  | .sext d a n => 0x01#6 ++ d ++ a ++ 0#3 ++ n ++ 25#11
  | .zext d a n => 0x01#6 ++ d ++ a ++ 0#3 ++ n ++ 26#11
  | .addi d a i => 0x02#6 ++ d ++ a ++ i
  | .andi d a i => 0x03#6 ++ d ++ a ++ i
  | .ori d a i => 0x04#6 ++ d ++ a ++ i
  | .xori d a i => 0x05#6 ++ d ++ a ++ i
  | .slli d a s => 0x06#6 ++ d ++ a ++ 0#10 ++ s
  | .srli d a s => 0x06#6 ++ d ++ a ++ 256#10 ++ s
  | .srai d a s => 0x06#6 ++ d ++ a ++ 512#10 ++ s
  | .slti d a i => 0x07#6 ++ d ++ a ++ i
  | .sltni d a i => 0x08#6 ++ d ++ a ++ i
  | .ldih d a i => 0x09#6 ++ d ++ a ++ i
  | .adpc d i => 0x0A#6 ++ d ++ 0#5 ++ i
  | .fadd d a b m f => 0x0B#6 ++ d ++ a ++ b ++ 0#4 ++ m ++ f ++ 0#2
  | .fsub d a b m f => 0x0B#6 ++ d ++ a ++ b ++ 1#4 ++ m ++ f ++ 0#2
  | .fmul d a b m f => 0x0B#6 ++ d ++ a ++ b ++ 2#4 ++ m ++ f ++ 0#2
  | .fdiv d a b m f => 0x0B#6 ++ d ++ a ++ b ++ 3#4 ++ m ++ f ++ 0#2
  | .fsqrt d a m f => 0x0B#6 ++ d ++ a ++ 4#9 ++ m ++ f ++ 0#2
  | .fma d a b m f => 0x0B#6 ++ d ++ a ++ b ++ 5#4 ++ m ++ f ++ 0#2
  | .fmin d a b f => 0x0B#6 ++ d ++ a ++ b ++ 48#7 ++ f ++ 0#2
  | .fmax d a b f => 0x0B#6 ++ d ++ a ++ b ++ 56#7 ++ f ++ 0#2
  | .fcmp d a b f p => 0x0B#6 ++ d ++ a ++ b ++ 64#7 ++ f ++ p
  | .fcvt d a s m t => 0x0B#6 ++ d ++ a ++ 0#1 ++ s ++ 9#4 ++ m ++ t
  | .fclass d a f => 0x0B#6 ++ d ++ a ++ 80#12 ++ f ++ 0#2
  | .beq a b o => 0x0C#6 ++ a ++ b ++ o
  | .bne a b o => 0x0D#6 ++ a ++ b ++ o
  | .blt a b o => 0x0E#6 ++ a ++ b ++ o
  | .bge a b o => 0x0F#6 ++ a ++ b ++ o
  | .bltn a b o => 0x10#6 ++ a ++ b ++ o
  | .bgen a b o => 0x11#6 ++ a ++ b ++ o
  | .jal o => 0x12#6 ++ o
  | .jr a => 0x13#6 ++ a ++ 0#21
  | .lpSet a k => 0x13#6 ++ a ++ 1#5 ++ k
  | .lpBrk a => 0x13#6 ++ a ++ 131072#21
  | .lpBrkZ a => 0x13#6 ++ a ++ 131073#21
  | .rframe g n d a b => 0x13#6 ++ g ++ 3#5 ++ n ++ d ++ a ++ b
  | .halt => 0x13#6 ++ 262144#26
  | .ldB d a e => 0x14#6 ++ d ++ a ++ e ++ 0#4
  | .ldBn d a e => 0x14#6 ++ d ++ a ++ e ++ 1#4
  | .ldH d a e => 0x14#6 ++ d ++ a ++ e ++ 2#4
  | .ldHn d a e => 0x14#6 ++ d ++ a ++ e ++ 3#4
  | .ldW d a e => 0x14#6 ++ d ++ a ++ e ++ 4#4
  | .ldWn d a e => 0x14#6 ++ d ++ a ++ e ++ 5#4
  | .ldD d a e => 0x14#6 ++ d ++ a ++ e ++ 6#4
  | .gl d a e => 0x14#6 ++ d ++ a ++ e ++ 7#4
  | .stB d a e => 0x15#6 ++ d ++ a ++ e ++ 0#4
  | .stH d a e => 0x15#6 ++ d ++ a ++ e ++ 1#4
  | .stW d a e => 0x15#6 ++ d ++ a ++ e ++ 2#4
  | .stD d a e => 0x15#6 ++ d ++ a ++ e ++ 3#4
  | .sc d a b => 0x16#6 ++ d ++ a ++ b ++ 0#11
  | .apnd d a b z => 0x16#6 ++ d ++ a ++ b ++ 64#9 ++ z
  | .seal a => 0x16#6 ++ 0#5 ++ a ++ 512#16
  | .sealq d a => 0x16#6 ++ d ++ a ++ 768#16
  | .srd d s => 0x19#6 ++ d ++ 0#5 ++ s
  | .swr a s => 0x1A#6 ++ 0#5 ++ a ++ s
  | .svc n => 0x1B#6 ++ n ++ 0#16
  | .tret => 0x1B#6 ++ 1#26
  | .fenceSv => 0x1B#6 ++ 16#26
  | .fenceVs => 0x1B#6 ++ 17#26
  | .fenceVv => 0x1B#6 ++ 18#26
  | .fenceSys => 0x1B#6 ++ 19#26
  | .drainPln => 0x1B#6 ++ 32#26
  | .drainSpm => 0x1B#6 ++ 33#26
  | .drainFold => 0x1B#6 ++ 34#26
  | .drainBk => 0x1B#6 ++ 35#26
  | .drainAq => 0x1B#6 ++ 36#26
  | .idle => 0x1B#6 ++ 48#26
  | .waitc l s c t => 0x1C#6 ++ 0#10 ++ l ++ s ++ c ++ t
  | .cclean a b => 0x1D#6 ++ 0#5 ++ a ++ b ++ 0#11
  | .cinval a b => 0x1D#6 ++ 0#5 ++ a ++ b ++ 1#11
  | .tlbinv a b => 0x1D#6 ++ 0#5 ++ a ++ b ++ 2#11
  | .pcal a => 0x1D#6 ++ 0#5 ++ a ++ 3#16
  | .vsave a => 0x1E#6 ++ 0#5 ++ a ++ 0#16
  | .vrestore a => 0x1E#6 ++ 0#5 ++ a ++ 1#16
  | .vfree a => 0x1E#6 ++ 0#5 ++ a ++ 2#16
  | .vsetn d a s t => 0x20#6 ++ d ++ a ++ 0#3 ++ s ++ 0#3 ++ t ++ 0#5
  | .vsetnFloat d a s t => 0x20#6 ++ d ++ a ++ 0#3 ++ s ++ 0#3 ++ t ++ 1#5
  | .vgetn d => 0x20#6 ++ d ++ 2#21
  | .vslip s => 0x20#6 ++ 0#10 ++ s ++ 3#11
  | .kand d a b => 0x21#6 ++ 0#2 ++ d ++ 0#2 ++ a ++ 0#2 ++ b ++ 0#11
  | .kor d a b => 0x21#6 ++ 0#2 ++ d ++ 0#2 ++ a ++ 0#2 ++ b ++ 1#11
  | .kxor d a b => 0x21#6 ++ 0#2 ++ d ++ 0#2 ++ a ++ 0#2 ++ b ++ 2#11
  | .kandn d a b => 0x21#6 ++ 0#2 ++ d ++ 0#2 ++ a ++ 0#2 ++ b ++ 3#11
  | .knot d a => 0x21#6 ++ 0#2 ++ d ++ 0#2 ++ a ++ 4#16
  | .kmov d a => 0x21#6 ++ 0#2 ++ d ++ 0#2 ++ a ++ 5#16
  | .kpop d a => 0x21#6 ++ d ++ 0#2 ++ a ++ 6#16
  | .kfirst d a => 0x21#6 ++ d ++ 0#2 ++ a ++ 7#16
  | .kset d a => 0x21#6 ++ 0#2 ++ d ++ a ++ 8#16
  | .kshl d a s => 0x21#6 ++ 0#2 ++ d ++ 0#2 ++ a ++ s ++ 9#11
  | .kshr d a s => 0x21#6 ++ 0#2 ++ d ++ 0#2 ++ a ++ s ++ 10#11
  | .vadd d a b k t => 0x22#6 ++ d ++ a ++ b ++ k ++ t ++ 0#5
  | .vsub d a b k t => 0x22#6 ++ d ++ a ++ b ++ k ++ t ++ 1#5
  | .vrsub d a b k t => 0x22#6 ++ d ++ a ++ b ++ k ++ t ++ 2#5
  | .vmul d a b k t => 0x22#6 ++ d ++ a ++ b ++ k ++ t ++ 3#5
  | .vmulh d a b k t => 0x22#6 ++ d ++ a ++ b ++ k ++ t ++ 4#5
  | .vmulhn d a b k t => 0x22#6 ++ d ++ a ++ b ++ k ++ t ++ 5#5
  | .vmadd d a b k t => 0x22#6 ++ d ++ a ++ b ++ k ++ t ++ 6#5
  | .vmin d a b k t => 0x22#6 ++ d ++ a ++ b ++ k ++ t ++ 7#5
  | .vmax d a b k t => 0x22#6 ++ d ++ a ++ b ++ k ++ t ++ 8#5
  | .vminn d a b k t => 0x22#6 ++ d ++ a ++ b ++ k ++ t ++ 9#5
  | .vmaxn d a b k t => 0x22#6 ++ d ++ a ++ b ++ k ++ t ++ 10#5
  | .vand d a b k t => 0x22#6 ++ d ++ a ++ b ++ k ++ t ++ 11#5
  | .vor d a b k t => 0x22#6 ++ d ++ a ++ b ++ k ++ t ++ 12#5
  | .vxor d a b k t => 0x22#6 ++ d ++ a ++ b ++ k ++ t ++ 13#5
  | .vsll d a b k t => 0x22#6 ++ d ++ a ++ b ++ k ++ t ++ 14#5
  | .vsrl d a b k t => 0x22#6 ++ d ++ a ++ b ++ k ++ t ++ 15#5
  | .vsra d a b k t => 0x22#6 ++ d ++ a ++ b ++ k ++ t ++ 16#5
  | .vsadd d a b k t => 0x22#6 ++ d ++ a ++ b ++ k ++ t ++ 17#5
  | .vssub d a b k t => 0x22#6 ++ d ++ a ++ b ++ k ++ t ++ 18#5
  | .vadc d a b k t => 0x22#6 ++ d ++ a ++ b ++ k ++ t ++ 19#5
  | .vsbc d a b k t => 0x22#6 ++ d ++ a ++ b ++ k ++ t ++ 20#5
  | .vmerge d a b k t => 0x22#6 ++ d ++ a ++ b ++ k ++ t ++ 21#5
  | .vmov d a k t => 0x22#6 ++ d ++ a ++ 0#5 ++ k ++ t ++ 22#5
  | .vsext d a s k t => 0x22#6 ++ d ++ a ++ 0#2 ++ s ++ k ++ t ++ 23#5
  | .vzext d a s k t => 0x22#6 ++ d ++ a ++ 0#2 ++ s ++ k ++ t ++ 24#5
  | .vclz d a k t => 0x22#6 ++ d ++ a ++ 0#5 ++ k ++ t ++ 25#5
  | .vpopc d a k t => 0x22#6 ++ d ++ a ++ 0#5 ++ k ++ t ++ 26#5
  | .vsllImm d a s k t => 0x23#6 ++ d ++ a ++ s ++ k ++ t ++ 0#5
  | .vsrlImm d a s k t => 0x23#6 ++ d ++ a ++ s ++ k ++ t ++ 1#5
  | .vsraImm d a s k t => 0x23#6 ++ d ++ a ++ s ++ k ++ t ++ 2#5
  | .vcmpEq d a b k t => 0x24#6 ++ 0#2 ++ d ++ a ++ b ++ k ++ t ++ 0#5
  | .vcmpNe d a b k t => 0x24#6 ++ 0#2 ++ d ++ a ++ b ++ k ++ t ++ 1#5
  | .vcmpLt d a b k t => 0x24#6 ++ 0#2 ++ d ++ a ++ b ++ k ++ t ++ 2#5
  | .vcmpLe d a b k t => 0x24#6 ++ 0#2 ++ d ++ a ++ b ++ k ++ t ++ 3#5
  | .vcmpLtn d a b k t => 0x24#6 ++ 0#2 ++ d ++ a ++ b ++ k ++ t ++ 4#5
  | .vcmpLen d a b k t => 0x24#6 ++ 0#2 ++ d ++ a ++ b ++ k ++ t ++ 5#5
  | .vnarrowWrap d a s k t => 0x25#6 ++ d ++ a ++ 0#2 ++ s ++ k ++ t ++ 0#5
  | .vnarrowSat d a s k t => 0x25#6 ++ d ++ a ++ 0#2 ++ s ++ k ++ t ++ 1#5
  | .vfadd d a b k t => 0x26#6 ++ d ++ a ++ b ++ k ++ t ++ 0#5
  | .vfsub d a b k t => 0x26#6 ++ d ++ a ++ b ++ k ++ t ++ 1#5
  | .vfmul d a b k t => 0x26#6 ++ d ++ a ++ b ++ k ++ t ++ 2#5
  | .vfdiv d a b k t => 0x26#6 ++ d ++ a ++ b ++ k ++ t ++ 3#5
  | .vfsqrt d a k t => 0x26#6 ++ d ++ a ++ 0#5 ++ k ++ t ++ 4#5
  | .vfma d a b k t => 0x26#6 ++ d ++ a ++ b ++ k ++ t ++ 5#5
  | .vfnma d a b k t => 0x26#6 ++ d ++ a ++ b ++ k ++ t ++ 6#5
  | .vfmin d a b k t => 0x26#6 ++ d ++ a ++ b ++ k ++ t ++ 7#5
  | .vfmax d a b k t => 0x26#6 ++ d ++ a ++ b ++ k ++ t ++ 8#5
  | .vfexp2 d a k t => 0x26#6 ++ d ++ a ++ 0#5 ++ k ++ t ++ 9#5
  | .vfrsqrt d a k t => 0x26#6 ++ d ++ a ++ 0#5 ++ k ++ t ++ 10#5
  | .vfcvt d a s k t => 0x26#6 ++ d ++ a ++ 0#3 ++ s ++ k ++ t ++ 16#5
  | .vfcvtIntToFloat d a s k t => 0x26#6 ++ d ++ a ++ 0#2 ++ s ++ k ++ t ++ 17#5
  | .vfcvtFloatToInt d a s k t => 0x26#6 ++ d ++ a ++ 0#3 ++ s ++ k ++ t ++ 18#5
  | .vfcmpEq d a b k t => 0x27#6 ++ 0#2 ++ d ++ a ++ b ++ k ++ t ++ 0#5
  | .vfcmpNe d a b k t => 0x27#6 ++ 0#2 ++ d ++ a ++ b ++ k ++ t ++ 1#5
  | .vfcmpLt d a b k t => 0x27#6 ++ 0#2 ++ d ++ a ++ b ++ k ++ t ++ 2#5
  | .vfcmpLe d a b k t => 0x27#6 ++ 0#2 ++ d ++ a ++ b ++ k ++ t ++ 3#5
  | .vfcmpUn d a b k t => 0x27#6 ++ 0#2 ++ d ++ a ++ b ++ k ++ t ++ 4#5
  | .vredsumWrap d a s k t => 0x28#6 ++ d ++ a ++ s ++ k ++ t ++ 0#5
  | .vredsumSat d a s k t => 0x28#6 ++ d ++ a ++ s ++ k ++ t ++ 1#5
  | .vredmin d a s k t => 0x28#6 ++ d ++ a ++ s ++ k ++ t ++ 2#5
  | .vredmax d a s k t => 0x28#6 ++ d ++ a ++ s ++ k ++ t ++ 3#5
  | .vfredsum d a s k t => 0x28#6 ++ d ++ a ++ s ++ k ++ t ++ 4#5
  | .vfredmax d a s k t => 0x28#6 ++ d ++ a ++ s ++ k ++ t ++ 5#5
  | .vslideup d a b k t => 0x29#6 ++ d ++ a ++ b ++ k ++ t ++ 0#5
  | .vslidedn d a b k t => 0x29#6 ++ d ++ a ++ b ++ k ++ t ++ 1#5
  | .vperm d a b k t => 0x29#6 ++ d ++ a ++ b ++ k ++ t ++ 2#5
  | .vcomp d a k t => 0x29#6 ++ d ++ a ++ 0#5 ++ k ++ t ++ 3#5
  | .vexpand d a k t => 0x29#6 ++ d ++ a ++ 0#5 ++ k ++ t ++ 4#5
  | .vbcast d a k t => 0x29#6 ++ d ++ a ++ 0#5 ++ k ++ t ++ 5#5
  | .vext d a b t => 0x29#6 ++ d ++ a ++ b ++ 0#3 ++ t ++ 6#5
  | .vins d a b t => 0x29#6 ++ d ++ a ++ b ++ 0#3 ++ t ++ 7#5
  | .vquantI8 d a b k t => 0x2A#6 ++ d ++ a ++ b ++ k ++ t ++ 0#5
  | .vquantI4 d a b k t => 0x2A#6 ++ d ++ a ++ b ++ k ++ t ++ 1#5
  | .vquantTern d a b k t => 0x2A#6 ++ d ++ a ++ b ++ k ++ t ++ 2#5
  | .vdeqNq4 d a b k t => 0x2A#6 ++ d ++ a ++ b ++ k ++ t ++ 8#5
  | .vdeqE2m1 d a b k t => 0x2A#6 ++ d ++ a ++ b ++ k ++ t ++ 9#5
  | .vdeqTern d a b k t => 0x2A#6 ++ d ++ a ++ b ++ k ++ t ++ 10#5
  | .vquantPi d a b k t w => 0x2A#6 ++ d ++ a ++ b ++ k ++ t ++ 2#2 ++ w
  | .vld d a k t => 0x2E#6 ++ d ++ a ++ 0#5 ++ k ++ t ++ 0#5
  | .vst d a k t => 0x2E#6 ++ d ++ a ++ 0#5 ++ k ++ t ++ 1#5
  | .vlds d a b k t => 0x2F#6 ++ d ++ a ++ b ++ k ++ t ++ 0#5
  | .vsts d a b k t => 0x2F#6 ++ d ++ a ++ b ++ k ++ t ++ 1#5
  | .vldx d a i k t => 0x30#6 ++ d ++ a ++ i ++ k ++ t ++ 0#5
  | .vstx d a i k t => 0x30#6 ++ d ++ a ++ i ++ k ++ t ++ 1#5
  | .vgl d a i k t => 0x30#6 ++ d ++ a ++ i ++ k ++ t ++ 2#5
  | .vsc d a i k t => 0x30#6 ++ d ++ a ++ i ++ k ++ t ++ 3#5
  | .vapnd s a d k t => 0x31#6 ++ s ++ a ++ d ++ k ++ t ++ 0#5
  | .vldp d a b k t => 0x31#6 ++ d ++ a ++ b ++ k ++ t ++ 1#5
  | .vstp d a b k t => 0x31#6 ++ d ++ a ++ b ++ k ++ t ++ 2#5
  | .vldsp d a k t => 0x31#6 ++ d ++ a ++ 0#5 ++ k ++ t ++ 3#5
  | .vstsp d a k t => 0x31#6 ++ d ++ a ++ 0#5 ++ k ++ t ++ 4#5
  | .padd d a b w => 0x34#6 ++ d ++ a ++ b ++ w ++ 0#6
  | .psub d a b w => 0x34#6 ++ d ++ a ++ b ++ w ++ 1#6
  | .pmul d a b w => 0x34#6 ++ d ++ a ++ b ++ w ++ 2#6
  | .pcmp d a b w => 0x34#6 ++ d ++ a ++ b ++ w ++ 3#6
  | .pand d a b w => 0x34#6 ++ d ++ a ++ b ++ w ++ 4#6
  | .por d a b w => 0x34#6 ++ d ++ a ++ b ++ w ++ 5#6
  | .pxor d a b w => 0x34#6 ++ d ++ a ++ b ++ w ++ 6#6
  | .pnot d a w => 0x34#6 ++ d ++ a ++ 0#5 ++ w ++ 7#6
  | .psel d a b w => 0x34#6 ++ d ++ a ++ b ++ w ++ 8#6
  | .pshl d a b w => 0x34#6 ++ d ++ a ++ b ++ w ++ 9#6
  | .pshr d a b w => 0x34#6 ++ d ++ a ++ b ++ w ++ 10#6
  | .pcopy d a w => 0x34#6 ++ d ++ a ++ 0#5 ++ w ++ 11#6
  | .pfill d b w => 0x34#6 ++ d ++ 0#5 ++ b ++ w ++ 12#6
  | .plock d => 0x35#6 ++ d ++ 0#21
  | .punlock d => 0x35#6 ++ d ++ 1#21
  | .pprog d a n => 0x35#6 ++ d ++ a ++ n ++ 2#6
  | .rowcp d s => 0x36#6 ++ d ++ s ++ 0#16
  | .rowmaj x y z => 0x36#6 ++ 0#5 ++ x ++ y ++ z ++ 1#6
  | .rownot d s => 0x36#6 ++ d ++ s ++ 2#16
  | .rowshl d s c => 0x36#6 ++ d ++ s ++ 0#5 ++ c ++ 3#6
  | .rowshr d s c => 0x36#6 ++ d ++ s ++ 0#5 ++ c ++ 4#6
  | .plant a b n => 0x38#6 ++ 0#5 ++ a ++ b ++ n ++ 0#8
  | .plantChained d a b n m => 0x38#6 ++ 0#2 ++ d ++ a ++ b ++ n ++ 1#1 ++ m ++ 0#5
  | .fold d a b m => 0x39#6 ++ 0#2 ++ d ++ a ++ b ++ 0#3 ++ m ++ 0#6
  | .fread d a b y s n => 0x39#6 ++ d ++ a ++ b ++ 1#3 ++ y ++ s ++ 0#2 ++ n
  | .fclr d => 0x39#6 ++ 0#2 ++ d ++ 512#21
  | .bkadd d a b t f => 0x3A#6 ++ d ++ a ++ b ++ 0#3 ++ t ++ f ++ 0#4
  | .bkred d a b t f => 0x3A#6 ++ d ++ a ++ b ++ 1#3 ++ t ++ f ++ 0#4
  | .bkcx d a b t f => 0x3A#6 ++ d ++ a ++ b ++ 2#3 ++ t ++ f ++ 0#4
  | .bksax d a b t => 0x3A#6 ++ d ++ a ++ b ++ 3#3 ++ t ++ 16#5
  | .lfork d => 0x3B#6 ++ d ++ 0#21
  | .ljoin a => 0x3B#6 ++ 0#5 ++ a ++ 1#16
  | .vissue a k => 0x3B#6 ++ 0#5 ++ a ++ 0#5 ++ k ++ 2#8
  | .cspawn a => 0x3B#6 ++ 0#5 ++ a ++ 3#16
  | .cjoin a => 0x3B#6 ++ 0#5 ++ a ++ 4#16
  | .cend => 0x3B#6 ++ 5#26
  | .barArrive g => 0x3C#6 ++ 0#10 ++ g
  | .barWait g => 0x3C#6 ++ 1#10 ++ g
  | .barSet a g => 0x3C#6 ++ a ++ 2#5 ++ g
  | .aqPut d a b => 0x3D#6 ++ d ++ a ++ b ++ 0#11
  | .aqGet d a b => 0x3D#6 ++ d ++ a ++ b ++ 256#11
  | .aqSig a b => 0x3D#6 ++ 0#5 ++ a ++ b ++ 512#11
  | .aqColl a b => 0x3D#6 ++ 0#5 ++ a ++ b ++ 768#11
  | .aqLease d a b => 0x3D#6 ++ d ++ a ++ b ++ 1024#11
  | .deviceReset => 0#32
  | .resetReleased => 0#32
  | .verify => 0#32
  | .init => 0#32
  | .bootcmd => 0#32
  | .attestationQuote => 0#32
  | .certificatePieceFirst => 0#32
  | .certificatePieceNext => 0#32
  | .attestationCommandDone => 0#32
  | .linkTraining => 0#32
  | .portLinkDown => 0#32
  | .renewal => 0#32
  | .claim => 0#32
  | .release => 0#32
  | .leaseLapse => 0#32
  | .doorbell => 0#32
  | .queueEnable => 0#32
  | .queueDisable => 0#32
  | .queueReset => 0#32
  | .registerWrite => 0#32
  | .launchRecordHead => 0#32
  | .signalReread => 0#32
  | .signalPoll => 0#32
  | .admission => 0#32
  | .copyDescriptorComplete => 0#32
  | .continuationPop => 0#32
  | .awaitedCondition => 0#32
  | .strandEnd => 0#32
  | .launchRetirement => 0#32
  | .completionRecord => 0#32
  | .weirClk => 0#32
  | .pulseFrame => 0#32
  | .preemptionRequest => 0#32
  | .preemption => 0#32
  | .looplateCount => 0#32
  | .vectorFaultDump => 0#32
  | .ctxtabWrite => 0#32
  | .ctxidWrite => 0#32
  | .fctlWrite => 0#32
  | .hdmtWrite => 0#32
  | .arfWrite => 0#32
  | .castpoolWrite => 0#32
  | .migrationCopy => 0#32
  | .migrationIdle => 0#32
  | .migrationLineCopy => 0#32
  | .pageWalk => 0#32
  | .atsTranslationCompletion => 0#32
  | .pageRequestGroupResponse => 0#32
  | .atsInvalidationRequest => 0#32
  | .invalidationCompletion => 0#32
  | .hostSnoop => 0#32
  | .hdmAccess => 0#32
  | .bankSlot => 0#32
  | .refreshDeadline => 0#32
  | .scratchpadRefresh => 0#32
  | .thermalSample => 0#32
  | .lockGrant => 0#32
  | .lockRelease => 0#32
  | .planeInstructionComplete => 0#32
  | .plantLatchLoadComplete => 0#32
  | .foldComplete => 0#32
  | .bankOperationComplete => 0#32
  | .operationCompletion => 0#32
  | .aqueductMessage => 0#32
  | .transferFailure => 0#32
  | .peerLeaseExpiry => 0#32
  | .castFetch => 0#32
  | .collectiveStepTimeout => 0#32
  | .timeSyncExchange => 0#32
  | .syncLoss => 0#32
  | .suspendArm => 0#32
  | .resumeArm => 0#32
  | .suspendCancel => 0#32
  | .stopping => 0#32
  | .suspendAbandoned => 0#32
  | .saving => 0#32
  | .restoring => 0#32
  | .currentHold => 0#32
  | .capHold => 0#32
  | .energyApportion => 0#32
  | .monitorUpdate => 0#32
  | .illegalInstruction => 0#32
  | .codeEndFault => 0#32
  | .cacheEviction => 0#32
  | .logicalLeaseExpiry => 0#32

/-- The decoder on an opcode-table word: every word of the table is one 32-bit little-endian word (R180). -/
def decodeTableWord (nbits w : Nat) : Option Instr :=
  let x := BitVec.ofNat 32 (w % 2 ^ nbits)
  match decodeBytes [x.extractLsb' 0 8, x.extractLsb' 8 8, x.extractLsb' 16 8, x.extractLsb' 24 8] with
  | some (i, _) => some i
  | none => none

end Sys2Proof
end

