-- ==== Sys2Proof/Machine/Number.lean ====
section
/-! DEFINITION. Integers and floating point (R41 to R55): every float result is an exact dyadic number rounded
once. A float is read as a `FVal`; `FFmt.round` delivers bits and flags. -/
namespace Sys2Proof.Machine
open Sys2Proof

/-- Wrap(x, w) read as an unsigned number: the low `w` bits of an integer (R43). -/
def wrapNat (x : Int) (w : Nat) : Nat := (x % (2 ^ w : Nat)).toNat

/-- The signed value of the low `w` bits of a number (SignExt). -/
def signedOf (n w : Nat) : Int :=
  let m := n % 2 ^ w
  if 2 * m < 2 ^ w then (m : Int) else (m : Int) - (2 ^ w : Nat)

/-- The value of an element pattern under an integer type code: signed for an i code, unsigned for an n code (R42). -/
def intValue (unsigned : Bool) (w n : Nat) : Int :=
  if unsigned then ((n % 2 ^ w : Nat) : Int) else signedOf n w

/-- The least value of an integer type (R41). -/
def intMin (unsigned : Bool) (w : Nat) : Int := if unsigned then 0 else -((2 ^ (w - 1) : Nat) : Int)

/-- The greatest value of an integer type (R41). -/
def intMax (unsigned : Bool) (w : Nat) : Int :=
  if unsigned then ((2 ^ w : Nat) : Int) - 1 else ((2 ^ (w - 1) : Nat) : Int) - 1

/-- Sat(x, w) and SatN(x, w), with whether the value was clamped (R43, R44). -/
def saturate (unsigned : Bool) (w : Nat) (x : Int) : Int × Bool :=
  if x < intMin unsigned w then (intMin unsigned w, true)
  else if intMax unsigned w < x then (intMax unsigned w, true)
  else (x, false)

/-- The five sticky flags, bits NV, DZ, OF, UF, NX of FCTL (R51, R52). -/
abbrev FFlags := BitVec 5

def flagNV : FFlags := 16
def flagDZ : FFlags := 8
def flagOF : FFlags := 4
def flagUF : FFlags := 2
def flagNX : FFlags := 1

/-- A floating-point format: exponent bits, fraction bits, and whether it flushes subnormals (R45, R49). -/
structure FFmt where
  ebits : Nat
  fbits : Nat
  flush : Bool
  deriving DecidableEq, Repr

/-- The format of a float type code (R47); the reserved codes never reach here. -/
def FFmt.ofCode (t : Nat) : FFmt :=
  match t % 4 with
  | 0 => ⟨8, 7, true⟩
  | 1 => ⟨5, 10, false⟩
  | 2 => ⟨8, 23, false⟩
  | _ => ⟨11, 52, false⟩

def FFmt.width (f : FFmt) : Nat := 1 + f.ebits + f.fbits
def FFmt.bias (f : FFmt) : Nat := 2 ^ (f.ebits - 1) - 1
def FFmt.emax (f : FFmt) : Nat := 2 ^ f.ebits - 1

def FFmt.f32 : FFmt := ⟨8, 23, false⟩
def FFmt.b16 : FFmt := ⟨8, 7, true⟩

/-- A float as read: a NaN (signalling or quiet), an infinity, or `± m × 2^e` (R46). -/
inductive FVal where
  | nan (signalling : Bool)
  | inf (neg : Bool)
  | fin (neg : Bool) (m : Nat) (e : Int)
  deriving DecidableEq, Repr

/-- F(v): the low bits of a pattern read as a format; a b16 with exponent field 0 is a zero (R46, R49, R225). -/
def FFmt.read (f : FFmt) (n : Nat) : FVal :=
  let frac := n % 2 ^ f.fbits
  let ex := n / 2 ^ f.fbits % 2 ^ f.ebits
  let neg := n / 2 ^ (f.fbits + f.ebits) % 2 = 1
  if ex = f.emax then (if frac = 0 then .inf neg else .nan (frac < 2 ^ (f.fbits - 1)))
  else if ex = 0 then
    (if f.flush then .fin neg 0 0 else .fin neg frac (1 - (f.bias : Int) - f.fbits))
  else .fin neg (2 ^ f.fbits + frac) ((ex : Int) - f.bias - f.fbits)

/-- A pattern of a format from its sign, exponent field and fraction. -/
def FFmt.pack (f : FFmt) (neg : Bool) (ex frac : Nat) : Nat :=
  (if neg then 2 ^ (f.fbits + f.ebits) else 0) + ex * 2 ^ f.fbits + frac

def FFmt.nan (f : FFmt) : Nat := f.pack false f.emax (2 ^ (f.fbits - 1))
def FFmt.inf (f : FFmt) (neg : Bool) : Nat := f.pack neg f.emax 0
def FFmt.zero (f : FFmt) (neg : Bool) : Nat := f.pack neg 0 0
def FFmt.largest (f : FFmt) (neg : Bool) : Nat := f.pack neg (f.emax - 1) (2 ^ f.fbits - 1)

/-- Whether a magnitude with the remainder `rem` of `2^shift` (and a sticky part below it) rounds up (R48). -/
def roundsUp (mode : Nat) (neg : Bool) (sig rem half : Nat) (sticky : Bool) : Bool :=
  match mode with
  | 0 => half < rem || (rem = half && (sticky || sig % 2 = 1))
  | 1 => false
  | 2 => neg && (rem ≠ 0 || sticky)
  | 3 => !neg && (rem ≠ 0 || sticky)
  | _ => half ≤ rem

/-- `m × 2^e`, with a sticky part below the last bit of `m`, rounded to a multiple of `2^q`: the multiple, and
whether it is inexact. A sticky part needs `e < q`. -/
def roundAt (mode : Nat) (neg : Bool) (m : Nat) (e : Int) (sticky : Bool) (q : Int) : Nat × Bool :=
  if q ≤ e then (m * 2 ^ (e - q).toNat, sticky)
  else
    let d := (q - e).toNat
    let sig := m / 2 ^ d
    let rem := m % 2 ^ d
    (if roundsUp mode neg sig rem (2 ^ (d - 1)) sticky then sig + 1 else sig, rem ≠ 0 || sticky)

/-- The result of an overflow (R49). -/
def FFmt.overflow (f : FFmt) (mode : Nat) (neg : Bool) : Nat :=
  match mode with
  | 1 => f.largest neg
  | 2 => if neg then f.inf true else f.largest false
  | 3 => if neg then f.largest true else f.inf false
  | _ => f.inf neg

/-- A nonzero exact magnitude rounded once to a format, with the flags (R49, R51): tininess is detected after
rounding, and b16 rounds with an unbounded exponent and flushes. -/
def FFmt.roundMag (f : FFmt) (mode : Nat) (neg : Bool) (m : Nat) (e : Int) (sticky : Bool) : Nat × FFlags :=
  let top : Int := (Nat.log2 m : Int) + e
  let emin : Int := 1 - (f.bias : Int)
  let free := roundAt mode neg m e sticky (top - f.fbits)
  let ftop : Int := if free.1 = 2 ^ (f.fbits + 1) then top + 1 else top
  if (f.bias : Int) < ftop then (f.overflow mode neg, flagOF ||| flagNX)
  else if ftop < emin && f.flush then (f.zero neg, flagUF ||| flagNX)
  else
    let q : Int := max (top - f.fbits) (emin - f.fbits)
    let r := roundAt mode neg m e sticky q
    let fl : FFlags := (if r.2 then flagNX else 0) ||| (if r.2 && ftop < emin then flagUF else 0)
    if r.1 < 2 ^ f.fbits then (f.pack neg 0 r.1, fl)
    else if r.1 = 2 ^ (f.fbits + 1) then (f.pack neg (q + 1 + f.fbits + f.bias).toNat 0, fl)
    else (f.pack neg (q + f.fbits + f.bias).toNat (r.1 - 2 ^ f.fbits), fl)

/-- Round(x, m, f) of an exact value; an exact zero keeps the sign it is given (R49). -/
def FFmt.round (f : FFmt) (mode : Nat) (neg : Bool) (m : Nat) (e : Int) (sticky : Bool := false) : Nat × FFlags :=
  if m = 0 then (f.zero neg, 0) else f.roundMag mode neg m e sticky

/-- Delivering a value as read, rounded to a format (conversions, R55). -/
def FFmt.deliver (f : FFmt) (mode : Nat) : FVal → Nat × FFlags
  | .nan s => (f.nan, if s then flagNV else 0)
  | .inf n => (f.inf n, 0)
  | .fin n m e => f.round mode n m e

/-- NV when an operand is a signalling NaN (R50). -/
def FVal.snan : FVal → Bool
  | .nan s => s
  | _ => false

def FVal.isNan : FVal → Bool
  | .nan _ => true
  | _ => false

/-- The canonical NaN of a NaN operand, with NV if one of the operands signals (R225). -/
def FFmt.nanOf (f : FFmt) (signalling : Bool) : Nat × FFlags := (f.nan, if signalling then flagNV else 0)

/-- The signed integer of a sign and a magnitude. -/
def signed (neg : Bool) (m : Nat) : Int := if neg then -(m : Int) else m

/-- The exact sum of two finite values, as sign, magnitude and exponent; an exact zero of operands of opposite sign
is +0, or −0 under RDN (R225). -/
def addExact (mode : Nat) (n1 : Bool) (m1 : Nat) (e1 : Int) (n2 : Bool) (m2 : Nat) (e2 : Int) : Bool × Nat × Int :=
  let e := min e1 e2
  let x := signed n1 (m1 * 2 ^ (e1 - e).toNat) + signed n2 (m2 * 2 ^ (e2 - e).toNat)
  if x = 0 then (if n1 = n2 then n1 else mode = 2, 0, 0)
  else (x < 0, x.natAbs, e)

def FVal.negate : FVal → FVal
  | .nan s => .nan s
  | .inf n => .inf !n
  | .fin n m e => .fin (!n) m e

/-- fadd (R225). -/
def FFmt.add (f : FFmt) (mode : Nat) (x y : FVal) : Nat × FFlags :=
  match x, y with
  | .nan s, y => f.nanOf (s || y.snan)
  | x, .nan s => f.nanOf (s || x.snan)
  | .inf a, .inf b => if a = b then (f.inf a, 0) else (f.nan, flagNV)
  | .inf a, .fin _ _ _ => (f.inf a, 0)
  | .fin _ _ _, .inf b => (f.inf b, 0)
  | .fin n1 m1 e1, .fin n2 m2 e2 =>
    let r := addExact mode n1 m1 e1 n2 m2 e2
    f.round mode r.1 r.2.1 r.2.2

/-- fsub (R225). -/
def FFmt.sub (f : FFmt) (mode : Nat) (x y : FVal) : Nat × FFlags := f.add mode x y.negate

/-- fmul (R225). -/
def FFmt.mul (f : FFmt) (mode : Nat) (x y : FVal) : Nat × FFlags :=
  match x, y with
  | .nan s, y => f.nanOf (s || y.snan)
  | x, .nan s => f.nanOf (s || x.snan)
  | .inf a, .inf b => (f.inf (a != b), 0)
  | .inf a, .fin b m _ => if m = 0 then (f.nan, flagNV) else (f.inf (a != b), 0)
  | .fin a m _, .inf b => if m = 0 then (f.nan, flagNV) else (f.inf (a != b), 0)
  | .fin n1 m1 e1, .fin n2 m2 e2 => f.round mode (n1 != n2) (m1 * m2) (e1 + e2)

/-- fma: x × y + z with no rounding of the product (R225). -/
def FFmt.fma (f : FFmt) (mode : Nat) (x y z : FVal) : Nat × FFlags :=
  match x, y, z with
  | .inf a, .fin b m _, z =>
    if m = 0 then (f.nan, flagNV) else
      match z with
      | .nan s => f.nanOf s
      | .inf c => if c = (a != b) then (f.inf c, 0) else (f.nan, flagNV)
      | .fin _ _ _ => (f.inf (a != b), 0)
  | .fin a m _, .inf b, z =>
    if m = 0 then (f.nan, flagNV) else
      match z with
      | .nan s => f.nanOf s
      | .inf c => if c = (a != b) then (f.inf c, 0) else (f.nan, flagNV)
      | .fin _ _ _ => (f.inf (a != b), 0)
  | .nan s, y, z => f.nanOf (s || y.snan || z.snan)
  | x, .nan s, z => f.nanOf (s || x.snan || z.snan)
  | .inf a, .inf b, .nan s => f.nanOf (s || (FVal.inf a).snan || (FVal.inf b).snan)
  | .inf a, .inf b, .inf c => if c = (a != b) then (f.inf c, 0) else (f.nan, flagNV)
  | .inf a, .inf b, .fin _ _ _ => (f.inf (a != b), 0)
  | .fin _ _ _, .fin _ _ _, .nan s => f.nanOf s
  | .fin _ _ _, .fin _ _ _, .inf c => (f.inf c, 0)
  | .fin n1 m1 e1, .fin n2 m2 e2, .fin n3 m3 e3 =>
    let r := addExact mode (n1 != n2) (m1 * m2) (e1 + e2) n3 m3 e3
    f.round mode r.1 r.2.1 r.2.2

/-- fdiv (R225): the quotient is taken to more bits than any format holds, with a sticky remainder. -/
def FFmt.div (f : FFmt) (mode : Nat) (x y : FVal) : Nat × FFlags :=
  match x, y with
  | .nan s, y => f.nanOf (s || y.snan)
  | x, .nan s => f.nanOf (s || x.snan)
  | .inf _, .inf _ => (f.nan, flagNV)
  | .inf a, .fin b _ _ => (f.inf (a != b), 0)
  | .fin a _ _, .inf b => (f.zero (a != b), 0)
  | .fin n1 m1 e1, .fin n2 m2 e2 =>
    if m2 = 0 then (if m1 = 0 then (f.nan, flagNV) else (f.inf (n1 != n2), flagDZ))
    else
      let k := 70 + Nat.log2 m2
      let num := m1 * 2 ^ k
      f.round mode (n1 != n2) (num / m2) (e1 - e2 - k) (num % m2 ≠ 0)

/-- The integer square root, bit by bit from bit `k` down. -/
def isqrtFrom (n : Nat) : Nat → Nat → Nat
  | 0, r => if (r + 1) * (r + 1) ≤ n then r + 1 else r
  | k + 1, r =>
    let r' := r + 2 ^ (k + 1)
    isqrtFrom n k (if r' * r' ≤ n then r' else r)

/-- ⌊√n⌋. -/
def isqrt (n : Nat) : Nat := isqrtFrom n (Nat.log2 n / 2 + 1) 0

/-- fsqrt (R225). -/
def FFmt.sqrt (f : FFmt) (mode : Nat) (x : FVal) : Nat × FFlags :=
  match x with
  | .nan s => f.nanOf s
  | .inf n => if n then (f.nan, flagNV) else (f.inf false, 0)
  | .fin n m e =>
    if m = 0 then (f.zero n, 0)
    else if n then (f.nan, flagNV)
    else
      let e' : Int := if e % 2 = 0 then e else e - 1
      let m' := (if e % 2 = 0 then m else 2 * m) * 2 ^ 140
      let r := isqrt m'
      f.round mode false r (e' / 2 - 70) (r * r ≠ m')

/-- The order of two values that are not NaN: −0 and +0 are equal. -/
def FVal.cmp : FVal → FVal → Ordering
  | .inf a, .inf b => if a = b then .eq else if a then .lt else .gt
  | .inf a, .fin _ _ _ => if a then .lt else .gt
  | .fin _ _ _, .inf b => if b then .gt else .lt
  | .fin n1 m1 e1, .fin n2 m2 e2 =>
    let e := min e1 e2
    compare (signed n1 (m1 * 2 ^ (e1 - e).toNat)) (signed n2 (m2 * 2 ^ (e2 - e).toNat))
  | _, _ => .eq

def FVal.isNeg : FVal → Bool
  | .nan _ => false
  | .inf n => n
  | .fin n _ _ => n

/-- Less with −0 below +0 (R226, R392). -/
def FVal.less (x y : FVal) : Bool :=
  match x.cmp y with
  | .lt => true
  | .gt => false
  | .eq => x.isNeg && !y.isNeg

/-- fmin and fmax deliver an operand as read (R226). -/
def FFmt.minMax (f : FFmt) (wantMax : Bool) (a b : Nat) : Nat × FFlags :=
  let x := f.read a
  let y := f.read b
  let asRead : FVal → Nat → Nat := fun v n =>
    match v with
    | .fin s 0 _ => f.zero s
    | _ => n % 2 ^ f.width
  let fl : FFlags := if x.snan || y.snan then flagNV else 0
  if x.isNan then (if y.isNan then (f.nan, fl) else (asRead y b, fl))
  else if y.isNan then (asRead x a, fl)
  else if wantMax then (if x.less y then (asRead y b, fl) else (asRead x a, fl))
  else (if y.less x then (asRead y b, fl) else (asRead x a, fl))

/-- A float that an operation delivers as it was read (R49, R50): a NaN as the canonical one, with NV when it signals, and a
zero as a zero of its sign, which a b16 pattern with exponent field 0 is. -/
def FFmt.delivered (f : FFmt) (n : Nat) : Nat × FFlags :=
  match f.read n with
  | .nan s => f.nanOf s
  | .fin s 0 _ => (f.zero s, 0)
  | _ => (n % 2 ^ f.width, 0)

/-- The predicates of fcmp: 0 eq, 1 lt, 2 le, 3 un (R227). -/
def FFmt.compare (f : FFmt) (pred : Nat) (a b : Nat) : Bool × FFlags :=
  let x := f.read a
  let y := f.read b
  if x.isNan || y.isNan then
    (pred = 3, if x.snan || y.snan || pred = 1 || pred = 2 then flagNV else 0)
  else
    (match pred with
     | 0 => x.cmp y = .eq
     | 1 => x.cmp y = .lt
     | 2 => x.cmp y ≠ .gt
     | _ => false, 0)

/-- The bit that fclass selects (R228). -/
def FFmt.classBit (f : FFmt) (n : Nat) : Nat :=
  match f.read n with
  | .nan true => 8
  | .nan false => 9
  | .inf true => 0
  | .inf false => 7
  | .fin neg m _ =>
    if m = 0 then (if neg then 3 else 4)
    else if m < 2 ^ f.fbits then (if neg then 2 else 5)
    else (if neg then 1 else 6)

/-- Float to integer (R55): the rounded integer with NX, the limit of the type with NV out of range, 0 with NV for
a NaN. -/
def floatToInt (mode : Nat) (unsigned : Bool) (w : Nat) : FVal → Int × FFlags
  | .nan _ => (0, flagNV)
  | .inf n => (if n then intMin unsigned w else intMax unsigned w, flagNV)
  | .fin n m e =>
    let r := roundAt mode n m e false 0
    let x := signed n r.1
    let s := saturate unsigned w x
    if s.2 then (s.1, flagNV) else (x, if r.2 then flagNX else 0)

/-- Integer to float (R55). -/
def FFmt.ofInt (f : FFmt) (mode : Nat) (x : Int) : Nat × FFlags := f.round mode (x < 0) x.natAbs 0

/-- The level of an nq4 code (R61). -/
def nq4Level (c : Nat) : Int :=
  [-31, -22, -16, -12, -9, -6, -3, 0, 2, 5, 8, 10, 14, 17, 22, 31].getD (c % 16) 0

/-- Twice the value of an e2m1 code; an escape counts as 0 (R63, R66). -/
def e2m1Twice (c : Nat) : Int :=
  [0, 1, 2, 3, 4, 6, 8, 12, 0, -1, -2, -3, -4, -6, -8, -12].getD (c % 16) 0

/-- The value of a tern code (R59). -/
def ternValue (c : Nat) : Int := [0, 1, -1, 0].getD (c % 4) 0

end Sys2Proof.Machine
end

