-- ==== Sys2Proof/Config.lean ====
section
/-! DEFINITION. What an implementation fixes and the spec leaves open. The free values have no body, so nothing
can be proved of them; a claim that holds of the model holds whatever they are (log entries 8 to 10). -/
namespace Sys2Proof

/-- The contents of a compute row at the start of an instruction (R338), or what a row op left in a row of a
subarray whose margin failed (R365): unspecified. The argument is the model's counter of free values (log entry 8). -/
opaque Config.freeRow : Nat → Row

/-- A value of one word that the spec does not state. The argument is the model's counter of free values (log
entry 8). -/
opaque Config.freeWord : Nat → Word

/-- Bytes of the opaque part of a dump area that carry no token (R452), by dump and offset (log entry 9). -/
opaque Config.dumpByte : Nat → Nat → Byte

/-- Bytes of the opaque part of a dump for a number of lane groups and a slice width, beyond the 64 that its token
and loop stack depth need (R443, R452). -/
opaque Config.vframeBytes : Nat → Nat → Nat

/-- VFRAMESZ.SIZE: at most 98,304 (R443). -/
def Config.vframeSize (lgc sw : Nat) : Nat := min (Config.vframeBytes lgc sw + 64) 98304

/-- What an altered or foreign dump area restores into a strand's words (R452): left open (log entry 9). -/
opaque Config.restored : Nat → Nat → Word

/-- The device's signature over a nonce and its certificate (R120): left open (log entry 10). -/
opaque Config.quoteByte : BitVec 256 → Nat → Byte

/-- Bytes of the certificate chain (R120), and how many there are (log entry 10). -/
opaque Config.certByte : Nat → Byte
opaque Config.certLength : Nat

/-- What the header of a firmware image says (R116), from the image's bytes: the bytes of the header and of the body, the version
and the digest that it names. The header's layout has no rule (log entry 10). -/
opaque Config.headerSize : (Nat → Byte) → Nat
opaque Config.bodySize : (Nat → Byte) → Nat
opaque Config.imageVersion : (Nat → Byte) → Word
opaque Config.imageDigest : (Nat → Byte) → BitVec 256

/-- SM3, and whether an SM2 signature r ‖ s over a digest verifies under a public key with the default user identifier (R116): the
spec names both and defines neither (log entry 10). -/
opaque Config.sm3 : List Byte → BitVec 256
opaque Config.sm2Verify : BitVec 512 → BitVec 256 → List Byte → Bool

/-- The bank of an L1D that a line lies in, modulo the banks that it has not lent (R241, R243): left open (log
entry 50). -/
opaque Config.l1Bank : Nat → Nat

end Sys2Proof
end

