-- ==== Sys2Proof/Machine/Table.lean ====
section
/-! DEFINITION. Finite maps as plain data: lists of key and value with strictly rising keys. A table with a
default value also lists no entry that equals the default, so equal tables are equal lists. -/
namespace Sys2Proof.Machine

/-- A finite map from numbers, in strictly rising order of its keys. -/
abbrev Table (α : Type) := List (Nat × α)

/-- The entry at a key, if one is listed. -/
def Table.find {α : Type} (k : Nat) : Table α → Option α
  | [] => none
  | (k', v) :: t => if k' = k then some v else Table.find k t

/-- The table without the entry at a key. -/
def Table.drop {α : Type} (k : Nat) : Table α → Table α
  | [] => []
  | (k', v) :: t => if k' = k then Table.drop k t else (k', v) :: Table.drop k t

/-- The table with a value at a key. -/
def Table.put {α : Type} (k : Nat) (v : α) : Table α → Table α
  | [] => [(k, v)]
  | (k', v') :: t =>
    if k' = k then (k, v) :: t
    else if k < k' then (k, v) :: (k', v') :: t
    else (k', v') :: Table.put k v t

/-- Reading a table whose unlisted keys hold `d`. -/
def Table.get {α : Type} (d : α) (t : Table α) (k : Nat) : α := (Table.find k t).getD d

/-- Writing a table whose unlisted keys hold `d`. -/
def Table.set {α : Type} [DecidableEq α] (d : α) (t : Table α) (k : Nat) (v : α) : Table α :=
  if v = d then Table.drop k t else Table.put k v t

/-- Every listed key is above `b`, and the keys rise. -/
def Table.above {α : Type} (b : Nat) : Table α → Bool
  | [] => true
  | (k, _) :: t => decide (b < k) && Table.above k t

/-- The keys rise strictly. -/
def Table.sorted {α : Type} : Table α → Bool
  | [] => true
  | (k, _) :: t => Table.above k t

/-- The canonical form of a table with default `d`. -/
def Table.wf {α : Type} [DecidableEq α] (d : α) (t : Table α) : Bool :=
  Table.sorted t && t.all (fun e => e.2 ≠ d)

end Sys2Proof.Machine
end

