-- ==== Sys2Proof/Machine/State.lean ====
section
/-! DEFINITION. The state of the machine: plain data, holding everything the spec gives the device. Registers
of a strand stand in `Strand`, of a core in `Core`, of a quad in `Quad`, of a basin in `Basin`, of the annex in
`Annex`, and those of the whole device in `State` itself. -/
namespace Sys2Proof.Machine
open Sys2Proof

/-- A step that answers no next state. -/
inductive Fault where
  /-- raised by `step` when a turn of the agenda names a strand slot that the device does not have (R271).
  Safe: no hardware step corresponds to it. -/
  | noSuchUnit (unit : Nat)
  deriving DecidableEq, Repr

/-- A step that has no meaning. -/
inductive Refusal where
  /-- raised by `exec` for an instruction that the model does not give a meaning. Safe. -/
  | notModelled (mnemonic : String)
  deriving DecidableEq, Repr

/-- One entry of the hardware loop stack (R206). -/
structure LoopEntry where
  start : Word
  stop : Word
  rem : Word
  idx : Word
  deriving DecidableEq, Repr

/-- What stands behind an address (R156, R301). -/
inductive Place where
  | dev (pa : Nat)
  | plane (pa : Nat)
  | spad (core off : Nat)
  | vitrine (pa : Nat) (gen : BitVec 16)
  | host (hpa : Nat)
  | peer (dev : BitVec 12) (pa : Nat) (pv : Bool) (gen : BitVec 16)
  deriving DecidableEq, Repr

/-- What a strand in WAIT waits for (R271). -/
inductive Await where
  /-- `waitc`: the four counts at most these (R300) -/
  | counts (l s c t : Nat)
  /-- a fence or a drain: no accepted operation of the strand in the named engines (R331, R402) -/
  | engines (kinds : List Nat)
  /-- `bar.wait`: the generation of the group differs from this one (R425) -/
  | barrier (group : Nat) (gen : BitVec 16)
  /-- `bar.arrive` from a core whose count is full: a boundary of the group (R423) -/
  | boundary (group : Nat) (gen : BitVec 16)
  /-- `ljoin`: the child in JOIN with nothing outstanding (R277) -/
  | child (slot : Nat)
  /-- the weir (R292) -/
  | weir
  /-- `idle` (R450) -/
  | event
  /-- the ATS answer for a 4 KiB page, which TLBs of a core have missed (R306 to R308) -/
  | ats (units : List Nat) (page : Nat) (write : Bool)
  /-- the generation of a remote vitrine page, asked for at its owner by a walk (R175) -/
  | fill (tok page : Nat)
  /-- the link of the port whose lease is live, which is down (R111, R308) -/
  | link
  /-- the link of a port over which dirty lines of the reservoir have to go, which is down (R111, R304) -/
  | writeBack (port : BitVec 1)
  /-- what peers answer to the `n` messages with the tokens from `tok` on (R405, R406); `unit` takes the copy of a line
  that is read (R305) -/
  | peer (tok n unit : Nat)
  /-- `vrestore`: no record of the area has RESP = PEND (R453) -/
  | replies (area : Nat)
  /-- a cast of a peer's vitrine page, for a line of it; readers of one basin share the fetch of one token (R175, R436) -/
  | cast (dev : BitVec 12) (frame : Nat) (gen : BitVec 16) (pa tok : Nat)
  /-- the demand accesses with the `n` numbers from `tok` on, in the FIFOs of their banks (R355) -/
  | bank (tok n : Nat)
  /-- the bank of an address with no group open and no demand access waiting (R355) -/
  | idle (pa : Nat)
  /-- the end of the leases that this device has granted on a line (R405) -/
  | lease (line : Nat)
  /-- the engine commands and the peer accesses with lower numbers, of every strand (R330) -/
  | commands (before : Nat)
  deriving DecidableEq, Repr

/-- The states of an occupied strand slot (R271); `dumping` is the RUN state of a strand that a vector fault
has stopped and whose dump is in progress (R451). A slot that holds no strand is FREE. -/
inductive SlotState where
  | run
  | wait (for_ : Await)
  | join
  | ended
  | dumping
  deriving DecidableEq, Repr

/-- The operands a vector-stream instruction captures at decode (R246): the general registers, VN, the block size
that BS names (0 for none) and FCTL.RM. -/
structure Capture where
  g : Table Word
  vn : Nat
  bs : Nat
  rm : Nat
  deriving DecidableEq, Repr

/-- A fault record (R452). -/
structure FaultRec where
  cause : BitVec 8
  resp : BitVec 8
  port : BitVec 8
  depth : BitVec 8
  tag : BitVec 32
  va : Word
  pc : Word
  elem : BitVec 16
  inc : BitVec 16
  word : BitVec 32
  deriving DecidableEq, Repr

/-- A `vissue` in progress (R295, R299): the words still to issue with their group masks, those of a nested
`vissue`, what was captured, and whether a word was marked illegal. -/
structure Issue where
  todo : List (BitVec 32 × KReg)
  inner : List (BitVec 32 × KReg)
  cap : Capture
  word : BitVec 32
  marked : Bool
  /-- the word at the head has passed the weir (it faulted, and runs again) -/
  admitted : Bool
  deriving DecidableEq, Repr

/-- An entry of the vector queue of a strand (R246, R451): the word as issued, the address of its instruction, what it
captured, its position if it is a `vissue`, the waitc class it counts in, the reply to its page request, and whether it has
completed and only its fault remains (R315). -/
structure Queued where
  word : BitVec 32
  pc : Word
  cap : Capture
  issue : Option Issue
  cls : Nat
  resp : BitVec 8
  /-- the address and the element of its last fault record -/
  va : Word
  elem : Nat
  completed : Bool
  /-- the class-12 weight at which the weir had admitted it, if it had (R291, R382) -/
  admitted : Option Nat
  /-- the mode in which it was decoded -/
  priv : Bool := false
  /-- whether the access that faulted writes (R309) -/
  write : Bool := false
  deriving DecidableEq, Repr

/-- A position inside an `rframe` (the captured words, the strides, the count, and the replay and word index that
issue next, R215) or a `vissue` (R299). -/
inductive Inside where
  | frame (words : List (BitVec 32)) (sd sa sb : BitVec 4) (count replay index : Nat)
  | issue (i : Issue)
  deriving DecidableEq, Repr

/-- A plane descriptor as read (R162), with the subarrays of the region in the region's order
(PA div 2^20 of each) and the address it was read from. -/
structure Desc where
  at_ : Word
  vbase : Nat
  npage : Nat
  rowbase : Nat
  kind : BitVec 3
  ecc : Bool
  order : Bool
  width : Nat
  stack : Nat
  elems : Nat
  scaleva : Nat
  superva : Nat
  xseg : BitVec 128
  subs : List Nat
  deriving DecidableEq, Repr

/-- The plane instructions of major 0x34 (R197). -/
inductive PlaneOp where
  | add | sub | mul | cmp | and | or | xor | not | sel | shl | shr | copy | fill
  deriving DecidableEq, Repr

/-- The bank operations (R390). -/
inductive BankOp where
  | add | red | cx | sax
  deriving DecidableEq, Repr

/-- One line of an Aqueduct transfer: the remote physical line and the local physical line (R432). -/
structure AqLine where
  remote : BitVec 52
  here : Nat
  sent : Bool
  done : Bool
  deriving DecidableEq, Repr

/-- A local range as an engine reaches it: the offset in the first 4 KiB page and the physical pages (R431). -/
structure AqRange where
  off : Nat
  pages : List Nat
  deriving DecidableEq, Repr

/-- A collective of this device (R437 to R441): what its descriptor gives, the ranks whose contributions its WORK includes, the
incarnations last heard, the last step completed, the last step that has begun, its messages sent, and the clk at which it
began. -/
structure Coll where
  op : Nat
  ty : BitVec 3
  ft : Bool
  red : Nat
  alg : Nat
  root : Nat
  n : Nat
  rank : Nat
  count : Nat
  tmo : Nat
  seq : Word
  send : AqRange
  recv : AqRange
  work : AqRange
  devs : List (BitVec 12)
  /-- the owners' addresses of the other ranks' WORK, by rank -/
  works : List AqRange
  status : AqRange
  contrib : List Nat
  incs : Table (BitVec 16)
  step : Nat
  sentStep : Nat
  since : Nat
  /-- the lines of WORK that have arrived for the present step -/
  got : List Nat
  deriving DecidableEq, Repr

/-- What an accepted engine command does (R332, R372, R375, R392, R432 to R437). -/
inductive Work where
  | plane (op : PlaneOp) (w : Nat) (d a b sel : Desc) (imm : Word)
  | pprog (d : Desc) (base : Nat) (words : List (BitVec 32))
  | pcal (d : Desc)
  | plock (d : Desc)
  | punlock (d : Desc)
  | plant (d : Desc) (offset n : Nat) (bcast signed : Bool) (psh ebase : Nat)
  | fold (d : Desc) (tile : Nat) (mode : BitVec 2) (row abase : Nat) (scales : List Byte) (wt : Nat)
  | bank (op : BankOp) (ty : BitVec 3) (ft : Bool) (d s : List Nat) (k : BitVec 32)
  | put (dev : BitVec 12) (lines : List AqLine)
  | get (dev : BitVec 12) (lines : List AqLine)
  | sig (dev : BitVec 12) (pa : BitVec 52) (addend : Word) (sent : Bool)
  | coll (c : Coll)
  deriving DecidableEq, Repr

/-- A subarray group of an engine command in one bank (R334): its subarrays, whether the bank has opened it,
the next slot of its program, and the reference bits the fountain expects in T0 to T3, DCC0 and DCC1 as a
known mask and a value (R364). -/
structure Group where
  bank : Nat
  subs : List Nat
  opened : Bool
  pos : Nat
  refs : List (BitVec 64 × BitVec 64)
  deriving DecidableEq, Repr

/-- An accepted engine command: its acceptance number, the slot of the strand that issued it, its PLSTAT tag (R333),
what is left to do, the margin errors found (subarray and row-op index, R365), and for a fold what it will add to
each accumulator, which ones it poisons, whether an exponent was out of range, and the units it used (R378 to
R382). -/
structure EngineOp where
  id : Nat
  slot : Nat
  tag : BitVec 16
  work : Work
  groups : List Group
  margins : List (Nat × Nat) := []
  adds : Table Int := []
  poisons : List Nat := []
  range : Bool := false
  used : Nat := 0
  /-- the clk of its last flit (R434) -/
  sentAt : Nat := 0
  /-- it waits at the fountain, which has not accepted it (R332, R360) -/
  held : Bool := false
  /-- the `plant` whose last latch byte it waits for: it is chained to it (R373) -/
  after : Option Nat := none
  deriving DecidableEq, Repr

/-- The weir units of an instruction, by class (R291). -/
abbrev Charge := List (Nat × Nat)

/-- What a launch gives its strands (R134, R144, R280): the context, the code range, the priority, the slice widths,
the rectangle, and the frame and spill bytes of a slot. -/
structure Binding where
  launch : Nat := 0
  ctx : BitVec 16 := 0
  codeBase : Nat := 0
  codeSize : Nat := 0
  prio : Nat := 0
  sw : BitVec 2 := 0
  swMin : BitVec 2 := 0
  swMax : BitVec 2 := 3
  x0 : Nat := 0
  y0 : Nat := 0
  w : Nat := 24
  h : Nat := 8
  frameSz : Nat := 0
  spillSz : Nat := 0
  fuse : Bool := false
  deriving DecidableEq, Repr

/-- A fork child not joined yet, with what `lfork` recorded (R275). -/
structure Child where
  slot : Nat
  vn : Nat
  maskW : Nat
  deriving DecidableEq, Repr

/-- A strand: everything a slot outside FREE holds. -/
structure Strand where
  st : SlotState := .run
  pc : Word := 0
  /-- the address of the instruction after which the next fetch is made; 0 before the first fetch (R205) -/
  lastPc : Word := 0
  /-- the word fetched last (R203) -/
  word : BitVec 32 := 0
  g : Table Word := []
  v : Table VReg := []
  k : Table KReg := []
  vn : Nat := 0
  lgc : BitVec 3 := 3
  slip : BitVec 3 := 0
  bs : BitVec 3 := 0
  sw : BitVec 2 := 0
  lgbase : BitVec 3 := 0
  /-- the element width of the most recent `vsetn` (R276) -/
  maskW : Nat := 8
  sat : Bool := false
  rm : BitVec 3 := 0
  fflags : BitVec 5 := 0
  loops : List LoopEntry := []
  xpc : Word := 0
  xcause : BitVec 8 := 0
  xval : Word := 0
  xscratch : Word := 0
  widx : BitVec 10 := 0
  nrec : BitVec 9 := 0
  cur : Bool := false
  exl : Bool := false
  ppriv : Bool := false
  /-- the shadow loop stack, outermost first: XLD and XLS0 to XLS23 (R449) -/
  xld : Nat := 0
  xls : Table Word := []
  ctxid : BitVec 16 := 0
  ite : Bool := false
  illmask : KReg := 0
  expp : Bool := false
  exps : Bool := false
  expte : Bool := false
  expmask : KReg := 0
  plNext : BitVec 16 := 0
  plFirst : BitVec 16 := 0
  lockerr : Bool := false
  margin : Bool := false
  aqCause : BitVec 3 := 0
  aqFail : Bool := false
  monsel : BitVec 9 := 0
  cntL : Nat := 0
  cntS : Nat := 0
  cntC : Nat := 0
  cntT : Nat := 0
  /-- the line of the scalar link, while intact (R410) -/
  slink : Option Nat := none
  /-- the lines of the vector links by element, while intact (R410) -/
  vlinks : Table Nat := []
  /-- the generation of the latest arrival per barrier group (R422) -/
  barRec : Table (BitVec 16) := []
  bind : Binding := {}
  /-- the address of the record's join counter, 0 for none (R279), and whether it is the annex's (R143) -/
  join : Word := 0
  root : Bool := false
  parent : Option Nat := none
  children : List Child := []
  /-- a pre-emption request, with the clk it was posted and whether LOOPLATE has counted it (R454, R455) -/
  preq : Option Nat := none
  preqLate : Bool := false
  inside : Option Inside := none
  /-- a position that `vrestore` brought back, and the address of its instruction (R447) -/
  resume : Option (Word × Inside) := none
  vq : List Queued := []
  faults : List FaultRec := []
  /-- the lowest faulting element of the access that faults, for its record (R452) -/
  faultElem : Nat := 0
  /-- the weir has admitted the instruction the strand stands at; the class-12 weight of that clk (R292, R382) -/
  weirPass : Option Nat := none
  /-- the engine command whose descriptors were read and which waits at the weir (R162) -/
  parked : Option (List Work) := none
  /-- the plane descriptor that a waiting `vldp` or `vstp` has read (R162) -/
  descRead : Option Desc := none
  /-- what the host answered to the ATS request of a page, when it did not grant it (R308) -/
  atsDenied : Option Nat := none
  /-- the PASID of its last host-page fault, and whether that access writes (R309) -/
  hostFault : BitVec 20 × Bool := (0, false)
  /-- what an owner answered to a walk that asked for the generation of a page: the page, and the generation unless the owner
  gave none (R175) -/
  genRead : Option (Nat × Option (BitVec 16)) := none
  /-- what peers answered to the messages the strand waits for, by message: a value, and a cause or 0 (R406) -/
  answers : Table (Word × BitVec 8) := []
  /-- the places that the waiting instruction has found, by address: its checks were made before it had an effect (R319,
  R321) -/
  placed : List (Word × Place) := []
  /-- the clk of its last message to a peer (R434) -/
  sentAt : Nat := 0
  /-- the pages of peers whose owners answered the waiting instruction that they are open (R436) -/
  openCast : List (BitVec 12 × Nat) := []
  /-- the number at which a waiting `tlbinv` began (R330) -/
  snap : Option Nat := none
  /-- the record that a `cjoin` at a peer pushes if the counter's owner answers that it has reached 0 (R284) -/
  joining : Option Nat := none
  /-- the rows' lines that the demand accesses of the instruction at which it stands have read, by PA div 64, and which of the
  four codewords of each cannot be corrected (R355, R357) -/
  rowData : Table (BitVec 512 × BitVec 4) := []
  /-- its demand accesses have been served, and the instruction goes on with them; `wrote` when they were its writes -/
  resumed : Bool := false
  wrote : Bool := false
  /-- the strand was told by `idle`'s events to go on (R450) -/
  idleDone : Bool := false
  /-- the record ends by a double trap of this cause (R448) -/
  doubled : Option (BitVec 8) := none
  /-- the address and the PC of the scalar access whose page request SREC records, until it runs again (R309, R456) -/
  sreq : Option (Word × Word) := none
  deriving DecidableEq, Repr

/-- An instruction waiting at a weir (R292). -/
structure WeirEntry where
  slot : Nat
  charge : Charge
  deriving DecidableEq, Repr

/-- A time in which the refresh controller of one scratchpad bank ran under one EPH bit and one retention deadline
(R312): the clk and the row of its first slot, the clk at which it ended, the bit and the deadline. -/
structure Span where
  start : Nat
  row : Nat
  stop : Nat
  eph : Bool
  limit : Nat
  deriving DecidableEq, Repr

/-- The registers and memories of a core. -/
structure Core where
  cap : BitVec 32 := 0xFFFFFFFF
  drain : BitVec 32 := 0xFFFFFFFF
  /-- the weight of each class 0 to 15 (R290); unlisted classes weigh 1 -/
  wts : Table (BitVec 8) := []
  /-- the cistern level in 1/256 token as it stood at a clk (R292) -/
  level : Nat := 0
  levelClk : Nat := 0
  queue : List WeirEntry := []
  eph : BitVec 48 := 0
  looplate : BitVec 32 := 0
  /-- XFRAME.BASE of each slot (R443) -/
  xframe : Table Word := []
  /-- accumulators by tile × 4096 + index (R68), and those that are poisoned -/
  acc : Table (BitVec 40) := []
  poison : Table Bool := []
  tileNan : BitVec 8 := 0
  tileRange : BitVec 8 := 0
  tileOvf : BitVec 8 := 0
  /-- the clk of each scratchpad row's last write or refresh, by bank × 1024 + row (R314) -/
  rowClk : Table Nat := []
  /-- rows known expired when a suspend saved them (R467), and rows whose expiry was reported (R316) -/
  rowDead : Table Bool := []
  rowReported : Table Bool := []
  /-- rows whose expiry their refresh slot has found, and whose report no step has raised yet (R316) -/
  rowDue : List Nat := []
  /-- the clk and the row of the first slot of each bank's refresh controller under the present EPH bit and deadline, and
  its earlier times, newest first (R312) -/
  spNext : Table Nat := []
  spRow : Table Nat := []
  spPast : Table (List Span) := []
  /-- the slot whose strand the front end took last, and the clk after that turn (R273): turns go on from slot 0 at reset -/
  lastSlot : Nat := 7
  turnEnd : Nat := 0
  /-- a clk in which CAP or a weight was written, and the values that are in force until it ends (R292) -/
  weirWas : Option (Nat × BitVec 32 × Table (BitVec 8)) := none
  deriving DecidableEq, Repr

/-- The registers of a quad (R293, R463). -/
structure Quad where
  pat : BitVec 16 := 0xFFFF
  latched : BitVec 16 := 0xFFFF
  eff : BitVec 16 := 0xFFFF
  limit : Nat := 16
  cool : Nat := 0
  /-- the launch that has fused the quad (R142) -/
  fused : Option Nat := none
  deriving DecidableEq, Repr

/-- A migration slot (R177). -/
structure Migration where
  old : BitVec 40 := 0
  new : BitVec 40 := 0
  prog : Nat := 0
  size : BitVec 2 := 0
  state : BitVec 2 := 0
  deriving DecidableEq, Repr

/-- A continuation queue of a basin (R280, R281). -/
structure ContQueue where
  base : BitVec 40 := 0
  log2n : BitVec 5 := 0
  head : BitVec 32 := 0
  tail : BitVec 32 := 0
  skip : Nat := 0
  deriving DecidableEq, Repr

/-- A temperature sensor (R462): its last reading, whether it has failed, and the readings of the last 10 s. The reading
before the first sample is the model's choice, 25 °C (log entry 27); the spec gives none. -/
structure Sensor where
  temp : BitVec 16 := 400
  failed : Bool := false
  /-- the readings of the last 10 s, newest first -/
  recent : List (BitVec 16) := []
  deriving DecidableEq, Repr

/-- A monitor entry that is no sensor's (R478): its value, and the period in which it was last updated, with the value until
then, which reads in that period still get. -/
structure Meter where
  value : BitVec 64 := 0
  period : Option Nat := none
  before : BitVec 64 := 0
  deriving DecidableEq, Repr

/-- A lock of a fountain (R360): the holder, the `plock` that took it, and its subarrays. -/
structure Lock where
  slot : Nat
  id : Nat
  subs : List Nat
  deriving DecidableEq, Repr

/-- The registers and units of a basin. -/
structure Basin where
  poolDie : BitVec 4 := 0
  poolSub : BitVec 7 := 0
  poolEn : Bool := false
  mgsel : BitVec 2 := 0
  mig : Table Migration := []
  cq : Table ContQueue := []
  crBase : BitVec 40 := 0
  crLog2n : BitVec 5 := 0
  crHead : BitVec 32 := 0
  crTail : BitVec 32 := 0
  crLost : BitVec 32 := 0
  suspBase : BitVec 31 := 0
  suspV : Bool := false
  rettab : BitVec 40 := 0
  locks : List Lock := []
  /-- the sensors: 2 × die and 2 × die + 1 of array die 0 to 11, then 24 to 27 of the quads (R462) -/
  sensors : Table Sensor := []
  /-- the refresh interval of each array die in ms (R36); unlisted dies have 32, before the first sample by the model's
  choice (log entry 27) -/
  interval : Table Nat := []
  /-- the retention deadline of the basin's scratchpads in clk (R37, R312); 44,000 before the first sample is the model's
  choice (log entry 27) -/
  retention : Nat := 44000
  /-- the clk until which the supply unit holds the basin's quads (R476) -/
  holdEnd : Nat := 0
  /-- the clk from which the next 1 ms sample may be taken (R36, R462) -/
  nextSample : Nat := 0
  /-- the µs in which the sensors were last sampled, and their monitor entries as they stood before: reads in one µs agree
  (R478) -/
  sampleUs : Option Nat := none
  sensorsWas : Table Sensor := []
  /-- the queue whose record the basin has chosen to pop next, while it cannot be placed (R281) -/
  chosen : Option Nat := none
  deriving DecidableEq, Repr

/-- A demand access in the FIFO of a bank (R355): its number, the strand slot whose access it is (none for that of another
unit), the line, the bits of the line that it names, and what a write puts in them. -/
structure Demand where
  id : Nat
  slot : Option Nat
  line : Nat
  mask : BitVec 512
  write : Option (BitVec 512)
  deriving DecidableEq, Repr

/-- A bank: its refresh sequencer (R356), with the next slot to take, the deadlines that have passed and the next deadline in
clk × 12,288; its demand FIFO, and the slots of group work begun since the access at its head reached it (R355). -/
structure Bank where
  slot : Nat := 0
  due : Nat := 0
  nextAt : Nat := 0
  fifo : List Demand := []
  begun : Nat := 0
  deriving DecidableEq, Repr

/-- The latch set of a subarray (R369). -/
structure Latch where
  planes : List Row := List.replicate 8 0
  signed : Bool := false
  n : Nat := 8
  psh : Nat := 0
  ebase : Nat := 0
  deriving DecidableEq, Repr

/-- The compute rows of a subarray: T0 to T3, DCC0, DCC1 (R22). -/
structure ComputeRows where
  rows : List Row := List.replicate 6 0
  deriving DecidableEq, Repr

/-- An ordinary line that a cache holds dirty (R301 to R303, R328): its 64 bytes, the unit that holds it (9 × core for
the L1D of a core, 9 × core + 1 + g for slice g of its L2), and for an L1D the bank it lies in. -/
structure CLine where
  data : BitVec 512
  holder : Nat
  bank : Nat
  deriving DecidableEq, Repr

/-- A clean copy of an ordinary line in one L1D or L2 slice (R301 to R303): its bytes as they were read from the line's
home, the clk of that read, from which its logical lease runs (R400), and for an L1D the bank it lies in. -/
structure Copy where
  data : BitVec 512
  clk : Nat
  bank : Nat
  deriving DecidableEq, Repr

/-- A translation that one TLB holds (R306): the TLB (9 × core for the scalar TLB of a core, 9 × core + 1 + g for its
slice g), the context or global, the page, and the leaf. -/
structure TlbEntry where
  unit : Nat
  ctx : BitVec 16
  glob : Bool
  vbase : Nat
  size : Nat
  leaf : BitVec 64
  /-- the owner's generation of a remote vitrine page (R175) -/
  gen : BitVec 16
  /-- the PASID of the context, as the walk read it (R152) -/
  pasid : Option (BitVec 20) := none
  deriving DecidableEq, Repr

/-- An ATS translation that one TLB holds (R306, R308). -/
structure AtsEntry where
  unit : Nat
  port : BitVec 1
  pasid : BitVec 20
  ctx : BitVec 16
  vbase : Nat
  size : Nat
  hpa : Nat
  canRead : Bool
  canWrite : Bool
  deriving DecidableEq, Repr

/-- The home unit's record of a 64 KiB frame (R171): 0 FREE, 1 OPEN, 2 SEALED. -/
structure Frame where
  state : BitVec 2 := 0
  ptr : Nat := 0
  gen : BitVec 16 := 0
  deriving DecidableEq, Repr

/-- A cast (R174, R175): the basin that holds it, the owner (none for this device), frame, generation, the
accession pointer and the 64 KiB. -/
structure Cast where
  basin : Nat
  dev : Option (BitVec 12)
  frame : Nat
  gen : BitVec 16
  ptr : Nat
  /-- the bytes by offset; unlisted ones are 0 -/
  data : Table Byte
  /-- the clk of the fetch, from which the logical lease of a cast of this device runs (R400) -/
  clk : Nat
  deriving DecidableEq, Repr

/-- A line of host memory in the reservoir (R304): `owned` is the CXL.cache state that a write needs (exclusive or
modified), against shared; `port` is that of the host. -/
structure RLine where
  data : BitVec 512
  dirty : Bool
  poisoned : Bool
  owned : Bool
  port : BitVec 1 := 0
  deriving DecidableEq, Repr

/-- A copy of a peer's line (R305, R405): the L1D or L2 slice that holds it, and the time in ns at which its lease
expires; `once` marks a line served without a lease, for one access of the strand in that slot (R430, R436). -/
structure PeerLine where
  dev : BitVec 12
  line : Nat
  data : BitVec 512
  poisoned : Bool
  once : Option Nat
  holder : Nat
  expiry : Nat
  /-- for an L1D, the bank that it lies in -/
  bank : Nat := 0
  deriving DecidableEq, Repr

/-- A lease that this device granted to a peer (R405, R407): the line, the time in ns at which it ends and the clk
of the grant. -/
structure Lease where
  dev : BitVec 12
  line : Nat
  expiry : Nat
  clk : Nat
  deriving DecidableEq, Repr

/-- A barrier group (R422). `members` is the operand of R423 that is in force. -/
structure BarGroup where
  owner : Option (BitVec 16) := none
  members : Word := 0
  pending : Option Word := none
  gen : BitVec 16 := 0
  counts : Table Nat := []
  deriving DecidableEq, Repr

/-- A page request that waits for its answer (R456, R457). -/
structure PageReq where
  tag : BitVec 32
  ctx : BitVec 16
  inc : BitVec 16
  port : BitVec 1
  /-- the physical address of the record whose RESP is PEND -/
  record : Nat
  deriving DecidableEq, Repr

/-- What a dump or a `vsave` put in an opaque part (R452), kept under the token its area carries: the loop stack and
the strand as it stood. -/
structure Saved where
  token : Nat
  loops : List LoopEntry
  strand : Strand
  deriving DecidableEq, Repr

/-- What the device has sent to the outside world, newest first: messages, requests and interrupts. -/
inductive Out where
  /-- a message to a peer: the device and the incarnation of the sender, the ports that its flits leave by, in order
  (R427, R428) -/
  | aq (dev : BitVec 12) (src : BitVec 12) (inc : BitVec 16) (ports : List Nat) (body : AqBody)
  /-- messages to a host: the port, and the incarnation of this device, their sender (R409) -/
  | atsRequest (port : BitVec 1) (inc : BitVec 16) (pasid : BitVec 20) (va : Word) (write : Bool)
  /-- a page request (R309), with the context, the incarnation of the port and the fault tag that tag it: `last` is the Last
  Request bit -/
  | pageRequest (port : BitVec 1) (inc : BitVec 16) (pasid : BitVec 20) (va : Word) (write : Bool) (ctx portInc : BitVec 16)
      (tag : BitVec 32) (last : Bool)
  | atsInvDone (port : BitVec 1) (inc : BitVec 16) (tag : BitVec 32)
  | msix (port : BitVec 1) (inc : BitVec 16) (vector : Nat)
  | mmioRead (port : BitVec 1) (inc : BitVec 16) (value : BitVec 64)
  | hostData (port : BitVec 1) (inc : BitVec 16) (line : Nat) (data : BitVec 512) (poisoned : Bool)
  | snoopReply (port : BitVec 1) (inc : BitVec 16) (line : Nat) (data : Option (BitVec 512))
  /-- a host's copy of a line of device memory is called back (R110, R170, R408) -/
  | backInvalidate (port : BitVec 1) (inc : BitVec 16) (line : Nat)
  deriving DecidableEq, Repr

/-- A copy descriptor of a launch as the annex read it (R147): `late` is PHASE. -/
structure CopyDesc where
  src : Word
  dst : Word
  len : Nat
  late : Bool
  deriving DecidableEq, Repr

/-- How far a launch has come (R132, R138 to R149, R473). -/
inductive Phase where
  /-- head of its queue: its signals have not matched yet -/
  | waiting
  /-- read from its slot, and not yet checked: the annex waits for a table that it names (R131, R139) -/
  | reading
  /-- head of its queue and runnable, with the place of its reservation in the order of reservations (R141) -/
  | runnable (reserved : Option Nat)
  /-- admitted: the copies of phase 0 run -/
  | copying
  /-- its strands and records run -/
  | running
  /-- the copies of phase 1 run -/
  | leaving
  /-- only its completion record is left -/
  | retired
  deriving DecidableEq, Repr

/-- A launch that the annex has read (R134), with the areas of its binary (R135), its signals (address, mode, expected
value; R138) and its copies. -/
structure Launch where
  id : Nat
  queue : Nat
  recno : BitVec 32
  ctx : BitVec 16
  bind : Binding
  /-- the 128 bytes of the record as a number (R131) -/
  raw : Nat := 0
  /-- the frame and spill bases of slot 0 of each core of the rectangle, in row-major order (R135) -/
  areas : List (Word × Word) := []
  entry : Word := 0
  arg : Word := 0
  compl : Word := 0
  irq : Bool := false
  sigs : List (Word × Bool × Word) := []
  copies : List CopyDesc := []
  /-- the descriptor of the chain that is next, and how many of its bytes have been copied (R148) -/
  next : Nat := 0
  copied : Nat := 0
  phase : Phase := .waiting
  /-- the slots that its root strands will take (R143) -/
  slots : List Nat := []
  /-- strands and continuation records that have not ended (R146) -/
  live : Nat := 0
  reports : Nat := 0
  /-- the counters of R474: BUSY, TPAT, TTHERM, TWEIR, TCURR, THOST, TREFR -/
  busy : Nat := 0
  tpat : Nat := 0
  ttherm : Nat := 0
  tweir : Nat := 0
  tcurr : Nat := 0
  thost : Nat := 0
  trefr : Nat := 0
  /-- the weir charge admitted in the present 1 µs interval (R475) -/
  charged : Nat := 0
  /-- AQTIME at admission, or at the refusal (R471, R472) -/
  start : Word := 0
  /-- the fields of its completion record but STATUS have been performed at a peer (R473) -/
  bodyDone : Bool := false
  status : Nat := 1
  reason : Nat := 0
  detail : Nat := 0
  /-- in nJ (R475) -/
  energy : Nat := 0
  deriving DecidableEq, Repr

/-- A launch queue of the annex (R127 to R133). -/
structure LaunchQueue where
  base : BitVec 41 := 0
  ctx : BitVec 16 := 0
  vec : BitVec 6 := 2
  log2 : BitVec 4 := 4
  err : Bool := false
  en : Bool := false
  tail : BitVec 32 := 0
  head : BitVec 32 := 0
  deriving DecidableEq, Repr

/-- The annex: firmware controller, host interface and governor. -/
structure Annex where
  fwver : BitVec 64 := 0
  bootState : BitVec 3 := 0
  bootCause : BitVec 8 := 0
  active : BitVec 2 := 0
  expiry : BitVec 48 := 0
  inc0 : BitVec 16 := 0
  inc1 : BitVec 16 := 0
  stale : BitVec 16 := 0
  rej : BitVec 16 := 0
  queues : Table LaunchQueue := []
  mailbox : Table Byte := []
  /-- certificate pieces delivered since the last command 1 or 3 (R120) -/
  piece : Nat := 0
  /-- the SM3 digest of the running firmware body (R120) -/
  digest : BitVec 256 := 0
  /-- the firmware image that a host has written into the recovery window, by offset / 8 (R114, R116) -/
  recovery : Table Word := []
  linkUp : List (BitVec 1) := []
  msixPending : List Nat := []
  launches : List Launch := []
  rrobin : Table Nat := []
  suspTime : BitVec 64 := 0
  suspDeep : Bool := false
  suspCmd : BitVec 2 := 0
  suspState : BitVec 3 := 0
  suspResult : BitVec 8 := 0
  /-- the clk at which STOPPING began: the timers of collectives stand still from then on (R441, R466) -/
  stopAt : Nat := 0
  /-- the image that VERIFY takes: the one in the recovery window, or the one in flash (R115) -/
  fromWindow : Bool := false
  /-- the rollback counter and the public key in the fuses, and the image in the carrier module's flash, by offset / 8 (R115,
  R116); device reset leaves them. No rule gives what they hold: 0 is the model's choice (log entry 10) -/
  rollback : BitVec 32 := 0
  fusedKey : BitVec 512 := 0
  flash : Table Word := []
  /-- the size in GiB of each port's HDM window, as its host's decoder is set (R110, R112); 128 where a host has set
  none (log entry 56) -/
  hdmGib : Table Nat := []
  /-- the page requests that each port's host lets be outstanding (R309); 256 where a host has set none (log entry 55) -/
  pageAlloc : Table Nat := []
  /-- the clk from which the next comparison with the cap may be made (R476) -/
  nextCompare : Nat := 0
  /-- the clk from which the next 1 µs interval of the supply meters may end (R475), and the energies metered since reset in
  nJ: of the basins and of the annex (R478) -/
  nextMeter : Nat := 0
  basinNj : Nat := 0
  annexNj : Nat := 0
  /-- page-request responses held during RETAIN: the tag and the RESP to park (R466) -/
  heldReplies : List (BitVec 32 × BitVec 8) := []
  cap : BitVec 16 := 0
  h : BitVec 4 := 0
  /-- consecutive comparisons below 95 % of the cap (R476) -/
  capLow : Nat := 0
  deriving DecidableEq, Repr

/-- Whose turn comes next: a strand slot (core × 8 + slot), whose vector queue goes on before its front end; a slot whose
front end goes on before its vector queue (R217, R246, R396); or a step of a unit of the device with what it needs from
outside. -/
inductive Act where
  | slot (n : Nat)
  | ahead (n : Nat)
  | unit (i : Instr) (inp : Input)
  deriving DecidableEq, Repr

/-- A turn, and how many clk pass before it. -/
structure Turn where
  delay : Nat
  act : Act
  deriving DecidableEq, Repr

/-- The state of the device. -/
structure State where
  /-- the model's own: whose turns come next; with none listed, the cores take theirs in order (log entry 1) -/
  agenda : List Turn := []
  /-- the model's own: the slot whose strand runs, or ran last -/
  cur : Nat := 0
  /-- what the present step brings from outside -/
  inp : Input := {}
  /-- master clock cycles since device reset (R28) -/
  clk : Nat := 0
  /-- the model's own: how many free values have been used (log entry 8) -/
  freeCtr : Nat := 0
  /-- the model's own: names given to launches, engine commands, tokens and messages -/
  nextId : Nat := 1
  /-- the group a row micro-op runs on, while a `pprog` runs (R354) -/
  rowCtx : Option (Nat × Nat) := none
  strands : Table Strand := []
  cores : Table Core := []
  quads : Table Quad := []
  basins : Table Basin := []
  banks : Table Bank := []
  latches : Table Latch := []
  comp : Table ComputeRows := []
  /-- data rows whose unchecked flag is set, by PA div 1024 (R357) -/
  unchecked : Table Bool := []
  /-- the flipped bits of the codewords that hold an error, by PA div 16: data bits 0 to 127, check bits from 128 up
  (R22, R357) -/
  errs : Table Nat := []
  /-- the clk at which INIT or a resume last wrote every scratchpad row (R314, R467) -/
  spInit : Nat := 0
  /-- the calibrated sense setting of each calibration group, by subarray div 8; unlisted ones have 7, the centre of a
  run of 16 (R366) -/
  sense : Table Nat := []
  ops : List EngineOp := []
  /-- device memory and scratchpads by physical address (R159) -/
  mem : List Host.Cell := []
  /-- the lines that a cache holds dirty, by PA div 64 -/
  cache : Table CLine := []
  /-- clean copies of ordinary lines, by PA div 64 × 2,048 + unit -/
  copies : Table Copy := []
  /-- the model's own: whether the accesses that run are the vector stream's (R397) -/
  vec : Bool := false
  tlb : List TlbEntry := []
  ats : List AtsEntry := []
  frames : Table Frame := []
  casts : List Cast := []
  /-- host memory by host physical address: outside the device -/
  hostMem : List Host.Cell := []
  hostPoison : List Nat := []
  resv : Table RLine := []
  peer : List PeerLine := []
  granted : List Lease := []
  /-- the links of peers' strands on lines of this device: the peer, the link's name and the line (R411) -/
  rlinks : List (BitVec 12 × Nat × Nat) := []
  groups : Table BarGroup := []
  saved : List Saved := []
  pageReqs : List PageReq := []
  /-- page requests that wait for the host's allocation, oldest first (R309) -/
  pageHeld : List Out := []
  /-- the lines of device memory that a host holds a copy of: the port and PA div 64 (R170, R408) -/
  hostCopies : List (BitVec 1 × Nat) := []
  /-- the device's own writes to lines under a lease that it granted, oldest first: the address and the bytes (R405) -/
  deferred : List (Nat × List Byte) := []
  /-- ATS invalidations received and not yet completed: the port and the tag (R310) -/
  atsInvs : List (BitVec 1 × BitVec 32) := []
  nextTag : BitVec 32 := 0
  out : List Out := []
  ctxtabBase : BitVec 40 := 0
  ctxtabLog2n : BitVec 5 := 0
  ctxtabWritten : Bool := false
  hdmt : Table (BitVec 40) := []
  hdmtWritten : Table Bool := []
  arfb : Table (BitVec 31) := []
  arfcLimit : Table (BitVec 31) := []
  arfcFmt : Table (BitVec 3) := []
  arfcEn : Table Bool := []
  xvec : BitVec 46 := 0
  krBase : BitVec 32 := 0
  krSize : BitVec 16 := 0
  devid : BitVec 12 := 0
  aqInc : BitVec 16 := 0
  /-- a clk in which AQSELF was written, and the values that messages sent in it still carry (R427) -/
  selfWas : Option (Nat × BitVec 12 × BitVec 16) := none
  ptabBase : BitVec 37 := 0
  ptabEn : Bool := false
  /-- the port, of those of each peer, by which the next line of data goes that it has asked for (R428) -/
  aqTurn : Table Nat := []
  aqStale : BitVec 16 := 0
  aqSync : Bool := false
  aqBound : BitVec 16 := 0xFFFF
  /-- the IEEE 1588 time that the last completed exchange gave (R430) -/
  aqSec : BitVec 34 := 0
  aqNs : BitVec 30 := 0
  /-- consecutive exchanges within the bound, and the clk of the last completed exchange (R430) -/
  aqGood : Nat := 0
  aqLast : Nat := 0
  annex : Annex := {}
  /-- the monitor entries that are no sensor's (R478) -/
  monitors : Table Meter := []
  deriving DecidableEq, Repr

/-- The machine right after reset. -/
def State.reset : State := {}

end Sys2Proof.Machine
end

