-- ==== Sys2Proof/Machine/Flags.lean ====
section
/-! DEFINITION. FCTL (R52): its value, writes, the flags that operations OR in (R44, R51, R53), and the rounding
mode that a field names (R48). -/
namespace Sys2Proof.Machine
open Sys2Proof

/-- FCTL as a register reads it (R52). -/
def Strand.fctl (t : Strand) : Word :=
  (0 : BitVec 52) ++ BitVec.ofBool t.sat ++ t.rm ++ (0 : BitVec 3) ++ t.fflags

/-- A write to FCTL: RM keeps its value on a write of a reserved code or DYN (R52). -/
def Strand.setFctl (t : Strand) (v : Word) : Strand :=
  let rm : BitVec 3 := v.extractLsb' 8 3
  { t with sat := v.getLsbD 11, fflags := v.extractLsb' 0 5
           rm := if rm = 5 || rm = 6 || rm = 7 then t.rm else rm }

/-- Flags ORed into FCTL (R51, R53). -/
def Strand.orFlags (t : Strand) (fl : FFlags) : Strand := { t with fflags := t.fflags ||| fl }

/-- The sticky saturation flag (R44). -/
def Strand.orSat (t : Strand) (b : Bool) : Strand := { t with sat := t.sat || b }

/-- The mode a rounding field names: DYN is FCTL.RM (R48, R53). -/
def Strand.mode (t : Strand) (m : BitVec 3) : Nat := if m = 7 then t.rm.toNat else m.toNat

end Sys2Proof.Machine
end

