-- ==== Sys2Proof/Machine/Memory.lean ====
section
/-! DEFINITION. Physical memory (R159): which addresses are memory, bytes and little-endian values (R7), the
caches of ordinary lines (R301, R328), check bits (R357), migration (R178), and the scratchpads with the ages
of their rows (R311 to R316). Every write to a line breaks the links on it (R410). -/
namespace Sys2Proof.Machine
open Sys2Proof

def paBasin (pa : Nat) : Nat := pa / 2 ^ 36
def paBank (pa : Nat) : Nat := pa / 2 ^ 27 % 512
def paSub (pa : Nat) : Nat := pa / 2 ^ 20 % 128

/-- The subarrays of the reservoir (R25, R159). -/
def inReservoir (pa : Nat) : Bool := 352 ≤ paBank pa && 80 ≤ paSub pa

/-- Device memory: not a hole and not the reservoir (R159). -/
def isDevMem (pa : Nat) : Bool :=
  pa < 2 ^ 40 && paBasin pa < 12 && paBank pa < 384 && paSub pa < 96 && !inReservoir pa

/-- The scratchpad region (R159). -/
def isSpad (pa : Nat) : Bool :=
  pa / 2 ^ 40 = 1 && pa / 2 ^ 32 % 256 < 192 && pa / 2 ^ 22 % 1024 = 0 && pa % 2 ^ 22 < 0x300000

def State.basin (s : State) (b : Nat) : Basin := s.basins.get {} b
def State.setBasin (s : State) (b : Nat) (x : Basin) : State := { s with basins := s.basins.set {} b x }
def State.core (s : State) (c : Nat) : Core := s.cores.get {} c
def State.setCore (s : State) (c : Nat) (x : Core) : State := { s with cores := s.cores.set {} c x }
def State.quad (s : State) (q : Nat) : Quad := s.quads.get {} q
def State.setQuad (s : State) (q : Nat) (x : Quad) : State := { s with quads := s.quads.set {} q x }

/-- The strand in a slot, if the slot is not FREE (R271). -/
def State.strand (s : State) (n : Nat) : Option Strand := s.strands.find n
def State.setStrand (s : State) (n : Nat) (t : Strand) : State := { s with strands := s.strands.put n t }
def State.freeSlot (s : State) (n : Nat) : State := { s with strands := s.strands.drop n }

/-- The strand whose instruction runs. -/
def State.self (s : State) : Strand := (s.strand s.cur).getD {}
def State.setSelf (s : State) (t : Strand) : State := s.setStrand s.cur t
def State.modSelf (s : State) (f : Strand → Strand) : State := s.setSelf (f s.self)

/-- The core of a slot, the basin and the quad of a core (R26). -/
def coreOf (slot : Nat) : Nat := slot / 8
def basinOf (core : Nat) : Nat := core / 16
def quadOf (core : Nat) : Nat := 4 * (core / 16) + 2 * (core % 16 / 4 / 2) + core % 4 / 2

def State.myCore (s : State) : Nat := coreOf s.cur
def State.myBasin (s : State) : Nat := basinOf s.myCore

/-- A cast pool that is enabled: EN, and clear of the reservoir (R173). -/
def Basin.poolOn (b : Basin) : Bool := b.poolEn && !(b.poolDie.toNat = 11 && 80 ≤ b.poolSub.toNat + 31)

/-- Whether an address lies in an enabled cast pool (R173). -/
def State.inPool (s : State) (pa : Nat) : Bool :=
  let b := s.basin (paBasin pa)
  b.poolOn && paBank pa / 32 = b.poolDie.toNat && b.poolSub.toNat ≤ paSub pa && paSub pa ≤ b.poolSub.toNat + 31

/-- Device memory that is no cast pool's: where tables and descriptors may lie (R152, R157). -/
def State.isTableMem (s : State) (pa : Nat) : Bool := isDevMem pa && !s.inPool pa

/-- The present incarnation of a port (R124). -/
def State.incOf (s : State) (p : BitVec 1) : BitVec 16 := if p = 0 then s.annex.inc0 else s.annex.inc1

/-- The identifier and the incarnation that this device's messages carry: AQSELF, from the clk after it was written (R409,
R427). -/
def State.sender (s : State) : BitVec 12 × BitVec 16 :=
  match s.selfWas with
  | some (c, d, i) => if c = s.clk then (d, i) else (s.devid, s.aqInc)
  | none => (s.devid, s.aqInc)

/-- What writes to lines undo elsewhere: every link on them (R410), and the copies that hosts hold of them, which are
called back (R170, R408). Lines of device memory are numbered PA div 64, host lines from 2^60 and peer lines from
2^61. -/
def State.breakWhere (s : State) (on : Nat → Bool) : State :=
  { s with strands := s.strands.map fun (n, t) =>
      (n, { t with slink := t.slink.filter fun l => !on l, vlinks := t.vlinks.filter fun e => !on e.2 })
           rlinks := s.rlinks.filter fun e => !on e.2.2
           hostCopies := s.hostCopies.filter fun e => !on e.2
           out := ((s.hostCopies.filter fun e => on e.2).map fun e => .backInvalidate e.1 s.sender.2 e.2) ++ s.out }

def State.breakLinks (s : State) (line : Nat) : State := s.breakWhere fun l => l = line

/-- The lines from `lo` to `hi`. -/
def State.breakRange (s : State) (lo hi : Nat) : State := s.breakWhere fun l => lo ≤ l && l ≤ hi

def hostLine (hpa : Nat) : Nat := 2 ^ 60 + hpa / 64
def peerLineKey (dev : BitVec 12) (pa : Nat) : Nat := 2 ^ 61 + dev.toNat * 2 ^ 48 + pa / 64

/-- The canonical form of a memory whose unlisted bytes are 0 (log entry 6): addresses strictly rising, no listed 0. -/
def Memory.wf (m : List Host.Cell) : Bool := Table.wf 0 m

/-- A byte as the DRAM holds it. -/
def State.rawByte (s : State) (pa : Nat) : Byte := Table.get 0 s.mem pa
def State.setRawByte (s : State) (pa : Nat) (b : Byte) : State := { s with mem := Table.set 0 s.mem pa b }

/-- `n` bytes little-endian as a number (R7), from a byte reader. -/
def leRead (f : Nat → Byte) (a : Nat) : Nat → Nat
  | 0 => 0
  | n + 1 => (f a).toNat + 256 * leRead f (a + 1) n

/-- Byte `i` of a number (R7). -/
def leByte (v i : Nat) : Byte := BitVec.ofNat 8 (v / 256 ^ i)

/-- The 64 bytes of a line from the DRAM. -/
def State.rawLine (s : State) (line : Nat) : BitVec 512 := BitVec.ofNat 512 (leRead s.rawByte (64 * line) 64)

def lineByte (d : BitVec 512) (i : Nat) : Byte := d.extractLsb' (8 * i) 8
def setLineByte (d : BitVec 512) (i : Nat) (b : Byte) : BitVec 512 :=
  (d &&& ~~~((0xFF#512) <<< (8 * i))) ||| (b.setWidth 512 <<< (8 * i))

/-- The bytes of a migration size (R177); 0 for the reserved code. -/
def migSize (c : BitVec 2) : Nat := if c = 0 then 4096 else if c = 1 then 65536 else if c = 2 then 2097152 else 0

/-- An active slot (COPY or DONE) whose old frame holds an address (R178). -/
def Migration.holds (m : Migration) (pa : Nat) : Bool :=
  (m.state = 1 || m.state = 2) && m.old.toNat * 4096 ≤ pa && pa < m.old.toNat * 4096 + migSize m.size

/-- The place in the new frame of an address in the old one. -/
def Migration.moved (m : Migration) (pa : Nat) : Nat := m.new.toNat * 4096 + (pa - m.old.toNat * 4096)

/-- The active migration slots whose old frame holds an address: several slots may name one old frame (R178). -/
def State.migOf (s : State) (pa : Nat) : List Migration :=
  s.basins.flatMap fun e => (e.2.mig.map (·.2)).filter fun m => m.holds pa

/-- Where a read of an address is served, through at most `k` of the 48 slots in turn: the new frame of one slot may be the
old frame of another (R178). -/
def State.migReadIn (s : State) : Nat → Nat → Nat
  | 0, pa => pa
  | k + 1, pa =>
    match (s.migOf pa).find? fun m => pa - m.old.toNat * 4096 < m.prog with
    | some m => s.migReadIn k (m.moved pa)
    | none => pa

/-- Where a read of an address is served during a migration (R178). -/
def State.migRead (s : State) (pa : Nat) : Nat := s.migReadIn 48 pa

/-- The places of an address in the new frames of the slots that hold it, and in the new frames of those in turn. -/
def State.migWritesIn (s : State) : Nat → Nat → List Nat
  | 0, _ => []
  | k + 1, pa => (s.migOf pa).flatMap fun m => m.moved pa :: s.migWritesIn k (m.moved pa)

/-- Where a write to an address is performed besides, in the same logical step (R178). -/
def State.migWrites (s : State) (pa : Nat) : List Nat := s.migWritesIn 48 pa

/-- A byte as the caches and the home serve it. -/
def State.byteAt (s : State) (pa : Nat) : Byte :=
  match s.cache.find (pa / 64) with
  | some c => lineByte c.data (pa % 64)
  | none => s.rawByte pa

/-- A coherent read of `n` bytes (R158, R301), without a check of the check bits. -/
def State.readCo (s : State) (pa n : Nat) : Nat := leRead s.byteAt (s.migRead pa) n

/-- One byte written coherently at one place: in the cache that owns the line, or in the DRAM with the check bits of
its codeword whole again (R357), and in the clean copies (R400; log entry 51). -/
def State.setByteAt (s : State) (pa : Nat) (b : Byte) : State :=
  let patch (d : BitVec 512) : BitVec 512 := setLineByte d (pa % 64) b
  let s := { s with copies := s.copies.map fun (e : Nat × Copy) =>
    (e.1, if e.1 / 2048 = pa / 64 then { e.2 with data := patch e.2.data } else e.2) }
  match s.cache.find (pa / 64) with
  | some c => { s with cache := s.cache.put (pa / 64) { c with data := patch c.data } }
  | none => { s.setRawByte pa b with errs := s.errs.drop (pa / 16) }

/-- `n` bytes written at one place. -/
def State.writeBytes (s : State) (pa : Nat) : Nat → Nat → State
  | 0, _ => s
  | n + 1, v => State.writeBytes (s.setByteAt pa (leByte v 0)) (pa + 1) n (v / 256)

/-- `n` bytes written at each of some places, breaking the links on their lines (R410). -/
def State.writeEach (s : State) (n v : Nat) : List Nat → State
  | [] => s
  | pa :: l => ((s.writeBytes pa n v).breakRange (pa / 64) ((pa + n - 1) / 64)).writeEach n v l

/-- A coherent write of `n` bytes that stay in one line: on the old and the new frames of migrations (R178), breaking the
links on the line (R410). -/
def State.writeCo (s : State) (pa n v : Nat) : State :=
  ((s.writeEach n v (s.migWrites pa)).writeBytes pa n v).breakLinks (pa / 64)

/-- Bytes written in the DRAM of one frame are written in the new frames of its migrations too (R178). -/
def State.mirror (s : State) (pa n : Nat) : State := s.writeEach n (leRead s.rawByte pa n) (s.migWrites pa)

/-- `n` bytes written from a list, coherently. -/
def State.writeList (s : State) (pa : Nat) : List Byte → State
  | [] => s
  | b :: t => (s.writeCo pa 1 b.toNat).writeList (pa + 1) t

/-- The bytes of a range, coherently. -/
def State.readList (s : State) (pa : Nat) : Nat → List Byte
  | 0 => []
  | n + 1 => s.byteAt (s.migRead pa) :: s.readList (pa + 1) n

/-- What the check bits say of the bytes of a line that lie in a range (R357): 0 correct, 1 a corrected error, 2 a
double error. A row whose unchecked flag is set is not checked. That a codeword with three or more flipped bits is a
double error is the model's choice (log entry 80). -/
def State.checkOf (s : State) (pa n : Nat) : Nat :=
  if s.unchecked.get false (pa / 1024) then 0
  else
    let es := s.errs.filter fun (k, _) => pa / 16 ≤ k && k ≤ (pa + n - 1) / 16
    if es.any fun (_, x) => x ≠ 2 ^ x.log2 then 2 else if es.isEmpty then 0 else 1

/-- A byte as a demand read returns it: a single-bit error of a checked codeword is corrected (R357). Bits from 128
up of an error are check bits (R22). -/
def State.fixedByte (s : State) (pa : Nat) : Byte :=
  match s.errs.find (pa / 16) with
  | none => s.rawByte pa
  | some x =>
    if s.unchecked.get false (pa / 1024) || x ≠ 2 ^ x.log2 then s.rawByte pa
    else s.rawByte pa ^^^ BitVec.ofNat 8 (x / 2 ^ (8 * (pa % 16)))

/-- A byte as its home delivers it: from the cache that owns the line, or from the DRAM, corrected (R301, R357). -/
def State.homeByte (s : State) (pa : Nat) : Byte :=
  match s.cache.find (pa / 64) with
  | some c => lineByte c.data (pa % 64)
  | none => s.fixedByte pa

/-- `n` bytes of a line as their home delivers them. -/
def State.readHome (s : State) (pa n : Nat) : Nat := leRead s.homeByte (s.migRead pa) n

/-- A read of bytes of a line at their home that cannot be delivered correct: a double-bit error (R357, R459). -/
def State.lostAt (s : State) (pa n : Nat) : Bool :=
  (s.cache.find (s.migRead pa / 64)).isNone && s.checkOf (s.migRead pa) n = 2

/-- A line as its home delivers it. -/
def State.lineNow (s : State) (line : Nat) : BitVec 512 := BitVec.ofNat 512 (leRead s.homeByte (64 * line) 64)

/-! ### The caches of the cores -/

/-- The core at position `p` of the quad of a core (R26, R302). -/
def quadCore (core p : Nat) : Nat :=
  core / 16 * 16 + (core % 16 / 8 * 2 + p / 2) * 4 + core % 4 / 2 * 2 + p % 2

/-- The unit that serves an ordinary line to the running stream (R301 to R303): the L1D of the core, of the core of its
fused quad at the line's position, or the L2 slice that owns the line. The annex reads and writes at the home. -/
def State.unitOf (s : State) (line : Nat) : Option Nat :=
  let core := s.myCore
  if 1536 ≤ s.cur then none
  else if s.vec then some (9 * core + 1 + line % 8)
  else if (s.quad (quadOf core)).fused.isSome then some (9 * quadCore core (line % 4))
  else some (9 * core)

/-- The banks that a slice width takes from its core's L1D: none, 15, 13 to 15, or 9 to 15 (R241). -/
def lentBy (sw : BitVec 2) : Nat := 2 ^ sw.toNat - 1

/-- The banks that the L1D of a core lends: those of the largest slice width held on it (R243). -/
def State.lent (s : State) (core : Nat) : Nat :=
  s.strands.foldl (fun m e => if coreOf e.1 = core then max m (lentBy e.2.sw) else m) 0

/-- The bank of a unit that a line comes into: of an L1D, one that it has not lent (R243, R302). -/
def State.bankFor (s : State) (unit line : Nat) : Nat :=
  if unit % 9 = 0 then Config.l1Bank line % (16 - s.lent (unit / 9)) else 0

/-- What a unit holds of a line for a read: the line that it owns, or a copy whose logical lease runs (R400). -/
def State.heldLine (s : State) (unit line : Nat) : Option (BitVec 512) :=
  match (s.cache.find line).filter fun c => c.holder = unit with
  | some c => some c.data
  | none => ((s.copies.find (2048 * line + unit)).filter fun c => s.clk < c.clk + 22000).map (·.data)

/-- The bytes of a line written back to the home's DRAM (R328). -/
def State.writeBack (s : State) (line : Nat) (d : BitVec 512) : State :=
  let rec go (s : State) : Nat → State
    | 0 => s
    | i + 1 => go (s.setRawByte (64 * line + i) (lineByte d i)) i
  let s := go s 64
  { s with errs := s.errs.filter fun (k, _) => k / 4 ≠ line }

/-- `cclean` of one ordinary line: dirty data reach the DRAM, the copies stay (R328). -/
def State.cleanLine (s : State) (line : Nat) : State :=
  match s.cache.find line with
  | some c =>
    { s.writeBack line c.data with
      cache := s.cache.drop line
      copies := s.copies.put (2048 * line + c.holder) ⟨c.data, s.clk, c.bank⟩ }
  | none => s

/-- `cinval` of one ordinary line: cleaned, then every copy dropped (R328). -/
def State.dropLine (s : State) (line : Nat) : State :=
  let s := s.cleanLine line
  { s with copies := s.copies.filter fun e => e.1 / 2048 ≠ line }

/-- A line leaves one unit: written back if the unit owns it. -/
def State.evict (s : State) (unit line : Nat) : State :=
  let s := if ((s.cache.find line).map (·.holder)) = some unit then s.cleanLine line else s
  { s with copies := s.copies.drop (2048 * line + unit) }

/-- A line that a unit holds: owned, copied, or a peer's. -/
inductive Resident where
  | line (l : Nat)
  | peer (dev : BitVec 12) (l : Nat)
  deriving DecidableEq, Repr

/-- The lines that lie in a bank of a unit (R27, R301 to R305). -/
def State.residents (s : State) (unit bank : Nat) : List Resident :=
  ((s.cache.filter fun e => e.2.holder = unit && e.2.bank = bank).map fun e => .line e.1) ++
  ((s.copies.filter fun e => e.1 % 2048 = unit && e.2.bank = bank).map fun e => .line (e.1 / 2048)) ++
  ((s.peer.filter fun p => p.once = none && p.holder = unit && p.bank = bank).map fun p => .peer p.dev p.line)

/-- How many lines a bank of a unit holds (R27): 16 KiB of an L1D, 256 KiB of an L2 slice. -/
def unitLines (unit : Nat) : Nat := if unit % 9 = 0 then 256 else 4096

/-- Room for one line in a bank of a unit: from a full one a line goes (R27). Which one is left open by the spec (log
entry 93). -/
def State.makeRoom (s : State) (unit bank : Nat) : State :=
  let l := s.residents unit bank
  if l.length < unitLines unit then s
  else
    let s' := { s with freeCtr := s.freeCtr + 1 }
    match l[(Config.freeWord s.freeCtr).toNat % l.length]? with
    | some (.line k) => s'.evict unit k
    | some (.peer dv k) =>
      { s' with peer := s'.peer.filter fun p => !(p.once = none && p.holder = unit && p.dev = dv && p.line = k) }
    | none => s'

/-- A unit holds a line of this device already. -/
def State.holds (s : State) (unit line : Nat) : Bool :=
  ((s.cache.find line).any fun c => c.holder = unit) || (s.copies.find (2048 * line + unit)).isSome

/-- A unit takes a clean copy of a line. -/
def State.takeCopy (s : State) (unit line : Nat) : State :=
  let s := if s.holds unit line then s else s.makeRoom unit (s.bankFor unit line)
  { s with copies := s.copies.put (2048 * line + unit) ⟨s.lineNow line, s.clk, s.bankFor unit line⟩ }

/-- The running stream's unit comes to own a line for a write; its own copy goes. A line with a codeword that cannot be
corrected stays at its home, where the write makes whole the codewords that it names (R327, R357). -/
def State.ownLine (s : State) (line : Nat) : State :=
  match s.unitOf line with
  | none => s
  | some u =>
    if (s.cache.find line).isNone && s.checkOf (64 * line) 64 = 2 then s
    else
      let s := if s.holds u line then s else s.makeRoom u (s.bankFor u line)
      { s with cache := s.cache.put line ⟨s.lineNow line, u, s.bankFor u line⟩
               copies := s.copies.drop (2048 * line + u) }

/-- The lines of the banks from `bank` on of a unit, written back and invalidated (R142, R243). -/
def State.emptyUnit (s : State) (unit bank : Nat) : State :=
  let s := (s.cache.filter fun e => e.2.holder = unit && bank ≤ e.2.bank).foldl (fun s e => s.cleanLine e.1) s
  { s with copies := s.copies.filter fun e => !(e.1 % 2048 = unit && bank ≤ e.2.bank)
           peer := s.peer.filter fun p => !(p.once = none && p.holder = unit && bank ≤ p.bank) }

/-- The L1D of a core lends more banks than before: the newly lent ones go empty. Returned banks hold no line (R243). -/
def State.relend (s : State) (core before : Nat) : State :=
  if before < s.lent core then s.emptyUnit (9 * core) (16 - s.lent core) else s

/-! ### Scratchpads -/

/-- The retention deadline of a core's scratchpad rows (R37, R312). -/
def State.deadline (s : State) (core : Nat) : Nat := (s.basin (basinOf core)).retention

/-- How many slots a controller has taken up to the end of a span, that clk included: one every ⌊D / 2,048⌋ clk
(R312). -/
def Span.slots (x : Span) : Nat := if x.stop < x.start then 0 else (x.stop - x.start) / (x.limit / 2048) + 1

/-- The clk of the last write or refresh of a row at the end of a span, from that at its start; none when the row has
expired, for no refresh revives it (R312, R314). -/
def Span.last (x : Span) (row w : Nat) : Option Nat :=
  let j := (row + 1024 - x.row) % 1024
  let at_ (j : Nat) : Nat := x.start + j * (x.limit / 2048)
  let w' :=
    if x.eph || x.slots ≤ j || x.limit ≤ at_ j - w then w
    else max w (at_ (j + (x.slots - 1 - j) / 1024 * 1024))
  if x.limit ≤ x.stop - w' then none else some w'

/-- The present span of a bank's refresh controller, up to a clk. -/
def State.spanOf (s : State) (core bank clk : Nat) : Span :=
  let c := s.core core
  ⟨c.spNext.get 0 bank, c.spRow.get 0 bank, clk, c.eph.getLsbD bank, s.deadline core⟩

/-- The span that follows one. -/
def Core.nextSpan (c : Core) (bank : Nat) (x : Span) : Core :=
  { c with spNext := c.spNext.set 0 bank (x.start + x.slots * (x.limit / 2048))
           spRow := c.spRow.set 0 bank ((x.row + x.slots) % 1024)
           spPast := c.spPast.set [] bank (x :: c.spPast.get [] bank) }

/-- The clk of a row's last write or refresh as it stands at a clk; none for a row that has expired (R312, R314). -/
def State.rowLast (s : State) (core row clk : Nat) : Option Nat :=
  let c := s.core core
  let spans := (s.spanOf core (row / 1024) clk :: c.spPast.get [] (row / 1024)).reverse
  spans.foldl (fun w x => w.bind fun w => x.last (row % 1024) w) ((c.rowClk.find row).getD s.spInit)

/-- Whether a row is expired at the present clk (R314). -/
def State.expired (s : State) (core row : Nat) : Bool :=
  (s.core core).rowDead.get false row || (s.rowLast core row s.clk).isNone

/-- The physical address of a scratchpad byte (R159). -/
def spadPa (core off : Nat) : Nat := 2 ^ 40 + core * 2 ^ 32 + off

/-- A byte of a scratchpad as a read gives it: 0 in an expired row (R314). -/
def State.spadByte (s : State) (core off : Nat) : Byte :=
  if s.expired core (off / 64) then 0 else s.rawByte (spadPa core off)

/-- Clears a row (an expired row keeps nothing, R314). -/
def State.clearRow (s : State) (core row : Nat) : State :=
  let rec go (s : State) : Nat → State
    | 0 => s
    | i + 1 => go (s.setRawByte (spadPa core (64 * row + i)) 0) i
  go s 64

/-- The clk of the last slot that a controller has given a row in a span (R312). -/
def Span.slotOf (x : Span) (row : Nat) : Option Nat :=
  let j := (row + 1024 - x.row) % 1024
  if x.slots ≤ j then none else some (x.start + (j + (x.slots - 1 - j) / 1024 * 1024) * (x.limit / 2048))

/-- The refresh controller has found a row expired at a slot that has come, and no report says so yet (R316). -/
def State.expiryFound (s : State) (core row : Nat) : Bool :=
  let c := s.core core
  let x := s.spanOf core (row / 1024) s.clk
  !x.eph && !c.rowReported.get false row && !c.rowDue.contains row &&
    (x.slotOf (row % 1024)).any fun t => c.rowDead.get false row || (s.rowLast core row t).isNone

/-- The rows of a bank whose expiry has been found and not reported. No row is older than 11,000 clk, the shortest deadline
(R37), before that time has passed since all were written. -/
def State.foundRows (s : State) (core bank : Nat) : List Nat :=
  if s.clk < s.spInit + 11000 && (s.core core).rowDead.isEmpty then []
  else ((List.range 1024).map (1024 * bank + ·)).filter (s.expiryFound core)

/-- The row counts as written now (R311, R314); a report that its expiry is due stays due (R316). -/
def State.ageRow (s : State) (core row : Nat) : State :=
  let c := s.core core
  s.setCore core { c with rowClk := c.rowClk.put row s.clk, rowDead := c.rowDead.drop row
                          rowReported := c.rowReported.drop row
                          rowDue := if s.expiryFound core row then c.rowDue ++ [row] else c.rowDue }

/-- `n` bytes written in one row of a scratchpad (R311, R314). -/
def State.writeSpad (s : State) (core off n v : Nat) : State :=
  let row := off / 64
  let s := if s.expired core row then s.clearRow core row else s
  let rec go (s : State) (off : Nat) : Nat → Nat → State
    | 0, _ => s
    | n + 1, v => go (s.setRawByte (spadPa core off) (leByte v 0)) (off + 1) n (v / 256)
  ((go s off n v).ageRow core row).breakLinks (spadPa core off / 64)

/-- The port that holds the lease: ACTIVE 0b01 is port 0, 0b10 is port 1 (R121). -/
def State.leasePort (s : State) : BitVec 1 := if s.annex.active = 2 then 1 else 0

/-- Messages pass on a port only while its link is up (R111). -/
def State.portUp (s : State) (p : BitVec 1) : Bool := s.annex.linkUp.contains p

/-- Host memory (outside the device) behind the reservoir. -/
def State.hostRaw (s : State) (hpa : Nat) : Byte := Table.get 0 s.hostMem hpa

def State.hostRawLine (s : State) (hl : Nat) : BitVec 512 := BitVec.ofNat 512 (leRead s.hostRaw (64 * hl) 64)

/-- A byte of a host page as the reservoir serves it (R304). -/
def State.hostByte (s : State) (hpa : Nat) : Byte :=
  match s.resv.find (hpa / 64) with
  | some l => lineByte l.data (hpa % 64)
  | none => s.hostRaw hpa

/-- The enabled decoded view that holds a host physical address: the lowest range with BASE ≤ v < LIMIT and a
format that is not reserved (R168, R169). -/
def State.viewOf (s : State) (hpa : Nat) : Option (Nat × BitVec 3) :=
  let rec look : List Nat → Option (Nat × BitVec 3)
    | [] => none
    | k :: t =>
      let base := (s.arfb.get 0 k).toNat * 2 ^ 21
      let fmt := s.arfcFmt.get 0 k
      if s.arfcEn.get false k && 1 ≤ fmt && fmt ≤ 4 && base ≤ hpa && hpa < (s.arfcLimit.get 0 k).toNat * 2 ^ 21
      then some (base, fmt) else look t
  look (List.range 16)

/-- Byte `n` of a decoded view from its source, packed from host address `base` (R169). -/
def State.viewByte (s : State) (base : Nat) (fmt : BitVec 3) (n : Nat) : Byte :=
  let nib := (s.hostRaw (base + n / 2)).toNat / 16 ^ (n % 2) % 16
  let two := (s.hostRaw (base + n / 4)).toNat / 4 ^ (n % 4) % 4
  BitVec.ofInt 8 <|
    match fmt.toNat with
    | 1 => nq4Level nib
    | 2 => e2m1Twice nib
    | 3 => ternValue two
    | _ => signedOf nib 4

/-- The line of host memory that a line of a view is decoded from (R169). -/
def viewSource (base : Nat) (fmt : BitVec 3) (hl : Nat) : Nat :=
  (base + (64 * hl - base) / (if fmt = 3 then 4 else 2)) / 64

/-- A host line brought into the reservoir, decoded if it lies in a view (R169, R304): shared with the host. -/
def State.fillResv (s : State) (hl : Nat) : State :=
  match s.resv.find hl with
  | some _ => s
  | none =>
    let l : RLine := match s.viewOf (64 * hl) with
      | some (base, fmt) =>
        ⟨BitVec.ofNat 512 (leRead (fun a => s.viewByte base fmt (a - base)) (64 * hl) 64), false,
          s.hostPoison.contains (viewSource base fmt hl), false, s.leasePort⟩
      | none => ⟨s.hostRawLine hl, false, s.hostPoison.contains hl, false, s.leasePort⟩
    { s with resv := s.resv.put hl l }

/-- `n` bytes written to one host line in the reservoir (R304, R408). -/
def State.writeHost (s : State) (hpa : Nat) (n v : Nat) : State :=
  let s := s.fillResv (hpa / 64)
  let rec go (d : BitVec 512) (i : Nat) : Nat → Nat → BitVec 512
    | 0, _ => d
    | n + 1, v => go (setLineByte d i (leByte v 0)) (i + 1) n (v / 256)
  match s.resv.find (hpa / 64) with
  | some l => { s with resv := s.resv.put (hpa / 64) ⟨go l.data (hpa % 64) n v, true, l.poisoned, true, l.port⟩ }.breakLinks
      (hostLine hpa)
  | none => s

/-- Host memory receives a line (a write-back of the reservoir, or the host's own write). -/
def State.setHostLine (s : State) (hl : Nat) (d : BitVec 512) : State :=
  let rec go (m : List Host.Cell) : Nat → List Host.Cell
    | 0 => m
    | i + 1 => go (Table.set 0 m (64 * hl + i) (lineByte d i)) i
  { s with hostMem := go s.hostMem 64, hostPoison := s.hostPoison.filter (· ≠ hl) }

/-- A dirty line of the reservoir that must go to its host over a link that is down, if some lines name one: its port
(R111). -/
def State.awayPort (s : State) (on : Nat → Bool) : Option (BitVec 1) :=
  (s.resv.find? fun e => on e.1 && e.2.dirty && !s.portUp e.2.port).map fun e => e.2.port

/-- A dirty reservoir line written back; the line stays (R328). -/
def State.cleanResv (s : State) (hl : Nat) : State :=
  match s.resv.find hl with
  | some l => if l.dirty then { s.setHostLine hl l.data with resv := s.resv.put hl { l with dirty := false } } else s
  | none => s

def State.dropResv (s : State) (hl : Nat) : State :=
  let s := s.cleanResv hl
  { s with resv := s.resv.drop hl }

/-- A source line leaves the reservoir, and with it the view lines derived from it (R169). -/
def State.dropWithViews (s : State) (hl : Nat) : State :=
  let s := s.dropResv hl
  { s with resv := s.resv.filter fun (l, _) =>
      match s.viewOf (64 * l) with
      | some (base, fmt) => viewSource base fmt l ≠ hl
      | none => true }

end Sys2Proof.Machine
end

