-- ==== Sys2Proof/Machine/Report.lean ====
section
/-! DEFINITION. The host lease (R122), what the device sends (R113, R126, R409, R427, R428), its own writes to lines that
it has leased to peers (R405), and condition reports (R460, R461). -/
namespace Sys2Proof.Machine
open Sys2Proof

/-- DTIME.US: the master clock is 1.1 GHz (R28, R114). -/
def State.us (s : State) : BitVec 48 := BitVec.ofNat 48 (s.clk / 1100)

/-- The lease is live (R122). -/
def State.leaseLive (s : State) : Bool := s.annex.active ≠ 0 && s.us < s.annex.expiry

/-- The boot has reached READY: until then the host interface and the boot alone act (R115). -/
def State.ready (s : State) : Bool := s.annex.bootState = 3

/-- A step of a unit that is idle before READY (R115). -/
def State.whenReady (s t : State) : State := if s.ready then t else s

/-- A saturating count. -/
def satInc {w : Nat} (x : BitVec w) : BitVec w := if x = BitVec.allOnes w then x else x + 1

def State.send (s : State) (o : Out) : State := { s with out := o :: s.out }

/-- The lease is live, and the link of its port is up. -/
def State.leaseUp (s : State) : Bool := s.leaseLive && s.portUp s.leasePort

/-- Raises an MSI-X vector 1 to 63: delivered to the port whose lease is live, else held pending (R113, R126). -/
def State.raiseMsix (s : State) (v : Nat) : State :=
  if s.leaseUp then s.send (.msix s.leasePort s.sender.2 v)
  else if s.annex.msixPending.contains v then s
  else { s with annex := { s.annex with msixPending := s.annex.msixPending ++ [v] } }

/-! ### Messages to peers -/

/-- The peer table entry of a device (R428), or 0 where the table does not lie in device memory. -/
def State.peerEntry (s : State) (dv : BitVec 12) : Word :=
  let a := s.ptabBase.toNat * 2 ^ 15 + 8 * dv.toNat
  if isDevMem a then BitVec.ofNat 64 (s.readCo a 8) else 0

/-- The ports of a peer table entry, PORT0 to PORT0 + NPORT − 1 modulo 72, from the `start`-th on (R428). -/
def portsOf (e : Word) (start : Nat) : List Nat :=
  let n := (e.extractLsb' 32 8).toNat
  (List.range n).map fun i => ((e.extractLsb' 24 8).toNat + (start + i) % n) % 72

/-- A message to a peer, its flits spread round-robin over the peer's ports from the `start`-th on (R427, R428). -/
def State.sendAq (s : State) (dv : BitVec 12) (start : Nat) (body : AqBody) : State :=
  s.send (.aq dv s.sender.1 s.sender.2 (portsOf (s.peerEntry dv) start) body)

/-! ### Time and leases -/

/-- The device's IEEE 1588 time in ns: what the last exchange gave, and the clk since (R28, R430; log entry 29). -/
def State.aqNow (s : State) : Nat := s.aqSec.toNat * 10 ^ 9 + s.aqNs.toNat + (s.clk - s.aqLast) * 10 / 11

/-- AQTIME as a register reads it (R430). -/
def State.aqtime (s : State) : BitVec 64 :=
  BitVec.ofNat 34 (s.aqNow / 10 ^ 9) ++ BitVec.ofNat 30 (s.aqNow % 10 ^ 9)

/-- A write to a line of this device waits while a lease that it granted on the line runs: to the expiry and 1 µs of
guard by its own time, or 51 µs of its master clock after the grant while it is not synchronised (R405, R407). -/
def State.leaseRuns (s : State) (line : Nat) : Bool :=
  s.granted.any fun (l : Lease) => l.line = line &&
    (if s.aqSync then s.aqNow ≤ l.expiry + 1000 else s.clk < l.clk + 56100)

/-- A write to a line has to wait: a lease runs on it, or on a line of a new frame that the write reaches too (R178,
R405). -/
def State.leased (s : State) (line : Nat) : Bool :=
  s.leaseRuns line || (s.migWrites (64 * line)).any fun pa => s.leaseRuns (pa / 64)

/-- The lines that a range of bytes touches. -/
def linesOf (pa n : Nat) : List Nat := if n = 0 then [] else (List.range ((pa + n - 1) / 64 + 1 - pa / 64)).map (pa / 64 + ·)

/-- A line that has to wait for a lease, of those that a range of device memory touches (R405). -/
def State.leasedIn (s : State) (pa n : Nat) : Option Nat :=
  if s.granted.isEmpty then none else (linesOf pa n).find? s.leased

/-- A write that the device itself makes waits, like any other, for the leases granted on its lines (R405). -/
def State.ownWrite (s : State) (pa : Nat) (l : List Byte) : State :=
  if (s.leasedIn pa l.length).isSome then { s with deferred := s.deferred ++ [(pa, l)] }
  else s.writeList pa l

/-- The device's own writes whose leases have ended are performed, oldest first (R405). -/
def State.flushDeferred (s : State) : State :=
  s.deferred.foldl (fun s e => s.ownWrite e.1 e.2) { s with deferred := [] }

/-! ### Condition reports -/

/-- A range of whole megabytes lies in device memory of a basin. -/
def rangeIn (basin base len : Nat) : Bool :=
  let rec go : Nat → Bool
    | 0 => true
    | n + 1 => isDevMem (base + n * 2 ^ 20) && paBasin (base + n * 2 ^ 20) = basin && go n
  len = 0 || (go ((len + 2 ^ 20 - 1) / 2 ^ 20) && isDevMem (base + len - 1) && paBasin (base + len - 1) = basin)

/-- The fields of a condition report (R461). -/
structure Report where
  kind : Nat
  core : Nat := 0xFF
  slot : Nat := 0xFF
  lq : Nat := 0xFF
  ctx : Nat := 0
  lrec : Nat := 0
  tag : Nat := 0
  bank : Nat := 0xFFFF
  sub : Nat := 0xFF
  seg : Nat := 0xFF
  index : Nat := 0
  addr : Nat := 0
  data : Nat := 0
  deriving DecidableEq, Repr

/-- The bytes of a number, lowest first. -/
def bytesOf (v : Nat) : Nat → List Byte
  | 0 => []
  | n + 1 => BitVec.ofNat 8 v :: bytesOf (v / 256) n

/-- The 64 bytes of a report (R461). -/
def Report.bytes (r : Report) (basin : Nat) (time seq : Nat) : List Byte :=
  bytesOf r.kind 2 ++ bytesOf basin 1 ++ bytesOf r.core 1 ++ bytesOf r.slot 1 ++ bytesOf r.lq 1 ++ bytesOf r.ctx 2 ++
  bytesOf time 8 ++ bytesOf r.lrec 4 ++ bytesOf r.tag 2 ++ bytesOf r.bank 2 ++ bytesOf r.sub 1 ++ bytesOf r.seg 1 ++
  bytesOf r.index 2 ++ bytesOf 0 4 ++ bytesOf r.addr 8 ++ bytesOf r.data 16 ++ bytesOf 0 4 ++ bytesOf seq 4

/-- Wakes the strands of a basin that `idle` holds (R450). -/
def State.wakeIdle (s : State) (basin : Nat) : State :=
  { s with strands := s.strands.map fun (n, t) =>
      (n, if basinOf (coreOf n) = basin && t.st = .wait .event then { t with idleDone := true } else t) }

/-- Raises a condition report in a basin (R461). -/
def State.report (s : State) (basin : Nat) (r : Report) : State :=
  let b := s.basin basin
  let base := b.crBase.toNat * 4096
  let n := 2 ^ b.crLog2n.toNat
  let s := { s with annex := { s.annex with launches := s.annex.launches.map fun (l : Launch) =>
      if r.lq < 64 && l.queue = r.lq && l.recno.toNat = r.lrec then { l with reports := l.reports + 1 } else l } }
  let s := s.wakeIdle basin
  if b.crLog2n = 0 || !rangeIn basin base (64 * n) || (b.crTail - b.crHead).toNat = n then
    s.setBasin basin { b with crLost := satInc b.crLost }
  else
    let s := s.ownWrite (base + 64 * (b.crTail.toNat % n)) (r.bytes basin s.aqtime.toNat (b.crTail + 1).toNat)
    let s := s.setBasin basin { b with crTail := b.crTail + 1 }
    if b.crTail = b.crHead then s.raiseMsix 1 else s

/-- The launch a strand belongs to. -/
def State.launchOf (s : State) (id : Nat) : Option Launch := s.annex.launches.find? fun l => l.id = id

/-- A report that names a strand, its context and its launch. Slot 1,536 + 64 × id + q stands for the annex, which acts
for launch id of queue q, or, with id 0, for the record that it reads at HEAD (log entry 39). -/
def State.strandReport (s : State) (slot : Nat) (t : Strand) (r : Report) : State :=
  if 1536 ≤ slot then
    s.report 0 { r with
      ctx := t.ctxid.toNat, lq := slot % 64
      lrec := if (slot - 1536) / 64 = 0 then (s.annex.queues.get {} (slot % 64)).head.toNat
        else ((s.launchOf ((slot - 1536) / 64)).map (·.recno.toNat)).getD 0 }
  else
  let r := { r with core := coreOf slot, slot := slot % 8, ctx := t.ctxid.toNat }
  let r := match s.launchOf t.bind.launch with
    | some l => { r with lq := l.queue, lrec := l.recno.toNat }
    | none => r
  s.report (basinOf (coreOf slot)) r

/-- Synchronisation is lost (R407, R430): every lease that this device holds counts as expired. -/
def State.loseSync (s : State) : State :=
  if s.aqSync then
    { s with aqSync := false, aqGood := 0, peer := s.peer.filter fun (p : PeerLine) => p.once.isSome }.report 0 { kind := 0x0B }
  else { s with aqGood := 0 }

/-- 8 ms pass without a completed exchange (R430). -/
def State.syncEnds (s : State) : State := if s.aqSync && 8800000 ≤ s.clk - s.aqLast then s.loseSync else s

/-- A refresh of a bank of a scratchpad takes this clk (R312). -/
def State.refreshNow (s : State) (core bank : Nat) : Bool :=
  let c := s.core core
  let at_ := c.spNext.get 0 bank
  !c.eph.getLsbD bank && at_ ≤ s.clk && (s.clk - at_) % (s.deadline core / 2048) = 0

/-- The strand in a slot accesses rows of scratchpads (core and row): each access to a bank that a refresh takes in this clk waits
behind it, for one clk (R312, R474; log entry 36). -/
def State.spadWaits (s : State) (slot : Nat) (rows : List (Nat × Nat)) : State :=
  let n := (rows.eraseDups.filter fun r => s.refreshNow r.1 (r.2 / 1024)).length
  match (if n = 0 then none else s.strand slot) with
  | some t => { s with annex := { s.annex with launches := s.annex.launches.map fun (l : Launch) =>
      if l.id = t.bind.launch then { l with trefr := min (l.trefr + n) (2 ^ 64 - 1) } else l } }
  | none => s

/-- The reports of the single-bit errors that a demand read of bytes of one row corrects, one for each codeword that it
reads (R357). -/
def State.corrected (s : State) (pa n : Nat) : State :=
  if (s.cache.find (pa / 64)).isSome || s.unchecked.get false (pa / 1024) then s
  else
    (s.errs.filter fun e => pa / 16 ≤ e.1 && e.1 ≤ (pa + n - 1) / 16 && e.2 = 2 ^ e.2.log2).foldl (fun s e =>
      let a := 16 * e.1
      s.report (paBasin a) { kind := 2, bank := paBank a, sub := paSub a, index := a / 1024 % 1024, addr := a }) s

end Sys2Proof.Machine
end

