-- ==== Sys2Proof/Machine/Translate.lean ====
section
/-! DEFINITION. Contexts, page tables and page classes (R150 to R158, R171 to R175), the boot context (R444), ATS
(R308): from a virtual address to the place that serves it, or the fault that the walk and the permission
checks give. -/
namespace Sys2Proof.Machine
open Sys2Proof

/-- What a part of an instruction does: it goes on with a value, takes a trap with a cause and XVAL, or waits. -/
inductive Res (α : Type) where
  | ok (a : α) (s : State)
  | trap (code : BitVec 8) (val : Word) (s : State)
  | wait (w : Await) (s : State)

def Res.bind {α β : Type} (x : Res α) (f : α → State → Res β) : Res β :=
  match x with
  | .ok a s => f a s
  | .trap c v s => .trap c v s
  | .wait w s => .wait w s

/-- The same outcome in another state. -/
def Res.after {α : Type} (x : Res α) (f : State → State) : Res α :=
  match x with
  | .ok a s => .ok a (f s)
  | .trap c v s => .trap c v (f s)
  | .wait w s => .wait w (f s)

/-- The causes of R446. -/
def causeIllegal : BitVec 8 := 0x01
def causePrivilege : BitVec 8 := 0x02
def causeCodeEnd : BitVec 8 := 0x03
def causeLoop : BitVec 8 := 0x04
def causeMisaligned : BitVec 8 := 0x05
def causeTranslation : BitVec 8 := 0x06
def causeAccess : BitVec 8 := 0x07
def causeHostPage : BitVec 8 := 0x08
def causeStaleCast : BitVec 8 := 0x09
def causeSealed : BitVec 8 := 0x0A
def causeExpired : BitVec 8 := 0x0B
def causeLength : BitVec 8 := 0x0C
def causeDescriptor : BitVec 8 := 0x0D
def causeIssueWord : BitVec 8 := 0x0E
def causeRecord : BitVec 8 := 0x0F
def causeRing : BitVec 8 := 0x10
def causeBarrier : BitVec 8 := 0x11
def causeMachineCheck : BitVec 8 := 0x12
def causeService : BitVec 8 := 0x13
def causePreempt : BitVec 8 := 0x14
def causeFrame : BitVec 8 := 0x15
def causeVector : BitVec 8 := 0x20

/-- What an access does with a page. -/
inductive Access where
  | read | write | fetch
  /-- `gl`, `sc`, `vgl`, `vsc` (R411): reading, or writing when `w` -/
  | link (w : Bool)
  /-- `apnd`, `vapnd`, `seal` (R418, R420) -/
  | append
  /-- `sealq` (R421) -/
  | query
  /-- `cclean`, `cinval`: no permission is needed (R328) -/
  | probe
  deriving DecidableEq, Repr

/-- A context descriptor: ROOT, and the PASID if it is valid (R151). -/
structure CtxDesc where
  root : Nat
  pasid : Option (BitVec 20)
  deriving DecidableEq, Repr

/-- Where the descriptor of a context stands, if a read of it is made (R152). -/
def State.ctxAt (s : State) (ctx : BitVec 16) : Option Nat :=
  let a := s.ctxtabBase.toNat * 4096 + 32 * ctx.toNat
  if 2 ^ s.ctxtabLog2n.toNat ≤ ctx.toNat || !s.isTableMem a then none else some a

/-- The descriptor of a context cannot be delivered correct (R459). -/
def State.ctxLost (s : State) (ctx : BitVec 16) : Bool := (s.ctxAt ctx).any fun a => s.lostAt a 32

/-- Reads the descriptor of a context; none when the read fails (R152). -/
def State.ctxDesc (s : State) (ctx : BitVec 16) : Option CtxDesc :=
  match s.ctxAt ctx with
  | none => none
  | some a =>
    let root := s.readHome a 8
    let pasid := s.readHome (a + 8) 4
    let rest := s.readHome (a + 12) 20
    if s.ctxLost ctx || root % 4096 ≠ 0 || 2 ^ 52 ≤ root || pasid / 2 ^ 20 % 2 ^ 11 ≠ 0 || rest ≠ 0 then none
    else some ⟨root, if 2 ^ 31 ≤ pasid then some (BitVec.ofNat 20 pasid) else none⟩

/-- The fault of an access whose context descriptor cannot be read (R152, R459). -/
def State.ctxFault (s : State) (ctx : BitVec 16) : BitVec 8 :=
  if s.ctxLost ctx then causeMachineCheck else causeTranslation

/-- The boot context: context 0 until CTXTAB is first written (R444). -/
def State.inBoot (s : State) (ctx : BitVec 16) : Bool := ctx = 0 && !s.ctxtabWritten

/-- The fields of a page-table entry (R154). -/
def pteFrame (p : BitVec 64) : Nat := (p.extractLsb' 12 40).toNat * 4096
def pteHi (p : BitVec 64) : BitVec 12 := p.extractLsb' 52 12
def pteClass (p : BitVec 64) : Nat := (p.extractLsb' 9 3).toNat
def pteS64 (p : BitVec 64) : Bool := p.getLsbD 8
def ptePv (p : BitVec 64) : Bool := p.getLsbD 7
def pteG (p : BitVec 64) : Bool := p.getLsbD 6
def pteU (p : BitVec 64) : Bool := p.getLsbD 5
def pteX (p : BitVec 64) : Bool := p.getLsbD 4
def pteW (p : BitVec 64) : Bool := p.getLsbD 3
def pteRd (p : BitVec 64) : Bool := p.getLsbD 2
def pteLeaf (p : BitVec 64) : Bool := p.getLsbD 1
def pteV (p : BitVec 64) : Bool := p.getLsbD 0

/-- GEN of a vitrine leaf: HI holds the top 12 bits, FRAME the low 4 (R154, R156). -/
def pteGen (p : BitVec 64) : BitVec 16 := pteHi p ++ p.extractLsb' 12 4

/-- The sizes a class may map (R156). -/
def classSize (cls size : Nat) : Bool :=
  match cls with
  | 0 => size = 4096 || size = 65536 || size = 2097152
  | 1 => size = 2097152
  | 2 => size = 65536
  | 3 => size = 4096 || size = 65536
  | 4 => size = 4096 || size = 2097152 || size = 2 ^ 30
  | 5 => size = 65536 || size = 2097152 || size = 2 ^ 30
  | _ => false

/-- What a walk finds (R157). -/
inductive Walk where
  | fault (code : BitVec 8)
  | leaf (p : BitVec 64) (size : Nat)
  deriving DecidableEq, Repr

/-- The conditions of a leaf that are translation faults (R157). -/
def leafOk (p : BitVec 64) (level : Nat) (size : Nat) : Bool :=
  let cls := pteClass p
  classSize cls size &&
  (cls = 5 || !ptePv p) &&
  (level = 3 || !pteS64 p) &&
  (cls = 2 || cls = 5 || pteHi p = 0) &&
  (if cls = 4 then pteFrame p = 0 else if cls = 2 then true else pteFrame p % size = 0)

/-- One level of the walk (R153), with at most `fuel` further levels. -/
def State.walkFrom (s : State) (va : Nat) : Nat → Nat → Nat → Walk
  | 0, _, _ => .fault causeTranslation
  | fuel + 1, level, table =>
    if !s.isTableMem table then .fault causeTranslation
    else
      let a := table + 8 * (va / 2 ^ (39 - 9 * level) % 512)
      if s.lostAt a 8 then .fault causeMachineCheck
      else
        let p := BitVec.ofNat 64 (s.readHome a 8)
        if !pteV p then .fault causeTranslation
        else if !pteLeaf p then
          if level = 3 || pteHi p ≠ 0 || p.extractLsb' 2 10 ≠ 0 then .fault causeTranslation
          else s.walkFrom va fuel (level + 1) (pteFrame p)
        else if level = 0 then .fault causeTranslation
        else
          let size := if level = 1 then 2 ^ 30 else if level = 2 then 2097152 else if pteS64 p then 65536 else 4096
          if leafOk p level size then .leaf p size else .fault causeTranslation

/-- The walk of a context for an address (R152, R153). -/
def State.walk (s : State) (ctx : BitVec 16) (va : Nat) : Walk :=
  match s.ctxDesc ctx with
  | none => .fault (s.ctxFault ctx)
  | some d => s.walkFrom va 4 0 d.root

/-- The table entries that a walk reads (R153). -/
def State.walkPath (s : State) (va : Nat) : Nat → Nat → Nat → List Nat
  | 0, _, _ => []
  | fuel + 1, level, table =>
    if !s.isTableMem table then []
    else
      let a := table + 8 * (va / 2 ^ (39 - 9 * level) % 512)
      let p := BitVec.ofNat 64 (s.readHome a 8)
      a :: if pteV p && !pteLeaf p then s.walkPath va fuel (level + 1) (pteFrame p) else []

/-- The reports of the errors that the reads of a walk correct (R357). -/
def State.walkReports (s : State) (ctx : BitVec 16) (va : Nat) : State :=
  if s.errs.isEmpty then s
  else
    let tables := match s.ctxDesc ctx with
      | none => []
      | some d => s.walkPath va 4 0 d.root
    let s := ((s.ctxAt ctx).toList).foldl (fun s a => s.corrected (s.migRead a) 32) s
    tables.foldl (fun s a => s.corrected (s.migRead a) 8) s

def State.frame (s : State) (f : Nat) : Frame := s.frames.get {} f
def State.setFrame (s : State) (f : Nat) (x : Frame) : State := { s with frames := s.frames.set {} f x }

/-- The part of a local leaf's range that the access-fault conditions of R157 look at: no part of it lies outside memory,
and, unless it is vitrine, no 64 KiB frame of it is OPEN or SEALED (R172). R157 names no fault for a leaf whose FRAME
lies in the other kind of memory (a scratchpad window on device memory, another class on a scratchpad): that it is the
access fault too is the model's choice (log entry 52). -/
def State.rangeOk (s : State) (cls base size : Nat) : Bool :=
  if cls = 3 then isSpad base && isSpad (base + size - 1)
  else
    isDevMem base && !s.inPool base && isDevMem (base + size - 1) && !s.inPool (base + size - 1) &&
    (cls = 2 || !(s.frames.any fun (f, x) => base / 65536 ≤ f && f ≤ (base + size - 1) / 65536 && x.state ≠ 0))

/-- The TLB that translates an address for the running stream (R306): the scalar TLB of the core, or the slice of the
lane group at the address; the annex has one of its own. -/
def State.tlbUnit (s : State) (va : Nat) : Nat :=
  if 1536 ≤ s.cur then 1728
  else if s.vec then 9 * s.myCore + 1 + va / 64 % 8
  else 9 * s.myCore

/-- How many translations a TLB holds (R306). -/
def tlbSize (unit : Nat) : Nat := if unit % 9 = 0 then 128 else 256

/-- A list, newest first, without its oldest entry of a kind. -/
def dropOldest {α : Type} (f : α → Bool) (l : List α) : List α := (l.reverse.eraseP f).reverse

/-- Room for one translation in a TLB: a full one loses its oldest (R306; which one goes is log entry 53). -/
def State.tlbRoom (s : State) (unit : Nat) : State :=
  let here := s.tlb.countP fun e => e.unit = unit
  if here + (s.ats.countP fun e => e.unit = unit) < tlbSize unit then s
  else if here = 0 then { s with ats := dropOldest (fun e => e.unit = unit) s.ats }
  else { s with tlb := dropOldest (fun e => e.unit = unit) s.tlb }

def State.addTlb (s : State) (e : TlbEntry) : State :=
  let s := s.tlbRoom e.unit
  { s with tlb := e :: s.tlb }

/-- Fills the translation of an address for the strand (R157, R171, R175). A remote vitrine leaf first asks the
owner for the generation: that of the 64 KiB frame that the access reaches, which a larger leaf then carries for its
whole range (the model's choice, log entry 54). A leaf that `ok` refuses is not asked for: the access will fault on it. -/
def State.fillTlb (s : State) (va : Nat) (ok : BitVec 64 → Bool := fun _ => true) : Res TlbEntry :=
  let t := s.self
  let found := s.walk t.ctxid va
  let s := s.walkReports t.ctxid va
  match found with
  | .fault c =>
    .trap c (BitVec.ofNat 64 va)
      (if c = causeMachineCheck then s.strandReport s.cur t { kind := 3, addr := va } else s)
  | .leaf p size =>
    let cls := pteClass p
    let e : TlbEntry := ⟨s.tlbUnit va, t.ctxid, pteG p, va / size * size, size, p, 0,
      if cls = 4 then (s.ctxDesc t.ctxid).bind (·.pasid) else none⟩
    let add (s : State) (e : TlbEntry) : Res TlbEntry := .ok e (s.addTlb e)
    if cls = 2 then
      let base := pteFrame p / 65536 * 65536
      if !s.rangeOk 2 base size then .trap causeAccess (BitVec.ofNat 64 va) s
      else
        let f := s.frame (base / 65536)
        if f.gen ≠ pteGen p then .trap causeStaleCast (BitVec.ofNat 64 va) s
        else if f.state = 0 then add (s.setFrame (base / 65536) ⟨1, 0, f.gen⟩) e
        else add s e
    else if cls ≤ 3 then
      if s.rangeOk cls (pteFrame p) size then add s e else .trap causeAccess (BitVec.ofNat 64 va) s
    else if cls = 5 && ptePv p then
      if !ok p then .ok e s
      else
        match t.genRead.filter fun g => g.1 = va / 4096 with
        | some (_, some gen) =>
          let s := s.modSelf fun t => { t with genRead := none }
          let frame := pteFrame p + va % size / 65536 * 65536
          let s := { s with casts := s.casts.filter fun c =>
            !(c.basin = s.myBasin && c.dev = some (pteHi p) && c.frame = frame && c.gen ≠ gen) }
          add s { e with gen := gen }
        | some (_, none) => .trap causeAccess (BitVec.ofNat 64 va) (s.modSelf fun t => { t with genRead := none })
        | none =>
          let tok := s.nextId
          .wait (.fill tok (va / 4096)) (({ s with nextId := tok + 1 }.modSelf fun t => { t with sentAt := s.clk }).sendAq
            (pteHi p) 0 (.homeCommand (BitVec.ofNat 52 (pteFrame p + va % size)) 0 3 0 [] 0 tok))
    else add s e

/-- The translation that a TLB holds for an address in a context (R306). A host leaf stands for the PASID of one context,
and serves no other (R151). -/
def State.findTlb (s : State) (ctx : BitVec 16) (va : Nat) : Option TlbEntry :=
  s.tlb.find? fun e =>
    e.unit = s.tlbUnit va && (e.glob && pteClass e.leaf ≠ 4 || e.ctx = ctx) && e.vbase ≤ va && va < e.vbase + e.size

/-- Whether a leaf permits an access (R157, R411, R418, R421). -/
def permits (p : BitVec 64) (priv : Bool) (k : Access) : Bool :=
  let cls := pteClass p
  let user := priv || pteU p
  match k with
  | .read => user && pteRd p
  | .write => user && pteW p && cls ≠ 2 && !(cls = 5 && ptePv p)
  | .fetch => user && pteX p && cls = 0
  | .link w => user && (if w then pteW p else pteRd p) && (cls = 0 || cls = 4 || (cls = 5 && !ptePv p))
  | .append => user && pteW p && (cls = 2 || (cls = 5 && ptePv p))
  | .query => user && pteRd p && (cls = 2 || (cls = 5 && ptePv p))
  | .probe => true

def Access.writes : Access → Bool
  | .write => true
  | .link w => w
  | .append => true
  | _ => false

/-- The ATS translation held for a page (R308). -/
def State.findAts (s : State) (ctx : BitVec 16) (pasid : BitVec 20) (va : Nat) : Option AtsEntry :=
  s.ats.find? fun e => e.unit = s.tlbUnit va && e.port = s.leasePort && e.pasid = pasid && e.ctx = ctx &&
    e.vbase ≤ va && va < e.vbase + e.size

/-- The TLBs of a basin that miss one page of a context share one request (R307): another strand waits for an answer that
will serve this access too. -/
def State.atsAsked (s : State) (page : Nat) (write : Bool) : Bool :=
  s.strands.any fun e =>
    match e.2.st with
    | .wait (.ats _ p w) =>
      e.1 ≠ s.cur && basinOf (coreOf e.1) = s.myBasin && e.2.ctxid = s.self.ctxid && p = page && (w || !write)
    | _ => false

/-- Asks the host for a translation, or takes the host-page fault when the host did not grant it (R308, R309). A link
that is down carries no request (R111). -/
def State.askAts (s : State) (va : Nat) (pasid : BitVec 20) (k : Access) : Res Place :=
  if s.self.atsDenied = some (va / 4096) then
    .trap causeHostPage (BitVec.ofNat 64 va)
      (s.modSelf fun t => { t with atsDenied := none, hostFault := (pasid, k.writes) })
  else if !s.portUp s.leasePort then .wait .link s
  else .wait (.ats [s.tlbUnit va] (va / 4096) k.writes)
    (if s.atsAsked (va / 4096) k.writes then s
     else s.send (.atsRequest s.leasePort s.sender.2 pasid (BitVec.ofNat 64 (va / 4096 * 4096)) k.writes))

/-- The running strand makes the scalar access again whose page request the host refused: SREC of the area at XFRAME
holds the reply Invalid or Failure (R309, R456). -/
def State.refused (s : State) (va : Word) : Bool :=
  let t := s.self
  let area := ((s.core (coreOf s.cur)).xframe.get 0 (s.cur % 8)).toNat + 0x40
  t.sreq = some (va, t.pc) && (t.vq.isEmpty || t.exl) && s.byteAt area = 8 &&
    (s.byteAt (area + 1) = 3 || s.byteAt (area + 1) = 4) && s.readCo (area + 8) 8 = va.toNat

/-- A host page (R167, R169, R308): the PASID that the walk read (R152), the lease, the ATS translation with the needed
permission, and no write or atomic into a decoded view. -/
def State.hostPlace (s : State) (pasid : Option (BitVec 20)) (va : Nat) (k : Access) : Res Place :=
  let t := s.self
  let v := BitVec.ofNat 64 va
  match pasid with
  | none => .trap causeAccess v s
  | some pasid =>
    if s.refused v then .trap causeAccess v (s.modSelf fun t => { t with sreq := none })
    else if !s.leaseLive then .trap causeAccess v s
    else
      match s.findAts t.ctxid pasid va with
      | some e =>
        if (if k.writes then e.canWrite else e.canRead) then
          let hpa := e.hpa + (va - e.vbase)
          if (s.viewOf hpa).isSome && (k.writes || k = .link false) then .trap causeAccess v s else .ok (.host hpa) s
        else s.askAts va pasid k
      | none => s.askAts va pasid k

/-- The place of an address under a filled translation, with the permission checks (R157, R173). -/
def State.placeOf (s : State) (e : TlbEntry) (va : Nat) (k : Access) : Res Place :=
  let v := BitVec.ofNat 64 va
  let off := va - e.vbase
  if !permits e.leaf s.self.cur k then .trap causeAccess v s
  else
    let pa := pteFrame e.leaf + off
    match pteClass e.leaf with
    | 0 => if s.inPool pa then .trap causeAccess v s else .ok (.dev pa) s
    | 1 => if s.inPool pa then .trap causeAccess v s else .ok (.plane pa) s
    | 2 =>
      let pa := pteFrame e.leaf / 65536 * 65536 + off
      if s.inPool pa then .trap causeAccess v s else .ok (.vitrine pa (pteGen e.leaf)) s
    | 3 => .ok (.spad (pa / 2 ^ 32 % 256) (pa % 2 ^ 22)) s
    | 4 => s.hostPlace e.pasid va k
    | _ => .ok (.peer (pteHi e.leaf) pa (ptePv e.leaf) e.gen) s

/-- The boot context's identity map (R444). -/
def State.bootPlace (s : State) (va : Nat) (k : Access) : Res Place :=
  let v := BitVec.ofNat 64 va
  if isDevMem va && !s.inPool va then
    (if k = .append || k = .query then .trap causeAccess v s else .ok (.dev va) s)
  else if isSpad va then
    (match k with
     | .read => .ok (.spad (va / 2 ^ 32 % 256) (va % 2 ^ 22)) s
     | .write => .ok (.spad (va / 2 ^ 32 % 256) (va % 2 ^ 22)) s
     | .probe => .ok (.spad (va / 2 ^ 32 % 256) (va % 2 ^ 22)) s
     | _ => .trap causeAccess v s)
  else .trap causeAccess v s

/-- The place that the waiting instruction had found for an address (R319, R321). -/
def State.placedAt (s : State) (va : Word) (k : Access) : Option Place :=
  if k = .fetch then none else (s.self.placed.find? fun e => e.1 = va).map (·.2)

/-- Translates one address for an access of the running strand (R150 to R158, R308, R444). -/
def State.translate (s : State) (va : Word) (k : Access) : Res Place :=
  if va.extractLsb' 48 16 ≠ 0 then .trap causeTranslation va s
  else if s.inBoot s.self.ctxid then s.bootPlace va.toNat k
  else
    match s.placedAt va k with
    | some p => .ok p s
    | none =>
      match s.findTlb s.self.ctxid va.toNat with
      | some e => s.placeOf e va.toNat k
      | none => (s.fillTlb va.toNat fun p => permits p s.self.cur k).bind fun e s => s.placeOf e va.toNat k

/-- The place of a page that may be of some classes only: `refuse` gives the fault of any other leaf, which no request or
message to the outside comes before. -/
def State.placeAmong (s : State) (va : Word) (k : Access) (refuse : BitVec 64 → Option (BitVec 8 × Word)) : Res Place :=
  let use (e : TlbEntry) (s : State) : Res Place :=
    if !permits e.leaf s.self.cur k then .trap causeAccess va s
    else
      match refuse e.leaf with
      | some (c, v) => .trap c v s
      | none => s.placeOf e va.toNat k
  if va.extractLsb' 48 16 ≠ 0 then .trap causeTranslation va s
  else if s.inBoot s.self.ctxid then s.bootPlace va.toNat k
  else
    match s.findTlb s.self.ctxid va.toNat with
    | some e => use e s
    | none => (s.fillTlb va.toNat fun p => permits p s.self.cur k && (refuse p).isNone).bind use

end Sys2Proof.Machine
end

