-- ==== Sys2Proof/Machine/Ops.lean ====
section
/-! DEFINITION. The named operations of the machine: registers, the sequencer position and the loop boundary rule
(R206 to R208), waiting (R271), taking an exception (R447), the double trap (R448), the return from an exception
(R450), and the page request of a scalar host-page fault (R456). -/
namespace Sys2Proof.Machine
open Sys2Proof

/-- Reads a general register: g0 reads as zero (R182, R216). -/
def Strand.getG (t : Strand) (r : BitVec 5) : Word := if r = 0 then 0 else t.g.get 0 r.toNat

/-- Writes a general register: a write to g0 is discarded (R182, R216). -/
def Strand.setG (t : Strand) (r : BitVec 5) (v : Word) : Strand :=
  if r = 0 then t else { t with g := t.g.set 0 r.toNat v }

def State.getG (s : State) (r : BitVec 5) : Word := s.self.getG r
def State.setG (s : State) (r : BitVec 5) (v : Word) : State := s.modSelf fun t => t.setG r v

def Strand.setPc (t : Strand) (pc : Word) : Strand := { t with pc := pc }

/-- The fall-through PC + 4 (R233). -/
def State.advance (s : State) : State := s.modSelf fun t => t.setPc (t.pc + 4)

/-- A result in a general register, and the fall-through. -/
def State.result (s : State) (d : BitVec 5) (v : Word) : State :=
  s.modSelf fun t => (t.setG d v).setPc (t.pc + 4)

/-- The slice width and VLEN in bits (R243, R244). -/
def Strand.slice (t : Strand) : Nat := 512 * 2 ^ t.sw.toNat
def Strand.vlen (t : Strand) : Nat := 2 ^ t.lgc.toNat * t.slice

/-- The strand waits at its instruction (R271). -/
def State.waitOn (s : State) (w : Await) : State := s.modSelf fun t => { t with st := .wait w }

/-- The fields of the loop stack as XLS registers, outermost entry first (R449). `loops` lists the innermost first. -/
def shadowOf (loops : List LoopEntry) : Table Word :=
  let rec go (n : Nat) : List LoopEntry → Table Word → Table Word
    | [], t => t
    | e :: r, t =>
      go (n + 1) r ((((t.set 0 (4 * n) e.start).set 0 (4 * n + 1) e.stop).set 0 (4 * n + 2) e.rem).set 0 (4 * n + 3)
        e.idx)
  go 0 loops.reverse []

/-- The loop stack that the shadow registers hold (R449). -/
def Strand.shadowLoops (t : Strand) : List LoopEntry :=
  let f (k : Nat) : Word := t.xls.get 0 k
  ((List.range t.xld).map fun n => LoopEntry.mk (f (4 * n)) (f (4 * n + 1)) (f (4 * n + 2)) (f (4 * n + 3))).reverse

/-- The handler entry (R443, R447). -/
def State.handler (s : State) : Word := (0 : BitVec 16) ++ s.xvec ++ (0 : BitVec 2)

/-- The loop boundary rule (R208) on a fetch address: the address, the loop stack, and whether an iteration
boundary was passed. -/
def loopBoundary (a : Word) : List LoopEntry → Word × List LoopEntry × Bool
  | [] => (a, [], false)
  | e :: r =>
    if a = e.stop then
      if e.rem - 1 = 0 then
        let x := loopBoundary a r
        (x.1, x.2.1, true)
      else (e.start, { e with rem := e.rem - 1, idx := e.idx + 1 } :: r, true)
    else (a, e :: r, false)

/-- A WAIT in which the instruction has done nothing yet, and executes again after a pre-emption (R271, R274). One that
waits for a peer or for its demand accesses completes first: they may have been performed. -/
def Await.again : Await → Bool
  | .peer _ _ _ => false
  | .cast _ _ _ _ _ => false
  | .bank _ _ => false
  | _ => true

/-- The instruction that a strand stands at has begun: it has passed the weir, has read its descriptors, or has the answers
of peers or its demand accesses (R274). -/
def Strand.midway (t : Strand) : Bool :=
  t.weirPass.isSome || t.parked.isSome || t.descRead.isSome || !t.answers.isEmpty || !t.placed.isEmpty || t.resumed

/-- An entry of a vector queue that is a `vissue` of the program (R274, R299). -/
def Queued.isVissue (q : Queued) : Bool := q.issue.isSome || (q.word.extractLsb' 26 6 = 0x3B#6 && q.word.extractLsb' 0 5 = 2#5)

/-- A strand stands at a point where it honours a request (R274): an iteration boundary, an instruction boundary
outside every loop, or WAIT outside an `rframe` or a `vissue`. -/
def Strand.atPoint (t : Strand) : Bool :=
  t.inside.isNone && !(t.vq.any Queued.isVissue) &&
  match t.st with
  | .run => !t.midway && (t.loops.isEmpty || (loopBoundary t.pc t.loops).2.2)
  | .wait w => w.again && t.answers.isEmpty
  | _ => false

/-- A request is pending that the strand honours here (R454). -/
def Strand.yields (t : Strand) : Bool := t.preq.isSome && !t.exl && t.doubled.isNone && t.atPoint

/-- A strand whose wait is over goes on, unless it honours a request where it stands (R274, R454). -/
def Strand.goesOn (t : Strand) : Strand :=
  if t.yields then t
  else
    match t.st with
    | .wait (.bank _ _) => { t with st := .run, resumed := true }
    | _ => { t with st := .run }

/-- The instruction that went on with its demand accesses has completed. -/
def Strand.settled (t : Strand) : Strand :=
  if t.resumed then { t with resumed := false, wrote := false, rowData := [], placed := [] } else t

/-- The places found so far go, and with them what an owner answered to a walk, unless the accesses to them have begun. -/
def Strand.forgetPlaces (t : Strand) : Strand :=
  let begun := match t.st with
    | .wait (.peer _ _ _) => true
    | .wait (.bank _ _) => true
    | .run => !t.answers.isEmpty || t.resumed
    | _ => false
  if begun then { t with genRead := none } else { t with placed := [], genRead := none }

/-- What trap entry does to the strand (R447). -/
def Strand.enterTrap (t : Strand) (handler : Word) (code : BitVec 8) (val ret : Word) : Strand :=
  { t with
    xpc := ret, xcause := code, xval := val
    ppriv := t.cur, cur := true, exl := true
    xls := shadowOf t.loops, xld := t.loops.length, loops := []
    slink := none, vlinks := []
    pc := handler, st := .run
    weirPass := none, parked := none, descRead := none, atsDenied := none, answers := [], placed := []
    genRead := none, idleDone := false, openCast := [], snap := none, joining := none
    rowData := [], resumed := false, wrote := false }

/-- The strand's entry in its core's weir queue is withdrawn (R274: a waiting instruction executes again). -/
def State.leaveWeir (s : State) (slot : Nat) : State :=
  let c := s.core (coreOf slot)
  if c.queue.any (fun e => e.slot = slot) then
    s.setCore (coreOf slot) { c with queue := c.queue.filter fun e => e.slot ≠ slot }
  else s

/-- The slots of the unjoined fork children of a strand, at every depth (R448). -/
def State.descendants (s : State) : Nat → List Nat → List Nat
  | 0, l => l
  | n + 1, l =>
    let kids := l.flatMap fun k => ((s.strand k).map fun t => t.children.map (·.slot)).getD []
    l ++ s.descendants n kids

/-- A strand that stops issuing, its vector state discarded, to end as by `cend` (R448). -/
def Strand.double (t : Strand) (code : BitVec 8) : Strand :=
  { t with st := .ended, doubled := some code, v := [], k := [], vq := [], faults := [], inside := none
           weirPass := none, parked := none, descRead := none, answers := [], placed := [], joining := none
           rowData := [], resumed := false, wrote := false }

/-- The completion status of a launch after a double trap: the first one counts (R448, R471). -/
def Launch.strandFault (l : Launch) (slot : Nat) (code : BitVec 8) : Launch :=
  if l.status = 4 then l
  else { l with status := 4, detail := coreOf slot + 2 ^ 8 * (slot % 8) + 2 ^ 16 * code.toNat }

/-- A double trap (R448): the report, and the strand and its children stop. -/
def State.doubleTrap (s : State) (code : BitVec 8) (kind : Nat) : State :=
  let t := s.self
  let kids := s.descendants 8 (t.children.map (·.slot))
  let s := s.setSelf (t.double code)
  let s := { s with annex := { s.annex with launches := s.annex.launches.map fun (l : Launch) =>
    if l.id = t.bind.launch then l.strandFault s.cur code else l } }
  let s := kids.foldl (fun s k =>
    match s.strand k with
    | some c => (s.setStrand k (c.double code)).leaveWeir k
    | none => s) s
  (s.leaveWeir s.cur).strandReport s.cur t { kind := kind }

/-- Drops the lines that peers served to the running strand for one access (R430, R436). -/
def State.dropOnce (s : State) : State :=
  if s.peer.any fun l => l.once = some s.cur then { s with peer := s.peer.filter fun l => l.once ≠ some s.cur } else s

/-- Taking a trap (R447): the ONE exception entry of the model. A cause that arises while EXL = 1 is a double trap
(R448). -/
def State.takeTrap (s : State) (code : BitVec 8) (val ret : Word) : State :=
  if s.self.exl then s.doubleTrap code 0x0D
  else ((s.modSelf fun t => t.enterTrap s.handler code val ret).leaveWeir s.cur).dropOnce

/-- A precise trap at the running instruction (R447). -/
def State.trapHere (s : State) (code : BitVec 8) (val : Word) : State := s.takeTrap code val s.self.pc

/-- The illegal-instruction trap: XVAL holds the word (R203). -/
def State.illegal (s : State) : State := s.trapHere causeIllegal (s.self.word.setWidth 64)

/-- The privilege trap: XVAL holds the word (R201, R446). -/
def State.privileged (s : State) (f : State → State) : State :=
  if s.self.cur then f s else s.trapHere causePrivilege (s.self.word.setWidth 64)

/-- What the return from an exception does to the strand (R450): the shadow loop stack moves back, the mode is
PPRIV, EXL is clear, and the fetch is at XPC. -/
def Strand.returnTrap (t : Strand) : Strand :=
  { t with loops := t.shadowLoops, xld := 0, xls := [], cur := t.ppriv, exl := false, pc := t.xpc }

/-- The loop boundary rule acts on the next fetch address of the running strand (R208). -/
def State.fetchPoint (s : State) : State :=
  s.modSelf fun t =>
    let x := loopBoundary t.pc t.loops
    { t with pc := x.1, loops := x.2.1 }

/-- A range of addresses that is device memory throughout. -/
def devRange (base len : Nat) : Bool :=
  let rec go : Nat → Bool
    | 0 => true
    | n + 1 => isDevMem (base + n * 2 ^ 20) && go n
  len = 0 || (go ((len + 2 ^ 20 - 1) / 2 ^ 20) && isDevMem (base + len - 1))

/-- The size of a dump area (R452). -/
def Strand.areaSize (t : Strand) : Nat := 0x3100 + 4 * t.vlen + Config.vframeSize t.lgc.toNat t.sw.toNat

/-- XFRAME.BASE of a slot as an address (R443). -/
def State.xframeOf (s : State) (slot : Nat) : Nat := ((s.core (coreOf slot)).xframe.get 0 (slot % 8)).toNat

/-- A dump area that can be written (R451). -/
def Strand.areaOk (t : Strand) (base : Nat) : Bool := base % 256 = 0 && devRange base t.areaSize

/-- The 32 bytes of a fault record (R452). -/
def FaultRec.bytes (r : FaultRec) : List Byte :=
  bytesOf r.cause.toNat 1 ++ bytesOf r.resp.toNat 1 ++ bytesOf r.port.toNat 1 ++ bytesOf r.depth.toNat 1 ++
  bytesOf r.tag.toNat 4 ++ bytesOf r.va.toNat 8 ++ bytesOf r.pc.toNat 8 ++ bytesOf r.elem.toNat 2 ++
  bytesOf r.inc.toNat 2 ++ bytesOf r.word.toNat 4

/-- The next fault tag that no pending request holds (R456). -/
def State.freeTag (s : State) : BitVec 32 :=
  let rec go (t : BitVec 32) : Nat → BitVec 32
    | 0 => t
    | n + 1 => if s.pageReqs.any (fun r => r.tag = t) then go (t + 1) n else t
  go s.nextTag s.pageReqs.length

/-- The port a page request goes by. -/
def Out.pagePort : Out → Option (BitVec 1)
  | .pageRequest p _ _ _ _ _ _ _ _ => some p
  | _ => none

/-- A port takes a further page request: its link is up (R111), and fewer are outstanding than its host allocates
(R309). -/
def State.pageRoom (s : State) (p : BitVec 1) : Bool :=
  let held := s.pageHeld.countP fun o => o.pagePort = some p
  s.portUp p && (s.pageReqs.countP fun r => r.port = p) - held < s.annex.pageAlloc.get 256 p.toNat

/-- The requests that wait for a port leave, oldest first, as far as the port takes them (R309). -/
def State.sendHeld (s : State) (p : BitVec 1) : State :=
  let rec go (s : State) : Nat → State
    | 0 => s
    | n + 1 =>
      match s.pageHeld.find? fun o => o.pagePort = some p with
      | some o => if s.pageRoom p then go ({ s with pageHeld := s.pageHeld.erase o }.send o) n else s
      | none => s
  go s s.pageHeld.length

/-- Sends a page request for an address, or holds it beyond the host's allocation, and notes its tag and the record that
parks the answer (R309, R456). -/
def State.requestPage (s : State) (va : Word) (write : Bool) (record : Nat) : BitVec 32 × State :=
  let t := s.self
  let tag := s.freeTag
  let port := s.leasePort
  let page : Word := va &&& ~~~(0xFFF : Word)
  let o : Out := .pageRequest port s.sender.2 t.hostFault.1 page write t.ctxid (s.incOf port) tag true
  (tag, { s with nextTag := tag + 1
                 pageReqs := s.pageReqs ++ [PageReq.mk tag t.ctxid (s.incOf port) port record]
                 pageHeld := s.pageHeld ++ [o] }.sendHeld port)

/-- A precise fault of a scalar access at the running instruction. A host-page fault first records its page request
in SREC of the dump area at XFRAME, once no lease runs on it (R405); when that area could not be written, no request is
sent and the fault is a double trap (R456). -/
def State.scalarFault (s : State) (code : BitVec 8) (val : Word) (write : Bool) : State :=
  if code = causeHostPage then
    let t := s.self
    let area := s.xframeOf s.cur
    if t.exl then s.doubleTrap code 0x0D
    else if !t.areaOk area then s.doubleTrap code 0x10
    else
      match s.leasedIn (area + 0x40) 32 with
      | some l => s.waitOn (.lease l)
      | none =>
        let r := s.requestPage val write (area + 0x40)
        let rec_ : FaultRec := ⟨0x08, 1, (s.leasePort).setWidth 8, 0, r.1, val, t.pc, 0, s.incOf s.leasePort, t.word⟩
        ((r.2.writeList (area + 0x40) rec_.bytes).trapHere code val).modSelf fun u => { u with sreq := some (val, t.pc) }
  else s.trapHere code val

/-- Ends an instruction that went on with a value, faulted precisely, or waits. -/
def Res.finish {α : Type} (x : Res α) (write : Bool) (f : α → State → State) : State :=
  match x with
  | .ok a s => f a (if s.self.resumed then s.modSelf Strand.settled else s)
  | .trap c v s => s.scalarFault c v write
  | .wait w s => s.waitOn w

end Sys2Proof.Machine
end

