-- ==== Sys2Proof/Machine/Fetch.lean ====
section
/-! DEFINITION. Fetch (R204, R205): the code range (R107, R442), translation, the word, and its decoding. -/
namespace Sys2Proof.Machine
open Sys2Proof

/-- The code range of the strand's fetches (R107, R442): KRANGE in privileged mode while its SIZE is nonzero, else
the launch's. -/
def State.codeRange (s : State) : Nat × Nat :=
  if s.self.cur && s.krSize ≠ 0 then (s.krBase.toNat * 65536, s.krSize.toNat * 65536)
  else (s.self.bind.codeBase, s.self.bind.codeSize)

/-- An address that may be fetched: a multiple of 4 with all four bytes in the code range (R107, R204). -/
def State.inCode (s : State) (a : Word) : Bool :=
  let r := s.codeRange
  a.toNat % 4 = 0 && r.1 ≤ a.toNat && a.toNat + 4 ≤ r.1 + r.2

/-- The word at an address that lies in the code range, read as a fetch (R204, R397). R109 leaves open which word a fetch
gets after a write into a code range; that it is the word as it now stands is the model's choice (log entry 57). -/
def State.fetchWord (s : State) (a : Word) : Res (BitVec 32) :=
  (s.translate a .fetch).bind fun p s =>
    match p with
    | .dev pa =>
      if s.lostAt pa 4 then .trap causeMachineCheck a (s.strandReport s.cur s.self { kind := 3, addr := pa })
      else .ok (BitVec.ofNat 32 (s.readHome pa 4)) (s.corrected (s.migRead pa) 4)
    | _ => .trap causeAccess a s

/-- The code-end fault (R205): XPC is the address that cannot be fetched, XVAL the instruction after which it was
to be fetched. -/
def State.codeEnd (s : State) (a after : Word) : State := s.takeTrap causeCodeEnd after a

/-- The words from an address on, read in order; a fault is taken at the running instruction. -/
def State.fetchWords (s : State) (a : Word) : Nat → Res (List (BitVec 32))
  | 0 => .ok [] s
  | n + 1 => (s.fetchWord a).bind fun w s => (s.fetchWords (a + 4) n).bind fun ws s => .ok (w :: ws) s

/-- The first of `n` words from an address that lies outside the code range. -/
def State.firstOutside (s : State) (a : Word) : Nat → Option Word
  | 0 => none
  | n + 1 => if s.inCode a then s.firstOutside (a + 4) n else some a

/-- The first word of a list that a test rejects, with its index. -/
def firstBad (ok : BitVec 32 → Bool) (i : Nat) : List (BitVec 32) → Option (Nat × BitVec 32)
  | [] => none
  | w :: t => if ok w then firstBad ok (i + 1) t else some (i, w)

/-- The checks that `rframe` and `pprog` make on the `n` words they govern (R197, R213): the code range, the words,
and the ends of active loops. Each failure is a precise trap at the running instruction. That every word is fetched before
one is tested is the model's choice (log entry 86). -/
def State.governed (s : State) (n : Nat) (ok : BitVec 32 → Bool) (f : List (BitVec 32) → State → State) : State :=
  let pc := s.self.pc
  match s.firstOutside (pc + 4) n with
  | some a => s.codeEnd a pc
  | none =>
    match s.fetchWords (pc + 4) n with
    | .trap c v s => s.trapHere c v
    | .wait w s => s.waitOn w
    | .ok ws s =>
      match firstBad ok 0 ws with
      | some (i, w) =>
        if s.self.exl then s.trapHere causeIllegal (w.setWidth 64)
        else (s.modSelf fun t => { t with widx := BitVec.ofNat 10 i }).trapHere causeIllegal (w.setWidth 64)
      | none =>
        if s.self.loops.any fun e => (pc + 4).toNat ≤ e.stop.toNat && e.stop.toNat ≤ pc.toNat + 4 * n then s.illegal
        else f ws s

end Sys2Proof.Machine
end

