-- ==== Sys2Proof/Machine/Operands.lean ====
section
/-! DEFINITION. The operand forms of vector instructions: elements of a register image (R242), masks and active
elements (R247), what an instruction captures (R246), destinations, and the pairwise tree of reductions (R70). -/
namespace Sys2Proof.Machine
open Sys2Proof

/-- What a vector instruction acts under: its captured operands, the issue mask if a `vissue` issued it (R297), the
`vissue` depth, and the address of its instruction in the program. -/
structure VEnv where
  cap : Capture
  mask : Option KReg
  depth : Nat
  pc : Word
  deriving DecidableEq, Repr

/-- The block size that a BS code names; 0 is none (R244). -/
def blockSize (bs : BitVec 3) : Nat :=
  match bs.toNat with
  | 1 => 16
  | 2 => 32
  | 3 => 64
  | 4 => 128
  | 5 => 256
  | _ => 0

/-- What a strand's next vector instruction captures (R246). -/
def Strand.capture (t : Strand) : Capture := ⟨t.g, t.vn, blockSize t.bs, t.rm.toNat⟩

def Strand.venv (t : Strand) : VEnv := ⟨t.capture, none, 0, t.pc⟩

/-- A captured general register (R217). -/
def VEnv.getG (e : VEnv) (r : BitVec 5) : Word := if r = 0 then 0 else Table.get 0 e.cap.g r.toNat

def VEnv.vn (e : VEnv) : Nat := e.cap.vn

def Strand.getV (t : Strand) (r : BitVec 5) : VReg := t.v.get 0 r.toNat
def Strand.setV (t : Strand) (r : BitVec 5) (x : VReg) : Strand := { t with v := t.v.set 0 r.toNat x }

/-- Bits 0 to n − 1. -/
def lowMask (n : Nat) : KReg := BitVec.ofNat 4096 (2 ^ n - 1)

/-- A mask register as a source: k0 reads as 1 below VN (R247). -/
def Strand.getK (t : Strand) (vn : Nat) (k : BitVec 3) : KReg :=
  if k = 0 then lowMask vn else Table.get 0 t.k k.toNat

/-- A mask destination: a write to k0 is discarded (R247). -/
def Strand.setK (t : Strand) (k : BitVec 3) (x : KReg) : Strand :=
  if k = 0 then t else { t with k := t.k.set 0 k.toNat x }

/-- Element `i` of an image at width `w` (R242). -/
def elem (x : VReg) (w i : Nat) : Nat := x.toNat >>> (w * i) % 2 ^ w

/-- Fields of width `w` packed from the lowest up. -/
def packN (w : Nat) : List Nat → Nat
  | [] => 0
  | x :: t => x % 2 ^ w + 2 ^ w * packN w t

/-- A mask from its bits, lowest first. -/
def packK (l : List Bool) : KReg := BitVec.ofNat 4096 (packN 1 (l.map fun b => if b then 1 else 0))

/-- The active elements under a k field (R247), inside the issue mask (R297). -/
def VEnv.act (e : VEnv) (t : Strand) (k : BitVec 3) : KReg :=
  let m := t.getK e.vn k &&& lowMask e.vn
  match e.mask with
  | some g => m &&& g
  | none => m

/-- How many elements below VN are active (R291). -/
def VEnv.count (e : VEnv) (act : KReg) : Nat := popFrom act.toNat e.vn
where
  popFrom (x : Nat) : Nat → Nat
    | 0 => 0
    | n + 1 => x % 2 + popFrom (x / 2) n

/-- A result element: its bits, the float flags, and whether an integer saturation changed it. -/
structure Elem where
  val : Nat
  fl : FFlags := 0
  sat : Bool := false
  deriving DecidableEq, Repr

/-- The image with the active elements replaced; inactive and tail elements keep their value (R247). -/
def mergeImage (old : VReg) (w vn : Nat) (act : KReg) (f : Nat → Nat) : VReg :=
  BitVec.ofNat 32768
    (packN w ((List.range vn).map fun i => if act.getLsbD i then f i else elem old w i)
      + (old.toNat >>> (w * vn)) <<< (w * vn))

/-- The flags of the active elements (R51). -/
def actFlags (vn : Nat) (act : KReg) (f : Nat → Elem) : FFlags :=
  (List.range vn).foldl (fun a i => if act.getLsbD i then a ||| (f i).fl else a) 0

/-- Whether an active element saturated (R44). -/
def actSat (vn : Nat) (act : KReg) (f : Nat → Elem) : Bool :=
  (List.range vn).any fun i => act.getLsbD i && (f i).sat

/-- A vector destination: every active element written, with the flags that the active elements raise (R247). -/
def Strand.vmap (t : Strand) (vn : Nat) (act : KReg) (d : BitVec 5) (w : Nat) (f : Nat → Elem) : Strand :=
  ((t.setV d (mergeImage (t.getV d) w vn act fun i => (f i).val)).orFlags (actFlags vn act f)).orSat (actSat vn act f)

/-- A mask destination: 0 at every inactive position and from VN up (R247); in a `vissue`, positions outside the
issue mask keep their value (R297). -/
def VEnv.kdest (e : VEnv) (t : Strand) (act : KReg) (d : BitVec 3) (f : Nat → Bool) : Strand :=
  let new := packK ((List.range e.vn).map fun i => act.getLsbD i && f i)
  t.setK d (match e.mask with
    | some _ => new ||| (t.getK e.vn d &&& ~~~act)
    | none => new)

/-- One level of the pairwise tree (R70): the lower index is the left operand, an absent leaf is passed up. -/
def pairUp (step : Elem → Elem → Elem) : List (Option Elem) → List (Option Elem)
  | a :: b :: t =>
    (match a, b with
     | none, y => y
     | x, none => x
     | some x, some y => some (step x y)) :: pairUp step t
  | [a] => [a]
  | [] => []

/-- The tree of R70 over leaves whose count is a power of two, `n` levels high. -/
def treeUp (step : Elem → Elem → Elem) : Nat → List (Option Elem) → Option Elem
  | 0, l => l.head?.getD none
  | n + 1, l => treeUp step n (pairUp step l)

/-- The least `n` with `m ≤ 2^n`. -/
def log2Up (m : Nat) : Nat := if m ≤ 1 then 0 else (m - 1).log2 + 1

/-- The reduction tree over `l` (R70). -/
def treeReduce (step : Elem → Elem → Elem) (l : List (Option Elem)) : Option Elem :=
  let n := log2Up l.length
  treeUp step n (l ++ List.replicate (2 ^ n - l.length) none)

/-- The static conditions of R249 beside those of the encoding; `swMin` and `swMax` bound the launch's slice widths
(R251). A word that breaks them is an illegal instruction. -/
def staticOk (i : Instr) : Bool :=
  match i with
  | .vsllImm _ _ n _ t => n.toNat < iwidth t
  | .vsrlImm _ _ n _ t => n.toNat < iwidth t
  | .vsraImm _ _ n _ t => n.toNat < iwidth t
  | .vsext _ _ c _ t => iwidth c < iwidth t
  | .vzext _ _ c _ t => iwidth c < iwidth t
  | .vnarrowWrap _ _ c _ t => iwidth t < iwidth c
  | .vnarrowSat _ _ c _ t => iwidth t < iwidth c
  | .vfexp2 _ _ _ t => t ≠ 3
  | .vfrsqrt _ _ _ t => t ≠ 3
  | .vdeqNq4 _ _ _ _ t => t = 0 || t = 2
  | .vdeqE2m1 _ _ _ _ t => t = 0 || t = 2
  | .vdeqTern _ _ _ _ t => t = 0 || t = 2
  | _ => true

end Sys2Proof.Machine
end

