-- ==== Sys2Proof/Machine/ScalarInt.lean ====
section
/-! DEFINITION. Scalar integer instructions (R219 to R221): register forms and immediate forms. Each writes one
general register and falls through. -/
namespace Sys2Proof.Machine
open Sys2Proof

/-- What an instruction answers. -/
abbrev Result := Host.Outcome State Fault Refusal

/-- 1 or 0 in a register. -/
def boolWord (b : Bool) : Word := if b then 1 else 0

/-- The low `n` bits counted. -/
def popFrom (x : Nat) : Nat → Nat
  | 0 => 0
  | n + 1 => x % 2 + popFrom (x / 2) n

/-- Popc of a word (R219). -/
def popc64 (x : Word) : Word := BitVec.ofNat 64 (popFrom x.toNat 64)

/-- The zero bits above the highest one bit; 64 for zero (R219). -/
def clz64 (x : Word) : Word := if x = 0 then 64 else BitVec.ofNat 64 (63 - x.toNat.log2)

/-- The zero bits below the lowest one bit among `n` bits. -/
def ctzFrom (x : Nat) : Nat → Nat
  | 0 => 0
  | n + 1 => if x % 2 = 1 then 0 else 1 + ctzFrom (x / 2) n

/-- ctz (R219): 64 for zero. -/
def ctz64 (x : Word) : Word := BitVec.ofNat 64 (ctzFrom x.toNat 64)

/-- The shift amount of a register shift: the low 6 bits (R219). -/
def shamt (b : Word) : Nat := (b.extractLsb' 0 6).toNat

/-- The high half of a product (R219). -/
def mulHigh (a b : BitVec 128) : Word := (a * b).extractLsb' 64 64

/-- The width that sext and zext encode (R186). -/
def extWidth (n : BitVec 2) : Nat := if n = 0 then 8 else if n = 1 then 16 else 32

/-- SignExt(v, w) in a word. -/
def sextTo (w : Nat) (v : Word) : Word := (v.setWidth w).signExtend 64

/-- ZeroExt(v, w) in a word. -/
def zextTo (w : Nat) (v : Word) : Word := (v.setWidth w).setWidth 64

/-- A binary register form: `g[gd] := f g[ga] g[gb]` (R219). -/
def aluRR (f : Word → Word → Word) (d a b : BitVec 5) (s : State) : State := s.result d (f (s.getG a) (s.getG b))

/-- A unary register form. -/
def aluR (f : Word → Word) (d a : BitVec 5) (s : State) : State := s.result d (f (s.getG a))

def execAdd (d a b : BitVec 5) (s : State) : Result := .next (aluRR (fun x y => x + y) d a b s)
def execSub (d a b : BitVec 5) (s : State) : Result := .next (aluRR (fun x y => x - y) d a b s)
def execAnd (d a b : BitVec 5) (s : State) : Result := .next (aluRR (fun x y => x &&& y) d a b s)
def execOr (d a b : BitVec 5) (s : State) : Result := .next (aluRR (fun x y => x ||| y) d a b s)
def execXor (d a b : BitVec 5) (s : State) : Result := .next (aluRR (fun x y => x ^^^ y) d a b s)
def execAndn (d a b : BitVec 5) (s : State) : Result := .next (aluRR (fun x y => x &&& ~~~y) d a b s)
def execSll (d a b : BitVec 5) (s : State) : Result := .next (aluRR (fun x y => x <<< shamt y) d a b s)
def execSrl (d a b : BitVec 5) (s : State) : Result := .next (aluRR (fun x y => x >>> shamt y) d a b s)
def execSra (d a b : BitVec 5) (s : State) : Result := .next (aluRR (fun x y => x.sshiftRight (shamt y)) d a b s)
def execSlt (d a b : BitVec 5) (s : State) : Result := .next (aluRR (fun x y => boolWord (x.slt y)) d a b s)
def execSltn (d a b : BitVec 5) (s : State) : Result := .next (aluRR (fun x y => boolWord (x.ult y)) d a b s)
def execMin (d a b : BitVec 5) (s : State) : Result := .next (aluRR (fun x y => if x.slt y then x else y) d a b s)
def execMax (d a b : BitVec 5) (s : State) : Result := .next (aluRR (fun x y => if x.slt y then y else x) d a b s)
def execMinn (d a b : BitVec 5) (s : State) : Result := .next (aluRR (fun x y => if x.ult y then x else y) d a b s)
def execMaxn (d a b : BitVec 5) (s : State) : Result := .next (aluRR (fun x y => if x.ult y then y else x) d a b s)
def execMul (d a b : BitVec 5) (s : State) : Result := .next (aluRR (fun x y => x * y) d a b s)
def execMulh (d a b : BitVec 5) (s : State) : Result :=
  .next (aluRR (fun x y => mulHigh (x.signExtend 128) (y.signExtend 128)) d a b s)
def execMulhn (d a b : BitVec 5) (s : State) : Result :=
  .next (aluRR (fun x y => mulHigh (x.setWidth 128) (y.setWidth 128)) d a b s)
/-- Division by zero gives −1, and the overflow case wraps (R220). -/
def execDiv (d a b : BitVec 5) (s : State) : Result :=
  .next (aluRR (fun x y => if y = 0 then BitVec.allOnes 64 else x.sdiv y) d a b s)
def execDivn (d a b : BitVec 5) (s : State) : Result :=
  .next (aluRR (fun x y => if y = 0 then BitVec.allOnes 64 else x.udiv y) d a b s)
/-- The remainder takes the sign of the dividend; with a zero divisor it is the dividend (R220). -/
def execRem (d a b : BitVec 5) (s : State) : Result :=
  .next (aluRR (fun x y => if y = 0 then x else x.srem y) d a b s)
def execRemn (d a b : BitVec 5) (s : State) : Result :=
  .next (aluRR (fun x y => if y = 0 then x else x.umod y) d a b s)
def execClz (d a : BitVec 5) (s : State) : Result := .next (aluR clz64 d a s)
def execCtz (d a : BitVec 5) (s : State) : Result := .next (aluR ctz64 d a s)
def execPopc (d a : BitVec 5) (s : State) : Result := .next (aluR popc64 d a s)
def execSext (d a : BitVec 5) (n : BitVec 2) (s : State) : Result := .next (aluR (sextTo (extWidth n)) d a s)
def execZext (d a : BitVec 5) (n : BitVec 2) (s : State) : Result := .next (aluR (zextTo (extWidth n)) d a s)

/-- SignExt(imm16, 16) and ZeroExt(imm16, 16) (R221). -/
def immS (i : BitVec 16) : Word := i.signExtend 64
def immZ (i : BitVec 16) : Word := i.setWidth 64

def execAddi (d a : BitVec 5) (i : BitVec 16) (s : State) : Result := .next (aluR (fun x => x + immS i) d a s)
def execAndi (d a : BitVec 5) (i : BitVec 16) (s : State) : Result := .next (aluR (fun x => x &&& immZ i) d a s)
def execOri (d a : BitVec 5) (i : BitVec 16) (s : State) : Result := .next (aluR (fun x => x ||| immZ i) d a s)
def execXori (d a : BitVec 5) (i : BitVec 16) (s : State) : Result := .next (aluR (fun x => x ^^^ immZ i) d a s)
def execSlli (d a : BitVec 5) (n : BitVec 6) (s : State) : Result := .next (aluR (fun x => x <<< n.toNat) d a s)
def execSrli (d a : BitVec 5) (n : BitVec 6) (s : State) : Result := .next (aluR (fun x => x >>> n.toNat) d a s)
def execSrai (d a : BitVec 5) (n : BitVec 6) (s : State) : Result :=
  .next (aluR (fun x => x.sshiftRight n.toNat) d a s)
def execSlti (d a : BitVec 5) (i : BitVec 16) (s : State) : Result :=
  .next (aluR (fun x => boolWord (x.slt (immS i))) d a s)
def execSltni (d a : BitVec 5) (i : BitVec 16) (s : State) : Result :=
  .next (aluR (fun x => boolWord (x.ult (immS i))) d a s)
def execLdih (d a : BitVec 5) (i : BitVec 16) (s : State) : Result :=
  .next (aluR (fun x => x + (immS i <<< 16)) d a s)
def execAdpc (d : BitVec 5) (i : BitVec 16) (s : State) : Result :=
  .next (s.result d (s.self.pc + (immS i <<< 16)))

end Sys2Proof.Machine
end

