-- ==== Sys2Proof/Machine/Control.lean ====
section
/-! DEFINITION. Branches, jumps, hardware loops, repeat frames and the end of a record (R207 to R215, R230 to
R234). The loop boundary rule acts on the next fetch address when it is fetched (R208, R233). -/
namespace Sys2Proof.Machine
open Sys2Proof

/-- A branch (R230): the target counts from the branch itself. -/
def branch (cond : Word → Word → Bool) (a b : BitVec 5) (o : BitVec 16) (s : State) : State :=
  s.modSelf fun t => t.setPc (if cond (t.getG a) (t.getG b) then t.pc + (immS o <<< 2) else t.pc + 4)

def execBeq (a b : BitVec 5) (o : BitVec 16) (s : State) : Result := .next (branch (fun x y => x = y) a b o s)
def execBne (a b : BitVec 5) (o : BitVec 16) (s : State) : Result := .next (branch (fun x y => x ≠ y) a b o s)
def execBlt (a b : BitVec 5) (o : BitVec 16) (s : State) : Result := .next (branch (fun x y => x.slt y) a b o s)
def execBge (a b : BitVec 5) (o : BitVec 16) (s : State) : Result := .next (branch (fun x y => !x.slt y) a b o s)
def execBltn (a b : BitVec 5) (o : BitVec 16) (s : State) : Result := .next (branch (fun x y => x.ult y) a b o s)
def execBgen (a b : BitVec 5) (o : BitVec 16) (s : State) : Result := .next (branch (fun x y => !x.ult y) a b o s)

/-- jal: the link register is g31 (R231). -/
def execJal (o : BitVec 26) (s : State) : Result :=
  .next (s.modSelf fun t => (t.setG 31 (t.pc + 4)).setPc (t.pc + (o.signExtend 64 <<< 2)))

/-- jr: all 64 bits of the register (R232). -/
def execJr (a : BitVec 5) (s : State) : Result := .next (s.modSelf fun t => t.setPc (t.getG a))

/-- lp.set (R207). -/
def execLpSet (a : BitVec 5) (k : BitVec 16) (s : State) : Result :=
  let t := s.self
  let n := t.getG a
  let e := t.pc + (immZ k <<< 2)
  .next <|
    if n = 0 then s.modSelf fun t => t.setPc e
    else if t.loops.length = 6 then s.trapHere causeLoop 6
    else s.modSelf fun t => { t with loops := ⟨t.pc + 4, e, n, 0⟩ :: t.loops, pc := t.pc + 4 }

/-- lp.brk and lp.brk.z (R209): a break with an empty stack is the loop-overflow fault. -/
def loopBreak (cond : Bool) (s : State) : State :=
  if cond then
    match s.self.loops with
    | [] => s.trapHere causeLoop 0
    | e :: r => s.modSelf fun t => { t with loops := r, pc := e.stop }
  else s.advance

def execLpBrk (a : BitVec 5) (s : State) : Result := .next (loopBreak (s.getG a ≠ 0) s)
def execLpBrkZ (a : BitVec 5) (s : State) : Result := .next (loopBreak (s.getG a = 0) s)

/-- The words that `rframe` may capture (R214): majors 0x21 but for kpop and kfirst, and 0x22 to 0x27. -/
def capturable (w : BitVec 32) : Bool :=
  ((decodeWord w).map staticOk).getD false &&
    (let m := (w.extractLsb' 26 6).toNat
     let fn := (w.extractLsb' 0 5).toNat
     (m = 0x21 && fn ≠ 6 && fn ≠ 7) || (0x22 ≤ m && m ≤ 0x27))

/-- rframe (R212, R213): the checks, then the captured words are issued one by one (`State.stepInside`). -/
def execRframe (a : BitVec 5) (n sd sa sb : BitVec 4) (s : State) : Result :=
  .next <| if s.self.resume.any fun r => r.1 = s.self.pc then
    s.modSelf fun t => { t with inside := t.resume.map (·.2), resume := none }
  else s.governed (n.toNat + 1) capturable fun ws s =>
    let c := s.getG a
    if 65535 < c.toNat then s.trapHere causeIllegal c
    else if c = 0 then s.modSelf fun t => t.setPc (t.pc + 4 + BitVec.ofNat 64 (4 * ws.length))
    else s.modSelf fun t => { t with inside := some (.frame ws sd sa sb c.toNat 0 0) }

/-- halt (R234): the strand stops issuing and waits in END for the end of its record. -/
def execHalt (s : State) : Result := .next (s.modSelf fun t => { t with st := .ended })

end Sys2Proof.Machine
end

