-- ==== Sys2Proof/Machine/Access.lean ====
section
/-! DEFINITION. Reading and writing the places that addresses name (R301, R315, R357, R405, R417, R432), shared by
the scalar stream, the vector stream and the engines. -/
namespace Sys2Proof.Machine
open Sys2Proof

/-- A machine check at an address: its report, and the fault (R459). -/
def machineCheck {α : Type} (va : Word) (s : State) : Res α :=
  .trap causeMachineCheck va (s.strandReport s.cur s.self { kind := 3, addr := va.toNat })

/-- A demand read of bytes of one row of device memory (R357): every codeword that it reads is checked. -/
def State.demand {α : Type} (s : State) (va : Word) (pa n : Nat) (f : State → Res α) : Res α :=
  match s.checkOf pa n with
  | 2 => machineCheck va s
  | 1 => f (s.corrected pa n)
  | _ => f s

/-- A read of bytes of one line at their home (R301, R357). -/
def State.readAtHome (s : State) (va : Word) (pa n : Nat) : Res (Nat × Bool) :=
  if (s.cache.find (pa / 64)).isSome then .ok (leRead s.homeByte pa n, false) s
  else s.demand va pa n fun s => .ok (leRead s.homeByte pa n, false) s

/-- A read of an ordinary page (R301 to R303): from what the unit of the running stream holds, else the unit takes the
line from its home. -/
def State.readOrdinary (s : State) (va : Word) (pa n : Nat) : Res (Nat × Bool) :=
  let line := pa / 64
  match s.unitOf line with
  | none => s.readAtHome va pa n
  | some u =>
    match s.heldLine u line with
    | some d => .ok (leRead (fun i => lineByte d i) (pa % 64) n, false) s
    | none =>
      let fill (s : State) : Res (Nat × Bool) := .ok (leRead s.homeByte pa n, false) (s.takeCopy u line)
      if (s.cache.find line).isSome then fill s else s.demand va (64 * line) 64 fill

/-! ### Demand accesses to the rows of planes (R355, R357, R359) -/

/-- A bank that serves a demand access at once: none waits there, and no group is open. -/
def State.bankIdle (s : State) (pa : Nat) : Bool :=
  (s.banks.get {} (pa / 2 ^ 27)).fifo.isEmpty && !(s.ops.any fun o => o.groups.any fun g => g.bank = pa / 2 ^ 27 && g.opened)

/-- A mask names a byte of codeword `j` of a line. -/
def namesCodeword (mask : BitVec 512) (j : Nat) : Bool := mask.extractLsb' (128 * j) 128 ≠ 0

/-- A demand read of a line for the strand in a slot: the bytes, each named codeword that is corrected reported, and the named
ones that cannot be corrected noted (R357). -/
def State.readRow (s : State) (slot line : Nat) (mask : BitVec 512) : State :=
  let d := BitVec.ofNat 512 (leRead s.fixedByte (64 * line) 64)
  let named := (List.range 4).filter (namesCodeword mask)
  let at_ (j : Nat) : Nat := 64 * line + 16 * j
  let bad := named.foldl (fun (m : BitVec 4) j => if s.checkOf (at_ j) 16 = 2 then m ||| (1#4 <<< j) else m) 0
  let s := named.foldl (fun s j => if s.checkOf (at_ j) 16 = 1 then s.corrected (at_ j) 16 else s) s
  match s.strand slot with
  | some t => s.setStrand slot { t with rowData := t.rowData.put line (d, bad) }
  | none => s

/-- A demand write of bits of a line, the check bits kept whole (R327, R357). -/
def State.writeBits (s : State) (line : Nat) (mask v : BitVec 512) : State :=
  let one (s : State) (i : Nat) : State :=
    let m := lineByte mask i
    let pa := 64 * line + i
    if m = 0 then s
    else ({ s.setRawByte pa ((s.rawByte pa &&& ~~~m) ||| (lineByte v i &&& m)) with errs := s.errs.drop (pa / 16) }).mirror pa 1
  ((List.range 64).foldl one s).breakLinks line

/-- A demand access takes its slot. A strand that no longer waits for it takes nothing. -/
def State.serveDemand (s : State) (d : Demand) : State :=
  match d.write, d.slot with
  | some v, _ => s.writeBits d.line d.mask v
  | none, some n =>
    (match (s.strand n).map Strand.st with
     | some (.wait (.bank tok k)) => if tok ≤ d.id && d.id < tok + k then s.readRow n d.line d.mask else s
     | _ => s)
  | none, none => s

/-- A demand access enters the FIFO of its bank; the group work before an access that finds it empty does not count. -/
def State.enqueue (s : State) (d : Demand) : State :=
  let k := d.line / 2 ^ 21
  let b := s.banks.get {} k
  { s with banks := s.banks.set {} k { b with fifo := b.fifo ++ [d], begun := if b.fifo.isEmpty then 0 else b.begun } }

/-- The demand accesses of the running strand to some lines (the line, the bits that it names, and what it writes): those of
idle banks are served now, and the strand waits for the rest. -/
def State.askRows (s : State) (l : List (Nat × BitVec 512 × Option (BitVec 512))) : State × Await :=
  let idle (line : Nat) : Bool := s.bankIdle (64 * line)
  let one (u : State) (e : (Nat × BitVec 512 × Option (BitVec 512)) × Nat) : State :=
    if idle e.1.1 then
      (match e.1.2.2 with
       | some v => u.writeBits e.1.1 e.1.2.1 v
       | none => u.readRow u.cur e.1.1 e.1.2.1)
    else u.enqueue ⟨s.nextId + e.2, some s.cur, e.1.1, e.1.2.1, e.1.2.2⟩
  ((l.zipIdx).foldl one { s with nextId := s.nextId + l.length }, .bank s.nextId l.length)

/-- What the running instruction's demand accesses have read of the line of an address. -/
def State.rowHit (s : State) (pa : Nat) : Option (BitVec 512 × BitVec 4) :=
  if s.self.resumed then s.self.rowData.find (pa / 64) else none

/-- The demand writes of the running instruction have been performed. -/
def State.rowsWritten (s : State) : Bool := s.self.resumed && s.self.wrote

/-- Some of `n` bytes from an address lie in a codeword that could not be corrected. -/
def badBytes (bad : BitVec 4) (pa n : Nat) : Bool :=
  (List.range 4).any fun j => bad.getLsbD j && pa % 64 / 16 ≤ j && j ≤ (pa % 64 + n - 1) / 16

/-- The bits of the `n` bytes of a line from an address. -/
def byteMask (pa n : Nat) : BitVec 512 := BitVec.ofNat 512 ((256 ^ n - 1) * 256 ^ (pa % 64))

/-- A demand read of bytes of a plane page's row (R355, R357, R359). The annex waits for a bank that is idle. -/
def State.readPlane (s : State) (va : Word) (pa n : Nat) : Res (Nat × Bool) :=
  match s.rowHit pa with
  | some r => if badBytes r.2 pa n then machineCheck va s else .ok (leRead (fun i => lineByte r.1 i) (pa % 64) n, false) s
  | none =>
    if s.bankIdle pa then s.demand va pa n fun s => .ok (leRead s.fixedByte pa n, false) s
    else if 1536 ≤ s.cur then .wait (.idle pa) s
    else
      let r := s.askRows [(pa / 64, byteMask pa n, none)]
      .wait r.2 r.1

/-- The cast a basin holds of a page (R174, R175). The logical lease of a cast of this device has not run out (R400). -/
def State.findCast (s : State) (basin : Nat) (dev : Option (BitVec 12)) (frame : Nat) (gen : BitVec 16) : Option Cast :=
  s.casts.find? fun c => c.basin = basin && c.dev = dev && c.frame = frame && c.gen = gen &&
    (c.dev.isSome || s.clk < c.clk + 22000)

/-- The bytes of a frame below its accession pointer as its home delivers them, without the zeros (R174). -/
def State.frameBytes (s : State) (frame ptr : Nat) : Table Byte :=
  let inFrame (d : Table Byte) (pa n : Nat) : Table Byte :=
    (List.range n).foldl (fun d i =>
      let o := (pa + i) % 65536
      if o < ptr then d.set 0 o (s.homeByte (pa + i)) else d) d
  let raw := (s.mem.filter fun e => e.1 / 65536 = frame && e.1 % 65536 < ptr).map fun e => (e.1 % 65536, e.2)
  let fixed := (s.errs.filter fun e => e.1 / 4096 = frame).foldl (fun d e => inFrame d (16 * e.1) 16) raw
  (s.cache.filter fun e => e.1 / 1024 = frame).foldl (fun d e => inFrame d (64 * e.1) 64) fixed

/-- A codeword of a frame cannot be delivered correct. -/
def State.frameLost (s : State) (frame : Nat) : Bool := s.errs.any fun e => e.1 / 4096 = frame && s.lostAt (16 * e.1) 16

/-- A cast of a local sealed frame, fetched whole from its home (R174). -/
def State.castOf (s : State) (basin frame : Nat) (fr : Frame) : Cast :=
  ⟨basin, none, frame, fr.gen, fr.ptr, s.frameBytes frame fr.ptr, s.clk⟩

/-- The casts of a basin with a new one of a page in place of any other with its name. -/
def State.addCast (s : State) (c : Cast) : State :=
  { s with casts := (s.casts.filter fun x =>
      !(x.basin = c.basin && x.dev = c.dev && x.frame = c.frame && x.gen = c.gen)) ++ [c] }

/-- A read of a local vitrine page (R174, R417). -/
def State.readVitrine (s : State) (va : Word) (pa : Nat) (gen : BitVec 16) (n : Nat) : Res (Nat × Bool) :=
  let f := pa / 65536
  let fr := s.frame f
  let away := s.myBasin ≠ paBasin pa && (s.basin s.myBasin).poolOn
  match (if away then s.findCast s.myBasin none f gen else none) with
  | some c => .ok (leRead (fun a => Table.get 0 c.data a) (pa % 65536) n, false) s
  | none =>
    if fr.gen ≠ gen || fr.state = 0 then .trap causeStaleCast va s
    else
      let get (s : State) : Res (Nat × Bool) :=
        .ok (leRead (fun a => if a % 65536 < fr.ptr then s.homeByte a else 0) pa n, false)
          (if away && fr.state = 2 && !s.frameLost f then s.addCast (s.castOf s.myBasin f fr) else s)
      if (s.cache.find (pa / 64)).isSome then get s else s.demand va pa n get

/-- The unit that takes a copy of a peer's line (R305). -/
def State.peerUnit (s : State) (line : Nat) : Nat := (s.unitOf line).getD 1728

/-- A line of a peer that the running stream is served from: a copy in its unit whose lease runs, or one served for this
strand (R305, R405, R430). -/
def State.findPeer (s : State) (dev : BitVec 12) (line : Nat) : Option PeerLine :=
  s.peer.find? fun l => l.dev = dev && l.line = line &&
    (l.once = some s.cur || (l.once = none && l.holder = s.peerUnit line && s.aqNow < l.expiry))

/-- The owner of a peer's vitrine page has answered that it is not sealed: its reads are served line by line
without a copy (R174, R436). -/
def State.openPeer (s : State) (dev : BitVec 12) (pa : Nat) : Bool :=
  s.self.openCast.contains (dev, pa / 65536)

/-- The running strand sends a message to a peer, and notes the clk (R434). -/
def State.tell (s : State) (dev : BitVec 12) (body : AqBody) : State :=
  (s.modSelf fun t => { t with sentAt := s.clk }).sendAq dev 0 body

/-- The message that asks a peer for a line, of a vitrine page of a generation or of another page; a lease is asked for
while the time is synchronised (R430). -/
def State.askLine (s : State) (dev : BitVec 12) (pa : Nat) (lease : Bool) (links : List Nat)
    (gen : Option (BitVec 16)) : State × Await :=
  let tok := s.nextId
  ({ s with nextId := tok + 1 }.tell dev (.readLine (BitVec.ofNat 52 (pa / 64 * 64)) lease links gen tok),
    .peer tok 1 (s.peerUnit (pa / 64)))

/-- A cast fetch asked for at its owner, with its token; the readers of one basin share it (R436). -/
def State.askCast (s : State) (dev : BitVec 12) (pa : Nat) (gen : BitVec 16) : State × Nat :=
  let shared (e : Nat × Strand) : Option Nat :=
    match e.2.st with
    | .wait (.cast dv f g _ tok) =>
      if basinOf (coreOf e.1) = s.myBasin && dv = dev && f = pa / 65536 && g = gen then some tok else none
    | _ => none
  match s.strands.findSome? shared with
  | some tok => (s, tok)
  | none =>
    ({ s with nextId := s.nextId + 1 }.tell dev
      (.homeCommand (BitVec.ofNat 52 (pa / 65536 * 65536)) gen 5 0 [] 0 s.nextId), s.nextId)

/-- A read at a peer (R405, R436): from a cast or a copy, or it asks and waits. A read that the fabric failed to
serve is an access fault (log entry 30). -/
def State.readPeer (s : State) (va : Word) (dev : BitVec 12) (pa : Nat) (pv : Bool) (gen : BitVec 16) (n : Nat) :
    Res (Nat × Bool) :=
  match (if pv then s.findCast s.myBasin (some dev) (pa / 65536) gen else none) with
  | some c => .ok (leRead (fun a => Table.get 0 c.data a) (pa % 65536) n, false) s
  | none =>
    match s.findPeer dev (pa / 64) with
    | some l =>
      if l.poisoned then machineCheck va s
      else .ok (leRead (fun i => lineByte l.data i) (pa % 64) n, false) s
    | none =>
      match s.self.answers.find? fun e => e.2.2 ≠ 0 with
      | some (_, _, c) => .trap c va (s.modSelf fun t => { t with answers := [] })
      | none =>
        let s := s.modSelf fun t => { t with answers := [] }
        if pv && (s.basin s.myBasin).poolOn && !s.openPeer dev pa then
          let r := s.askCast dev pa gen
          .wait (.cast dev (pa / 65536) gen pa r.2) r.1
        else
          let r := s.askLine dev pa (s.aqSync && !pv) [] (if pv then some gen else none)
          .wait r.2 r.1

/-- An access to a host line that needs the host while the link is down waits for it (R111, R304). -/
def State.hostAway (s : State) (hpa : Nat) (write : Bool) : Bool :=
  !s.portUp s.leasePort &&
    match s.resv.find (hpa / 64) with
    | some l => write && !l.owned
    | none => true

/-- A line of a peer that a load needs: how it will be served. -/
inductive Served where
  /-- it is here: in a cast, in a copy, or served for this strand -/
  | here
  /-- its cast, or a leased copy, is asked for by itself (R405, R436) -/
  | alone
  /-- its owner serves it without a copy (R174, R430) -/
  | unleased
  deriving DecidableEq, Repr

/-- How the running stream is served with a line of a peer (R174, R405, R430, R436); a load that sets links reads each line at
its owner (R411). -/
def State.servedHow (s : State) (dev : BitVec 12) (pa : Nat) (pv : Bool) (gen : BitVec 16) (linked : Bool) : Served :=
  if linked then
    (if s.peer.any fun l => l.dev = dev && l.line = pa / 64 && l.once = some s.cur then .here else .unleased)
  else if pv && (s.findCast s.myBasin (some dev) (pa / 65536) gen).isSome then .here
  else if (s.findPeer dev (pa / 64)).isSome then .here
  else if pv && (s.basin s.myBasin).poolOn && !s.openPeer dev pa then .alone
  else if s.aqSync && !pv then .alone
  else .unleased

/-- A read of `n` aligned bytes at a place: the value, and whether an expired scratchpad row was read (R314). -/
def State.readAt (s : State) (p : Place) (va : Word) (n : Nat) : Res (Nat × Bool) :=
  match p with
  | .dev pa => s.readOrdinary va (s.migRead pa) n
  | .plane pa => s.readPlane va pa n
  | .spad core off =>
    let u := if s.vec then s else s.spadWaits s.cur [(core, off / 64)]
    if s.expired core (off / 64) then .ok (0, true) u
    else .ok (leRead (fun o => s.spadByte core o) off n, false) u
  | .vitrine pa gen => s.readVitrine va pa gen n
  | .host hpa =>
    if s.hostAway hpa false then .wait .link s
    else
      let s := s.fillResv (hpa / 64)
      match s.resv.find (hpa / 64) with
      | some l => if l.poisoned then machineCheck va s else .ok (leRead s.hostByte hpa n, false) s
      | none => .ok (leRead s.hostByte hpa n, false) s
  | .peer dev pa pv gen => s.readPeer va dev pa pv gen n

/-- Raw bytes of a row written by a demand access, the check bits kept whole (R319, R327, R357). -/
def State.writeRaw (s : State) (pa : Nat) : Nat → Nat → State
  | 0, _ => s
  | n + 1, v => State.writeRaw { s.setRawByte pa (leByte v 0) with errs := s.errs.drop (pa / 16) } (pa + 1) n (v / 256)

/-- A write of `n` aligned bytes at a place of this device or of the host (R301); peers are written by messages. -/
def State.writeAt (s : State) (p : Place) (n v : Nat) : State :=
  match p with
  | .dev pa => ((s.ownLine (s.migRead pa / 64)).ownLine (pa / 64)).writeCo pa n v
  | .plane pa => ((s.writeRaw pa n v).breakLinks (pa / 64)).mirror pa n
  | .spad core off => (if s.vec then s else s.spadWaits s.cur [(core, off / 64)]).writeSpad core off n v
  | .host hpa => s.writeHost hpa n v
  | .vitrine _ _ => s
  | .peer _ _ _ _ => s

/-- The link key of the line at a place (R410). -/
def Place.line : Place → Nat
  | .dev pa => pa / 64
  | .plane pa => pa / 64
  | .spad core off => spadPa core off / 64
  | .vitrine pa _ => pa / 64
  | .host hpa => hostLine hpa
  | .peer dv pa _ _ => peerLineKey dv pa

/-- The bytes of a line that an aligned access of `n` bytes at `pa` names, as a mask and as data (R432). -/
def lineMask (pa n : Nat) : BitVec 64 := BitVec.ofNat 64 ((2 ^ n - 1) * 2 ^ (pa % 64))
def lineData (pa n v : Nat) : BitVec 512 := BitVec.ofNat 512 (v % 256 ^ n * 256 ^ (pa % 64))

/-- The bits of a line that a mask of its bytes names. -/
def byteBits (m : BitVec 64) : BitVec 512 :=
  (List.range 64).foldl (fun d i => if m.getLsbD i then setLineByte d i 0xFF else d) 0

/-- What writes (address, n, v) leave in each line that they touch, later ones over earlier ones: data and mask by
line. -/
def lineWrites (l : List (Nat × Nat × Nat)) : Table (BitVec 512 × BitVec 64) :=
  l.foldl (fun t e =>
    let old := Table.get (0, 0) t (e.1 / 64)
    let m := lineMask e.1 e.2.1
    Table.put (e.1 / 64) ((old.1 &&& ~~~(byteBits m)) ||| lineData e.1 e.2.1 e.2.2, old.2 ||| m) t) []

/-- A message for a peer: the device, how many numbers it names, and the message from the first of them. -/
abbrev PeerMsg := BitVec 12 × Nat × (Nat → AqBody)

/-- Messages sent to peers with consecutive numbers. -/
def State.sendFrom (s : State) (tok : Nat) : List PeerMsg → State
  | [] => s
  | (dv, n, b) :: t => (s.tell dv (b tok)).sendFrom (tok + n) t

/-- Messages sent to peers, and what the strand then waits for. -/
def State.sendAll (s : State) (l : List PeerMsg) : State × Await :=
  let n := l.foldl (fun a e => a + e.2.1) 0
  ({ s with nextId := s.nextId + n }.sendFrom s.nextId l, .peer s.nextId n 0)

/-- Messages to owners, performed there before the instruction goes on with the answers (R405, R406, R411, R418). The places
that its checks have found stand from then on (R319, R321). -/
def State.askOwners {α : Type} (s : State) (l : List PeerMsg) (places : List (Word × Place))
    (f : Table (Word × BitVec 8) → State → Res α) : Res α :=
  if l.isEmpty then f [] s
  else if s.self.answers.isEmpty then
    let r := (s.modSelf fun t => { t with placed := places }).sendAll l
    .wait r.2 r.1
  else f s.self.answers (s.modSelf fun t => { t with answers := [], placed := [] })

/-- The message that makes the writes of one owner, at one point there (R399, R406). -/
def writeMessage (l : List (Nat × Nat × Nat)) (tok : Nat) : AqBody :=
  match lineWrites l with
  | [(x, d, m)] => .writeLine (BitVec.ofNat 52 (64 * x)) d m tok
  | t => .writeLines (t.map fun e => (BitVec.ofNat 52 (64 * e.1), e.2)) tok

/-- The copies of a peer's lines that this device holds, without some lines. -/
def State.forgetPeer (s : State) (l : List (BitVec 12 × Nat)) : State :=
  { s with peer := s.peer.filter fun p => !l.contains (p.dev, p.line) }

/-- Writes of `n` bytes of value `v` at peers (device, address, n, v), one message for each owner. Once they have been
performed the strand reads the lines anew (R396). A write that the fabric failed completes, with AQSTAT set (R434; log
entry 30). -/
def State.writePeers {α : Type} (s : State) (l : List (BitVec 12 × Nat × Nat × Nat)) (places : List (Word × Place))
    (f : State → Res α) : Res α :=
  let owners := (l.map (·.1)).eraseDups
  s.askOwners (owners.map fun dv => (dv, 1, writeMessage ((l.filter fun e => e.1 = dv).map (·.2)))) places
    fun _ s => f (s.forgetPeer (l.map fun e => (e.1, e.2.1 / 64)))

/-- What a write at a place first waits for: the leases that this device has granted on the line (R405), or the host's link
(R111). -/
def State.writeWait (s : State) (p : Place) : Option Await :=
  if s.leased p.line then some (.lease p.line)
  else
    match p with
    | .host hpa => if s.hostAway hpa true then some .link else none
    | _ => none

/-- Demand writes of the running instruction go to their banks; the places that its checks have found stand from then on. -/
def State.writeRows {α : Type} (s : State) (places : List (Word × Place)) (l : List (Nat × BitVec 512 × BitVec 512)) : Res α :=
  let r := (s.modSelf fun t => { t with wrote := true, placed := places }).askRows (l.map fun e => (e.1, e.2.1, some e.2.2))
  .wait r.2 r.1

/-- A write of `n` aligned bytes to a plane page (R355, R357). The annex waits for a bank that is idle. -/
def State.storePlane (s : State) (va : Word) (pa n v : Nat) : Res Unit :=
  if s.bankIdle pa then .ok () (s.writeAt (.plane pa) n v)
  else if 1536 ≤ s.cur then .wait (.idle pa) s
  else s.writeRows [(va, .plane pa)] [(pa / 64, byteMask pa n, lineData pa n v)]

/-- A write of `n` aligned bytes at the place of an address: it waits as it must, and a peer's line is written by its owner
(R406). -/
def State.storeAt (s : State) (va : Word) (p : Place) (n v : Nat) : Res Unit :=
  if s.rowsWritten then .ok () s
  else
  match s.writeWait p with
  | some w => .wait w s
  | none =>
    match p with
    | .plane pa => s.storePlane va pa n v
    | .peer dv pa _ _ => s.writePeers [(dv, pa, n, v)] [(va, p)] fun s => .ok () s
    | p => .ok () (s.writeAt p n v)

/-- A read that sets links of these names (R411, R412): of an ordinary line as it stands now, for a copy that the unit
holds may be older than the link (R400); at a peer's line, the owner serves it and holds the link. -/
def State.readLinked (s : State) (p : Place) (va : Word) (n : Nat) (links : List Nat) : Res (Nat × Bool) :=
  match p with
  | .peer dv pa _ _ =>
    match s.peer.find? fun l => l.dev = dv && l.line = pa / 64 && l.once = some s.cur with
    | some l =>
      if l.poisoned then machineCheck va s else .ok (leRead (fun i => lineByte l.data i) (pa % 64) n, false) s
    | none =>
      match s.self.answers.find? fun e => e.2.2 ≠ 0 with
      | some (_, _, c) => .trap c va (s.modSelf fun t => { t with answers := [] })
      | none =>
        let r := (s.modSelf fun t => { t with answers := [] }).askLine dv pa false links none
        .wait r.2 r.1
  | .dev pa =>
    let line := s.migRead pa / 64
    (State.readAt { s with copies := s.copies.drop (2048 * line + (s.unitOf line).getD 0) } (.dev pa) va n)
  | p => s.readAt p va n

/-- The name of a strand's scalar link, and of its vector link of an element, at a peer. -/
def linkName (slot : Nat) : Nat := slot * 8192
def vlinkName (slot i : Nat) : Nat := slot * 8192 + 1 + i

end Sys2Proof.Machine
end

