-- ==== Sys2Proof/Machine/SysReg.lean ====
section
/-! DEFINITION. The system registers (R443 and the register maps of every chapter): what `srd` reads and what `swr`
writes under the access rules of R13 (R445). -/
namespace Sys2Proof.Machine
open Sys2Proof

/-- What an engine command counts as in the drains and waits (R300, R331): 0 planes, 1 scratchpad, 2 folds, 3 bank
operations, 4 Aqueduct, 5 an operation that can set a flag (R53, R392), 6 a tile operation (R386). -/
def Work.kinds : Work → List Nat
  | .plane _ _ _ _ _ _ _ => [0]
  | .pprog _ _ _ => [0]
  | .pcal _ => [0]
  | .plock _ => [0]
  | .punlock _ => [0]
  | .plant _ _ _ _ _ _ _ => [1, 2]
  | .fold _ _ _ _ _ _ _ => [0, 2, 6]
  | .bank _ _ ft _ _ _ => if ft then [3, 5] else [3]
  | .put _ _ => [4]
  | .get _ _ => [4]
  | .sig _ _ _ _ => [4]
  | .coll _ => [4]

/-- A strand has accepted operations of these kinds that have not completed. -/
def State.busyIn (s : State) (slot : Nat) (kinds : List Nat) : Bool :=
  s.ops.any fun o => o.slot = slot && o.work.kinds.any fun k => kinds.contains k

/-- Bits `[lo + n − 1 : lo]` of a word, as a number. -/
def bitsOf (v : Word) (lo n : Nat) : Nat := v.toNat / 2 ^ lo % 2 ^ n

/-- A word from fields: value and lowest bit. -/
def fieldsOf (l : List (Nat × Nat)) : Word := BitVec.ofNat 64 (l.foldl (fun a e => a + e.1 * 2 ^ e.2) 0)

/-- 64 bits of a 4,096-bit mask register map. -/
def maskWord (m : KReg) (j : Nat) : Word := m.extractLsb' (64 * j) 64

/-- W1C of 64 bits of such a map. -/
def maskClear (m : KReg) (j : Nat) (v : Word) : KReg := m &&& ~~~(v.setWidth 4096 <<< (64 * j))

def boolNat (b : Bool) : Nat := if b then 1 else 0

/-- The clk of the period in which a monitor entry is updated once (R478): 1 ms for the power of a basin, else 1 µs. -/
def meterPeriod (i : Nat) : Nat := if i < 384 && i % 32 = 30 then 1100000 else 1100

/-- What a read of an entry in a period gives: an update counts from the next period on, so that all reads in one agree
(R478; log entry 94). -/
def Meter.shown (m : Meter) (now : Nat) : Word := if m.period = some now then m.before else m.value

/-- An entry of the monitors (R478): sensors as their last raw reading, and what the meters left. -/
def State.monitor (s : State) (i : Nat) : Word :=
  if i < 384 && i % 32 < 28 then
    let b := s.basin (i / 32)
    let x := (if b.sampleUs = some (s.clk / 1100) then b.sensorsWas else b.sensors).get {} (i % 32)
    fieldsOf [(x.temp.toNat, 0), (boolNat x.failed, 63)]
  else if i < 386 then (s.monitors.get {} i).shown (s.clk / meterPeriod i) else 0

/-- XSTAT (R443). -/
def Strand.xstat (t : Strand) : Word :=
  fieldsOf [(t.widx.toNat, 22), (t.nrec.toNat, 8), (boolNat t.cur, 2), (boolNat t.exl, 1), (boolNat t.ppriv, 0)]

/-- The value of lxi (R210): idx of the entry at depth i + 1 from the bottom. -/
def Strand.lx (t : Strand) (i : Nat) : Word :=
  match t.loops.reverse[i]? with
  | some e => e.idx
  | none => 0

/-- XLSn (R449): entries at or above the depth read 0. -/
def Strand.xlsRead (t : Strand) (n : Nat) : Word := if n / 4 < t.xld then t.xls.get 0 n else 0

/-- ROOT of the strand's context, or 0 (R152). -/
def State.ptbase (s : State) : Word :=
  if s.inBoot s.self.ctxid then 0
  else match s.ctxDesc s.self.ctxid with
    | some d => BitVec.ofNat 64 d.root
    | none => 0

/-- The weights of WEIRWTn (R290). -/
def Core.weights (c : Core) (n : Nat) : Word :=
  let w (i : Nat) : Nat := (c.wts.get 1 (4 * n + i)).toNat
  fieldsOf [(w 0, 0), (w 1, 8), (w 2, 16), (w 3, 24)]

/-- The cistern level at a clk, in 1/256 token: it drains every clk (R292). -/
def Core.levelAt (c : Core) (clk : Nat) : Nat := c.level - c.drain.toNat * (clk - c.levelClk)

/-- The cistern brought up to a clk. -/
def Core.settle (c : Core) (clk : Nat) : Core := { c with level := c.levelAt clk, levelClk := clk }

/-- The tiles of a core that hold a poisoned accumulator are a field of TILESTAT (R387). -/
def Core.tilestat (c : Core) : Word :=
  fieldsOf [(c.tileNan.toNat, 16), (c.tileRange.toNat, 8), (c.tileOvf.toNat, 0)]

/-- The value of a system register of the running strand (R445). -/
def State.sysRead (s : State) (r : BitVec 16) : Word :=
  let t := s.self
  let c := s.core s.myCore
  let b := s.basin s.myBasin
  let q := s.quad (quadOf s.myCore)
  let m := b.mig.get {} b.mgsel.toNat
  let n := r.toNat
  if n = 0x4 then BitVec.ofNat 64 t.vn
  else if n = 0x5 then fieldsOf [(t.lgc.toNat, 8), (t.slip.toNat, 5), (t.bs.toNat, 2), (t.sw.toNat, 0)]
  else if n = 0x6 then fieldsOf [(s.myCore, 16), (t.lgbase.toNat, 8), (s.cur % 8, 0)]
  else if n = 0x8 then t.fctl
  else if n = 0x10 then fieldsOf [(s.ctxtabBase.toNat, 12), (s.ctxtabLog2n.toNat, 0)]
  else if n = 0x12 then fieldsOf [(b.poolDie.toNat, 12), (b.poolSub.toNat, 1), (boolNat b.poolEn, 0)]
  else if n = 0x18 || n = 0x19 then fieldsOf [((s.hdmt.get 0 (n - 0x18)).toNat, 12)]
  else if 0x20 ≤ n && n ≤ 0x3F then
    let k := (n - 0x20) / 2
    if n % 2 = 0 then fieldsOf [((s.arfb.get 0 k).toNat, 21)]
    else fieldsOf [((s.arfcLimit.get 0 k).toNat, 21), ((s.arfcFmt.get 0 k).toNat, 1), (boolNat (s.arfcEn.get false k), 0)]
  else if n = 0x40 then fieldsOf [(b.mgsel.toNat, 0)]
  else if n = 0x41 then fieldsOf [(m.old.toNat, 12)]
  else if n = 0x42 then fieldsOf [(m.new.toNat, 12)]
  else if n = 0x43 then fieldsOf [(m.prog, 32), (m.size.toNat, 2), (m.state.toNat, 0)]
  else if 0x58 ≤ n && n ≤ 0x5D then t.lx (n - 0x58)
  else if n = 0x60 then fieldsOf [(c.cap.toNat, 0)]
  else if n = 0x61 then fieldsOf [(c.drain.toNat, 0)]
  else if 0x62 ≤ n && n ≤ 0x65 then c.weights (n - 0x62)
  else if n = 0x66 then BitVec.ofNat 64 (c.levelAt s.clk / 256 % 2 ^ 40)
  else if n = 0x68 then fieldsOf [(q.eff.toNat, 16), (q.pat.toNat, 0)]
  else if n = 0x69 then fieldsOf [(boolNat t.ite, 0)]
  else if 0x70 ≤ n && n ≤ 0x77 then
    let x := b.cq.get {} ((n - 0x70) / 2)
    if n % 2 = 0 then fieldsOf [(x.base.toNat, 12), (x.log2n.toNat, 0)]
    else fieldsOf [(x.head.toNat, 32), (x.tail.toNat, 0)]
  else if n = 0x80 then c.eph.setWidth 64
  else if n = 0x81 then fieldsOf [(boolNat t.expp, 2), (boolNat t.exps, 1), (boolNat t.expte, 0)]
  else if n = 0x90 then
    fieldsOf [(t.plNext.toNat, 32), (t.plFirst.toNat, 16), (boolNat t.lockerr, 1), (boolNat t.margin, 0)]
  else if n = 0x91 then c.tilestat
  else if n = 0xA0 then fieldsOf [(s.devid.toNat, 16), (s.aqInc.toNat, 0)]
  else if n = 0xA1 then fieldsOf [(s.ptabBase.toNat, 15), (boolNat s.ptabEn, 0)]
  else if n = 0xA2 then fieldsOf [(t.aqCause.toNat, 1), (boolNat t.aqFail, 0)]
  else if n = 0xA3 then fieldsOf [(s.aqStale.toNat, 48), (boolNat s.aqSync, 16), (s.aqBound.toNat, 0)]
  else if n = 0xA4 then s.aqtime
  else if n = 0xC0 then t.xpc
  else if n = 0xC1 then t.xcause.setWidth 64
  else if n = 0xC2 then t.xval
  else if n = 0xC3 then s.handler
  else if n = 0xC4 then t.xstat
  else if n = 0xC5 then t.xscratch
  else if n = 0xC6 then c.xframe.get 0 (s.cur % 8)
  else if n = 0xC7 then fieldsOf [(s.krSize.toNat, 48), (s.krBase.toNat, 16)]
  else if n = 0xC8 then t.ctxid.setWidth 64
  else if n = 0xC9 then s.ptbase
  else if n = 0xCA then BitVec.ofNat 64 (Config.vframeSize t.lgc.toNat t.sw.toNat)
  else if n = 0xCB then c.looplate.setWidth 64
  else if n = 0xCC then 0
  else if n = 0xD0 then fieldsOf [(b.crBase.toNat, 12), (b.crLog2n.toNat, 0)]
  else if n = 0xD1 then fieldsOf [(b.crHead.toNat, 32), (b.crTail.toNat, 0)]
  else if n = 0xD2 then b.crLost.setWidth 64
  else if n = 0xD4 then BitVec.ofNat 64 q.limit
  else if n = 0xDA then fieldsOf [(b.suspBase.toNat, 21), (boolNat b.suspV, 0)]
  else if n = 0xDB then fieldsOf [(b.rettab.toNat, 12)]
  else if n = 0xE0 then t.monsel.setWidth 64
  else if n = 0xE1 then s.monitor t.monsel.toNat
  else if n = 0xE7 then BitVec.ofNat 64 t.xld
  else if 0xE8 ≤ n && n ≤ 0xFF then t.xlsRead (n - 0xE8)
  else if 0x100 ≤ n && n ≤ 0x13F then maskWord t.illmask (n - 0x100)
  else if 0x140 ≤ n && n ≤ 0x17F then maskWord t.expmask (n - 0x140)
  else 0

/-- The registers whose maps allow writes in privileged mode only (R201). -/
def sysPrivileged (r : BitVec 16) : Bool :=
  let n := r.toNat
  n = 0x10 || n = 0x12 || n = 0x18 || n = 0x19 || (0x20 ≤ n && n ≤ 0x3F) || (0x40 ≤ n && n ≤ 0x43) ||
  (0x60 ≤ n && n ≤ 0x66) || n = 0x68 || n = 0x70 || n = 0x72 || n = 0x74 || n = 0x76 || n = 0xA0 || n = 0xA1 ||
  (0xC0 ≤ n && n ≤ 0xC8) || n = 0xCB || n = 0xCC || n = 0xD0 || n = 0xD1 || n = 0xDA || n = 0xDB ||
  (0xE7 ≤ n && n ≤ 0xFF)

/-- A change of the basin of the running strand. -/
def State.modBasin (s : State) (f : Basin → Basin) : State := s.setBasin s.myBasin (f (s.basin s.myBasin))
def State.modCore (s : State) (f : Core → Core) : State := s.setCore s.myCore (f (s.core s.myCore))

/-- The first write of CTXTAB ends the boot context (R151, R444). -/
def State.writeCtxtab (s : State) (v : Word) : State :=
  { s with ctxtabBase := v.extractLsb' 12 40
           ctxtabLog2n := if 16 < bitsOf v 0 5 then 16 else v.extractLsb' 0 5
           ctxtabWritten := true }

/-- CASTPOOL (R173): a pool that moves or closes keeps no cast. -/
def State.writeCastpool (s : State) (v : Word) : State :=
  let b := s.basin s.myBasin
  let b' := { b with poolDie := if 11 < bitsOf v 12 4 then 11 else v.extractLsb' 12 4
                     poolSub := if 64 < bitsOf v 1 7 then 64 else v.extractLsb' 1 7
                     poolEn := v.getLsbD 0 }
  let s' := s.setBasin s.myBasin b'
  if b'.poolOn && b'.poolDie = b.poolDie && b'.poolSub = b.poolSub && b.poolOn then s'
  else { s' with casts := s'.casts.filter fun (c : Cast) => c.basin ≠ s.myBasin }

/-- HDMT p (R170): the first write ends the port's reset mapping. -/
def State.writeHdmt (s : State) (p : Nat) (v : Word) : State :=
  { s with hdmt := s.hdmt.set 0 p (v.extractLsb' 12 40), hdmtWritten := s.hdmtWritten.set false p true }

/-- The lines of the range that ARFB k and ARFC k give. -/
def State.inRange (s : State) (k hl : Nat) : Bool :=
  (s.arfb.get 0 k).toNat * 2 ^ 21 ≤ 64 * hl && 64 * hl < (s.arfcLimit.get 0 k).toNat * 2 ^ 21

/-- The reservoir lines of the view that range `k` gives, dropped (R169). -/
def State.dropView (s : State) (k : Nat) : State :=
  (s.resv.filter fun e => s.inRange k e.1).foldl (fun s e => s.dropResv e.1) s

/-- The range under a new value of register `n` of a pair. -/
def State.setArf (s : State) (n : Nat) (v : Word) : State :=
  let k := (n - 0x20) / 2
  if n % 2 = 0 then { s with arfb := s.arfb.set 0 k (v.extractLsb' 21 31) }
  else { s with arfcLimit := s.arfcLimit.set 0 k (v.extractLsb' 21 31)
                arfcFmt := s.arfcFmt.set 0 k (v.extractLsb' 1 3)
                arfcEn := s.arfcEn.set false k (v.getLsbD 0) }

/-- A write of a range waits while the link to a host that a dropped line must reach is down (R111, R169). -/
def State.arfAway (s : State) (n : Nat) (v : Word) : Option (BitVec 1) :=
  if 0x20 ≤ n && n ≤ 0x3F then
    let k := (n - 0x20) / 2
    s.awayPort fun hl => s.inRange k hl || (s.setArf n v).inRange k hl
  else none

/-- ARFB k and ARFC k (R168, R169). -/
def State.writeArf (s : State) (n : Nat) (v : Word) : State :=
  let k := (n - 0x20) / 2
  ((s.dropView k).setArf n v).dropView k

/-- A range of device memory, none of it an enabled cast pool's (R152, R157), no 64 KiB frame of which is OPEN or SEALED
(R172, R178). -/
def State.freeRange (s : State) (base size : Nat) : Bool :=
  s.isTableMem base && s.isTableMem (base + size - 1) &&
    !(s.frames.any fun (f, x) => base / 65536 ≤ f && f ≤ (base + size - 1) / 65536 && x.state ≠ 0)

/-- Two ranges overlap. -/
def overlaps (a n b m : Nat) : Bool := a < b + m && b < a + n

/-- Whether a COPY may start in slot `k` (R178). That MGOLD may name a frame of another basin than the slot's is the
model's choice (log entry 58), and so is what an MGOLD or MGNEW that is not aligned to the size does: the range from it on
migrates (log entry 85). -/
def State.migStarts (s : State) (basin k : Nat) (m : Migration) : Bool :=
  let n := migSize m.size
  let old := m.old.toNat * 4096
  let new := m.new.toNat * 4096
  n ≠ 0 && s.freeRange old n && s.freeRange new n && !overlaps new n old n &&
  !(s.basins.any fun (b, x) => x.mig.any fun (j, y) =>
      !(b = basin && j = k) && (y.state = 1 || y.state = 2) &&
      (overlaps new n (y.old.toNat * 4096) (migSize y.size) || overlaps new n (y.new.toNat * 4096) (migSize y.size)))

/-- Writing COPY to a migration slot (R178). That COPY written over COPY or DONE starts the slot anew is the model's choice
(log entry 59). -/
def State.startMigration (s : State) (basin k : Nat) : State :=
  let b := s.basin basin
  let m := b.mig.get {} k
  let m' := if s.migStarts basin k m then { m with state := 1, prog := 0 } else { m with state := 3 }
  s.setBasin basin { b with mig := b.mig.set {} k m' }

/-- Writing IDLE to a migration slot (R178). -/
def State.stopMigration (s : State) (basin k : Nat) : State :=
  let b := s.basin basin
  s.setBasin basin { b with mig := b.mig.set {} k { b.mig.get {} k with state := 0 } }

/-- MGCTL (R177): SIZE, and COPY or IDLE; a write of DONE or ERROR to STATE is ignored. -/
def State.writeMgctl (s : State) (v : Word) : State :=
  let basin := s.myBasin
  let k := (s.basin basin).mgsel.toNat
  let s := s.modBasin fun b => { b with mig := b.mig.set {} k { b.mig.get {} k with size := v.extractLsb' 2 2 } }
  if bitsOf v 0 2 = 1 then s.startMigration basin k else if bitsOf v 0 2 = 0 then s.stopMigration basin k else s

/-- CQBASE p (R280): ignored while the queue holds records. -/
def State.writeCqbase (s : State) (p : Nat) (v : Word) : State :=
  s.modBasin fun b =>
    let x := b.cq.get {} p
    if x.head ≠ x.tail then b
    else
      let n := bitsOf v 0 5
      { b with cq := b.cq.set {} p { x with base := v.extractLsb' 12 40
                                            log2n := if 1 ≤ n && n ≤ 5 then 6 else if 20 < n then 20 else v.extractLsb' 0 5 } }

/-- CTXID (R443): the next instruction runs in the new context, with every link broken; the mode stays. -/
def Strand.setCtx (t : Strand) (v : Word) : Strand := { t with ctxid := v.extractLsb' 0 16, slink := none, vlinks := [] }

/-- XSTAT (R443): CUR is read-only. -/
def Strand.setXstat (t : Strand) (v : Word) : Strand :=
  { t with widx := v.extractLsb' 22 10, nrec := v.extractLsb' 8 9, exl := v.getLsbD 1, ppriv := v.getLsbD 0 }

/-- A pre-emption request posted to one strand (R450, R454). -/
def Strand.post (t : Strand) (clk : Nat) : Strand :=
  let idle := if t.st = .wait .event then true else t.idleDone
  if t.preq.isSome then t
  else { t with preq := some clk, preqLate := false, idleDone := idle }

/-- PREQ (R454): requests to the named slots of a core. -/
def State.postAll (s : State) (core mask : Nat) : State :=
  if 192 ≤ core then s
  else (List.range 8).foldl (fun s k =>
    if mask / 2 ^ k % 2 = 1 then
      match s.strand (8 * core + k) with
      | some t => s.setStrand (8 * core + k) (t.post s.clk)
      | none => s
    else s) s

/-- PULSE.PAT (R293). -/
def State.writePulse (s : State) (v : Word) : State :=
  let k := quadOf s.myCore
  s.setQuad k { s.quad k with pat := if bitsOf v 0 16 = 0 then 1 else v.extractLsb' 0 16 }

/-- A core whose CAP or weights are written in a clk: those in force until the clk ends stay noted (R292). -/
def Core.weirNote (c : Core) (clk : Nat) : Core :=
  if (c.weirWas.map (·.1)) = some clk then c else { c with weirWas := some (clk, c.cap, c.wts) }

/-- SPEPH (R313): the refresh controllers whose bit changes go on under the new one from their next slots (R312); reports that
are due stay due (R316). -/
def State.writeEph (s : State) (v : BitVec 48) : State :=
  let core := s.myCore
  let c := s.core core
  let changed := (List.range 48).filter fun b => c.eph.getLsbD b ≠ v.getLsbD b
  s.setCore core { changed.foldl (fun c b => c.nextSpan b (s.spanOf core b s.clk)) c with
                    eph := v, rowDue := c.rowDue ++ changed.flatMap (s.foundRows core) }

/-- AQSELF (R427): messages sent in the clk of the write still carry the old values. -/
def State.writeSelf (s : State) (v : Word) : State :=
  let was := if (s.selfWas.map (·.1)) = some s.clk then s.selfWas else some (s.clk, s.devid, s.aqInc)
  { s with selfWas := was, devid := v.extractLsb' 16 12, aqInc := v.extractLsb' 0 16 }

/-- WEIRWTn (R290). -/
def Core.setWeights (c : Core) (n : Nat) (v : Word) : Core :=
  { c with wts := (List.range 4).foldl (fun w i => w.set 1 (4 * n + i) (v.extractLsb' (8 * i) 8)) c.wts }

/-- A write to a system register of the running strand, privilege apart (R13, R445). -/
def State.sysWrite (s : State) (r : BitVec 16) (v : Word) : State :=
  let n := r.toNat
  if n = 0x5 then
    s.modSelf fun t => { t with slip := v.extractLsb' 5 3, bs := if 6 ≤ bitsOf v 2 3 then t.bs else v.extractLsb' 2 3 }
  else if n = 0x8 then s.modSelf fun t => t.setFctl v
  else if n = 0x10 then s.writeCtxtab v
  else if n = 0x12 then s.writeCastpool v
  else if n = 0x18 || n = 0x19 then s.writeHdmt (n - 0x18) v
  else if 0x20 ≤ n && n ≤ 0x3F then s.writeArf n v
  else if n = 0x40 then s.modBasin fun b => { b with mgsel := v.extractLsb' 0 2 }
  else if n = 0x41 then s.modBasin fun b =>
    { b with mig := b.mig.set {} b.mgsel.toNat { b.mig.get {} b.mgsel.toNat with old := v.extractLsb' 12 40 } }
  else if n = 0x42 then s.modBasin fun b =>
    { b with mig := b.mig.set {} b.mgsel.toNat { b.mig.get {} b.mgsel.toNat with new := v.extractLsb' 12 40 } }
  else if n = 0x43 then s.writeMgctl v
  else if n = 0x60 then s.modCore fun c => { c.weirNote s.clk with cap := v.extractLsb' 0 32 }
  else if n = 0x61 then s.modCore fun c => { c.settle s.clk with drain := v.extractLsb' 0 32 }
  else if 0x62 ≤ n && n ≤ 0x65 then s.modCore fun c => (c.weirNote s.clk).setWeights (n - 0x62) v
  else if n = 0x68 then s.writePulse v
  else if n = 0x69 then s.modSelf fun t => { t with ite := v.getLsbD 0 }
  else if n = 0x70 || n = 0x72 || n = 0x74 || n = 0x76 then s.writeCqbase ((n - 0x70) / 2) v
  else if n = 0x80 then s.writeEph (v.extractLsb' 0 48)
  else if n = 0x81 then s.modSelf fun t =>
    { t with expp := t.expp && !v.getLsbD 2, exps := t.exps && !v.getLsbD 1, expte := v.getLsbD 0 }
  else if n = 0x90 then s.modSelf fun t =>
    { t with lockerr := t.lockerr && !v.getLsbD 1, margin := t.margin && !v.getLsbD 0 }
  else if n = 0xA0 then s.writeSelf v
  else if n = 0xA1 then { s with ptabBase := v.extractLsb' 15 37, ptabEn := v.getLsbD 0 }
  else if n = 0xA2 then s.modSelf fun t => { t with aqFail := t.aqFail && !v.getLsbD 0 }
  else if n = 0xA3 then { s with aqStale := s.aqStale &&& ~~~(v.extractLsb' 48 16) }
  else if n = 0xC0 then s.modSelf fun t => { t with xpc := v }
  else if n = 0xC1 then s.modSelf fun t => { t with xcause := v.extractLsb' 0 8 }
  else if n = 0xC2 then s.modSelf fun t => { t with xval := v }
  else if n = 0xC3 then { s with xvec := v.extractLsb' 2 46 }
  else if n = 0xC4 then s.modSelf fun t => t.setXstat v
  else if n = 0xC5 then s.modSelf fun t => { t with xscratch := v }
  else if n = 0xC6 then s.modCore fun c => { c with xframe := c.xframe.set 0 (s.cur % 8) (fieldsOf [(bitsOf v 8 44, 8)]) }
  else if n = 0xC7 then { s with krSize := v.extractLsb' 48 16, krBase := v.extractLsb' 16 32 }
  else if n = 0xC8 then s.modSelf fun t => t.setCtx v
  else if n = 0xCB then s.modCore fun c => { c with looplate := c.looplate &&& ~~~(v.extractLsb' 0 32) }
  else if n = 0xCC then s.postAll (bitsOf v 16 8) (bitsOf v 0 8)
  else if n = 0xD0 then s.modBasin fun b =>
    let k := bitsOf v 0 5
    { b with crBase := v.extractLsb' 12 40
             crLog2n := if 1 ≤ k && k ≤ 5 then 6 else if 16 < k then 16 else v.extractLsb' 0 5 }
  else if n = 0xD1 then s.modBasin fun b => { b with crHead := v.extractLsb' 32 32 }
  else if n = 0xD2 then s.modBasin fun b => { b with crLost := b.crLost &&& ~~~(v.extractLsb' 0 32) }
  else if n = 0xDA then s.modBasin fun b => { b with suspBase := v.extractLsb' 21 31, suspV := v.getLsbD 0 }
  else if n = 0xDB then s.modBasin fun b => { b with rettab := v.extractLsb' 12 40 }
  else if n = 0xE0 then s.modSelf fun t => { t with monsel := v.extractLsb' 0 9 }
  else if n = 0xE7 then s.modSelf fun t => { t with xld := min 6 (bitsOf v 0 3) }
  else if 0xE8 ≤ n && n ≤ 0xFF then s.modSelf fun t => { t with xls := t.xls.set 0 (n - 0xE8) v }
  else if 0x100 ≤ n && n ≤ 0x13F then s.modSelf fun t => { t with illmask := maskClear t.illmask (n - 0x100) v }
  else if 0x140 ≤ n && n ≤ 0x17F then s.modSelf fun t => { t with expmask := maskClear t.expmask (n - 0x140) v }
  else s

/-- What an access to a register first waits for (R53, R387). -/
def sysWaits (r : BitVec 16) (write : Bool) : List Nat :=
  if r = 0x8 then [5] else if r = 0x91 && !write then [6] else []

/-- srd (R445). -/
def execSrd (d : BitVec 5) (r : BitVec 16) (s : State) : Result :=
  .next (if s.busyIn s.cur (sysWaits r false) then s.waitOn (.engines (sysWaits r false)) else s.result d (s.sysRead r))

/-- swr (R445): a register marked privileged takes the privilege trap in user mode (R201). -/
def execSwr (a : BitVec 5) (r : BitVec 16) (s : State) : Result :=
  let go (s : State) : State :=
    if s.busyIn s.cur (sysWaits r true) then s.waitOn (.engines (sysWaits r true))
    else
      match s.arfAway r.toNat (s.getG a) with
      | some p => s.waitOn (.writeBack p)
      | none => (s.sysWrite r (s.getG a)).advance
  .next (if sysPrivileged r then s.privileged go else go s)

end Sys2Proof.Machine
end

