-- ==== Sys2Proof/Machine/Engine.lean ====
section
/-! DEFINITION. The weir (R290 to R292), and the engine commands that the units of the device have accepted (R300,
R332 to R334, R374, R393). -/
namespace Sys2Proof.Machine
open Sys2Proof

/-- The weight of a class (R290). -/
def Core.weight (c : Core) (cls : Nat) : Nat := (c.wts.get 1 cls).toNat

/-- The charge of an instruction in tokens: units times weight, saturated, by class (R291). -/
def Core.cost (c : Core) (ch : Charge) : Nat :=
  ch.foldl (fun a e => a + min (e.2 * c.weight e.1) (2 ^ 32 - 1)) 0

/-- The core with the CAP and the weights that are in force in a clk (R292). -/
def Core.inForce (c : Core) (clk : Nat) : Core :=
  match c.weirWas with
  | some (k, cap, w) => if k = clk then { c with cap := cap, wts := w } else c
  | none => c

/-- The governor holds the weirs of a basin in this clk (R476). -/
def State.currentHold (s : State) (basin : Nat) : Bool := s.clk < (s.basin basin).holdEnd
def State.capHold (s : State) : Bool := s.clk % 16 < s.annex.h.toNat
def State.held (s : State) (basin : Nat) : Bool := s.currentHold basin || s.capHold

/-- Whether a settled cistern admits a cost (R292). -/
def Core.admits (c : Core) (cost : Nat) : Bool := cost = 0 || c.level + 256 * cost ≤ 256 * c.cap.toNat || c.level = 0

/-- The weir of a core admits the instruction of a slot: the level rises, the charge is its launch's, and a strand that
waited goes on (R271, R292, R475). A waiting strand that honours a request has left the weir: its instruction executes
again (R274, R454). -/
def State.letThrough (s : State) (slot : Nat) (ch : Charge) : State :=
  let core := coreOf slot
  let c := (s.core core).settle s.clk
  let f := c.inForce s.clk
  let cost := f.cost ch
  match s.strand slot with
  | some t =>
    if t.st = .wait .weir && t.yields then s
    else
      let s := s.setCore core { c with level := c.level + 256 * cost }
      let s := s.setStrand slot { t with weirPass := some (f.weight 12), st := if t.st = .wait .weir then .run else t.st }
      if cost = 0 then s
      else { s with annex := { s.annex with launches := s.annex.launches.map fun (l : Launch) =>
        if l.id = t.bind.launch then { l with charged := l.charged + cost } else l } }
  | none => s

/-- The running instruction passes the weir, or stands in its queue (R292). -/
def State.throughWeir (s : State) (ch : Charge) : Res Unit :=
  if s.self.weirPass.isSome then .ok () s
  else
    let c := (s.core s.myCore).settle s.clk
    if c.queue.any (fun e => e.slot = s.cur) then .wait .weir s
    else if c.queue.isEmpty && !s.held s.myBasin && (c.inForce s.clk).admits ((c.inForce s.clk).cost ch) then .ok () (s.letThrough s.cur ch)
    else .wait .weir (s.setCore s.myCore { c with queue := c.queue ++ [⟨s.cur, ch⟩] })

/-- The outstanding operations of a waitc class, changed (R300): 1 L, 2 S, 3 C, 4 T. -/
def Strand.modCount (t : Strand) (cls : Nat) (f : Nat → Nat) : Strand :=
  match cls with
  | 1 => { t with cntL := f t.cntL }
  | 2 => { t with cntS := f t.cntS }
  | 3 => { t with cntC := f t.cntC }
  | 4 => { t with cntT := f t.cntT }
  | _ => t

/-- The waitc class of an engine command (R300, R360, R374, R394, R431). -/
def Work.cls : Work → Nat
  | .plant _ _ _ _ _ _ _ => 3
  | .put _ _ => 3
  | .get _ _ => 3
  | .sig _ _ _ _ => 3
  | .coll _ => 3
  | .punlock _ => 0
  | _ => 4

/-- Whether a command receives a PLSTAT tag (R333, R366, R381). -/
def Work.tagged : Work → Bool
  | .plane _ _ _ _ _ _ _ => true
  | .pprog _ _ _ => true
  | .pcal _ => true
  | .fold _ _ _ _ _ _ _ => true
  | _ => false

/-- A number put into a rising list. -/
def insertNat (x : Nat) : List Nat → List Nat
  | [] => [x]
  | y :: t => if x ≤ y then x :: y :: t else y :: insertNat x t

def sortNat (l : List Nat) : List Nat := l.foldr insertNat []

/-- The members of a list, each once, rising. -/
def risingSet (l : List Nat) : List Nat := (sortNat l).foldr (fun x t => if t.head? = some x then t else x :: t) []

/-- The subarray groups of a region (R334): its subarrays sorted by bank and number, cut into runs of at most 8 in
one bank. Subarrays are numbered PA div 2^20, banks PA div 2^27. A subarray that two pages of the region map takes part once
(the model's choice, log entry 96). -/
def cutGroups (l : List Nat) : List Group :=
  let rec go : List Nat → List Group → List Group
    | [], gs => gs.reverse
    | x :: t, g :: gs =>
      if g.bank = x / 128 && g.subs.length < 8 then go t ({ g with subs := g.subs ++ [x] } :: gs)
      else go t (⟨x / 128, [x], false, 0, unknownRefs⟩ :: g :: gs)
    | x :: t, [] => go t [⟨x / 128, [x], false, 0, unknownRefs⟩]
  go (risingSet l) []
where
  /-- no reference bit of a compute row is known at the start (R364) -/
  unknownRefs : List (BitVec 64 × BitVec 64) := List.replicate 6 (0, 0)

/-- The subarrays of the calibration groups that a region touches (R366). -/
def calSubs (subs : List Nat) : List Nat :=
  (risingSet (subs.map (· / 8))).flatMap fun m => (List.range 8).map fun i => 8 * m + i

/-- The subarrays on which a command acts, or that it locks, at its fountain; none for a command of no fountain (R332,
R360, R366, R374, R381). -/
def Work.fountain : Work → Option (List Nat)
  | .plane _ _ d _ _ _ _ => some d.subs
  | .pprog d _ _ => some d.subs
  | .pcal d => some (calSubs d.subs)
  | .plant d _ _ _ _ _ _ => some d.subs
  | .fold d _ _ _ _ _ _ => some d.subs
  | .plock d => some d.subs
  | .punlock d => some d.subs
  | _ => none

def Work.isLock : Work → Bool
  | .plock _ => true
  | _ => false

def Work.isUnlock : Work → Bool
  | .punlock _ => true
  | _ => false

/-- Two sets of subarrays meet. -/
def meets (l m : List Nat) : Bool := l.any fun x => m.contains x

/-- A command waits at the fountain before it is accepted (R332, R360): behind an earlier command of its strand that
waits, for a strand's commands are accepted in its order; and, on a subarray that another strand has locked or that
an accepted `plock` still asks for. A strand whose own lock keeps such a `plock` from its grant is not held by it (log
entry 97). A `plock` waits in the order of acceptance for its grant. A `punlock` waits for
the earlier operations on its own subarrays alone (R361). `before` are the commands of the machine that came earlier. -/
def State.mustWait (s : State) (before : List EngineOp) (o : EngineOp) : Bool :=
  match o.work.fountain with
  | none => false
  | some l =>
    !o.work.isUnlock && (before.any (fun p => p.held && p.slot = o.slot) ||
      (!o.work.isLock &&
        ((s.basin (l.headD 0 / 2 ^ 16)).locks.any (fun k => k.slot ≠ o.slot && meets k.subs l) ||
         s.ops.any fun p => !p.held && p.work.isLock && p.id ≠ o.id && meets ((p.work.fountain).getD []) l &&
           !(p.slot ≠ o.slot && (s.basin (l.headD 0 / 2 ^ 16)).locks.any fun k =>
             k.slot = o.slot && meets k.subs ((p.work.fountain).getD [])))))

/-- The commands that wait at a fountain and may now be accepted, each after those accepted before (R332). -/
def State.admitWaiting (s : State) : State :=
  let r := s.ops.foldl (fun (a : List EngineOp × List EngineOp) o =>
    if o.held && !(State.mustWait { s with ops := s.ops ++ a.2 } a.1 o) then (a.1, a.2 ++ [{ o with held := false }]) else (a.1 ++ [o], a.2)) ([], [])
  { s with ops := r.1 ++ r.2 }

/-- A fountain, the banks or the fabric receives a command of the running strand: it accepts it, or holds it (R332); `after`
is the `plant` to which it is chained (R373). -/
def State.accept (s : State) (w : Work) (groups : List Group) (after : Option Nat := none) : State :=
  let t := s.self
  let op : EngineOp := { id := s.nextId, slot := s.cur, tag := if w.tagged then t.plNext else 0, work := w,
                         groups := groups, after := after }
  let t := t.modCount w.cls (· + 1)
  let t := if w.tagged then { t with plNext := t.plNext + 1 } else t
  { (s.setSelf t) with ops := s.ops ++ [{ op with held := s.mustWait s.ops op }], nextId := s.nextId + 1 }

/-- An accepted command by its number. -/
def State.op (s : State) (id : Nat) : Option EngineOp := s.ops.find? fun o => o.id = id

def State.setOp (s : State) (o : EngineOp) : State := { s with ops := s.ops.map fun x => if x.id = o.id then o else x }

/-- A command completes: it leaves the engine and its waitc class (R300). -/
def State.finishOp (s : State) (o : EngineOp) : State :=
  let s := { s with ops := s.ops.filter fun x => x.id ≠ o.id }
  match s.strand o.slot with
  | some t => s.setStrand o.slot (t.modCount o.work.cls (· - 1))
  | none => s

/-- A report about a command: it names the strand that issued it, its context and its launch (R365, R434, R461). -/
def State.opReport (s : State) (basin : Nat) (o : EngineOp) (r : Report) : State :=
  match s.strand o.slot with
  | some t =>
    let r := { r with core := coreOf o.slot, slot := o.slot % 8, ctx := t.ctxid.toNat }
    s.report basin (match s.launchOf t.bind.launch with
      | some l => { r with lq := l.queue, lrec := l.recno.toNat }
      | none => r)
  | none => s.report basin { r with core := coreOf o.slot, slot := o.slot % 8 }

end Sys2Proof.Machine
end

