-- ==== Sys2Proof/Machine/PlaneDesc.lean ====
section
/-! DEFINITION. Plane descriptors (R162, R163), the placement of elements (R164), and the raw rows of a subarray. -/
namespace Sys2Proof.Machine
open Sys2Proof

/-- Bytes `[off, off + n)` of a descriptor image as a number. -/
def fieldAt (v off n : Nat) : Nat := v / 256 ^ off % 256 ^ n

/-- The width that a kind declares (R56): 0 where any from 1 to 16 is allowed. -/
def kindWidth (k : Nat) : Nat := match k with | 2 => 2 | 3 => 6 | 4 => 5 | _ => 0

/-- The segments that XSEG keeps, in ascending order (R164). -/
def keptSegs (x : BitVec 128) : List Nat := (List.range 128).filter fun j => !x.getLsbD j

/-- The descriptor image read field by field, or none where a field breaks its limit (R162, R163). -/
def parseDesc (at_ : Word) (v : Nat) : Option Desc :=
  let vbase := fieldAt v 0 8
  let npage := fieldAt v 8 2
  let rowbase := fieldAt v 10 2
  let kb := fieldAt v 12 1
  let kind := kb % 8
  let width := fieldAt v 13 1
  let stack := fieldAt v 14 2
  let elems := fieldAt v 16 4
  let xseg := BitVec.ofNat 128 (fieldAt v 40 16)
  let scale := fieldAt v 24 8
  let super := fieldAt v 32 8
  let ok := vbase % 2 ^ 21 = 0 && 1 ≤ npage && npage ≤ 18432 && rowbase ≤ 1023 && kb / 32 = 0 && kind ≤ 4 &&
    1 ≤ width && width ≤ 16 && (kindWidth kind = 0 || width = kindWidth kind) && 1 ≤ stack &&
    rowbase + stack * width ≤ 1024 && 1 ≤ elems && fieldAt v 20 4 = 0 && (kind = 3 || kind = 4 || scale = 0) &&
    (kind = 3 || super = 0) && fieldAt v 56 8 = 0 && (keptSegs xseg).length ≠ 0 &&
    elems ≤ 2 * npage * stack * (64 * (keptSegs xseg).length)
  if ok then
    some { at_ := at_, vbase := vbase, npage := npage, rowbase := rowbase, kind := BitVec.ofNat 3 kind,
           ecc := kb / 8 % 2 = 1, order := kb / 16 % 2 = 1, width := width, stack := stack, elems := elems,
           scaleva := scale, superva := super, xseg := xseg, subs := [] }
  else none

/-- The pages of a region, in order: the subarrays PA div 2^20 of each (R161), with the checks of R163. `basin` is the
basin of the pages before. -/
def State.descPages (s : State) (at_ : Word) (k : Access) (va : Nat) (basin : Option Nat) : Nat → Res (List Nat)
  | 0 => .ok [] s
  | n + 1 =>
    (s.placeAmong (BitVec.ofNat 64 va) k fun p => if pteClass p = 1 then none else some (causeDescriptor, at_)).bind fun p s =>
      match p with
      | .plane pa =>
        if basin.any (· ≠ paBasin pa) then .trap causeDescriptor at_ s
        else (s.descPages at_ k (va + 2 ^ 21) (some (paBasin pa)) n).bind fun l s =>
          .ok (pa / 2 ^ 21 * 2 :: (pa / 2 ^ 21 * 2 + 1) :: l) s
      | _ => .trap causeDescriptor at_ s

/-- The one read of a plane descriptor at issue, with its checks (R162, R163). -/
def State.readDesc (s : State) (va : Word) (k : Access) : Res Desc :=
  if va.toNat % 64 ≠ 0 then .trap causeDescriptor va s
  else
    (s.translate va .read).bind fun p s => (s.readAt p va 64).bind fun v s =>
      match parseDesc va v.1 with
      | none => .trap causeDescriptor va s
      | some d => (s.descPages va k d.vbase none d.npage).bind fun subs s => .ok { d with subs := subs } s

/-- C: usable columns per subarray (R164). -/
def Desc.cols (d : Desc) : Nat := 64 * (keptSegs d.xseg).length

/-- Where element `e` lies (R164): its subarray's number, its row in plane 0, and its column. -/
def Desc.place (d : Desc) (e : Nat) : Nat × Nat × Nat :=
  let q := e / d.cols
  let c := e % d.cols
  let sn := 2 * d.npage
  let s := if d.order then q % sn else q / d.stack
  let r := if d.order then q / sn else q % d.stack
  (d.subs.getD s 0, d.rowbase + d.width * r, 64 * (keptSegs d.xseg).getD (c / 64) 0 + c % 64)

/-- The basin of a region (R163). -/
def Desc.basin (d : Desc) : Nat := (d.subs.headD 0) / 2 ^ 16

/-- The columns that XSEG excludes (R165). -/
def exclMask (x : BitVec 128) : Row :=
  BitVec.ofNat 8192 ((List.range 128).foldl
    (fun a j => if x.getLsbD j then a + (2 ^ 64 - 1) * 2 ^ (64 * j) else a) 0)

/-- The physical address of a row of a subarray (R159, R161). -/
def rowPa (sub row : Nat) : Nat := sub * 2 ^ 20 + row * 1024

/-- A data row as the cells hold it (R339). -/
def State.rawRow (s : State) (sub row : Nat) : Row := BitVec.ofNat 8192 (leRead s.rawByte (rowPa sub row) 1024)

/-- `n` cells written from the lowest byte of a value. -/
def State.setCells (s : State) (pa : Nat) : Nat → Nat → State
  | 0, _ => s
  | n + 1, v => (s.setRawByte pa (leByte v 0)).setCells (pa + 1) n (v / 256)

/-- A data row written in the columns that XSEG keeps; the links on its lines break. -/
def State.setRow (s : State) (sub row : Nat) (x : BitVec 128) (v : Row) : State :=
  let m := exclMask x
  let v := (s.rawRow sub row &&& m) ||| (v &&& ~~~m)
  ((s.setCells (rowPa sub row) 1024 v.toNat).breakRange (rowPa sub row / 64) (rowPa sub row / 64 + 15)).mirror
    (rowPa sub row) 1024

/-- One bit of a data row written by a demand access, check bits kept whole (R327). -/
def State.setCell (s : State) (sub row col : Nat) (b : Bool) : State :=
  let pa := rowPa sub row + col / 8
  let m : Byte := 1#8 <<< (col % 8)
  let x := s.rawByte pa
  ({ s.setRawByte pa (if b then x ||| m else x &&& ~~~m) with errs := s.errs.drop (pa / 16) }.breakLinks (pa / 64)).mirror pa 1

end Sys2Proof.Machine
end

