-- ==== Sys2Proof/Machine/Planes.lean ====
section
/-! DEFINITION. Plane instructions and `pprog` (R332 to R367): their checks at issue, the canonical microprograms, the
row ops, the groups that run them, margins, calibration and locks. -/
namespace Sys2Proof.Machine
open Sys2Proof

/-- A row op (R336), a regeneration (R358), a fold's read of a weight row (R381), a calibration slot (R366), and a
slot in which no row op takes place (R350). Rows are data rows 0 to 1,023, then T0 to T3, DCC0, DCC1, C0, C1. -/
inductive RowOp where
  | cp (d s : Nat)
  | inv (d s : Nat)
  | maj (x y z : Nat)
  | shl (d s c : Nat)
  | shr (d s c : Nat)
  | regen (r : Nat)
  | read (r : Nat)
  | sweep
  | pass
  deriving DecidableEq, Repr

abbrev rT0 : Nat := 1024
abbrev rT1 : Nat := 1025
abbrev rT2 : Nat := 1026
abbrev rT3 : Nat := 1027
abbrev rD0 : Nat := 1028
abbrev rD1 : Nat := 1029
abbrev rC0 : Nat := 1030
abbrev rC1 : Nat := 1031

/-- A copy, or the empty slot that replaces a copy of a row to itself (R350). -/
def copyRow (d s : Nat) : RowOp := if d = s then .pass else .cp d s

/-- A source is signed when its kind is pi, nq4 or e2m1 (R341). -/
def Desc.signed (d : Desc) : Bool := d.kind = 0 || d.kind = 3 || d.kind = 4

/-- Plane `p` at element row `r` (R343). -/
def Desc.row (d : Desc) (r p : Nat) : Nat := d.rowbase + d.width * r + p

/-- Plane `p` of a source, extended (R342). -/
def Desc.src (d : Desc) (r p : Nat) : Nat :=
  if p < d.width then d.row r p else if d.signed then d.row r (d.width - 1) else rC0

/-- padd at one element row (R345). -/
def progAdd (w : Nat) (d a b : Desc) (r : Nat) : List RowOp :=
  let setup : List RowOp := [.cp rT2 rC0, .inv rD1 rT2]
  let plane (p : Nat) : List RowOp :=
    [.cp rT0 (a.src r p), .cp rT1 (b.src r p), .cp rT3 rD1, .maj rT0 rT1 rT3, .cp rT1 (a.src r p),
     .cp rT3 (b.src r p), .inv rD0 rD1, .cp rT2 rD0, .maj rT1 rT3 rT2, .inv rD1 rT2, .cp rT1 rD1, .maj rT1 rD0 rT0,
     .cp (d.row r p) rT0]
  setup ++ (List.range w).flatMap plane

/-- psub (R346). -/
def progSub (w : Nat) (d a b : Desc) (r : Nat) : List RowOp :=
  let setup : List RowOp := [.cp rT2 rC1, .inv rD1 rT2]
  let plane (p : Nat) : List RowOp :=
    [.cp rT0 (a.src r p), .inv rD0 (b.src r p), .cp rT1 rD0, .cp rT3 rD1, .maj rT0 rT1 rT3, .cp rT1 (a.src r p),
     .cp rT3 rD0, .inv rD0 rD1, .cp rT2 rD0, .maj rT1 rT3 rT2, .inv rD1 rT2, .cp rT1 rD1, .maj rT1 rD0 rT0,
     .cp (d.row r p) rT0]
  setup ++ (List.range w).flatMap plane

/-- pcmp (R347): the planes from the top down, exchanged at the sign plane. -/
def progCmp (w : Nat) (d a b : Desc) (r : Nat) : List RowOp :=
  let setup : List RowOp := [.cp rT2 rC0, .cp rT3 rC0]
  let plane (p : Nat) : List RowOp :=
    let swap := a.signed && p = w - 1
    let x := if swap then b.src r p else a.src r p
    let y := if swap then a.src r p else b.src r p
    [.inv rD0 x, .cp rT0 y, .maj rD0 rT0 rC0, .inv rD1 y, .cp rT1 x, .maj rD1 rT1 rC0, .inv rD0 rT3, .inv rD1 rT2,
     .maj rT2 rT0 rD0, .maj rT3 rT1 rD1]
  let last : List RowOp := [.cp (d.row r 0) rT2]
  setup ++ (List.range w).reverse.flatMap plane ++ last

/-- pmul (R348). -/
def progMul (w : Nat) (d a b : Desc) (r : Nat) : List RowOp :=
  let plane (j i : Nat) : List RowOp :=
    let p := if j = 0 then rC0 else d.row r (j + i)
    [.cp rT1 (a.src r i), .cp rT3 (b.src r j), .maj rT1 rT3 rC0, .inv rD0 rD1, .cp rT0 p, .maj rT0 rT1 rD1,
     .cp rT2 rD0, .cp rT1 p, .maj rT1 rT3 rT2, .inv rD1 rT2, .cp rT1 rD1, .maj rT1 rD0 rT0,
     .cp (d.row r (j + i)) rT0]
  let first : List RowOp := [.inv rD1 rC0]
  let last (j : Nat) : List RowOp := [.inv rD0 rD1, .cp (d.row r (j + a.width)) rD0]
  (List.range w).flatMap fun j => first ++ (List.range a.width).flatMap (plane j) ++ last j

/-- pand and por (R349). -/
def progAnd (c : Nat) (w : Nat) (d a b : Desc) (r : Nat) : List RowOp :=
  (List.range w).flatMap fun p =>
    [.cp rT0 (a.src r p), .cp rT1 (b.src r p), .maj rT0 rT1 c, .cp (d.row r p) rT0]

/-- pxor (R349). -/
def progXor (w : Nat) (d a b : Desc) (r : Nat) : List RowOp :=
  (List.range w).flatMap fun p =>
    [.cp rT0 (a.src r p), .cp rT1 (b.src r p), .maj rT0 rT1 rC0, .inv rD0 (a.src r p), .inv rD1 (b.src r p),
     .maj rD0 rD1 rC0, .maj rT0 rD0 rC1, .inv rD1 rT0, .cp (d.row r p) rD1]

/-- pnot (R349). -/
def progNot (w : Nat) (d a : Desc) (r : Nat) : List RowOp :=
  (List.range w).flatMap fun p => [.inv rD0 (a.src r p), .cp (d.row r p) rD0]

/-- psel (R351): the selector's single plane. -/
def progSel (w : Nat) (d a b sel : Desc) (r : Nat) : List RowOp :=
  (List.range w).flatMap fun p =>
    [.cp rT0 (a.src r p), .cp rT1 (sel.src r 0), .maj rT0 rT1 rC0, .inv rD0 (sel.src r 0), .cp rT2 (b.src r p),
     .maj rD0 rT2 rC0, .maj rT0 rT2 rC1, .cp (d.row r p) rT0]

/-- pcopy, pfill, pshl and pshr (R350). -/
def progCopy (w : Nat) (d a : Desc) (r : Nat) : List RowOp :=
  (List.range w).map fun p => copyRow (d.row r p) (a.src r p)
def progFill (w : Nat) (d : Desc) (v : Word) (r : Nat) : List RowOp :=
  (List.range w).map fun p => .cp (d.row r p) (if v.getLsbD p then rC1 else rC0)
def progShl (w : Nat) (d a : Desc) (v : Word) (r : Nat) : List RowOp :=
  (List.range w).reverse.map fun p => copyRow (d.row r p) (if v.toNat ≤ p then a.src r (p - v.toNat) else rC0)
def progShr (w : Nat) (d a : Desc) (v : Word) (r : Nat) : List RowOp :=
  (List.range w).map fun p => copyRow (d.row r p) (a.src r (p + v.toNat))

/-- The microprogram of a plane instruction for one element row. -/
def PlaneOp.prog (op : PlaneOp) (w : Nat) (d a b sel : Desc) (imm : Word) (r : Nat) : List RowOp :=
  match op with
  | .add => progAdd w d a b r
  | .sub => progSub w d a b r
  | .mul => progMul w d a b r
  | .cmp => progCmp w d a b r
  | .and => progAnd rC0 w d a b r
  | .or => progAnd rC1 w d a b r
  | .xor => progXor w d a b r
  | .not => progNot w d a r
  | .sel => progSel w d a b sel r
  | .shl => progShl w d a imm r
  | .shr => progShr w d a imm r
  | .copy => progCopy w d a r
  | .fill => progFill w d imm r

/-- How many planes the instruction writes per element row (R344). -/
def PlaneOp.results (op : PlaneOp) (w : Nat) (a : Desc) : Nat :=
  match op with
  | .cmp => 1
  | .mul => a.width + w
  | _ => w

/-- The canonical row ops per element row (R344). -/
def PlaneOp.canonical (op : PlaneOp) (w : Nat) (a : Desc) : Nat :=
  match op with
  | .add => 13 * w + 2
  | .sub => 14 * w + 2
  | .cmp => 10 * w + 3
  | .mul => 13 * w * a.width + 3 * w
  | .and => 4 * w
  | .or => 4 * w
  | .xor => 9 * w
  | .not => 2 * w
  | .sel => 8 * w
  | _ => w

/-- A row code of R198 in a block with base row `b` (R354). -/
def rowOfCode (b : Nat) (c : BitVec 5) : Nat := if c.toNat < 24 then b + c.toNat else 1000 + c.toNat

/-- The row op of a decoded row micro-op (R336, R352). -/
def rowOpOf (b : Nat) : Instr → Option RowOp
  | .rowcp d s => some (.cp (rowOfCode b d) (rowOfCode b s))
  | .rownot d s => some (.inv (rowOfCode b d) (rowOfCode b s))
  | .rowmaj x y z => some (.maj (rowOfCode b x) (rowOfCode b y) (rowOfCode b z))
  | .rowshl d s c => some (.shl (rowOfCode b d) (rowOfCode b s) c.toNat)
  | .rowshr d s c => some (.shr (rowOfCode b d) (rowOfCode b s) c.toNat)
  | _ => none

/-- The operand rules of R336 and R353 on row codes. -/
def rowLegal : Instr → Bool
  | .rowcp d s => d.toNat ≤ 0x1B && d ≠ s
  | .rownot d s => (d = 0x1C || d = 0x1D) && d ≠ s
  | .rowmaj x y z =>
    0x18 ≤ x.toNat && 0x18 ≤ y.toNat && 0x18 ≤ z.toNat && x ≠ y && x ≠ z && y ≠ z &&
      ([x, y, z].filter fun c => 0x1E ≤ c.toNat).length ≤ 1
  | .rowshl d _ c => d.toNat ≤ 0x1B && c ≠ 0
  | .rowshr d _ c => d.toNat ≤ 0x1B && c ≠ 0
  | _ => false

/-- A word that a `pprog` may govern (R197, R353). -/
def governable (w : BitVec 32) : Bool := ((decodeWord w).map rowLegal).getD false

/-- The row ops of a `pprog` block (R354). -/
def blockProg (b : Nat) (words : List (BitVec 32)) : List RowOp :=
  words.filterMap fun w => (decodeWord w).bind (rowOpOf b)

/-- The data row a row op writes. -/
def RowOp.writes : RowOp → Option Nat
  | .cp d _ => if d < 1024 then some d else none
  | .shl d _ _ => if d < 1024 then some d else none
  | .shr d _ _ => if d < 1024 then some d else none
  | _ => none

/-- The slots that a command takes in each of its groups (R343, R354, R358, R366, R381). -/
def Work.program : Work → List RowOp
  | .plane op w d a b sel imm =>
    (List.range d.stack).flatMap fun r =>
      op.prog w d a b sel imm r ++
        (if d.ecc then (List.range (op.results w a)).map fun p => .regen (d.row r p) else [])
  | .pprog d base words =>
    let ops := blockProg base words
    ops ++ (if d.ecc then (risingSet (ops.filterMap RowOp.writes)).map .regen else [])
  | .pcal _ => List.replicate 96 .sweep
  | .fold d _ _ row _ _ _ => (List.range d.width).map fun p => .read (d.row row p)
  | _ => []

/-- XSEG as it limits the writes of a command (R337). -/
def Work.xseg : Work → BitVec 128
  | .plane _ _ d _ _ _ _ => d.xseg
  | .pprog d _ _ => d.xseg
  | _ => 0

/-! ### Row ops -/

/-- REF(x): bit k is bit (x mod 6) of k (R363). -/
def refRow (x : Nat) : BitVec 64 :=
  BitVec.ofNat 64 ((List.range 64).foldl (fun a k => if k.testBit (x % 6) then a + 2 ^ k else a) 0)

/-- The expected reference bits of a row: a known mask and the values (R364). -/
def Group.ref (g : Group) (row : Nat) : BitVec 64 × BitVec 64 :=
  if row < 1024 then (BitVec.allOnes 64, refRow row)
  else if row = rC0 then (BitVec.allOnes 64, 0)
  else if row = rC1 then (BitVec.allOnes 64, BitVec.allOnes 64)
  else g.refs.getD (row - 1024) (0, 0)

def Group.setRef (g : Group) (row : Nat) (v : BitVec 64 × BitVec 64) : Group :=
  if 1024 ≤ row && row < rC0 then { g with refs := g.refs.set (row - 1024) v } else g

/-- The majority of three columns, or of whole rows (R336). -/
def maj3 {w : Nat} (x y z : BitVec w) : BitVec w := (x &&& y) ||| (x &&& z) ||| (y &&& z)

/-- The majority of three-valued bits (R364). -/
def majRef (x y z : BitVec 64 × BitVec 64) : BitVec 64 × BitVec 64 :=
  let agree (p q : BitVec 64 × BitVec 64) : BitVec 64 := p.1 &&& q.1 &&& ~~~(p.2 ^^^ q.2)
  let k := agree x y ||| agree x z ||| agree y z
  (k, maj3 x.2 y.2 z.2 &&& k)

/-- What a row op is expected to leave in the reference columns, and the rows it leaves it in. -/
def Group.expect (g : Group) : RowOp → (BitVec 64 × BitVec 64) × List Nat
  | .cp d s => (g.ref s, [d])
  | .inv d s => (((g.ref s).1, ~~~(g.ref s).2 &&& (g.ref s).1), [d])
  | .maj x y z => (majRef (g.ref x) (g.ref y) (g.ref z), [x, y, z])
  | .shl d s _ => (g.ref s, [d])
  | .shr d s _ => (g.ref s, [d])
  | .read r => (g.ref r, [])
  | _ => ((0, 0), [])

/-- The contents of a row of a subarray. -/
def State.rowVal (s : State) (sub row : Nat) : Row :=
  if row < 1024 then s.rawRow sub row
  else if row = rC0 then 0
  else if row = rC1 then BitVec.allOnes 8192
  else (s.comp.get {} sub).rows.getD (row - 1024) 0

/-- A row of a subarray written (R337); a data row becomes unchecked (R357). -/
def State.setRowVal (s : State) (sub row : Nat) (x : BitVec 128) (v : Row) : State :=
  if row < 1024 then
    let s := s.setRow sub row x v
    { s with unchecked := s.unchecked.set false (rowPa sub row / 1024) true }
  else if row < rC0 then
    let c := s.comp.get {} sub
    { s with comp := s.comp.set {} sub { c with rows := c.rows.set (row - 1024) v } }
  else s

/-- A free value for a row. -/
def State.freshRow (s : State) : Row × State := (Config.freeRow s.freeCtr, { s with freeCtr := s.freeCtr + 1 })

/-- A regeneration (R357): the row's check bits are those of its data, and it is checked again. -/
def State.regenerate (s : State) (sub row : Nat) : State :=
  let pa := rowPa sub row
  { s with unchecked := s.unchecked.set false (pa / 1024) false
           errs := s.errs.filter fun (k, _) => k / 64 ≠ pa / 1024 }

/-- A row op in one subarray; a subarray whose margin failed holds free values in what it writes (R365). -/
def State.rowOp (s : State) (sub : Nat) (x : BitVec 128) (bad : Bool) (op : RowOp) : State :=
  let put (rows : List Nat) (v : Row) : State :=
    rows.foldl (fun s r =>
      if bad then
        let f := s.freshRow
        f.2.setRowVal sub r x f.1
      else s.setRowVal sub r x v) s
  match op with
  | .cp d r => put [d] (s.rowVal sub r)
  | .inv d r => put [d] (~~~ s.rowVal sub r)
  | .maj a b c => put [a, b, c] (maj3 (s.rowVal sub a) (s.rowVal sub b) (s.rowVal sub c))
  | .shl d r c => put [d] (s.rowVal sub r <<< c)
  | .shr d r c => put [d] (s.rowVal sub r >>> c)
  | .regen r => s.regenerate sub r
  | _ => s

/-- Six free values in the compute rows of a subarray (R338). -/
def State.freeCompute (s : State) (sub : Nat) : State :=
  { s with comp := s.comp.set {} sub ⟨(List.range 6).map fun i => Config.freeRow (s.freeCtr + i)⟩
           freeCtr := s.freeCtr + 6 }

/-- The index among a command's row ops of the one in a slot: regenerations are none (R354, R358, R365). -/
def Work.rowOpIndex (w : Work) (pos : Nat) : Nat :=
  (w.program.take pos).countP fun op => match op with
    | .regen _ => false
    | _ => true

/-- The slot of a group: the row op in every subarray, the margin errors of the subarrays `fail` (R364), and the
expected reference bits after it. `fail` names subarrays whose sensed reference bits differed; a mismatch counts
only where an expected bit is known. -/
def State.groupSlot (s : State) (o : EngineOp) (g : Group) (fail : List Nat) (op : RowOp) : State × EngineOp × Group :=
  let e := g.expect op
  let hit := if e.1.1 = 0 then [] else g.subs.filter fun x => fail.contains x
  let new := (hit.filter fun x => !o.margins.any fun m => m.1 = x).map fun x => (x, o.work.rowOpIndex g.pos)
  let o := { o with margins := o.margins ++ new }
  let s := g.subs.foldl (fun s x => s.rowOp x o.work.xseg (o.margins.any fun m => m.1 = x) op) s
  (s, o, { e.2.foldl (fun g r => g.setRef r e.1) g with pos := g.pos + 1 })

/-! ### Calibration -/

/-- Consecutive settings from a list of passes: the longest run as its first setting and its length. -/
def longestRun (l : List Bool) : Nat × Nat :=
  let rec go (i start len : Nat) (best : Nat × Nat) : List Bool → Nat × Nat
    | [] => best
    | b :: t =>
      if b then
        let start := if len = 0 then i else start
        let best := if best.2 < len + 1 then (start, len + 1) else best
        go (i + 1) start (len + 1) best t
      else go (i + 1) start 0 best t
  go 0 0 0 (0, 0) l

/-- The failures that a sweep observed, as the check path reports them: for each one
`(subarray × 16 + setting) × 129 + x`, where x is a segment of data columns, or 128 for the reference columns. -/
def sweepFails (fails : List Nat) (sub setting x : Nat) : Bool := fails.contains ((sub * 16 + setting) * 129 + x)

/-- The setting passes in every column of a subarray. -/
def settingPasses (fails : List Nat) (sub setting : Nat) : Bool :=
  !((List.range 129).any fun x => sweepFails fails sub setting x)

/-- The choice and the reports of one calibration group of a bank (R366); `say` raises a report. -/
def State.calibrate (s : State) (bank : Nat) (subs : List Nat) (say : Report → State → State) (fails : List Nat) : State :=
  let full := longestRun ((List.range 16).map fun k => subs.all fun x => settingPasses fails x k)
  let ref := longestRun ((List.range 16).map fun k => subs.all fun x => !sweepFails fails x k 128)
  let run := if full.2 = 0 then ref else full
  let k := run.1 + (run.2 - 1) / 2
  let s := { s with sense := s.sense.set 7 (subs.headD 0 / 8) k }
  subs.foldl (fun s x =>
    let r : Report := { kind := 4, bank := bank % 512, sub := x % 128 }
    let mine := longestRun ((List.range 16).map fun k => settingPasses fails x k)
    let s := if mine.2 < 3 then say r s else s
    (List.range 128).foldl (fun s j =>
      if sweepFails fails x k j then say { r with kind := 5, seg := j } s else s) s) s

/-! ### Bank queues -/

/-- The group at the head of a bank's FIFO (R334, R335): the first one of the bank in the order of acceptance. A bank keeps
it open until it closes. -/
def State.bankHead (s : State) (bank : Nat) : Option (EngineOp × Group) :=
  s.ops.findSome? fun o => if o.held then none else (o.groups.find? fun g => g.bank = bank).map fun g => (o, g)

/-- A group put back, or dropped when it closes. -/
def EngineOp.putGroup (o : EngineOp) (g : Group) : EngineOp :=
  { o with groups := o.groups.map fun x => if x.subs = g.subs then g else x }
def EngineOp.dropGroup (o : EngineOp) (g : Group) : EngineOp :=
  { o with groups := o.groups.filter fun x => x.subs ≠ g.subs }

/-- The margin reports of a group that closes, and free values in the data rows that a failing subarray wrote
(R365). -/
def State.closeMargins (s : State) (o : EngineOp) (g : Group) : State :=
  (o.margins.filter fun m => g.subs.contains m.1).foldl (fun s m =>
    let s := s.opReport (g.bank / 512) o
      { kind := 1, tag := o.tag.toNat, bank := g.bank % 512, sub := m.1 % 128, index := m.2 }
    (risingSet (o.work.program.filterMap RowOp.writes)).foldl (fun s r =>
      let f := s.freshRow
      f.2.setRow m.1 r o.work.xseg f.1) s) s

/-! ### Issue -/

/-- Two regions of one shape (R340). -/
def Desc.sameShape (a b : Desc) : Bool :=
  a.vbase = b.vbase && a.npage = b.npage && a.stack = b.stack && a.order = b.order && a.xseg = b.xseg

/-- The source kinds that an instruction allows (R341). -/
def PlaneOp.kindOk (op : PlaneOp) (d : Desc) : Bool :=
  match op with
  | .add => d.kind ≠ 2
  | .sub => d.kind ≠ 2
  | .cmp => d.kind ≠ 2
  | .shl => d.kind ≠ 2
  | .shr => d.kind ≠ 2
  | .mul => d.kind = 1
  | _ => true

/-- The operand roles of R339: whether `ga` and `gb` name descriptors, and whether a selector follows. -/
def PlaneOp.hasA : PlaneOp → Bool
  | .fill => false
  | _ => true
def PlaneOp.hasB : PlaneOp → Bool
  | .add => true
  | .sub => true
  | .mul => true
  | .cmp => true
  | .and => true
  | .or => true
  | .xor => true
  | .sel => true
  | _ => false

/-- A further descriptor, if the instruction has it. -/
def State.readDescIf (s : State) (c : Bool) (va : Word) (d : Desc) : Res Desc :=
  if c then s.readDesc va .read else .ok d s

/-- Issue of a plane instruction of width `w` (R340 to R342): the command that the fountain receives. -/
def State.issuePlane (s : State) (op : PlaneOp) (w : Nat) (gd ga gb : Word) : Res Work :=
  (s.readDesc gd .write).bind fun d s =>
  (s.readDescIf op.hasA ga d).bind fun a s =>
  (s.readDescIf op.hasB gb d).bind fun b s =>
  (s.readDescIf (op = .sel) (gb + 64) d).bind fun sel s =>
    let bad := !(d.sameShape a) || !(d.sameShape b) || !(d.sameShape sel) || (op.hasA && !op.kindOk a) ||
      (op.hasB && !op.kindOk b) || d.width < w || (op = .mul && d.width < a.width + w) ||
      (op = .sel && sel.width ≠ 1)
    if bad then .trap causeDescriptor gd s
    else .ok (.plane op w { d with at_ := gd } a b sel gb) s

/-- Issue of a `pprog` whose words have passed the checks of R197 (R354). Two points are the model's choice: a block that
names no data row has 0 as its largest code (log entry 90), and the region's pages need W alone (log entry 91). -/
def State.issueProg (s : State) (gd base : Word) (words : List (BitVec 32)) : Res Work :=
  (s.readDesc gd .write).bind fun d s =>
    let top := (words.filterMap decodeWord).foldl (fun m i => max m (codesOf i)) 0
    if 1023 < base.toNat + top then .trap causeDescriptor gd s else .ok (.pprog d base.toNat words) s
where
  code (c : BitVec 5) : Nat := if c.toNat < 24 then c.toNat else 0
  codesOf : Instr → Nat
    | .rowcp d r => max (code d) (code r)
    | .rownot d r => max (code d) (code r)
    | .rowmaj x y z => max (code x) (max (code y) (code z))
    | .rowshl d r _ => max (code d) (code r)
    | .rowshr d r _ => max (code d) (code r)
    | _ => 0

/-- The groups that a command enters in the banks' FIFOs. -/
def Work.groups : Work → List Group
  | .plane _ _ d _ _ _ _ => cutGroups d.subs
  | .pprog d _ _ => cutGroups d.subs
  | .pcal d => cutGroups (calSubs d.subs)
  | .plant d _ _ _ _ _ _ => cutGroups d.subs
  | .fold d _ _ _ _ _ _ => cutGroups d.subs
  | _ => []

end Sys2Proof.Machine
end

