-- ==== Sys2Proof/Machine/ScalarMem.lean ====
section
/-! DEFINITION. Scalar loads and stores (R317 to R319), the scalar link (R412, R413), and vitrine accession (R417 to
R421). -/
namespace Sys2Proof.Machine
open Sys2Proof

/-- The checks of R319 in order: the address bits, the alignment, then translation and permission. -/
def State.locate (s : State) (va : Word) (n : Nat) (k : Access) : Res Place :=
  if va.extractLsb' 48 16 ≠ 0 then .trap causeTranslation va s
  else if va.toNat % n ≠ 0 then .trap causeMisaligned va s
  else s.translate va k

/-- The address of a scalar access (R318). -/
def State.dispAddr (s : State) (a : BitVec 5) (disp : BitVec 12) : Word := s.getG a + disp.signExtend 64

/-- What a load of `n` bytes puts in its register (R318). -/
def loadWord (n : Nat) (signed : Bool) (v : Nat) : Word :=
  if signed then sextTo (8 * n) (BitVec.ofNat 64 v) else BitVec.ofNat 64 v

/-- The end of a scalar load (R314, R315): an expired row reads as 0 and sets EXPS, and traps under EXPTE. -/
def State.deliver (s : State) (d : BitVec 5) (va v : Word) (exp : Bool) : State :=
  if exp then
    let s := s.modSelf fun t => { t with exps := true }
    if s.self.expte then s.trapHere causeExpired va else s.dropOnce.result d 0
  else s.dropOnce.result d v

/-- A scalar load of `n` bytes (R318, R319). -/
def State.load (n : Nat) (signed : Bool) (d a : BitVec 5) (disp : BitVec 12) (s : State) : State :=
  let va := s.dispAddr a disp
  ((s.locate va n .read).bind fun p s => s.readAt p va n).finish false fun v s =>
    s.deliver d va (loadWord n signed v.1) v.2

/-- A scalar store of the low `n` bytes of a register (R318, R319). -/
def State.store (n : Nat) (d a : BitVec 5) (disp : BitVec 12) (s : State) : State :=
  let va := s.dispAddr a disp
  let v := (s.getG d).toNat % 256 ^ n
  ((s.locate va n .write).bind fun p s => s.storeAt va p n v).finish true fun _ s => s.advance

def execLdB (d a : BitVec 5) (e : BitVec 12) (s : State) : Result := .next (s.load 1 true d a e)
def execLdBn (d a : BitVec 5) (e : BitVec 12) (s : State) : Result := .next (s.load 1 false d a e)
def execLdH (d a : BitVec 5) (e : BitVec 12) (s : State) : Result := .next (s.load 2 true d a e)
def execLdHn (d a : BitVec 5) (e : BitVec 12) (s : State) : Result := .next (s.load 2 false d a e)
def execLdW (d a : BitVec 5) (e : BitVec 12) (s : State) : Result := .next (s.load 4 true d a e)
def execLdWn (d a : BitVec 5) (e : BitVec 12) (s : State) : Result := .next (s.load 4 false d a e)
def execLdD (d a : BitVec 5) (e : BitVec 12) (s : State) : Result := .next (s.load 8 false d a e)
def execStB (d a : BitVec 5) (e : BitVec 12) (s : State) : Result := .next (s.store 1 d a e)
def execStH (d a : BitVec 5) (e : BitVec 12) (s : State) : Result := .next (s.store 2 d a e)
def execStW (d a : BitVec 5) (e : BitVec 12) (s : State) : Result := .next (s.store 4 d a e)
def execStD (d a : BitVec 5) (e : BitVec 12) (s : State) : Result := .next (s.store 8 d a e)

/-- gl (R412): ld.d that sets the scalar link to the line of its address. -/
def execGl (d a : BitVec 5) (e : BitVec 12) (s : State) : Result :=
  let va := s.dispAddr a e
  .next (((s.locate va 8 (.link false)).bind fun p s =>
      (s.readLinked p va 8 [linkName s.cur]).bind fun v s => .ok (p, v) s).finish false fun x s =>
    (s.modSelf fun t => { t with slink := some x.1.line }).deliver d va (loadWord 8 false x.2.1) x.2.2)

/-- sc (R413): the check of the link and the store at one point; the link is gone after it. -/
def execSc (d a b : BitVec 5) (s : State) : Result :=
  let va := s.getG a
  let v := (s.getG b).toNat
  let done (ok : Bool) (s : State) : State := (s.modSelf fun t => { t with slink := none }).result d (boolWord ok)
  .next (((s.locate va 8 (.link true)).bind fun p s =>
      if s.self.slink ≠ some p.line then .ok false s
      else
        match p with
        | .peer dv pa _ _ =>
          s.askOwners [(dv, 1, fun tok => .homeCommand (BitVec.ofNat 52 (pa / 64 * 64)) 0 4 8
            (bytesOf (lineData pa 8 v).toNat 64 ++ bytesOf (lineMask pa 8).toNat 8) (linkName s.cur) tok)] [(va, p)]
            fun ans s => .ok (ans.any fun e => e.2.1 = 1) (s.forgetPeer [(dv, pa / 64)])
        | p => (s.storeAt va p 8 v).bind fun _ s => .ok true s).finish true done)

/-- What a command on a vitrine page answers: a cause or 0, and a value. -/
structure Accession where
  cause : BitVec 8
  value : Word
  deriving DecidableEq, Repr

/-- An append of bytes at alignment `n`, performed at the home (R418, R419). -/
def State.accede (s : State) (pa : Nat) (gen : BitVec 16) (n : Nat) (data : List Byte) : Accession × State :=
  let f := pa / 65536
  let fr := s.frame f
  if fr.gen ≠ gen || fr.state = 0 then (⟨causeStaleCast, 0⟩, s)
  else if fr.state = 2 then (⟨causeSealed, 0⟩, s)
  else
    let p := (fr.ptr + n - 1) / n * n
    if 65536 < p + data.length then (⟨0, BitVec.allOnes 64⟩, s)
    else
      (⟨0, BitVec.ofNat 64 p⟩,
        (s.writeList (f * 65536 + fr.ptr) (List.replicate (p - fr.ptr) 0 ++ data)).setFrame f
          { fr with ptr := p + data.length })

/-- seal at the home (R420). -/
def State.sealFrame (s : State) (pa : Nat) (gen : BitVec 16) : Accession × State :=
  let f := pa / 65536
  let fr := s.frame f
  if fr.gen ≠ gen || fr.state = 0 then (⟨causeStaleCast, 0⟩, s) else (⟨0, 0⟩, s.setFrame f { fr with state := 2 })

/-- The word that sealq reads (R421). -/
def sealWord (isSealed : Bool) (ptr : Nat) : Word :=
  BitVec.ofNat 64 ((if isSealed then 2 ^ 63 else 0) + ptr % 2 ^ 17)

/-- sealq at the home (R421). -/
def State.querySeal (s : State) (pa : Nat) (gen : BitVec 16) : Accession × State :=
  let fr := s.frame (pa / 65536)
  if fr.gen ≠ gen || fr.state = 0 then (⟨causeStaleCast, 0⟩, s) else (⟨0, sealWord (fr.state = 2) fr.ptr⟩, s)

/-- A command on the vitrine page that an address names, at its home or at the owner's: `f` here, `op` of `n` and
`data` there. -/
def State.vitrineCommand (s : State) (va : Word) (p : Place) (op n : Nat) (data : List Byte)
    (f : Nat → BitVec 16 → State → Accession × State) : Res Word :=
  let answer (a : Accession) (s : State) : Res Word :=
    if a.cause = 0 then .ok a.value s
    else .trap a.cause (if a.cause = causeSealed then va &&& ~~~(0xFFFF : Word) else va) s
  match p with
  | .vitrine pa gen => let r := f pa gen s; answer r.1 r.2
  | .peer dv pa _ gen =>
    s.askOwners [(dv, 1, fun tok => .homeCommand (BitVec.ofNat 52 pa) gen op n data 0 tok)] [(va, p)] fun ans s =>
      match ans.find 0 with
      | some (v, c) => answer ⟨c, v⟩ s
      | none => answer ⟨causeAccess, 0⟩ s
  | _ => .trap causeAccess va s

/-- apnd (R418). -/
def execApnd (d a b : BitVec 5) (z : BitVec 2) (s : State) : Result :=
  let va := s.getG a
  let n := 2 ^ z.toNat
  let data := bytesOf (s.getG b).toNat n
  .next (((s.translate va .append).bind fun p s =>
      s.vitrineCommand va p 0 n data fun pa gen s => s.accede pa gen n data).finish true fun v s => s.result d v)

/-- seal (R420). -/
def execSeal (a : BitVec 5) (s : State) : Result :=
  let va := s.getG a
  .next (((s.translate va .append).bind fun p s =>
      s.vitrineCommand va p 1 0 [] fun pa gen s => s.sealFrame pa gen).finish true fun _ s => s.advance)

/-- The cast, if any, that answers a sealq of the running strand (R421). -/
def State.castFor (s : State) (p : Place) : Option Cast :=
  match p with
  | .vitrine pa gen => if paBasin pa = s.myBasin then none else s.findCast s.myBasin none (pa / 65536) gen
  | .peer dv pa true gen => s.findCast s.myBasin (some dv) (pa / 65536) gen
  | _ => none

/-- sealq (R421). -/
def execSealq (d a : BitVec 5) (s : State) : Result :=
  let va := s.getG a
  .next (((s.translate va .query).bind fun p s =>
      match s.castFor p with
      | some c => .ok (sealWord true c.ptr) s
      | none => s.vitrineCommand va p 2 0 [] fun pa gen s => s.querySeal pa gen).finish false fun v s => s.result d v)

end Sys2Proof.Machine
end

