-- ==== Sys2Proof/Machine/VecPlan.lean ====
section
/-! DEFINITION. What the vector instructions of majors 0x21 to 0x2A do to the registers of a strand (R253 to R270).
Each is a function from the environment it captured and the strand to the strand after it. -/
namespace Sys2Proof.Machine
open Sys2Proof

/-- The unsigned codes of R42 have bit 2 set. -/
def tyUnsigned (t : BitVec 3) : Bool := t.getLsbD 2

/-- Element `i` of a register under a type code: S for an i code, N for an n code. -/
def tyVal (t : BitVec 3) (x : VReg) (i : Nat) : Int := intValue (tyUnsigned t) (iwidth t) (elem x (iwidth t) i)

/-! ### Masks (R254) -/

/-- A mask instruction acts on positions 0 to VN − 1 and has no execution mask. -/
def VEnv.all (e : VEnv) : KReg :=
  match e.mask with
  | some g => lowMask e.vn &&& g
  | none => lowMask e.vn

def maskOp (d a b : BitVec 3) (f : Bool → Bool → Bool) (e : VEnv) (t : Strand) : Strand :=
  let x := t.getK e.vn a
  let y := t.getK e.vn b
  e.kdest t e.all d fun i => f (x.getLsbD i) (y.getLsbD i)

def maskSet (d : BitVec 3) (a : BitVec 5) (e : VEnv) (t : Strand) : Strand :=
  e.kdest t e.all d fun i => i < (e.getG a).toNat

def maskShl (d a : BitVec 3) (n : Nat) (e : VEnv) (t : Strand) : Strand :=
  let x := t.getK e.vn a
  e.kdest t e.all d fun i => n ≤ i && x.getLsbD (i - n)

def maskShr (d a : BitVec 3) (n : Nat) (e : VEnv) (t : Strand) : Strand :=
  let x := t.getK e.vn a
  e.kdest t e.all d fun i => i + n < e.vn && x.getLsbD (i + n)

/-- kpop (R254). -/
def maskPop (d : BitVec 5) (a : BitVec 3) (e : VEnv) (t : Strand) : Strand :=
  t.setG d (BitVec.ofNat 64 (e.count (t.getK e.vn a)))

/-- kfirst (R254): all ones when no bit is set. -/
def maskFirst (d : BitVec 5) (a : BitVec 3) (e : VEnv) (t : Strand) : Strand :=
  let x := t.getK e.vn a
  t.setG d (match (List.range e.vn).find? fun i => x.getLsbD i with
    | some i => BitVec.ofNat 64 i
    | none => BitVec.allOnes 64)

/-! ### Integer (R256 to R261) -/

/-- A three-operand integer form on w-bit patterns A, B and D, giving an exact integer that wraps (R256). -/
def intOp (d a b : BitVec 5) (k t : BitVec 3) (f : Nat → Nat → Nat → Nat → Int) (e : VEnv) (s : Strand) : Strand :=
  let w := iwidth t
  let x := s.getV a
  let y := s.getV b
  let z := s.getV d
  s.vmap e.vn (e.act s k) d w fun i => ⟨wrapNat (f w (elem x w i) (elem y w i) (elem z w i)) w, 0, false⟩

/-- A one-operand integer form. -/
def intOp1 (d a : BitVec 5) (k t : BitVec 3) (f : Nat → Nat → Int) (e : VEnv) (s : Strand) : Strand :=
  let w := iwidth t
  let x := s.getV a
  s.vmap e.vn (e.act s k) d w fun i => ⟨wrapNat (f w (elem x w i)) w, 0, false⟩

/-- Saturating add and subtract (R257). -/
def satOp (d a b : BitVec 5) (k t : BitVec 3) (f : Int → Int → Int) (e : VEnv) (s : Strand) : Strand :=
  let w := iwidth t
  let x := s.getV a
  let y := s.getV b
  s.vmap e.vn (e.act s k) d w fun i =>
    let r := saturate (tyUnsigned t) w (f (tyVal t x i) (tyVal t y i))
    ⟨wrapNat r.1 w, 0, r.2⟩

/-- vadc and vsbc (R258): every element below VN, the carry mask read and written. -/
def carryOp (d a b : BitVec 5) (k t : BitVec 3) (sub : Bool) (e : VEnv) (s : Strand) : Strand :=
  let w := iwidth t
  let x := s.getV a
  let y := s.getV b
  let c := Table.get 0 s.k k.toNat
  let r (i : Nat) : Int :=
    let cin : Int := if c.getLsbD i then 1 else 0
    if sub then (elem x w i : Int) - elem y w i - cin else (elem x w i : Int) + elem y w i + cin
  let s' := s.vmap e.vn (lowMask e.vn) d w fun i => ⟨wrapNat (r i) w, 0, false⟩
  s'.setK k (packK ((List.range e.vn).map fun i => r i < 0 || ((2 ^ w : Nat) : Int) ≤ r i))

/-- vmerge (R261): every element below VN; in a `vissue`, the issue mask alone limits what is written (R297). -/
def mergeOp (d a b : BitVec 5) (k t : BitVec 3) (e : VEnv) (s : Strand) : Strand :=
  let w := iwidth t
  let x := s.getV a
  let y := s.getV b
  let m := s.getK e.vn k
  s.vmap e.vn e.all d w fun i => ⟨if m.getLsbD i then elem y w i else elem x w i, 0, false⟩

/-- vsext and vzext (R261). -/
def extendOp (d a : BitVec 5) (src k t : BitVec 3) (sign : Bool) (e : VEnv) (s : Strand) : Strand :=
  let w := iwidth t
  let ws := iwidth src
  let x := s.getV a
  s.vmap e.vn (e.act s k) d w fun i =>
    ⟨if sign then wrapNat (signedOf (elem x ws i) ws) w else elem x ws i, 0, false⟩

/-- vnarrow (R260). -/
def narrowOp (d a : BitVec 5) (src k t : BitVec 3) (sat : Bool) (e : VEnv) (s : Strand) : Strand :=
  let w := iwidth t
  let x := s.getV a
  s.vmap e.vn (e.act s k) d w fun i =>
    let v := tyVal src x i
    if sat then
      let r := saturate (tyUnsigned t) w v
      ⟨wrapNat r.1 w, 0, r.2⟩
    else ⟨wrapNat v w, 0, false⟩

/-- vcmp (R259). -/
def cmpOp (d : BitVec 3) (a b : BitVec 5) (k t : BitVec 3) (f : Nat → Nat → Nat → Bool) (e : VEnv) (s : Strand) :
    Strand :=
  let w := iwidth t
  let x := s.getV a
  let y := s.getV b
  e.kdest s (e.act s k) d fun i => f w (elem x w i) (elem y w i)

/-- The number of zero bits above the highest one bit of a w-bit pattern (R256). -/
def clzW (w n : Nat) : Nat := if n = 0 then w else w - 1 - n.log2

/-- Popc of a w-bit pattern (R256). -/
def popW (w n : Nat) : Nat := VEnv.count.popFrom n w

/-! ### Floating point (R262 to R265) -/

def floatOp (d a b : BitVec 5) (k t : BitVec 3) (f : FFmt → Nat → FVal → FVal → FVal → Nat × FFlags) (e : VEnv)
    (s : Strand) : Strand :=
  let fm := FFmt.ofCode t.toNat
  let w := fm.width
  let x := s.getV a
  let y := s.getV b
  let z := s.getV d
  s.vmap e.vn (e.act s k) d w fun i =>
    let r := f fm e.cap.rm (fm.read (elem x w i)) (fm.read (elem y w i)) (fm.read (elem z w i))
    ⟨r.1, r.2, false⟩

def floatOp1 (d a : BitVec 5) (k t : BitVec 3) (f : FFmt → Nat → FVal → Nat × FFlags) (e : VEnv) (s : Strand) : Strand :=
  let fm := FFmt.ofCode t.toNat
  let w := fm.width
  let x := s.getV a
  s.vmap e.vn (e.act s k) d w fun i =>
    let r := f fm e.cap.rm (fm.read (elem x w i))
    ⟨r.1, r.2, false⟩

def floatMinMax (wantMax : Bool) (d a b : BitVec 5) (k t : BitVec 3) (e : VEnv) (s : Strand) : Strand :=
  let fm := FFmt.ofCode t.toNat
  let w := fm.width
  let x := s.getV a
  let y := s.getV b
  s.vmap e.vn (e.act s k) d w fun i =>
    let r := fm.minMax wantMax (elem x w i) (elem y w i)
    ⟨r.1, r.2, false⟩

/-- 2^(2^−j) in fixed point with 400 fraction bits, rounded down. -/
def rootOfTwo : Nat → Nat
  | 0 => 2 ^ 401
  | j + 1 => isqrt (rootOfTwo j * 2 ^ 400)

/-- The product of 2^(2^−j) over the set bits of a fraction of `n` bits, bit `n − j` standing for 2^−j. -/
def powFrac (frac n : Nat) : Nat :=
  let rec go : Nat → Nat
    | 0 => 2 ^ 400
    | j + 1 =>
      let r := go j
      if frac / 2 ^ (n - (j + 1)) % 2 = 1 then r * rootOfTwo (j + 1) / 2 ^ 400 else r
  go n

/-- vfexp2 (R264): exact for an integer operand, else the fixed-point product with a sticky part (log entry 11). -/
def FFmt.exp2 (f : FFmt) (x : FVal) : Nat × FFlags :=
  match x with
  | .nan s => f.nanOf s
  | .inf n => (if n then f.zero false else f.inf false, 0)
  | .fin n m e =>
    if m = 0 then f.round 0 false 1 0
    else if 0 ≤ e then
      let k : Int := signed n (m * 2 ^ (min e 20).toNat)
      f.round 0 false 1 (max (-5000) (min 5000 k))
    else
      let c := (-e).toNat
      let v : Int := signed n m
      let fl : Int := v / ((2 ^ c : Nat) : Int)
      let frac := (v - fl * ((2 ^ c : Nat) : Int)).toNat
      let fl' := max (-5000) (min 5000 fl)
      if frac = 0 then f.round 0 false 1 fl'
      else f.round 0 false (powFrac frac c) (fl' - 400) true

/-- vfrsqrt (R264). -/
def FFmt.rsqrt (f : FFmt) (x : FVal) : Nat × FFlags :=
  match x with
  | .nan s => f.nanOf s
  | .inf n => if n then (f.nan, flagNV) else (f.zero false, 0)
  | .fin n m e =>
    if m = 0 then (f.inf n, flagDZ)
    else if n then (f.nan, flagNV)
    else
      let e' : Int := if e % 2 = 0 then e else e - 1
      let m' := if e % 2 = 0 then m else 2 * m
      let k := 80 + m'.log2
      let r := isqrt (2 ^ (2 * k) / m')
      f.round 0 false r (-(k : Int) - e' / 2) (r * r * m' ≠ 2 ^ (2 * k))

/-- vfcmp (R263): ne holds exactly when eq does not. -/
def fcmpOp (d : BitVec 3) (a b : BitVec 5) (k t : BitVec 3) (pred : Nat) (neg : Bool) (e : VEnv) (s : Strand) : Strand :=
  let fm := FFmt.ofCode t.toNat
  let w := fm.width
  let x := s.getV a
  let y := s.getV b
  let act := e.act s k
  let r (i : Nat) := fm.compare pred (elem x w i) (elem y w i)
  (e.kdest s act d fun i => (r i).1 != neg).orFlags (actFlags e.vn act fun i => ⟨0, (r i).2, false⟩)

/-- vfcvt, float to float (R265). -/
def cvtFF (d a : BitVec 5) (src : BitVec 2) (k t : BitVec 3) (e : VEnv) (s : Strand) : Strand :=
  let fs := FFmt.ofCode src.toNat
  let fd := FFmt.ofCode t.toNat
  let x := s.getV a
  s.vmap e.vn (e.act s k) d fd.width fun i =>
    let r := fd.deliver e.cap.rm (fs.read (elem x fs.width i))
    ⟨r.1, r.2, false⟩

/-- vfcvt, integer to float (R265). -/
def cvtIF (d a : BitVec 5) (src k t : BitVec 3) (e : VEnv) (s : Strand) : Strand :=
  let fd := FFmt.ofCode t.toNat
  let x := s.getV a
  s.vmap e.vn (e.act s k) d fd.width fun i =>
    let r := fd.ofInt e.cap.rm (tyVal src x i)
    ⟨r.1, r.2, false⟩

/-- vfcvt, float to integer (R265). -/
def cvtFI (d a : BitVec 5) (src : BitVec 2) (k t : BitVec 3) (e : VEnv) (s : Strand) : Strand :=
  let fs := FFmt.ofCode src.toNat
  let w := iwidth t
  let x := s.getV a
  s.vmap e.vn (e.act s k) d w fun i =>
    let r := floatToInt e.cap.rm (tyUnsigned t) w (fs.read (elem x fs.width i))
    ⟨wrapNat r.1 w, r.2, false⟩

/-! ### Reductions (R266) -/

/-- The leaves of a reduction: the active elements (R70). -/
def leaves (vn : Nat) (act : KReg) (f : Nat → Nat) : List (Option Elem) :=
  (List.range vn).map fun i => if act.getLsbD i then some ⟨f i, 0, false⟩ else none

/-- A reduction: the tree, the identity when every leaf is absent, and the start value after the root (R72, R73). -/
def reduce (vn : Nat) (act : KReg) (f : Nat → Nat) (step : Elem → Elem → Elem) (identity : Nat) (start : Option Nat) :
    Elem :=
  let r := (treeReduce step (leaves vn act f)).getD ⟨identity, 0, false⟩
  match start with
  | some x => step ⟨x, 0, false⟩ r
  | none => r

/-- An integer reduction step on w-bit patterns: f of the values read under the type, bounded to w bits (R71). -/
def intStep (u : Bool) (w : Nat) (f : Int → Int → Int) (sat : Bool) (a b : Elem) : Elem :=
  let x := f (intValue u w a.val) (intValue u w b.val)
  if sat then
    let r := saturate u w x
    ⟨wrapNat r.1 w, 0, a.sat || b.sat || r.2⟩
  else ⟨wrapNat x w, 0, false⟩

/-- A result of an integer type in a register (R266). -/
def intWord (u : Bool) (w n : Nat) : Word := BitVec.ofInt 64 (intValue u w n)

def redInt (d a gs : BitVec 5) (k t : BitVec 3) (f : Int → Int → Int) (sat : Bool) (identity : Int) (e : VEnv)
    (s : Strand) : Strand :=
  let u := tyUnsigned t
  let w := iwidth t
  let x := s.getV a
  let start := if gs = 0 then none else some ((e.getG gs).toNat % 2 ^ w)
  let r := reduce e.vn (e.act s k) (fun i => elem x w i) (intStep u w f sat) (wrapNat identity w) start
  (s.setG d (intWord u w r.val)).orSat r.sat

/-- vfredsum: each step rounds under the captured mode, and its flags count (R266); a sole operand is delivered as read (R49,
R50). -/
def redFloatSum (d a gs : BitVec 5) (k t : BitVec 3) (e : VEnv) (s : Strand) : Strand :=
  let fm := FFmt.ofCode t.toNat
  let w := fm.width
  let x := s.getV a
  let step (p q : Elem) : Elem :=
    let r := fm.add e.cap.rm (fm.read p.val) (fm.read q.val)
    ⟨r.1, p.fl ||| q.fl ||| r.2, false⟩
  let start := if gs = 0 then none else some ((e.getG gs).toNat % 2 ^ w)
  let r := reduce e.vn (e.act s k) (fun i => elem x w i) step (fm.zero false) start
  let q := fm.delivered r.val
  (s.setG d (BitVec.ofNat 64 q.1)).orFlags (r.fl ||| q.2)

/-- vfredmax: compares as fmax (R266). -/
def redFloatMax (d a gs : BitVec 5) (k t : BitVec 3) (e : VEnv) (s : Strand) : Strand :=
  let fm := FFmt.ofCode t.toNat
  let w := fm.width
  let x := s.getV a
  let step (p q : Elem) : Elem :=
    let r := fm.minMax true p.val q.val
    ⟨r.1, p.fl ||| q.fl ||| r.2, false⟩
  let start := if gs = 0 then none else some ((e.getG gs).toNat % 2 ^ w)
  let r := reduce e.vn (e.act s k) (fun i => elem x w i) step (fm.inf true) start
  let q := fm.delivered r.val
  (s.setG d (BitVec.ofNat 64 q.1)).orFlags (r.fl ||| q.2)

/-! ### Permutations (R267) -/

def slideUp (d a b : BitVec 5) (k t : BitVec 3) (e : VEnv) (s : Strand) : Strand :=
  let w := iwidth t
  let x := s.getV a
  let z := s.getV d
  let n := (e.getG b).toNat
  s.vmap e.vn (e.act s k) d w fun i => ⟨if n ≤ i then elem x w (i - n) else elem z w i, 0, false⟩

def slideDn (d a b : BitVec 5) (k t : BitVec 3) (e : VEnv) (s : Strand) : Strand :=
  let w := iwidth t
  let x := s.getV a
  let n := (e.getG b).toNat
  s.vmap e.vn (e.act s k) d w fun i => ⟨if i + n < e.vn then elem x w (i + n) else 0, 0, false⟩

def permOp (d a b : BitVec 5) (k t : BitVec 3) (e : VEnv) (s : Strand) : Strand :=
  let w := iwidth t
  let x := s.getV a
  let y := s.getV b
  s.vmap e.vn (e.act s k) d w fun i =>
    let j := elem y w i
    ⟨if j < e.vn then elem x w j else 0, 0, false⟩

/-- vcomp (R267): the active elements to the front, the rest kept. -/
def compOp (d a : BitVec 5) (k t : BitVec 3) (e : VEnv) (s : Strand) : Strand :=
  let w := iwidth t
  let x := s.getV a
  let z := s.getV d
  let act := e.act s k
  let src := (List.range e.vn).filter fun i => act.getLsbD i
  s.vmap e.vn (lowMask e.vn) d w fun i =>
    ⟨match src[i]? with
      | some j => elem x w j
      | none => elem z w i, 0, false⟩

/-- vexpand (R267). -/
def expandOp (d a : BitVec 5) (k t : BitVec 3) (e : VEnv) (s : Strand) : Strand :=
  let w := iwidth t
  let x := s.getV a
  let act := e.act s k
  s.vmap e.vn act d w fun i => ⟨elem x w (VEnv.count.popFrom act.toNat i), 0, false⟩

def bcastOp (d a : BitVec 5) (k t : BitVec 3) (e : VEnv) (s : Strand) : Strand :=
  let w := iwidth t
  s.vmap e.vn (e.act s k) d w fun _ => ⟨(e.getG a).toNat % 2 ^ w, 0, false⟩

def extOp (d a b : BitVec 5) (t : BitVec 3) (e : VEnv) (s : Strand) : Strand :=
  let i := (e.getG b).toNat
  s.setG d (if i < e.vn then BitVec.ofInt 64 (tyVal t (s.getV a) i) else 0)

def insOp (d a b : BitVec 5) (t : BitVec 3) (e : VEnv) (s : Strand) : Strand :=
  let w := iwidth t
  let i := (e.getG b).toNat
  if i < e.vn then s.vmap e.vn (1#4096 <<< i) d w fun _ => ⟨(e.getG a).toNat % 2 ^ w, 0, false⟩ else s

/-! ### Quantise and dequantise (R268 to R270) -/

/-- The scale element that element `i` uses (R268). -/
def scaleIndex (bs i : Nat) : Nat := if bs = 0 then 0 else i / bs

/-- vquant of one element: the exact product rounded to an integer under RNE, saturated to the range (R269). -/
def quantElem (lo hi : Int) (code : Int → Nat) (x sc : FVal) : Elem :=
  match x, sc with
  | .nan _, _ => ⟨code 0, flagNV, false⟩
  | _, .nan _ => ⟨code 0, flagNV, false⟩
  | .inf a, .inf b => ⟨code (if a != b then lo else hi), 0, true⟩
  | .inf a, .fin b m _ => if m = 0 then ⟨code 0, flagNV, false⟩ else ⟨code (if a != b then lo else hi), 0, true⟩
  | .fin a m _, .inf b => if m = 0 then ⟨code 0, flagNV, false⟩ else ⟨code (if a != b then lo else hi), 0, true⟩
  | .fin n1 m1 e1, .fin n2 m2 e2 =>
    let q : Int := signed (n1 != n2) (roundAt 0 (n1 != n2) (m1 * m2) (e1 + e2) false 0).1
    if q < lo then ⟨code lo, 0, true⟩ else if hi < q then ⟨code hi, 0, true⟩ else ⟨code q, 0, false⟩

def quantOp (d a b : BitVec 5) (k t : BitVec 3) (wq : Nat) (lo hi : Int) (code : Int → Nat) (e : VEnv) (s : Strand) :
    Strand :=
  let fm := FFmt.ofCode t.toNat
  let w := fm.width
  let x := s.getV a
  let y := s.getV b
  s.vmap e.vn (e.act s k) d wq fun i =>
    quantElem lo hi code (fm.read (elem x w i)) (fm.read (elem y w (scaleIndex e.cap.bs i)))

/-- The tern code of −1, 0 or +1 (R59, R269). -/
def ternCode (q : Int) : Nat := if q = 1 then 1 else if q = -1 then 2 else 0

/-- vdeq: the code's value, a dyadic `m × 2^e`, times its scale, rounded once under RNE (R270). -/
def deqOp (d a b : BitVec 5) (k t : BitVec 3) (wc : Nat) (value : Nat → Int) (exp : Int) (nanBlock : Bool) (e : VEnv)
    (s : Strand) : Strand :=
  let fm := FFmt.ofCode t.toNat
  let w := fm.width
  let x := s.getV a
  let y := s.getV b
  s.vmap e.vn (e.act s k) d w fun i =>
    let v := value (elem x wc i)
    let sc := fm.read (elem y w (scaleIndex e.cap.bs i))
    if nanBlock && sc.isNan then ⟨fm.nan, flagNV, false⟩
    else
      let r := fm.mul 0 (.fin (v < 0) v.natAbs exp) sc
      ⟨r.1, r.2, false⟩

end Sys2Proof.Machine
end

