-- ==== Sys2Proof/Machine/VecMem.lean ====
section
/-! DEFINITION. Vector loads and stores (R320 to R327), `vgl` and `vsc` (R410 to R416) and `vapnd` (R419): every check
before any access, then one snapshot or one point. -/
namespace Sys2Proof.Machine
open Sys2Proof

/-- The active elements, ascending. -/
def actList (vn : Nat) (act : KReg) : List Nat := (List.range vn).filter fun i => act.getLsbD i

/-- The element addresses of R320. -/
inductive Addressing where
  | unit
  | stride (b : BitVec 5)
  | index (v : BitVec 5) (unsigned : Bool)
  deriving DecidableEq, Repr

def VEnv.elemAddr (e : VEnv) (t : Strand) (a : BitVec 5) (m : Addressing) (w i : Nat) : Word :=
  e.getG a + BitVec.ofInt 64
    (match m with
     | .unit => ((i * (w / 8) : Nat) : Int)
     | .stride b => (i : Int) * (e.getG b).toInt
     | .index v u => intValue u 32 (elem (t.getV v) 32 i))

/-- An element that has passed its checks. -/
structure Slot where
  idx : Nat
  va : Word
  place : Place
  deriving DecidableEq, Repr

/-- A miss of the host's translation of a page is the miss of every TLB that the rest of the instruction's elements on that
page go to (R306, R307). -/
def State.missAll (s : State) (f : Nat → Word) (l : List Nat) (w : Await) : Await :=
  match w with
  | .ats units page wr =>
    .ats ((l.filter fun i => (f i).toNat / 4096 = page).foldl (fun us i =>
      let u := s.tlbUnit (f i).toNat
      if us.contains u then us else us ++ [u]) units) page wr
  | w => w

/-- The checks of R321 on the active elements, ascending; a failure notes the element (R452). What has been found stands
while the rest waits. -/
def State.locateAll (s : State) (f : Nat → Word) (n : Nat) (k : Access) : List Nat → Res (List Slot)
  | [] => .ok [] s
  | i :: t =>
    match (s.modSelf fun t => { t with faultElem := i }).locate (f i) n k with
    | .trap c v s => .trap c v s
    | .wait w s => .wait (s.missAll f t w) s
    | .ok p s =>
      match s.locateAll f n k t with
      | .ok l s => .ok (⟨i, f i, p⟩ :: l) s
      | .trap c v s => .trap c v s
      | .wait w s =>
        .wait w (if s.self.placed.any fun e => e.1 = f i then s
          else s.modSelf fun t => { t with placed := (f i, p) :: t.placed })

/-- The places of `vldsp` and `vstsp` (R326): the elements from an offset on in the issuing core's scratchpad, not
translated. -/
def State.locateSpad (s : State) (base : Word) (n : Nat) : List Nat → Res (List Slot)
  | [] => .ok [] s
  | i :: t =>
    let o := base.toNat + i * n
    let s := s.modSelf fun t => { t with faultElem := i }
    if o % n ≠ 0 then .trap causeMisaligned (BitVec.ofNat 64 o) s
    else if spadLimit < o + n then .trap causeAccess (BitVec.ofNat 64 o) s
    else (s.locateSpad base n t).bind fun l s => .ok (⟨i, BitVec.ofNat 64 o, .spad s.myCore o⟩ :: l) s
where
  spadLimit : Nat := 3145728

/-- An element read: its index, its value, and whether its row was expired. -/
structure Got where
  idx : Nat
  val : Nat
  exp : Bool
  deriving DecidableEq, Repr

/-- Every element read (R321). `seen` are the codewords of plane pages that the instruction has read: each is read once
(R357). -/
def State.readElems (s : State) (n : Nat) (seen : List Nat) : List Slot → Res (List Got)
  | [] => .ok [] s
  | x :: t =>
    let cw : Option Nat := match x.place with
      | .plane pa => some (pa / 16)
      | _ => none
    let again : Option Nat := match x.place with
      | .plane pa => if seen.contains (pa / 16) then some (leRead s.fixedByte pa n) else none
      | _ => none
    (match again with
     | some v => Res.ok (v, false) s
     | none => (s.modSelf fun t => { t with faultElem := x.idx }).readAt x.place x.va n).bind fun v s =>
      (s.readElems n (cw.toList ++ seen) t).bind fun l s => .ok (⟨x.idx, v.1, v.2⟩ :: l) s

/-- The lines of peers that a load reads without a lease, each once, with the links of the elements on it when it sets
links (R398, R411, R414). -/
def State.unleasedLines (s : State) (linked : Bool) (l : List Slot) :
    List (BitVec 12 × BitVec 52 × List Nat × Option (BitVec 16)) :=
  l.filterMap fun x =>
    match x.place with
    | .peer dv pa pv gen =>
      let same := l.filter fun y => y.place.line = x.place.line
      let own := s.servedHow dv pa pv gen linked = .unleased || s.peer.any fun p =>
        p.dev = dv && p.line = pa / 64 && p.once = some s.cur
      if own && same.head? = some x then
        some (dv, BitVec.ofNat 52 (pa / 64 * 64), if linked then same.map fun y => vlinkName s.cur y.idx else [],
          if pv then some gen else none)
      else none
    | _ => none

/-- One message for each owner of unleased lines, which serves them at one point (R398). -/
def readMessages (l : List (BitVec 12 × BitVec 52 × List Nat × Option (BitVec 16))) : List PeerMsg :=
  ((l.map (·.1)).eraseDups).map fun dv => (dv, 1, fun tok => .readLines ((l.filter fun e => e.1 = dv).map (·.2)) tok)

/-- A slot at a peer that is served in some way. -/
def State.slotServed (s : State) (linked : Bool) (h : Served) (x : Slot) : Bool :=
  match x.place with
  | .peer dv pa pv gen => s.servedHow dv pa pv gen linked = h
  | _ => false

/-- The lines of peers that a load needs are brought in: first casts and leased copies, then those that their owners serve
without a copy (R322, R398, R405, R436). A line that the fabric failed to serve is an access fault (log entry 30). -/
def State.servePeers (s : State) (linked : Bool) (l : List Slot) : Res Unit :=
  match l.find? (s.slotServed linked .alone) with
  | some x =>
    (match x.place with
     | .peer dv pa pv gen =>
       ((s.dropOnce.modSelf fun t => { t with faultElem := x.idx }).readPeer x.va dv pa pv gen 1).bind fun _ s => .ok () s
     | _ => .ok () s)
  | none =>
    match l.find? (s.slotServed linked .unleased) with
    | some x =>
      (match s.self.answers.find? fun e => e.2.2 ≠ 0 with
       | some (_, _, c) => .trap c x.va (s.modSelf fun t => { t with answers := [], faultElem := x.idx })
       | none =>
         let r := (s.dropOnce.modSelf fun t => { t with answers := [] }).sendAll (readMessages (s.unleasedLines linked l))
         .wait r.2 r.1)
    | none => .ok () (if s.self.answers.isEmpty then s else s.modSelf fun t => { t with answers := [] })

/-- The bytes of plane pages that elements name, by line. -/
def planeBytes (n : Nat) (l : List Slot) : Table (BitVec 512) :=
  l.foldl (fun (t : Table (BitVec 512)) x =>
    match x.place with
    | .plane pa => t.put (pa / 64) (t.get 0 (pa / 64) ||| byteMask pa n)
    | _ => t) []

/-- The demand accesses to lines of rows, where some bank does not serve them at once (R355): the strand waits for them all. -/
def State.needRows (s : State) (l : Table (BitVec 512)) : Res Unit :=
  let missing := l.filter fun e => (s.rowHit (64 * e.1)).isNone
  if missing.all fun e => s.bankIdle (64 * e.1) then .ok () s
  else
    let r := s.askRows (missing.map fun e => (e.1, e.2, none))
    .wait r.2 r.1

/-- The rows of scratchpads that elements name (core and row). -/
def spadRows (l : List Slot) : List (Nat × Nat) :=
  l.filterMap fun x =>
    match x.place with
    | .spad core off => some (core, off / 64)
    | _ => none

/-- Every element read at one point (R321, R398); lines of planes in banks with an open group are read in their slots (R355,
R359; log entry 75). -/
def State.readSlots (s : State) (n : Nat) (l : List Slot) : Res (List Got) :=
  (s.servePeers false l).bind fun _ s => (s.needRows (planeBytes n l)).bind fun _ s =>
    (s.spadWaits s.cur (spadRows l)).readElems n [] l

/-- The value that a load puts in element `i`. -/
def gotVal (l : List Got) (i : Nat) : Nat :=
  match l.find? fun g => g.idx = i with
  | some g => g.val
  | none => 0

/-- The expired elements of a load marked, and the expired-read fault under EXPTE (R314, R315). -/
def State.expiredLoad (s : State) (f : Nat → Word) (l : List Got) : Res Unit :=
  let bad := l.filter fun g => g.exp
  let marks : KReg := bad.foldl (fun m g => m ||| (1#4096 <<< g.idx)) 0
  let s := s.modSelf fun t => { t with expmask := t.expmask ||| marks }
  match bad with
  | [] => .ok () s
  | g :: _ =>
    if s.self.expte then .trap causeExpired (f g.idx) (s.modSelf fun t => { t with faultElem := g.idx }) else .ok () s

/-- A load's register written, and its expired elements (R314, R315). -/
def State.loadDone (s : State) (d : BitVec 5) (w vn : Nat) (act : KReg) (f : Nat → Word) (l : List Got) : Res Unit :=
  (s.dropOnce.modSelf fun t => t.vmap vn act d w fun i => ⟨gotVal l i, 0, false⟩).expiredLoad f l

/-- vld, vlds and vldx (R320, R321). -/
def vload (d a : BitVec 5) (k ty : BitVec 3) (m : Addressing) (e : VEnv) (s : State) : Res Unit :=
  let w := iwidth ty
  let act := e.act s.self k
  let f (i : Nat) : Word := e.elemAddr s.self a m w i
  (s.locateAll f (w / 8) .read (actList e.vn act)).bind fun l s =>
    (s.readSlots (w / 8) l).bind fun got s => s.loadDone d w e.vn act f got

/-- vldsp (R326). -/
def vloadSpad (d a : BitVec 5) (k ty : BitVec 3) (e : VEnv) (s : State) : Res Unit :=
  let w := iwidth ty
  let act := e.act s.self k
  let f (i : Nat) : Word := e.elemAddr s.self a .unit w i
  (s.locateSpad (e.getG a) (w / 8) (actList e.vn act)).bind fun l s =>
    (s.readSlots (w / 8) l).bind fun got s => s.loadDone d w e.vn act f got

/-- What a store first waits for, by its elements ascending. -/
def State.storeWait (s : State) (l : List Slot) : Option Await := l.findSome? fun x => s.writeWait x.place

/-- The places of elements, by address. -/
def placesOf (l : List Slot) : List (Word × Place) := l.map fun x => (x.va, x.place)

/-- The elements at peers, as their writes (R399, R406). -/
def peerWrites (n : Nat) (v : Nat → Nat) (l : List Slot) : List (BitVec 12 × Nat × Nat × Nat) :=
  l.filterMap fun x =>
    match x.place with
    | .peer dv pa _ _ => some (dv, pa, n, v x.idx)
    | _ => none

/-- An element in a plane page. -/
def Slot.inPlane (x : Slot) : Option Nat :=
  match x.place with
  | .plane pa => some pa
  | _ => none

/-- The elements in plane pages, as the writes of their lines. -/
def planeWrites (n : Nat) (v : Nat → Nat) (l : List Slot) : List (Nat × BitVec 512 × BitVec 512) :=
  (lineWrites (l.filterMap fun x => x.inPlane.map fun pa => (pa, n, v x.idx))).map fun e => (e.1, byteBits e.2.2, e.2.1)

/-- The elements written, ascending, at one point (R399); where the bank of a plane page has an open group, the lines of plane
pages are written in their slots instead (R355; log entry 75). -/
def State.writeSlots (s : State) (n : Nat) (v : Nat → Nat) (l : List Slot) : Res Unit :=
  let put (s : State) (l : List Slot) : State :=
    l.foldl (fun s x => s.writeAt x.place n (v x.idx)) (s.spadWaits s.cur (spadRows l))
  if l.all fun x => x.inPlane.all s.bankIdle then .ok () (put s l)
  else (put s (l.filter fun x => x.inPlane.isNone)).writeRows (placesOf l) (planeWrites n v l)

/-- A store of every element, ascending (R321): the peers' group is performed at its owners, then the rest. -/
def State.storeSlots (s : State) (n : Nat) (v : Nat → Nat) (l : List Slot) : Res Unit :=
  if s.rowsWritten then .ok () s
  else
    match s.storeWait l with
    | some w => .wait w s
    | none => s.writePeers (peerWrites n v l) (placesOf l) fun s => s.writeSlots n v l

/-- vst, vsts and vstx (R320, R321). -/
def vstore (d a : BitVec 5) (k ty : BitVec 3) (m : Addressing) (e : VEnv) (s : State) : Res Unit :=
  let w := iwidth ty
  let x := s.self.getV d
  let f (i : Nat) : Word := e.elemAddr s.self a m w i
  (s.locateAll f (w / 8) .write (actList e.vn (e.act s.self k))).bind fun l s =>
    s.storeSlots (w / 8) (fun i => elem x w i) l

/-- vstsp (R326). -/
def vstoreSpad (d a : BitVec 5) (k ty : BitVec 3) (e : VEnv) (s : State) : Res Unit :=
  let w := iwidth ty
  let x := s.self.getV d
  (s.locateSpad (e.getG a) (w / 8) (actList e.vn (e.act s.self k))).bind fun l s =>
    s.storeSlots (w / 8) (fun i => elem x w i) l

/-! ### Links (R414, R415) -/

/-- The elements of `vgl` read; their owners have served the lines of peers, with the links (R411). -/
def State.readLinkedSlots (s : State) (n : Nat) : List Slot → Res (List Got)
  | [] => .ok [] s
  | x :: t =>
    ((s.modSelf fun t => { t with faultElem := x.idx }).readLinked x.place x.va n []).bind fun v s =>
      (s.readLinkedSlots n t).bind fun l s => .ok (⟨x.idx, v.1, v.2⟩ :: l) s

/-- vgl (R414). -/
def vgetLinked (d a v : BitVec 5) (k ty : BitVec 3) (e : VEnv) (s : State) : Res Unit :=
  let w := iwidth ty
  let act := e.act s.self k
  let f (i : Nat) : Word := e.elemAddr s.self a (.index v (tyUnsigned ty)) w i
  (s.locateAll f (w / 8) (.link false) (actList e.vn act)).bind fun l s =>
    (s.servePeers true l).bind fun _ s => (s.readLinkedSlots (w / 8) l).bind fun got s =>
      (s.modSelf fun t => { t with vlinks := l.map fun x => (x.idx, x.place.line) }).loadDone d w e.vn act f got

/-- The elements of `vsc` whose link is intact on the line of their address, one winner for an address (R415). -/
def winners (links : Table Nat) (l : List Slot) : List Slot :=
  let ok := l.filter fun x => links.find x.idx = some x.place.line
  ok.filter fun x => !(ok.any fun y => x.idx < y.idx && x.va = y.va)

/-- The first winner on each line of a peer, owner by owner. -/
def firstsAtPeers (l : List Slot) : List (BitVec 12 × Nat × Slot) :=
  let firsts := l.filterMap fun x =>
    match x.place with
    | .peer dv pa _ _ =>
      if (l.find? fun y => y.place.line = x.place.line) = some x then some (dv, pa / 64 * 64, x) else none
    | _ => none
  ((firsts.map (·.1)).eraseDups).flatMap fun dv => firsts.filter fun e => e.1 = dv

/-- The conditional store of the winners on the line of one of them: its address, data, named bytes and link (R411, R415). -/
def condLine (slot n : Nat) (v : Nat → Nat) (l : List Slot) (pa : Nat) (x : Slot) :
    BitVec 52 × BitVec 512 × BitVec 64 × Nat :=
  let mine := l.filter fun y => y.place.line = x.place.line
  let paOf (y : Slot) : Nat := match y.place with | .peer _ p _ _ => p | _ => 0
  (BitVec.ofNat 52 pa, mine.foldl (fun a y => a ||| lineData (paOf y) n (v y.idx)) 0,
    mine.foldl (fun a y => a ||| lineMask (paOf y) n) 0, vlinkName slot x.idx)

/-- The conditional stores of the winners at peers, one message for each owner (R399, R415). -/
def condStores (slot n : Nat) (v : Nat → Nat) (l : List Slot) : List PeerMsg :=
  let firsts := firstsAtPeers l
  ((firsts.map (·.1)).eraseDups).map fun dv =>
    let mine := firsts.filter fun e => e.1 = dv
    (dv, mine.length, fun tok => .storeLines (mine.map fun e => condLine slot n v l e.2.1 e.2.2) tok)

/-- The lines at which a peer refused its conditional store. -/
def refusedLines (l : List Slot) (ans : Table (Word × BitVec 8)) : List Nat :=
  ((firstsAtPeers l).zipIdx.filter fun e => (ans.find e.2).map (·.1) ≠ some 1).map fun e => e.1.2.2.place.line

/-- vsc (R415): the k field is read as the elements to try and written as those that succeeded. -/
def vstoreCond (d a v : BitVec 5) (k ty : BitVec 3) (e : VEnv) (s : State) : Res Unit :=
  let w := iwidth ty
  let x := s.self.getV d
  let links := s.self.vlinks
  let val (i : Nat) : Nat := elem x w i
  let f (i : Nat) : Word := e.elemAddr s.self a (.index v (tyUnsigned ty)) w i
  (s.locateAll f (w / 8) (.link true) (actList e.vn (e.act s.self k))).bind fun l s =>
    let win := winners links l
    match s.storeWait win with
    | some q => .wait q s
    | none =>
      s.askOwners (condStores s.cur (w / 8) val win) (placesOf l) fun ans s =>
        let lost := refusedLines win ans
        let win := win.filter fun y => !lost.contains y.place.line
        let s := (win.foldl (fun s y => s.writeAt y.place (w / 8) (val y.idx)) s).forgetPeer (win.filterMap fun y =>
          match y.place with
          | .peer dv pa _ _ => some (dv, pa / 64)
          | _ => none)
        .ok () (s.modSelf fun t =>
          { (t.setK k (packK ((List.range e.vn).map fun i => win.any fun y => y.idx = i))) with vlinks := [] })

/-! ### vapnd -/

/-- The active elements of a register as one record (R419). -/
def recordBytes (x : VReg) (w : Nat) (l : List Nat) : List Byte := l.flatMap fun i => bytesOf (elem x w i) (w / 8)

/-- vapnd (R419). -/
def vappend (d a r : BitVec 5) (k ty : BitVec 3) (e : VEnv) (s : State) : Res Unit :=
  let w := iwidth ty
  let l := actList e.vn (e.act s.self k)
  let data := recordBytes (s.self.getV d) w l
  let va := e.getG a
  if l.isEmpty then .ok () (s.setG r (BitVec.allOnes 64))
  else
    ((s.modSelf fun t => { t with faultElem := l.headD 0 }).translate va .append).bind fun p s =>
      (s.vitrineCommand va p 0 (w / 8) data fun pa gen s => s.accede pa gen (w / 8) data).bind fun v s =>
        .ok () (s.setG r v)

/-! ### Plane transfers (R327) -/

/-- A byte of a row as the running instruction's demand access has read it, or as one reads it now (R355, R357). -/
def State.rowByte (s : State) (pa : Nat) : Byte :=
  match s.rowHit pa with
  | some r => lineByte r.1 (pa % 64)
  | none => s.fixedByte pa

/-- The integer that the planes of an element hold (R57, R327). -/
def State.planeValue (s : State) (d : Desc) (e : Nat) : Int :=
  let c := d.place e
  let bit (p : Nat) : Nat := if (s.rowByte (rowPa c.1 (c.2.1 + p) + c.2.2 / 8)).getLsbD (c.2.2 % 8) then 1 else 0
  if d.kind = 2 then (bit 0 : Int) - bit 1
  else
    let n := (List.range d.width).foldl (fun a p => a + bit p * 2 ^ p) 0
    if d.kind = 1 then n else signedOf n d.width

/-- The bits that a value has in the planes of an element (R59, R327). -/
def planeBits (d : Desc) (x : Int) : List Bool :=
  if d.kind = 2 then [0 < x, x < 0]
  else (List.range d.width).map fun p => (wrapNat x d.width).testBit p

/-- An element's planes written (R327): only its own column changes. -/
def State.setPlanes (s : State) (d : Desc) (e : Nat) (x : Int) : State :=
  let c := d.place e
  ((planeBits d x).zipIdx).foldl (fun s b => s.setCell c.1 (c.2.1 + b.2) c.2.2 b.1) s

/-- The first active element at or beyond ELEMS (R327). -/
def outOfRegion (d : Desc) (base : Nat) (l : List Nat) : Option Nat := l.find? fun i => d.elems ≤ base + i

/-- The byte of a plane of an element (R161, R164). -/
def planePa (d : Desc) (e p : Nat) : Nat :=
  let c := d.place e
  rowPa c.1 (c.2.1 + p) + c.2.2 / 8

/-- The demand reads of the planes of every element (R357): the first whose codeword cannot be corrected is the fault,
and each codeword that is corrected is reported once. -/
def State.readPlanes (s : State) (va : Word) (d : Desc) (base : Nat) (l : List Nat) : Res Unit :=
  let bad (pa : Nat) : Bool := match s.rowHit pa with
    | some r => badBytes r.2 pa 1
    | none => s.checkOf pa 1 = 2
  match l.find? fun i => (List.range d.width).any fun p => bad (planePa d (base + i) p) with
  | some i => machineCheck va (s.modSelf fun t => { t with faultElem := i })
  | none =>
    let read (k : Nat) : Bool := (s.rowHit (16 * k)).isNone && l.any fun i => (List.range d.width).any fun p =>
      planePa d (base + i) p / 16 = k
    .ok () ((s.errs.filter fun e => read e.1).foldl (fun s e => if s.checkOf (16 * e.1) 1 = 1 then s.corrected (16 * e.1) 1 else s) s)

/-- The one read of the descriptor of `vldp` or `vstp`, with the checks of its elements (R162, R327). -/
def issuePlanes (a b : BitVec 5) (k : BitVec 3) (acc : Access) (e : VEnv) (s : State) : Res Desc :=
  let va := e.getG a
  let l := actList e.vn (e.act s.self k)
  (s.readDesc va acc).bind fun r s =>
    match outOfRegion r (e.getG b).toNat l with
    | some i => .trap causeAccess va (s.modSelf fun t => { t with faultElem := i })
    | none => .ok r s

/-- The bytes of the planes of some elements, by line. -/
def transferBytes (d : Desc) (base : Nat) (l : List Nat) : Table (BitVec 512) :=
  l.foldl (fun (t : Table (BitVec 512)) i => (List.range d.width).foldl (fun (t : Table (BitVec 512)) p =>
    let pa := planePa d (base + i) p
    t.put (pa / 64) (t.get 0 (pa / 64) ||| byteMask pa 1)) t) []

/-- The writes of the planes of some elements, as bits by line. -/
def transferWrites (d : Desc) (base : Nat) (x : Nat → Int) (l : List Nat) : List (Nat × BitVec 512 × BitVec 512) :=
  (l.foldl (fun (t : Table (BitVec 512 × BitVec 512)) i =>
    ((planeBits d (x i)).zipIdx).foldl (fun (t : Table (BitVec 512 × BitVec 512)) b =>
      let pa := planePa d (base + i) b.2
      let m : BitVec 512 := 1#512 <<< (8 * (pa % 64) + (d.place (base + i)).2.2 % 8)
      let old := t.get (0, 0) (pa / 64)
      t.put (pa / 64) (old.1 ||| m, if b.1 then old.2 ||| m else old.2 &&& ~~~m)) t) []).map fun e => (e.1, e.2.1, e.2.2)

/-- The leases that a write of the planes of some elements waits for (R405). -/
def State.transferLease (s : State) (d : Desc) (base : Nat) (l : List Nat) : Option Nat :=
  if s.granted.isEmpty then none else ((transferBytes d base l).map (·.1)).find? s.leased

/-- vldp (R327): each row as its demand access reads it (R359). -/
def vloadPlane (d a b : BitVec 5) (k ty : BitVec 3) (e : VEnv) (r : Desc) (s : State) : Res Unit :=
  let w := iwidth ty
  let act := e.act s.self k
  let l := actList e.vn act
  let base := (e.getG b).toNat
  (s.needRows (transferBytes r base l)).bind fun _ s =>
    (s.readPlanes (e.getG a) r base l).bind fun _ s =>
      .ok () (s.modSelf fun t => t.vmap e.vn act d w fun i => ⟨wrapNat (s.planeValue r (base + i)) w, 0, false⟩)

/-- vstp (R327). -/
def vstorePlane (d b : BitVec 5) (k ty : BitVec 3) (e : VEnv) (r : Desc) (s : State) : Res Unit :=
  let x := s.self.getV d
  let l := actList e.vn (e.act s.self k)
  let base := (e.getG b).toNat
  if s.rowsWritten then .ok () s
  else
    match s.transferLease r base l with
    | some line => .wait (.lease line) s
    | none =>
      if (transferBytes r base l).all fun b => s.bankIdle (64 * b.1) then
        .ok () (l.foldl (fun s i => s.setPlanes r (base + i) (tyVal ty x i)) s)
      else s.writeRows [] (transferWrites r base (tyVal ty x) l)

end Sys2Proof.Machine
end

