-- ==== Sys2Proof/Machine/Fold.lean ====
section
/-! DEFINITION. `plant`, `fold`, `fread`, `fclr` and the bank operations (R368 to R394): their checks at issue, what the
latches and the fold layer do, and what the bank logic does. -/
namespace Sys2Proof.Machine
open Sys2Proof

/-! ### plant and fold at issue -/

/-- G: segments per subarray (R377). -/
def Desc.segs (d : Desc) : Nat := (keptSegs d.xseg).length

/-- How many accumulators a fold writes (R376). -/
def foldSpan (d : Desc) (mode : BitVec 2) : Nat :=
  if mode = 1 then 2 * d.npage * d.segs else if mode = 0 then 2 * d.npage else d.npage

/-- The block number of segment `g` of subarray `i` at element row `r` (R378). -/
def Desc.block (d : Desc) (r i g : Nat) : Nat :=
  (if d.order then r * (2 * d.npage) + i else i * d.stack + r) * d.segs + g

/-- Every subarray and segment of a region, in order. -/
def Desc.grid (d : Desc) : List (Nat × Nat) :=
  (List.range (2 * d.npage)).flatMap fun i => (List.range d.segs).map fun g => (i, g)

/-- The scale bytes of a fold at element row `r`, by subarray and segment (R376, R378), read as one vector load: every
check first (R321), then one snapshot; expired bytes read as 0 and are marked (R314, R315). -/
def State.readScales (s : State) (d : Desc) (r : Nat) : Res (List Byte) :=
  let f (i : Nat) : Word :=
    let c := d.grid.getD i (0, 0)
    BitVec.ofNat 64 (d.scaleva + d.block r c.1 c.2)
  (s.locateAll f 1 .read (List.range d.grid.length)).bind fun l s =>
    (s.readSlots 1 l).bind fun got s =>
      (s.dropOnce.expiredLoad f got).bind fun _ s => .ok (got.map fun g => BitVec.ofNat 8 g.val) s

/-- The checks of a fold on a descriptor that has been read, and its scale bytes (R376). -/
def State.issueFold (s : State) (d : Desc) (tile : Nat) (mode : BitVec 2) (row abase : Nat) : Res Work :=
  if d.basin ≠ s.myBasin || d.stack ≤ row || 4096 < abase + foldSpan d mode then .trap causeDescriptor d.at_ s
  else
    (if d.kind = 3 || d.kind = 4 then s.readScales d row else .ok [] s).bind fun l s =>
      .ok (.fold d tile mode row abase l 0) s

/-- The largest offset of a scratchpad, plus 1 (R311). -/
def spadSize : Nat := 3145728

/-- The header checks of R370: AKIND, PSH, EBASE and the reserved fields. -/
def headerOk (h : Nat) : Bool :=
  fieldAt h 0 1 ≤ 3 && fieldAt h 1 1 ≤ 8 && fieldAt h 2 1 ≤ 0xF7 && fieldAt h 3 1 = 0 && fieldAt h 6 2 ≤ 4095 &&
    fieldAt h 8 56 = 0

/-- A read of a plant marks the expired rows it meets (R314). -/
def State.markPlant (s : State) (slot core off n : Nat) : State :=
  if (List.range ((n + 63) / 64)).any (fun k => s.expired core (off / 64 + k)) then
    match s.strand slot with
    | some t => s.setStrand slot { t with expp := true }
    | none => s
  else s

/-- Issue of a `plant` of `n` planes, with its chained fold if `chain` gives a tile and a mode (R372, R373). -/
def State.issuePlant (s : State) (n : Nat) (off desc : Word) (chain : Option (Nat × BitVec 2)) : Res (List Work) :=
  (s.readDesc desc .read).bind fun d s =>
    let o := off.toNat
    let core := s.myCore
    if d.basin ≠ s.myBasin then .trap causeDescriptor desc s
    else if o % 64 ≠ 0 then .trap causeMisaligned off s
    else if spadSize < o + 64 then .trap causeAccess off s
    else
      let h := leRead (fun a => s.spadByte core a) o 64
      let s := s.markPlant s.cur core o 64
      let bcast := fieldAt h 0 1 / 2 % 2 = 1
      let k := if bcast then 1 else 2 * d.npage
      if spadSize < o + 64 + 1024 * n * k then .trap causeAccess off s
      else if !headerOk h then .trap causeDescriptor off s
      else
        let p := Work.plant d o n bcast (fieldAt h 0 1 % 2 = 1) (fieldAt h 1 1) (fieldAt h 2 1)
        match chain with
        | none => .ok [p] s
        | some (tile, mode) =>
          (s.issueFold d tile mode (fieldAt h 4 2) (fieldAt h 6 2)).bind fun f s => .ok [p, f] s

/-- Issue of a `fold` (R375, R376). -/
def State.issueFoldAt (s : State) (tile : Nat) (mode : BitVec 2) (desc opnd : Word) : Res (List Work) :=
  (s.readDesc desc .read).bind fun d s =>
    if opnd.extractLsb' 28 36 ≠ 0 then .trap causeDescriptor desc s
    else (s.issueFold d tile mode (bitsOf opnd 0 16) (bitsOf opnd 16 12)).bind fun f s => .ok [f] s

/-! ### Latches and tiles -/

/-- The places of a subarray in its region's order: more than one where several pages of the region map it. -/
def Desc.indices (d : Desc) (sub : Nat) : List Nat := (List.range d.subs.length).filter fun i => d.subs[i]? = some sub

/-- How many scratchpad rows the latches of a group take (R370): one set of planes serves a broadcast. -/
def plantRows (n : Nat) (bcast : Bool) (g : Group) : Nat := if bcast then 16 * n else 16 * n * g.subs.length

/-- One scratchpad row of a group lands in its latches (R372): the row of the group's rows in order, 16 to a plane. The
first one sets the parameters, and the planes beyond N to zero. A subarray that the region names twice keeps the block of
its last place. -/
def State.loadRow (s : State) (o : EngineOp) (g : Group) : State × Group :=
  match o.work with
  | .plant d off n bcast signed psh ebase =>
    let core := coreOf o.slot
    let into := if bcast then g.subs else (g.subs[g.pos / (16 * n)]?).toList
    let q := g.pos % (16 * n) / 16
    let base (i : Nat) : Nat := off + 64 + 1024 * (if bcast then q else i * n + q) + 64 * (g.pos % 16)
    let all := if bcast then [0] else d.indices (into.headD 0)
    let v : Row := BitVec.ofNat 8192 (leRead (fun a => s.spadByte core a) (base (all.getLastD 0)) 64) <<< (512 * (g.pos % 16))
    let s := all.foldl (fun s i => s.markPlant o.slot core (base i) 64) (s.spadWaits o.slot (all.map fun i => (core, base i / 64)))
    let s := into.foldl (fun s x =>
      let l := s.latches.get {} x
      let l : Latch := if g.pos % (16 * n) = 0 then { signed := signed, n := n, psh := psh, ebase := ebase } else l
      { s with latches := s.latches.set {} x { l with planes := l.planes.set q (l.planes.getD q 0 ||| v) } }) s
    (s, { g with pos := g.pos + 1 })
  | _ => (s, g)

/-- The next `k` rows of a group land, one at a time. -/
def State.loadRows (s : State) (o : EngineOp) (g : Group) : Nat → State × Group
  | 0 => (s, g)
  | k + 1 =>
    let r := s.loadRow o g
    r.1.loadRows o r.2 k

/-- Z(s): the latched planes that are not zero (R382). -/
def Latch.nonzero (l : Latch) : Nat := (l.planes.filter fun p => p ≠ 0).length

/-- AW (R377). -/
def Latch.weight (l : Latch) (q : Nat) : Int :=
  if l.signed && q = l.n - 1 then -((2 ^ (l.n - 1 + l.psh) : Nat) : Int) else ((2 ^ (q + l.psh) : Nat) : Int)

/-- W(p) of R57. -/
def Desc.planeWeight (d : Desc) (p : Nat) : Int :=
  if d.kind = 1 then ((2 ^ p : Nat) : Int)
  else if d.kind = 2 then (if p = 0 then 1 else -1)
  else if p = d.width - 1 then -((2 ^ p : Nat) : Int) else ((2 ^ p : Nat) : Int)

/-- What plane `p` adds to the count of one segment of a subarray at element row `r` (R377). -/
def State.planeCount (s : State) (d : Desc) (l : Latch) (sub r p seg : Nat) : Int :=
  let row := s.rawRow sub (d.row r p)
  (List.range 8).foldl (fun x q =>
    let a := l.planes.getD q 0
    if a = 0 then x
    else x + d.planeWeight p * l.weight q * popFrom ((row &&& a).extractLsb' (64 * seg) 64).toNat 64) 0

/-- What a segment adds (R378): the multiplier, whether it poisons, and whether its exponent is out of range. -/
def segScale (d : Desc) (l : Latch) (b : Byte) : Int × Bool × Bool :=
  if d.kind = 3 then (b.toNat, false, false)
  else if d.kind = 4 then
    if b = 0xFF then (0, true, false)
    else if l.ebase ≤ b.toNat && b.toNat ≤ l.ebase + 7 then (((2 ^ (b.toNat - l.ebase) : Nat) : Int), false, false)
    else (0, false, true)
  else (1, false, false)

/-- The accumulator that a segment reaches (R379). -/
def foldIndex (d : Desc) (mode : BitVec 2) (abase i g : Nat) : Nat :=
  abase + (if mode = 1 then i * d.segs + g else if mode = 0 then i else i / 2)

/-- What a fold meets in the latches of a subarray when its group opens (R378, R382): the units it uses, the accumulators
it poisons, and an exponent out of range. Where Z = 0 it meets nothing. -/
def State.foldOpen (s : State) (o : EngineOp) (sub : Nat) : EngineOp :=
  match o.work with
  | .fold d _ mode _ abase scales _ =>
    let l := s.latches.get {} sub
    if l.nonzero = 0 then o
    else
      (d.indices sub).foldl (fun o i =>
        let o := { o with used := o.used + (d.width * l.nonzero + 7) / 8 }
        (List.range d.segs).foldl (fun o g =>
          let m := segScale d l (scales.getD (i * d.segs + g) 0)
          { o with poisons := if m.2.1 then foldIndex d mode abase i g :: o.poisons else o.poisons
                   range := o.range || m.2.2 }) o) o
  | _ => o

/-- The accumulators that a subarray reaches in a fold, by the places that it has in the region, and what each gets, from a count
of each segment and its multiplier (R378, R379). -/
def State.foldAdd (s : State) (o : EngineOp) (sub : Nat) (count : Desc → Latch → Nat → Nat → Nat → Int) : EngineOp :=
  match o.work with
  | .fold d _ mode _ abase scales _ =>
    let l := s.latches.get {} sub
    if l.nonzero = 0 then o
    else
      (d.indices sub).foldl (fun o i =>
        ((keptSegs d.xseg).zipIdx).foldl (fun o e =>
          let m := segScale d l (scales.getD (i * d.segs + e.2) 0)
          let k := foldIndex d mode abase i e.2
          { o with adds := o.adds.put k (o.adds.get 0 k + count d l i e.1 e.2 * m.1) }) o) o
  | _ => o

/-- What the read of weight row `p` adds for a subarray (R377 to R381). -/
def State.foldRow (s : State) (o : EngineOp) (p sub : Nat) : EngineOp :=
  match o.work with
  | .fold _ _ _ row _ _ _ => s.foldAdd o sub fun d l _ seg _ => s.planeCount d l sub row p seg
  | _ => o

/-- The counts of a subarray with a margin error are suspect, and are added all the same: a free value comes to each (R365,
R381; log entry 98). -/
def State.foldSuspect (s : State) (o : EngineOp) (sub : Nat) : State × EngineOp :=
  match o.work with
  | .fold d _ _ _ _ _ _ =>
    let n := 128 * d.subs.length
    ({ s with freeCtr := s.freeCtr + n },
      s.foldAdd o sub fun _ _ i _ g => (Config.freeWord (s.freeCtr + 128 * i + g)).toInt)
  | _ => (s, o)

/-- One exact addition into an accumulator (R68, R380). -/
def Core.accumulate (c : Core) (tile k : Nat) (x : Int) : Core :=
  let a := (c.acc.get 0 (4096 * tile + k)).toInt + x
  { c with acc := c.acc.set 0 (4096 * tile + k) (BitVec.ofInt 40 a)
           tileOvf := if a < -(2 ^ 39 : Int) || (2 ^ 39 : Int) ≤ a then c.tileOvf ||| (1#8 <<< tile) else c.tileOvf }

/-- A completed fold on its core: additions, poison, RANGE, and the unused charge given back (R378, R380, R382). -/
def Core.foldInto (c : Core) (o : EngineOp) (clk : Nat) : Core :=
  match o.work with
  | .fold d tile _ _ _ _ wt =>
    let c := o.adds.foldl (fun c e => c.accumulate tile e.1 e.2) c
    let c := o.poisons.foldl (fun c k =>
      { c with poison := c.poison.set false (4096 * tile + k) true, tileNan := c.tileNan ||| (1#8 <<< tile) }) c
    let c := if o.range then { c with tileRange := c.tileRange ||| (1#8 <<< tile) } else c
    let back := min ((d.width * 2 * d.npage - o.used) * wt) (2 ^ 32 - 1)
    let c := c.settle clk
    { c with level := c.level - 256 * back }
  | _ => c

/-- fclr (R389). -/
def Core.clearTile (c : Core) (tile : Nat) : Core :=
  let keep (k : Nat) : Bool := k / 4096 ≠ tile
  let m : BitVec 8 := ~~~(1#8 <<< tile)
  { c with acc := c.acc.filter fun e => keep e.1, poison := c.poison.filter fun e => keep e.1
           tileNan := c.tileNan &&& m, tileRange := c.tileRange &&& m, tileOvf := c.tileOvf &&& m }

/-- An element of `fread` (R388). -/
def freadElem (y : BitVec 2) (sat : Bool) (scale : Nat) (a : BitVec 40) (poisoned : Bool) : Elem :=
  let x := a.toInt
  if y = 2 then
    if poisoned then ⟨FFmt.f32.nan, flagNV, false⟩
    else
      let r := FFmt.f32.mul 0 (.fin (x < 0) x.natAbs 0) (FFmt.f32.read scale)
      ⟨r.1, r.2, false⟩
  else if poisoned then ⟨0, flagNV, false⟩
  else if y = 0 && sat then
    let r := saturate false 32 x
    ⟨wrapNat r.1 32, 0, r.2⟩
  else ⟨wrapNat x (if y = 0 then 32 else 64), 0, false⟩

/-- The width of the elements of `fread` (R388). -/
def freadWidth (y : BitVec 2) : Nat := if y = 1 then 64 else 32

/-- fread (R386, R388): after every earlier tile operation of the strand. -/
def freadBody (d a b : BitVec 5) (y : BitVec 2) (sat : Bool) (tile : Nat) (e : VEnv) (s : State) : Res Unit :=
  let i0 := (e.getG a).toNat
  if 4096 < i0 + e.vn then .trap causeLength 0 s
  else if s.busyIn s.cur [6] then .wait (.engines [6]) s
  else
    let c := s.core s.myCore
    let scale := (e.getG b).toNat % 2 ^ 32
    .ok () (s.modSelf fun t => t.vmap e.vn (lowMask e.vn) d (freadWidth y) fun i =>
      freadElem y sat scale (c.acc.get 0 (4096 * tile + i0 + i)) (c.poison.get false (4096 * tile + i0 + i)))

/-- fclr of a tile (R386, R389). -/
def fclrBody (tile : Nat) (s : State) : Res Unit :=
  if s.busyIn s.cur [6] then .wait (.engines [6]) s else .ok () (s.modCore fun c => c.clearTile tile)

/-! ### Bank operations -/

/-- Whether an address lies in a frame of an active migration slot (R178). -/
def State.migrating (s : State) (pa : Nat) : Bool :=
  s.basins.any fun (_, b) => b.mig.any fun (_, m) =>
    (m.state = 1 || m.state = 2) &&
      ((m.old.toNat * 4096 ≤ pa && pa < m.old.toNat * 4096 + migSize m.size) ||
       (m.new.toNat * 4096 ≤ pa && pa < m.new.toNat * 4096 + migSize m.size))

/-- The address of an element of a bank operation, checked (R391). -/
def State.bankElem (s : State) (va : Word) (w : Nat) (write : Bool) : Res Nat :=
  (s.locate va (w / 8) .read).bind fun p s =>
    (if write then s.locate va (w / 8) .write else .ok p s).bind fun p s =>
      match p with
      | .dev pa => if s.migrating pa then .trap causeAccess va s else .ok pa s
      | _ => .trap causeAccess va s

/-- The element addresses of a bank operation: `n` pairs from `d` and `s`, each pair in one bank (R391). -/
def State.bankPairs (s : State) (dv sv : Word) (w : Nat) (i : Nat) : Nat → Res (List (Nat × Nat))
  | 0 => .ok [] s
  | n + 1 =>
    let off : Word := BitVec.ofNat 64 (i * (w / 8))
    let s := s.modSelf fun t => { t with faultElem := i }
    (s.bankElem (dv + off) w true).bind fun d s => (s.bankElem (sv + off) w false).bind fun x s =>
      if d / 2 ^ 27 ≠ x / 2 ^ 27 then .trap causeAccess (sv + off) s
      else (s.bankPairs dv sv w (i + 1) n).bind fun l s => .ok ((d, x) :: l) s

/-- The source addresses of `bkred`, all in the bank of the destination (R391). -/
def State.bankSources (s : State) (d : Nat) (sv : Word) (w : Nat) (i : Nat) : Nat → Res (List Nat)
  | 0 => .ok [] s
  | n + 1 =>
    let va := sv + BitVec.ofNat 64 (i * (w / 8))
    let s := s.modSelf fun t => { t with faultElem := i }
    (s.bankElem va w false).bind fun x s =>
      if d / 2 ^ 27 ≠ x / 2 ^ 27 then .trap causeAccess va s
      else (s.bankSources d sv w (i + 1) n).bind fun l s => .ok (x :: l) s

/-- The element width of a bank operation (R390). -/
def bankWidth (ty : BitVec 3) (ft : Bool) : Nat := if ft then (FFmt.ofCode ty.toNat).width else iwidth ty

/-- Issue of a bank operation (R391): with `n = 0` it does nothing. -/
def State.issueBank (s : State) (op : BankOp) (ty : BitVec 3) (ft : Bool) (dv sv cnt : Word) : Res (List Work) :=
  let w := bankWidth ty ft
  let n := bitsOf cnt 0 32
  let k : BitVec 32 := cnt.extractLsb' 32 32
  if n = 0 then .ok [] s
  else if op = .red then
    (s.bankElem dv w true).bind fun d s => (s.bankSources d sv w 0 n).bind fun l s =>
      .ok [.bank op ty ft [d] l k] s
  else
    (s.bankPairs dv sv w 0 n).bind fun l s => .ok [.bank op ty ft (l.map (·.1)) (l.map (·.2)) k] s

/-- An element as the bank logic reads it (R357). -/
def State.dramRead (s : State) (pa n : Nat) : Nat := leRead s.fixedByte pa n

/-- The reports of the demand reads of the banks (R357, R459): of each codeword once that holds bytes of the elements. -/
def State.dramReports (s : State) (o : EngineOp) (l : List Nat) (n : Nat) : State :=
  (s.errs.filter fun e => l.any fun pa => pa / 16 ≤ e.1 && e.1 ≤ (pa + n - 1) / 16).foldl (fun s e =>
    let pa := 16 * e.1
    let r : Report := { kind := 2, bank := paBank pa, sub := paSub pa, index := pa / 1024 % 1024, addr := pa }
    match s.checkOf pa 16 with
    | 0 => s
    | 1 => s.report (paBasin pa) r
    | _ => s.opReport (paBasin pa) o { r with kind := 3 }) s

/-- An element written to the home's DRAM (R394); no cached copy changes. -/
def State.dramWrite (s : State) (pa n v : Nat) : State :=
  ({ s.setCells pa n v with errs := s.errs.drop (pa / 16) }.breakLinks (pa / 64)).mirror pa n

/-- The value that `bkadd` and `bksax` form (R392). -/
def bankSum (ty : BitVec 3) (ft : Bool) (scale : Option (BitVec 32)) (d x : Nat) : Nat × FFlags :=
  if ft then
    let fm := FFmt.ofCode ty.toNat
    match scale with
    | none => fm.add 0 (fm.read d) (fm.read x)
    | some k => fm.fma 0 (FFmt.f32.read k.toNat) (fm.read x) (fm.read d)
  else (wrapNat (d + x : Nat) (iwidth ty), 0)

/-- IEEE less-than with −0 below +0; a NaN is below nothing (R392). -/
def floatLess (fm : FFmt) (x y : Nat) : Bool :=
  match fm.read x, fm.read y with
  | .fin a 0 _, .fin b 0 _ => a && !b
  | _, _ => (fm.compare 1 x y).1

/-- Less of `bkcx` (R392). -/
def bankLess (ty : BitVec 3) (ft : Bool) (x y : Nat) : Bool :=
  if ft then floatLess (FFmt.ofCode ty.toNat) x y
  else intValue (tyUnsigned ty) (iwidth ty) x < intValue (tyUnsigned ty) (iwidth ty) y

/-- The result of `bkred` (R392). -/
def bankReduce (ty : BitVec 3) (ft : Bool) (l : List Nat) : Nat × FFlags :=
  let leaf : List (Option Elem) := l.map fun x => some ⟨x, 0, false⟩
  let fm := FFmt.ofCode ty.toNat
  let step (p q : Elem) : Elem :=
    if ft then
      let r := fm.add 0 (fm.read p.val) (fm.read q.val)
      ⟨r.1, p.fl ||| q.fl ||| r.2, false⟩
    else intStep (tyUnsigned ty) (iwidth ty) (· + ·) false p q
  let r := (treeReduce step leaf).getD ⟨0, 0, false⟩
  if ft then
    let q := fm.delivered r.val
    (q.1, r.fl ||| q.2)
  else (r.val, r.fl)

/-- A bank operation performed at its banks, with the flags it raises (R392, R393). -/
def State.runBank (s : State) (o : EngineOp) : State × FFlags :=
  match o.work with
  | .bank op ty ft d x k =>
    let n := bankWidth ty ft / 8
    match op with
    | .red =>
      let s := s.dramReports o x n
      let r := bankReduce ty ft (x.map fun a => s.dramRead a n)
      (s.dramWrite (d.headD 0) n r.1, r.2)
    | .cx =>
      ((d.zip x).foldl (fun s e =>
        let dv := s.dramRead e.1 n
        let xv := s.dramRead e.2 n
        if bankLess ty ft xv dv then (s.dramWrite e.1 n xv).dramWrite e.2 n dv else s) (s.dramReports o (d ++ x) n), 0)
    | _ =>
      (d.zip x).foldl (fun a e =>
        let s := a.1
        let r := bankSum ty ft (if op = .sax then some k else none) (s.dramRead e.1 n) (s.dramRead e.2 n)
        (s.dramWrite e.1 n r.1, a.2 ||| r.2)) (s.dramReports o (d ++ x) n, 0)
  | _ => (s, 0)

end Sys2Proof.Machine
end

