-- ==== Sys2Proof/Machine/Aqueduct.lean ====
section
/-! DEFINITION. The Aqueduct (R427 to R441): the peer table, the checks of transfers at issue, the messages that a
transfer sends, and the steps of collectives. -/
namespace Sys2Proof.Machine
open Sys2Proof

/-- A peer that transfers may name (R431). -/
def State.peerOk (s : State) (dv : BitVec 12) : Bool := s.ptabEn && dv ≠ s.devid && (s.peerEntry dv).getLsbD 63

/-- The fault of a leaf that an engine cannot name (R431): on this device, any but an ordinary and a scratchpad-window page;
on a peer, any but a page of a peer that transfers may name. -/
def State.engineRefuses (s : State) (va : Word) (remote : Bool) (p : BitVec 64) : Option (BitVec 8 × Word) :=
  let ok := if remote then pteClass p = 5 && s.peerOk (pteHi p) else pteClass p = 0 || pteClass p = 3
  if ok then none else some (causeAccess, va)

/-- The place of a page that an engine names (R431): a host page is an access fault there, and none is asked for. -/
def State.enginePage (s : State) (va : Word) (acc : Access) (remote : Bool) : Res Place :=
  s.placeAmong va acc (s.engineRefuses va remote)

/-- A page of this device that an engine names: ordinary or scratchpad window (R431). -/
def Place.isLocal : Place → Bool
  | .dev _ => true
  | .spad _ _ => true
  | _ => false

/-- The physical pages of a local range (R431): ordinary or scratchpad-window pages with the permission. The last number
counts the pages to go. -/
def State.localPages (s : State) (va : Nat) (acc : Access) : Nat → Res (List Nat)
  | 0 => .ok [] s
  | k + 1 =>
    let a : Word := BitVec.ofNat 64 va
    (s.enginePage a acc false).bind fun p s =>
      let go (pa : Nat) (s : State) : Res (List Nat) :=
        (s.localPages ((va / 4096 + 1) * 4096) acc k).bind fun l s => .ok (pa :: l) s
      match p with
      | .dev pa => go (pa / 4096 * 4096) s
      | .spad core off => go (spadPa core (off / 4096 * 4096)) s
      | _ => .trap causeAccess a s

/-- A read at issue from a local page, in the strand's vector stream (R437). -/
def State.localRead (s : State) (va : Word) (n : Nat) : Res Nat :=
  (s.enginePage va .read false).bind fun p s =>
    if p.isLocal then (s.readAt p va n).bind fun v s => .ok v.1 s else .trap causeAccess va s

/-- How many 4 KiB pages `n` bytes from an address touch. -/
def pageCount (va n : Nat) : Nat := if n = 0 then 0 else (va + n - 1) / 4096 - va / 4096 + 1

/-- A local range (R431). -/
def State.localRange (s : State) (va : Word) (n : Nat) (acc : Access) : Res AqRange :=
  if 2 ^ 48 ≤ va.toNat || 2 ^ 48 < va.toNat + n then .trap causeTranslation va s
  else (s.localPages va.toNat acc (pageCount va.toNat n)).bind fun l s => .ok ⟨va.toNat % 4096, l⟩ s

/-- The pages of a remote range, as their owners and the owners' addresses (R431). -/
def State.remotePages (s : State) (va : Nat) (acc : Access) : Nat → Res (List (BitVec 12 × Nat))
  | 0 => .ok [] s
  | k + 1 =>
    let a : Word := BitVec.ofNat 64 va
    (s.enginePage a acc true).bind fun p s =>
      match p with
      | .peer dv pa _ _ =>
        if !s.peerOk dv then .trap causeAccess a s
        else (s.remotePages ((va / 4096 + 1) * 4096) acc k).bind fun l s => .ok ((dv, pa / 4096 * 4096) :: l) s
      | _ => .trap causeAccess a s

/-- A remote range (R431). -/
def State.remoteRange (s : State) (va : Word) (n : Nat) (acc : Access) : Res (List (BitVec 12 × Nat)) :=
  if 2 ^ 48 ≤ va.toNat || 2 ^ 48 < va.toNat + n then .trap causeTranslation va s
  else s.remotePages va.toNat acc (pageCount va.toNat n)

/-- The physical address of byte `i` of a local range. -/
def AqRange.pa (r : AqRange) (i : Nat) : Nat := r.pages.getD ((r.off + i) / 4096) 0 + (r.off + i) % 4096

/-- The owner's address of byte `i` of a remote range that starts at offset `off` of its first page. -/
def remotePa (off : Nat) (l : List (BitVec 12 × Nat)) (i : Nat) : Nat :=
  (l.getD ((off + i) / 4096) (0, 0)).2 + (off + i) % 4096

/-- A range touches a line. -/
def AqRange.has (r : AqRange) (n line : Nat) : Bool :=
  r.pages.zipIdx.any fun e =>
    let o := 4096 * e.2 + 64 * (line % 64)
    line / 64 = e.1 / 4096 && r.off < o + 64 && o < r.off + n

/-- A lease that this device has granted runs on a line of a range: the device writes none of it yet (R405). -/
def State.rangeLeased (s : State) (r : AqRange) (n : Nat) : Bool :=
  s.granted.any fun (l : Lease) => r.has n l.line && s.leased l.line

/-- A byte of this device as an engine reads it (R357, R403): device memory, or a scratchpad row unless it is expired. -/
def State.localByte (s : State) (pa : Nat) : Byte :=
  if pa < 2 ^ 40 then s.homeByte (s.migRead pa) else s.spadByte (pa / 2 ^ 32 % 256) (pa % 2 ^ 22)

/-- `n` bytes that stay in one line, written by an engine. -/
def State.putLocal (s : State) (pa n v : Nat) : State :=
  if pa < 2 ^ 40 then s.writeCo pa n v else s.writeSpad (pa / 2 ^ 32 % 256) (pa % 2 ^ 22) n v

/-- A whole line of this device, read by an engine. -/
def State.localLine (s : State) (pa : Nat) : BitVec 512 := BitVec.ofNat 512 (leRead s.localByte pa 64)

/-! ### Issue (R431 to R433, R435, R437) -/

/-- Issue of `aq.put` and `aq.get`: the alignments and the count first (log entry 31). -/
def State.issueTransfer (s : State) (put : Bool) (remote here cnt : Word) : Res (List Work) :=
  let n := cnt.toNat
  if remote.toNat % 64 ≠ 0 then .trap causeMisaligned remote s
  else if here.toNat % 64 ≠ 0 then .trap causeMisaligned here s
  else if n % 64 ≠ 0 || n < 64 || 16777216 < n then .trap causeMisaligned cnt s
  else
    (s.localRange here n (if put then .read else .write)).bind fun r s =>
    (s.remoteRange remote n (if put then .write else .read)).bind fun l s =>
      let dv := (l.headD (0, 0)).1
      if l.any fun e => e.1 ≠ dv then .trap causeAccess remote s
      else
        let lines := (List.range (n / 64)).map fun i =>
          AqLine.mk (BitVec.ofNat 52 (remotePa (remote.toNat % 4096) l (64 * i))) (r.pa (64 * i)) false false
        .ok [if put then .put dv lines else .get dv lines] s

/-- Issue of `aq.sig` (R433). -/
def State.issueSig (s : State) (remote addend : Word) : Res (List Work) :=
  if remote.toNat % 8 ≠ 0 then .trap causeMisaligned remote s
  else
    (s.remoteRange remote 8 .write).bind fun l s =>
      .ok [.sig (l.headD (0, 0)).1 (BitVec.ofNat 52 (remotePa (remote.toNat % 4096) l 0)) addend false] s

/-- aq.lease (R435): the leased copies dropped, one release to each owner, and the count of lines; nothing for a count
of 0. -/
def leaseBody (d : BitVec 5) (start cnt : Word) (s : State) : Res Unit :=
  if cnt = 0 then .ok () (s.setG d 0)
  else
    (s.remoteRange start cnt.toNat .read).bind fun l s =>
      let off := start.toNat % 4096
      let lines := (List.range ((off % 64 + cnt.toNat + 63) / 64)).map fun i =>
        ((l.getD ((off / 64 * 64 + 64 * i) / 4096) (0, 0)).1, remotePa (off / 64 * 64) l (64 * i) / 64)
      let held (e : BitVec 12 × Nat) : Bool := s.peer.any fun (p : PeerLine) => p.once = none && (p.dev, p.line) = e
      let gone := (lines.filter held).eraseDups
      let s := ((gone.map (·.1)).eraseDups).foldl (fun s dv =>
        s.sendAq dv 0 (.releaseLease ((gone.filter fun e => e.1 = dv).map (·.2))))
        { s with peer := s.peer.filter fun p => !(p.once = none && gone.contains (p.dev, p.line)) }
      .ok () (s.setG d (BitVec.ofNat 64 gone.length))

/-- The operand checks of a collective descriptor that need no translation (R437). -/
def collOk (v : Nat) : Bool :=
  let op := fieldAt v 0 1
  let red := fieldAt v 1 1
  let alg := fieldAt v 2 1
  let root := fieldAt v 3 1
  let n := fieldAt v 4 2
  let ty := red % 8
  let ft := red / 8 % 2 = 1
  let f := red / 16 % 4
  op ≤ 2 && alg ≤ 2 && 2 ≤ n && n ≤ 256 && fieldAt v 6 2 < n && 1 ≤ fieldAt v 8 4 &&
    1 ≤ fieldAt v 12 4 && fieldAt v 12 4 ≤ 1000000 && fieldAt v 0x30 8 % 64 = 0 && fieldAt v 0x38 8 = 0 &&
    red / 64 = 0 && (!ft || ty ≤ 3) && (op = 0 || red / 16 = 0) && (!ft || f ≠ 1) &&
    (if op = 1 then root < n else root = 0)

/-- The group table (R437): the DEVIDs and the remote addresses of the ranks' WORK. -/
def State.readGroup (s : State) (va : Nat) : Nat → Res (List (Word × Word))
  | 0 => .ok [] s
  | k + 1 =>
    let a : Word := BitVec.ofNat 64 va
    if va % 8 ≠ 0 then .trap causeMisaligned a s
    else
      (s.localRead a 8).bind fun x s => (s.localRead (a + 8) 8).bind fun y s =>
        (s.readGroup (va + 16) k).bind fun l s => .ok ((BitVec.ofNat 64 x, BitVec.ofNat 64 y) :: l) s

/-- The remote WORK of every other rank lies on peer pages of its DEVID, writable (R431, R437): the owners' addresses, by
rank. -/
def State.checkPeers (s : State) (rank bytes i : Nat) : List (Word × Word) → Res (List AqRange)
  | [] => .ok [] s
  | (d, va) :: t =>
    if i = rank then (s.checkPeers rank bytes (i + 1) t).bind fun r s => .ok (⟨0, []⟩ :: r) s
    else
      (s.remoteRange va bytes .write).bind fun l s =>
        if l.any fun e => e.1 ≠ d.extractLsb' 0 12 then .trap causeAccess va s
        else (s.checkPeers rank bytes (i + 1) t).bind fun r s => .ok (⟨va.toNat % 4096, l.map (·.2)⟩ :: r) s

/-- Two ranges of addresses overlap. -/
def rangesMeet (a : Word) (n : Nat) (b : Word) (m : Nat) : Bool := a.toNat < b.toNat + m && b.toNat < a.toNat + n

/-! ### The steps of a collective (R438 to R440) -/

/-- Elements per chunk of a ring allreduce (R438). -/
def Coll.chunk (c : Coll) : Nat := (c.count + c.n - 1) / c.n

/-- The pieces of a collective: N chunks for a ring allreduce, N blocks for an allgather, else one. -/
def Coll.pieces (c : Coll) : Nat := if c.op = 2 || (c.op = 0 && c.alg = 0) then c.n else 1

/-- The number of elements of piece `k`. -/
def Coll.pieceLen (c : Coll) (k : Nat) : Nat :=
  if c.op = 0 && c.alg = 0 then min ((k + 1) * c.chunk) c.count - k * c.chunk else c.count

/-- The number of steps (R438, R439; log entry 32). -/
def Coll.steps (c : Coll) : Nat :=
  if c.alg = 2 then 2 else if c.alg = 1 then 2 * log2Up c.n else 2 * (c.n - 1)

/-- The step of the first pass round the ring that step `k` of a broadcast or an allgather is, or is made again: they compute
nothing, and their second pass brings what the first one brought (R438, R439; log entry 32). -/
def Coll.lap (c : Coll) (k : Nat) : Nat := if k < c.n then k else k + 1 - c.n

/-- Pieces that pass in one direction in a step, with the other rank: the switch is rank N. -/
structure Pass where
  rank : Nat
  keys : List Nat
  deriving DecidableEq, Repr

/-- `a − b` modulo the number of ranks. -/
def Coll.back (c : Coll) (a b : Nat) : Nat := (a + 2 * c.n - b % c.n) % c.n

/-- The blocks of the ranks from `lo` to `lo + len − 1`. -/
def Coll.blocks (c : Coll) (lo len : Nat) : List Nat := (List.range len).map (lo + ·) |>.filter (· < c.n)

/-- What a tree rank `r` and the rank `q = r + h` above it pass in the upward step of stride `h`. -/
def Coll.upKeys (c : Coll) (q h : Nat) : Option (List Nat) :=
  if c.op = 0 then some [0]
  else if c.op = 1 then (if q ≤ c.root && c.root < q + h then some [0] else none)
  else some (c.blocks q h)

/-- All pieces. -/
def Coll.allKeys (c : Coll) : List Nat := List.range c.pieces

/-- What this rank receives in step `k` (1 and up). -/
def Coll.takes (c : Coll) (k : Nat) : Option Pass :=
  let r := c.rank
  if c.alg = 2 then (if k = 2 then some ⟨c.n, c.allKeys⟩ else none)
  else if c.alg = 1 then
    let l := log2Up c.n
    if k ≤ l then
      let h := 2 ^ (k - 1)
      if r % (2 * h) = 0 && r + h < c.n then (c.upKeys (r + h) h).map fun ks => ⟨r + h, ks⟩ else none
    else
      let h := 2 ^ (2 * l - k)
      if r % (2 * h) = h then some ⟨r - h, c.allKeys⟩ else none
  else if c.op = 0 then
    some ⟨c.back r 1, [if k < c.n then c.back r (k + 1) else c.back r (k + 1 - c.n)]⟩
  else if c.op = 2 then some ⟨c.back r 1, [c.back r (c.lap k)]⟩
  else if c.back r c.root = c.lap k then some ⟨c.back r 1, [0]⟩ else none

/-- What this rank sends in step `k`. -/
def Coll.gives (c : Coll) (k : Nat) : Option Pass :=
  let r := c.rank
  let next := (r + 1) % c.n
  if c.alg = 2 then
    (if k ≠ 1 || (c.op = 1 && r ≠ c.root) then none else some ⟨c.n, if c.op = 2 then [r] else [0]⟩)
  else if c.alg = 1 then
    let l := log2Up c.n
    if k ≤ l then
      let h := 2 ^ (k - 1)
      if r % (2 * h) = h then (c.upKeys r h).map fun ks => ⟨r - h, ks⟩ else none
    else
      let h := 2 ^ (2 * l - k)
      if r % (2 * h) = 0 && r + h < c.n then some ⟨r + h, c.allKeys⟩ else none
  else if c.op = 0 then
    some ⟨next, [if k < c.n then c.back r k else c.back (r + 1) (k + 1 - c.n)]⟩
  else if c.op = 2 then some ⟨next, [c.back (r + 1) (c.lap k)]⟩
  else if c.back r c.root + 1 = c.lap k then some ⟨next, [0]⟩ else none

/-- Whether step `k` combines what arrives with what is held (R438, R439). -/
def Coll.combines (c : Coll) (k : Nat) : Bool :=
  c.op = 0 && (if c.alg = 0 then k < c.n else if c.alg = 1 then k ≤ log2Up c.n else false)

/-- One step of R71 on two elements, floats rounded RNE; no flag is set (R438, R439). -/
def Coll.op2 (c : Coll) (x y : Word) : Word :=
  if c.ft then
    let fm := FFmt.ofCode c.ty.toNat
    BitVec.ofNat 64
      (if c.red = 2 then (fm.minMax false x.toNat y.toNat).1
       else if c.red = 3 then (fm.minMax true x.toNat y.toNat).1
       else (fm.add 0 (fm.read x.toNat) (fm.read y.toNat)).1)
  else
    let u := tyUnsigned c.ty
    let w := iwidth c.ty
    let f : Int → Int → Int := if c.red = 2 then min else if c.red = 3 then max else (· + ·)
    BitVec.ofNat 64 (intStep u w f (c.red = 1) ⟨x.toNat, 0, false⟩ ⟨y.toNat, 0, false⟩).val

/-- Two pieces combined: the partial of a ring is the left operand, the lower ranks of a tree are (R438, R439). -/
def Coll.merge (c : Coll) (mine theirs : List Word) : List Word :=
  if c.alg = 0 then List.zipWith c.op2 theirs mine else List.zipWith c.op2 mine theirs

/-- The ranks whose contributions arrive in step `k` with a pass. -/
def Coll.news (c : Coll) (k : Nat) (p : Pass) : List Nat :=
  if c.op = 1 then [c.root]
  else if c.op = 2 then p.keys
  else if !c.combines k then List.range c.n
  else if c.alg = 0 then (List.range k).map fun j => (p.keys.headD 0 + 1 + j) % c.n
  else c.blocks p.rank (2 ^ (k - 1))

/-- The step that this rank has to complete next. -/
def Coll.now (c : Coll) : Nat := c.step + 1

/-- The bytes of an element (R437). -/
def Coll.bytes (c : Coll) : Nat := bankWidth c.ty c.ft / 8

/-- The flits that this device sends over the whole collective (R431). -/
def Coll.flits (c : Coll) : Nat :=
  (List.range c.steps).foldl (fun a k =>
    match c.gives (k + 1) with
    | some p => a + ((p.keys.foldl (fun n x => n + c.pieceLen x) 0) * c.bytes + 63) / 64
    | none => a) 0

/-- The elements of a local range. -/
def State.elemsOf (s : State) (r : AqRange) (w n : Nat) : List Word :=
  (List.range n).map fun i =>
    BitVec.ofNat 64 ((List.range w).foldl (fun a j => a + (s.localByte (r.pa (i * w + j))).toNat * 256 ^ j) 0)

/-- Issue of `aq.coll` (R437): every check, and the collective before its first step. -/
def State.issueColl (s : State) (at_ seq : Word) : Res (List Work) :=
  if at_.toNat % 64 ≠ 0 then .trap causeDescriptor at_ s
  else
    (s.localRead at_ 64).bind fun v s =>
      if !collOk v then .trap causeDescriptor at_ s
      else
        let n := fieldAt v 4 2
        let rank := fieldAt v 6 2
        let red := fieldAt v 1 1
        let count := fieldAt v 8 4
        let op := fieldAt v 0 1
        let w := bankWidth (BitVec.ofNat 3 red) (red / 8 % 2 = 1) / 8
        let word (o : Nat) : Word := BitVec.ofNat 64 (fieldAt v o 8)
        let recvN := (if op = 2 then n * count else count) * w
        if rangesMeet (word 0x20) (n * count * w) (word 0x10) (count * w) ||
            rangesMeet (word 0x20) (n * count * w) (word 0x18) recvN then .trap causeDescriptor at_ s
        else
          (s.readGroup (fieldAt v 0x28 8) n).bind fun group s =>
            if group.any fun e => e.1.extractLsb' 12 52 ≠ 0 then .trap causeDescriptor at_ s
            else
              (s.checkPeers rank (n * count * w) 0 group).bind fun works s =>
              let devs := group.map fun e => e.1.extractLsb' 0 12
              if fieldAt v 2 1 = 2 && (devs.zipIdx.any fun e => e.2 ≠ rank && !(s.peerEntry e.1).getLsbD 62) then
                .trap causeDescriptor at_ s
              else
                (s.localRange (word 0x10) (count * w) .read).bind fun send s =>
                (s.localRange (word 0x18) recvN .write).bind fun recv s =>
                (s.localRange (word 0x20) (n * count * w) .write).bind fun work s =>
                (s.localRange (word 0x30) (16 + 4 * n) .write).bind fun status s =>
                  let c : Coll :=
                    { op := op, ty := BitVec.ofNat 3 red, ft := red / 8 % 2 = 1, red := red / 16 % 4,
                      alg := fieldAt v 2 1, root := fieldAt v 3 1, n := n, rank := rank, count := count,
                      tmo := fieldAt v 12 4, seq := seq, send := send, recv := recv, work := work, devs := devs, works := works,
                      status := status, contrib := [], incs := [], step := 0, sentStep := 0, since := s.clk, got := [] }
                  .ok [.coll { c with contrib := if c.op = 1 && c.rank ≠ c.root then [] else [c.rank] }] s

/-! ### What an accepted transfer does next -/

/-- The token of line `i` of an engine command in a message; strands' tokens are below 2^64. -/
def opTok (id i : Nat) : Nat := 2 ^ 64 * (id + 1) + i

/-- The lines of a transfer with one of them sent. -/
def markSent (l : List AqLine) (i : Nat) : List AqLine :=
  l.zipIdx.map fun e => if e.2 = i then { e.1 with sent := true } else e.1

/-- The lines of a transfer with one of them done. -/
def markDone (l : List AqLine) (i : Nat) : List AqLine :=
  l.zipIdx.map fun e => if e.2 = i then { e.1 with done := true } else e.1

/-- An earlier put or signal of the same strand to the same device is still to be performed (R433). -/
def State.sigBlocked (s : State) (o : EngineOp) (dv : BitVec 12) : Bool :=
  s.ops.any fun p => p.slot = o.slot && p.id < o.id &&
    match p.work with
    | .put d _ => d = dv
    | .sig d _ _ _ => d = dv
    | _ => false

/-- The DEVID that a message of a collective to a rank names; the switch is reached through a peer's path (log
entry 32). -/
def Coll.devOf (c : Coll) (rank : Nat) : BitVec 12 :=
  c.devs.getD (if rank < c.n then rank else if c.rank = 0 then 1 else 0) 0

/-- Elements written to a local range from element `at_` on, one byte at a time. -/
def State.putElems (s : State) (r : AqRange) (w at_ : Nat) (l : List Word) : State :=
  (l.zipIdx).foldl (fun s e =>
    (List.range w).foldl (fun s j => s.putLocal (r.pa ((at_ + e.2) * w + j)) 1 (leByte e.1.toNat j).toNat) s) s

/-- The first element of piece `k` in the result, and in WORK, which holds the result from its first element on (R438 to R440;
log entry 44). -/
def Coll.pieceAt (c : Coll) (k : Nat) : Nat :=
  if c.op = 2 then k * c.count else if c.op = 0 && c.alg = 0 then min (k * c.chunk) c.count else 0

/-- Where in WORK the pieces of step `k` arrive: those that are to be combined behind the result, each other one in its place
(log entry 44). -/
def Coll.landsAt (c : Coll) (k key : Nat) : Nat := c.pieceAt key + if c.combines k then c.count else 0

/-- `n` elements of WORK from one on. -/
def State.workElems (s : State) (c : Coll) (at_ n : Nat) : List Word :=
  (s.elemsOf c.work c.bytes (at_ + n)).drop at_

/-- The bytes of some elements as a remote or local range holds them from element `at_` on: address, size and value of each. -/
def elemBytes (r : AqRange) (w at_ : Nat) (l : List Word) : List (Nat × Nat × Nat) :=
  (l.zipIdx).flatMap fun e => (List.range w).map fun j => (r.pa ((at_ + e.2) * w + j), 1, (leByte e.1.toNat j).toNat)

/-- The writes, by line, of the pieces of a pass of step `k` into the WORK of a range. -/
def State.passLines (s : State) (c : Coll) (k : Nat) (p : Pass) (dst : AqRange) : Table (BitVec 512 × BitVec 64) :=
  lineWrites (p.keys.flatMap fun key =>
    elemBytes dst c.bytes (c.landsAt k key) (s.workElems c (c.pieceAt key) (c.pieceLen key)))

/-- The lines of this rank's WORK that arrive in step `k`. -/
def Coll.lines (c : Coll) (k : Nat) : List Nat :=
  match c.takes k with
  | none => []
  | some p => (lineWrites (p.keys.flatMap fun key =>
      elemBytes c.work c.bytes (c.landsAt k key) (List.replicate (c.pieceLen key) 0))).map (·.1)

/-- The messages of a step: lines of a rank's WORK, or the elements for the switch (R438 to R440). -/
def State.sendPass (s : State) (c : Coll) (p : Pass) : State :=
  if p.rank < c.n then
    (s.passLines c c.now p (c.works.getD p.rank ⟨0, []⟩)).zipIdx.foldl (fun s e =>
      s.sendAq (c.devOf p.rank) e.2
        (.collLine c.seq c.now c.rank (BitVec.ofNat 52 (64 * e.1.1)) e.1.2.1 e.1.2.2)) s
  else
    s.sendAq (c.devOf p.rank) 0 (.collReduce c.seq c.rank
      (p.keys.flatMap fun key => s.workElems c (c.pieceAt key) (c.pieceLen key)))

/-- What a rank holds before step 1, in its WORK: its SEND, at its block of an allgather (R438 to R440). -/
def State.beginColl (s : State) (c : Coll) : State :=
  if c.step ≠ 0 || (c.op = 1 && c.rank ≠ c.root) then s
  else s.putElems c.work c.bytes (if c.op = 2 then c.pieceAt c.rank else 0) (s.elemsOf c.send c.bytes c.count)

/-- The present step is complete: what has arrived to be combined is combined with what WORK holds (R438, R439). -/
def State.stepDone (s : State) (c : Coll) : State × Coll :=
  let k := c.now
  match c.takes k with
  | none => (s, { c with step := k, got := [] })
  | some p =>
    let one (s : State) (key : Nat) : State :=
      if c.combines k then
        s.putElems c.work c.bytes (c.pieceAt key)
          (c.merge (s.workElems c (c.pieceAt key) (c.pieceLen key)) (s.workElems c (c.landsAt k key) (c.pieceLen key)))
      else s
    (p.keys.foldl one s, { c with step := k, got := []
                                  contrib := (c.news k p).foldl (fun l r => if l.contains r then l else l ++ [r]) c.contrib })

/-- The next step of a collective begins: its messages are sent, and its timer starts (R441); a step in which nothing arrives
completes. While the device suspends, no step begins (R466); nor does one while a lease that this device granted runs on
WORK (R405). -/
def State.advanceColl (s : State) (c : Coll) : State × Coll :=
  if c.steps < c.now || c.now ≤ c.sentStep || 2 ≤ s.annex.suspState || s.rangeLeased c.work (c.n * c.count * c.bytes) then (s, c)
  else
    let s := s.beginColl c
    let s := match c.gives c.now with
      | some p => s.sendPass c p
      | none => s
    let c := { c with sentStep := c.now, since := s.clk }
    if (c.lines c.now).isEmpty then s.stepDone c else (s, c)

/-- The bytes of a rank's WORK, its result and its status record (R437, R441). -/
def Coll.workBytes (c : Coll) : Nat := c.n * c.count * c.bytes
def Coll.recvBytes (c : Coll) : Nat := (if c.op = 2 then c.n * c.count else c.count) * c.bytes
def Coll.statusBytes (c : Coll) : Nat := 16 + 4 * c.n

/-- The status record (R441), STATUS last. The incarnation of a rank not heard from is left open (log entry 32). -/
def State.collStatus (s : State) (c : Coll) (status failRank : Nat) : State :=
  let inc (r : Nat) : BitVec 16 := (c.incs.find r).getD ((Config.freeWord (s.freeCtr + r)).extractLsb' 0 16)
  let s := { s with freeCtr := s.freeCtr + c.n }
  let ranks := (List.range c.n).flatMap fun r =>
    bytesOf ((inc r).toNat + (if c.contrib.contains r then 2 ^ 16 else 0)) 4
  let body := bytesOf c.step 2 ++ bytesOf failRank 2 ++ bytesOf s.aqtime.toNat 8 ++ ranks
  let put (s : State) (off : Nat) (l : List Byte) : State :=
    (l.zipIdx).foldl (fun s e => s.putLocal (c.status.pa (off + e.2)) 1 e.1.toNat) s
  put (put s 4 body) 0 (bytesOf status 4)

/-- A collective that holds its whole result in WORK: the copy to RECV, and the status record (R440), once no lease of this
device runs on them (R405). -/
def State.finishColl (s : State) (o : EngineOp) (c : Coll) : State :=
  if s.rangeLeased c.recv c.recvBytes || s.rangeLeased c.status c.statusBytes then s
  else
    let free := Config.freeWord s.freeCtr
    let s := { s with freeCtr := s.freeCtr + 1 }
    let s := s.putElems c.recv c.bytes 0 (s.workElems c 0 (c.recvBytes / c.bytes))
    (s.collStatus c 1 (free.toNat % 65536)).finishOp o

/-- A collective aborts (R441): RECV stays, and the record says PARTIAL-ABORT. -/
def State.abortColl (s : State) (o : EngineOp) (c : Coll) (failRank : Nat) (tell : Bool) : State :=
  if s.rangeLeased c.status c.statusBytes then s
  else
    let s := if tell then
        (c.devs.zipIdx).foldl (fun s e => if e.2 = c.rank then s else s.sendAq e.1 0 (.collAbort c.seq)) s
      else s
    (s.collStatus c 2 failRank).finishOp o

/-- The rank that FAILRANK names: a free value where the switch failed (R441; log entry 32). -/
def State.failRank (s : State) (c : Coll) (rank : Nat) : Nat :=
  if rank < c.n then rank else (Config.freeWord s.freeCtr).toNat % 65536

/-- AQSTAT after a failure (R434). -/
def Strand.aqFailed (t : Strand) (cause : Nat) : Strand := { t with aqFail := true, aqCause := BitVec.ofNat 3 cause }

/-- An engine transfer fails (R434): it completes, with AQSTAT and a report; a collective, whose transfer with `rank`
failed, aborts (R441). -/
def State.failOp (s : State) (o : EngineOp) (cause rank : Nat) : State :=
  let s := match s.strand o.slot with
    | some t => s.setStrand o.slot (t.aqFailed cause)
    | none => s
  let s := s.opReport (basinOf (coreOf o.slot)) o { kind := 0x0C }
  match o.work with
  | .put _ _ => s.finishOp o
  | .get _ _ => s.finishOp o
  | .sig _ _ _ _ => s.finishOp o
  | .coll c => { s with freeCtr := s.freeCtr + 1 }.abortColl o c (s.failRank c rank) true
  | _ => s

/-- The row of a scratchpad at a physical address, if it is one. -/
def spadRow (pa : Nat) : List (Nat × Nat) := if pa < 2 ^ 40 then [] else [(pa / 2 ^ 32 % 256, pa % 2 ^ 22 / 64)]

/-- Line `i` of a transfer is sent (R432), by the ports in turn (R428): a put drops the leased copies of its destination
before it sends, and reads the source whole; a source line that cannot be delivered correct fails it (R459; log entry
45). -/
def State.sendLine (s : State) (o : EngineOp) (i : Nat) : State :=
  match o.work with
  | .put dv l =>
    (match l[i]? with
     | some x =>
       if x.sent then s
       else if x.here < 2 ^ 40 && s.lostAt x.here 64 then
         (s.opReport (paBasin x.here) o { kind := 3, addr := x.here }).failOp o 2 0
       else
         let s := (if x.here < 2 ^ 40 then s.corrected (s.migRead x.here) 64 else s.spadWaits o.slot (spadRow x.here)).forgetPeer
           (l.map fun y => (dv, y.remote.toNat / 64))
         (s.sendAq dv i (.writeLine x.remote (s.localLine x.here) (BitVec.allOnes 64) (opTok o.id i))).setOp
           { o with work := .put dv (markSent l i), sentAt := s.clk }
     | none => s)
  | .get dv l =>
    (match l[i]? with
     | some x =>
       if x.sent then s
       else (s.sendAq dv i (.readLine x.remote false [] none (opTok o.id i))).setOp
         { o with work := .get dv (markSent l i), sentAt := s.clk }
     | none => s)
  | _ => s

/-- An outstanding Aqueduct operation goes on (R300, R432, R433, R440): line `part` is sent, a signal that nothing
blocks is sent, a collective takes its next step; what has nothing left completes. -/
def State.advanceAq (s : State) (o : EngineOp) (part : Nat) : State :=
  match o.work with
  | .put _ l => if l.all fun x => x.done then s.finishOp o else s.sendLine o part
  | .get _ l => if l.all fun x => x.done then s.finishOp o else s.sendLine o part
  | .sig dv pa a sent =>
    if sent || s.sigBlocked o dv then s
    else (s.sendAq dv 0 (.addDword pa a (opTok o.id 0))).setOp { o with work := .sig dv pa a true, sentAt := s.clk }
  | .coll c =>
    if c.steps ≤ c.step then s.finishColl o c
    else
      let r := s.advanceColl c
      r.1.setOp { o with work := .coll r.2, sentAt := if c.sentStep < r.2.sentStep then s.clk else o.sentAt }
  | _ => s

/-- The charge of an engine command (R291). -/
def Work.charge : Work → Charge
  | .plane op w d a _ _ _ => [(9, op.canonical w a * d.stack * d.subs.length)]
  | .pprog d _ words => [(10, words.length * d.subs.length)]
  | .plant d _ n bcast _ _ _ => [(11, 1 + 16 * n * (if bcast then 1 else 2 * d.npage))]
  | .fold d _ _ _ _ _ _ => [(12, d.width * 2 * d.npage)]
  | .bank _ _ _ _ x _ => [(13, x.length)]
  | .put _ l => [(14, l.length)]
  | .get _ l => [(14, l.length)]
  | .sig _ _ _ _ => [(14, 1)]
  | .coll c => [(14, c.flits)]
  | _ => []

end Sys2Proof.Machine
end

