-- ==== Sys2Proof/Machine/Issue.lean ====
section
/-! DEFINITION. How a vector-stream instruction runs (R246 to R250, R291, R292, R451): what it captured, its length
check, the weir, its effect or its engine commands, and the vector-stream fault. -/
namespace Sys2Proof.Machine
open Sys2Proof

/-- What a vector-stream instruction does behind the weir (R162, R291): an effect performed at once, with its charge; an
effect on a plane region whose descriptor is read before the weir; or engine commands, whose descriptors are read before
the weir and whose charge stands in them. -/
inductive VAct where
  | now (ch : Charge) (body : State → Res Unit)
  | planes (ch : Charge) (issue : State → Res Desc) (body : Desc → State → Res Unit)
  | later (issue : State → Res (List Work))

/-- A vector-stream instruction under what it captured: the largest width of its vector operands (R248; 0 for none),
its waitc class (R300), and its effect. -/
structure VPlan where
  wmax : Nat
  cls : Nat
  act : VAct

/-- The plan of an instruction, for an environment and the strand at its issue. -/
abbrev Plan := VEnv → Strand → VPlan

/-- The engine commands of an instruction pass the weir together and are accepted, or wait with their descriptors
read (R162, R291). -/
def State.acceptAll (s : State) (l : List Work) : Res Unit :=
  match s.throughWeir (l.flatMap Work.charge) with
  | .ok _ s =>
    let wt := s.self.weirPass.getD 1
    .ok () (l.foldl (fun s w =>
      match w with
      | .fold d tile mode row abase sc _ =>
        s.accept (.fold d tile mode row abase sc wt) (Work.fold d tile mode row abase sc wt).groups
          (if l.length = 2 then some (s.nextId - 1) else none)
      | w => s.accept w w.groups) s)
  | .wait w s => .wait w (s.modSelf fun t => { t with parked := some l })
  | .trap c v s => .trap c v s

/-- What an instruction does, its descriptors read once and then its charge admitted (R162, R291). -/
def VAct.run (a : VAct) (s : State) : Res Unit :=
  match a with
  | .now ch body => (s.throughWeir ch).bind fun _ s => body s
  | .planes ch issue body =>
    (match s.self.descRead with
     | some d => Res.ok d s
     | none => issue s).bind fun d s =>
      ((s.modSelf fun t => { t with descRead := some d }).throughWeir ch).bind fun _ s => body d s
  | .later issue =>
    (match s.self.parked with
     | some l => Res.ok l s
     | none => issue s).bind fun l s => s.acceptAll l

/-- One attempt at a vector-stream instruction: the length check (R248), then its effect, with the accesses of the vector
stream (R397). -/
def State.attempt (s : State) (e : VEnv) (p : VPlan) : Res Unit :=
  if s.self.vlen < e.vn * p.wmax then .trap causeLength 0 s
  else (p.act.run { s with vec := true }).after fun t => { t with vec := s.vec }

/-- A vector-stream instruction has completed: what it held while it waited is dropped. -/
def Strand.vectorDone (t : Strand) : Strand :=
  { t with weirPass := none, parked := none, descRead := none, answers := [], placed := [], openCast := [], faultElem := 0
           rowData := [], resumed := false, wrote := false }

def State.vectorDone (s : State) : State := s.modSelf Strand.vectorDone

/-- The fault record of a vector-stream fault, before any page request (R452). -/
def faultRec (cause : BitVec 8) (va pc : Word) (elem depth : Nat) (word : BitVec 32) : FaultRec :=
  ⟨cause, 0, 0xFF, BitVec.ofNat 8 depth, 0, va, pc, BitVec.ofNat 16 elem, 0, word⟩

/-- The faults whose instruction has completed and is not performed again: the issue-word fault (R298), and the
expired read of a load, by its class (R315; log entry 33). -/
def faultCompletes (c : BitVec 8) (cls : Nat) : Bool := c = causeIssueWord || (c = causeExpired && cls = 1)

/-- A vector-stream fault (R451): the instruction returns to the vector queue with its record, its class counts it
again, and the strand stops until its dump. -/
def State.vectorFault (s : State) (c : BitVec 8) (va : Word) (word : BitVec 32) (e : VEnv) (cls : Nat)
    (issue : Option Issue) : State :=
  (s.dropOnce.leaveWeir s.cur).modSelf fun t =>
    let q : Queued :=
      ⟨word, e.pc, e.cap, issue, cls, 0, va, t.faultElem, issue.isNone && faultCompletes c cls, t.weirPass, t.cur,
        t.hostFault.2⟩
    { (t.modCount cls (· + 1)).vectorDone with
      vq := t.vq ++ [q], faults := [faultRec c va e.pc t.faultElem e.depth word], st := .dumping, inside := none }

/-- A vector-stream instruction of the program that governs `n` further words: it completes, waits at its place, or
faults (R246, R248). -/
def State.runPlan (plan : Plan) (n : Nat) (s : State) : State :=
  let e := s.self.venv
  let p := plan e s.self
  let next (s : State) : State := s.modSelf fun t => t.setPc (t.pc + BitVec.ofNat 64 (4 + 4 * n))
  match s.attempt e p with
  | .ok _ s => next s.vectorDone
  | .wait w s => s.waitOn w
  | .trap c v s => next (s.vectorFault c v s.self.word e p.cls none)

/-- A vector-stream instruction whose fields also meet the static conditions of R249. -/
def State.runVector (i : Instr) (plan : Plan) (s : State) : State :=
  if staticOk i then s.runPlan plan 0 else s.illegal

/-- An effect on the registers of the strand alone. -/
def regPlan (wmax : Nat) (ch : Charge) (f : Strand → Strand) : VPlan :=
  ⟨wmax, 0, .now ch fun s => .ok () (s.modSelf f)⟩

/-- The charge of a class that counts active elements (R291). -/
def activeCharge (cls : Nat) (k : BitVec 3) (e : VEnv) (t : Strand) : Charge := [(cls, e.count (e.act t k))]

/-- A register instruction that is charged by active elements. -/
def activePlan (wmax cls : Nat) (k : BitVec 3) (f : VEnv → Strand → Strand) : Plan :=
  fun e t => regPlan wmax (activeCharge cls k e t) (f e)

/-- A reduction or a permutation, charged by VN. -/
def wholePlan (wmax : Nat) (f : VEnv → Strand → Strand) : Plan := fun e _ => regPlan wmax [(5, e.vn)] (f e)

/-- A mask instruction, charged 1. -/
def maskPlan (f : VEnv → Strand → Strand) : Plan := fun e _ => regPlan 0 [(4, 1)] (f e)

/-- A transfer between a plane region and a vector register, charged by active elements. -/
def planesPlan (wmax cls wait : Nat) (k : BitVec 3) (issue : VEnv → State → Res Desc)
    (f : VEnv → Desc → State → Res Unit) : Plan :=
  fun e t => ⟨wmax, wait, .planes (activeCharge cls k e t) (issue e) (f e)⟩

/-- A vector memory instruction, charged by active elements. -/
def memPlan (wmax cls wait : Nat) (k : BitVec 3) (f : VEnv → State → Res Unit) : Plan :=
  fun e t => ⟨wmax, wait, .now (activeCharge cls k e t) (f e)⟩

/-- An engine command. -/
def enginePlan (wait : Nat) (f : VEnv → State → Res (List Work)) : Plan := fun e _ => ⟨0, wait, .later (f e)⟩

end Sys2Proof.Machine
end

