-- ==== Sys2Proof/Machine/VecArith.lean ====
section
/-! DEFINITION. The vector instructions of majors 0x21 to 0x2A (R192 to R195, R253 to R270): for each one its plan,
which gives the largest operand width (R248), the weir units (R291) and the effect, and its meaning. -/
namespace Sys2Proof.Machine
open Sys2Proof

/-! ### Masks (R254) -/

def planKand (d : BitVec 3) (a : BitVec 3) (b : BitVec 3) : Plan := maskPlan (maskOp d a b fun x y => x && y)
def execKand (d : BitVec 3) (a : BitVec 3) (b : BitVec 3) (s : State) : Result :=
  .next (s.runVector (.kand d a b) (planKand d a b))

def planKor (d : BitVec 3) (a : BitVec 3) (b : BitVec 3) : Plan := maskPlan (maskOp d a b fun x y => x || y)
def execKor (d : BitVec 3) (a : BitVec 3) (b : BitVec 3) (s : State) : Result :=
  .next (s.runVector (.kor d a b) (planKor d a b))

def planKxor (d : BitVec 3) (a : BitVec 3) (b : BitVec 3) : Plan := maskPlan (maskOp d a b fun x y => x != y)
def execKxor (d : BitVec 3) (a : BitVec 3) (b : BitVec 3) (s : State) : Result :=
  .next (s.runVector (.kxor d a b) (planKxor d a b))

def planKandn (d : BitVec 3) (a : BitVec 3) (b : BitVec 3) : Plan := maskPlan (maskOp d a b fun x y => x && !y)
def execKandn (d : BitVec 3) (a : BitVec 3) (b : BitVec 3) (s : State) : Result :=
  .next (s.runVector (.kandn d a b) (planKandn d a b))

def planKnot (d : BitVec 3) (a : BitVec 3) : Plan := maskPlan (maskOp d a a fun x _ => !x)
def execKnot (d : BitVec 3) (a : BitVec 3) (s : State) : Result := .next (s.runVector (.knot d a) (planKnot d a))

def planKmov (d : BitVec 3) (a : BitVec 3) : Plan := maskPlan (maskOp d a a fun x _ => x)
def execKmov (d : BitVec 3) (a : BitVec 3) (s : State) : Result := .next (s.runVector (.kmov d a) (planKmov d a))

def planKpop (d : BitVec 5) (a : BitVec 3) : Plan := maskPlan (maskPop d a)
def execKpop (d : BitVec 5) (a : BitVec 3) (s : State) : Result := .next (s.runVector (.kpop d a) (planKpop d a))

def planKfirst (d : BitVec 5) (a : BitVec 3) : Plan := maskPlan (maskFirst d a)
def execKfirst (d : BitVec 5) (a : BitVec 3) (s : State) : Result :=
  .next (s.runVector (.kfirst d a) (planKfirst d a))

def planKset (d : BitVec 3) (a : BitVec 5) : Plan := maskPlan (maskSet d a)
def execKset (d : BitVec 3) (a : BitVec 5) (s : State) : Result := .next (s.runVector (.kset d a) (planKset d a))

def planKshl (d : BitVec 3) (a : BitVec 3) (s : BitVec 5) : Plan := maskPlan (maskShl d a s.toNat)
def execKshl (d : BitVec 3) (a : BitVec 3) (s : BitVec 5) (st : State) : Result :=
  .next (st.runVector (.kshl d a s) (planKshl d a s))

def planKshr (d : BitVec 3) (a : BitVec 3) (s : BitVec 5) : Plan := maskPlan (maskShr d a s.toNat)
def execKshr (d : BitVec 3) (a : BitVec 3) (s : BitVec 5) (st : State) : Result :=
  .next (st.runVector (.kshr d a s) (planKshr d a s))

/-! ### Integer (R256 to R261) -/

def planVadd (d : BitVec 5) (a : BitVec 5) (b : BitVec 5) (k : BitVec 3) (t : BitVec 3) : Plan :=
  activePlan (iwidth t) 0 k (intOp d a b k t fun _ x y _ => x + y)
def execVadd (d : BitVec 5) (a : BitVec 5) (b : BitVec 5) (k : BitVec 3) (t : BitVec 3) (s : State) : Result :=
  .next (s.runVector (.vadd d a b k t) (planVadd d a b k t))

def planVsub (d : BitVec 5) (a : BitVec 5) (b : BitVec 5) (k : BitVec 3) (t : BitVec 3) : Plan :=
  activePlan (iwidth t) 0 k (intOp d a b k t fun _ x y _ => (x : Int) - y)
def execVsub (d : BitVec 5) (a : BitVec 5) (b : BitVec 5) (k : BitVec 3) (t : BitVec 3) (s : State) : Result :=
  .next (s.runVector (.vsub d a b k t) (planVsub d a b k t))

def planVrsub (d : BitVec 5) (a : BitVec 5) (b : BitVec 5) (k : BitVec 3) (t : BitVec 3) : Plan :=
  activePlan (iwidth t) 0 k (intOp d a b k t fun _ x y _ => (y : Int) - x)
def execVrsub (d : BitVec 5) (a : BitVec 5) (b : BitVec 5) (k : BitVec 3) (t : BitVec 3) (s : State) : Result :=
  .next (s.runVector (.vrsub d a b k t) (planVrsub d a b k t))

def planVmul (d : BitVec 5) (a : BitVec 5) (b : BitVec 5) (k : BitVec 3) (t : BitVec 3) : Plan :=
  activePlan (iwidth t) 1 k (intOp d a b k t fun w x y _ => signedOf x w * signedOf y w)
def execVmul (d : BitVec 5) (a : BitVec 5) (b : BitVec 5) (k : BitVec 3) (t : BitVec 3) (s : State) : Result :=
  .next (s.runVector (.vmul d a b k t) (planVmul d a b k t))

def planVmulh (d : BitVec 5) (a : BitVec 5) (b : BitVec 5) (k : BitVec 3) (t : BitVec 3) : Plan :=
  activePlan (iwidth t) 1 k (intOp d a b k t fun w x y _ => signedOf x w * signedOf y w / (2 ^ w : Nat))
def execVmulh (d : BitVec 5) (a : BitVec 5) (b : BitVec 5) (k : BitVec 3) (t : BitVec 3) (s : State) : Result :=
  .next (s.runVector (.vmulh d a b k t) (planVmulh d a b k t))

def planVmulhn (d : BitVec 5) (a : BitVec 5) (b : BitVec 5) (k : BitVec 3) (t : BitVec 3) : Plan :=
  activePlan (iwidth t) 1 k (intOp d a b k t fun w x y _ => (x * y / 2 ^ w : Nat))
def execVmulhn (d : BitVec 5) (a : BitVec 5) (b : BitVec 5) (k : BitVec 3) (t : BitVec 3) (s : State) : Result :=
  .next (s.runVector (.vmulhn d a b k t) (planVmulhn d a b k t))

def planVmadd (d : BitVec 5) (a : BitVec 5) (b : BitVec 5) (k : BitVec 3) (t : BitVec 3) : Plan :=
  activePlan (iwidth t) 1 k (intOp d a b k t fun w x y z => signedOf x w * signedOf y w + signedOf z w)
def execVmadd (d : BitVec 5) (a : BitVec 5) (b : BitVec 5) (k : BitVec 3) (t : BitVec 3) (s : State) : Result :=
  .next (s.runVector (.vmadd d a b k t) (planVmadd d a b k t))

/-- vmin. R291 names no class for `vmin`, `vmax`, `vminn` and `vmaxn`; the model charges them in class 0, with the integer
compares (log entry 89). -/
def planVmin (d : BitVec 5) (a : BitVec 5) (b : BitVec 5) (k : BitVec 3) (t : BitVec 3) : Plan :=
  activePlan (iwidth t) 0 k (intOp d a b k t fun w x y _ => min (signedOf x w) (signedOf y w))
def execVmin (d : BitVec 5) (a : BitVec 5) (b : BitVec 5) (k : BitVec 3) (t : BitVec 3) (s : State) : Result :=
  .next (s.runVector (.vmin d a b k t) (planVmin d a b k t))

def planVmax (d : BitVec 5) (a : BitVec 5) (b : BitVec 5) (k : BitVec 3) (t : BitVec 3) : Plan :=
  activePlan (iwidth t) 0 k (intOp d a b k t fun w x y _ => max (signedOf x w) (signedOf y w))
def execVmax (d : BitVec 5) (a : BitVec 5) (b : BitVec 5) (k : BitVec 3) (t : BitVec 3) (s : State) : Result :=
  .next (s.runVector (.vmax d a b k t) (planVmax d a b k t))

def planVminn (d : BitVec 5) (a : BitVec 5) (b : BitVec 5) (k : BitVec 3) (t : BitVec 3) : Plan :=
  activePlan (iwidth t) 0 k (intOp d a b k t fun _ x y _ => (min x y : Nat))
def execVminn (d : BitVec 5) (a : BitVec 5) (b : BitVec 5) (k : BitVec 3) (t : BitVec 3) (s : State) : Result :=
  .next (s.runVector (.vminn d a b k t) (planVminn d a b k t))

def planVmaxn (d : BitVec 5) (a : BitVec 5) (b : BitVec 5) (k : BitVec 3) (t : BitVec 3) : Plan :=
  activePlan (iwidth t) 0 k (intOp d a b k t fun _ x y _ => (max x y : Nat))
def execVmaxn (d : BitVec 5) (a : BitVec 5) (b : BitVec 5) (k : BitVec 3) (t : BitVec 3) (s : State) : Result :=
  .next (s.runVector (.vmaxn d a b k t) (planVmaxn d a b k t))

def planVand (d : BitVec 5) (a : BitVec 5) (b : BitVec 5) (k : BitVec 3) (t : BitVec 3) : Plan :=
  activePlan (iwidth t) 0 k (intOp d a b k t fun _ x y _ => (x &&& y : Nat))
def execVand (d : BitVec 5) (a : BitVec 5) (b : BitVec 5) (k : BitVec 3) (t : BitVec 3) (s : State) : Result :=
  .next (s.runVector (.vand d a b k t) (planVand d a b k t))

def planVor (d : BitVec 5) (a : BitVec 5) (b : BitVec 5) (k : BitVec 3) (t : BitVec 3) : Plan :=
  activePlan (iwidth t) 0 k (intOp d a b k t fun _ x y _ => (x ||| y : Nat))
def execVor (d : BitVec 5) (a : BitVec 5) (b : BitVec 5) (k : BitVec 3) (t : BitVec 3) (s : State) : Result :=
  .next (s.runVector (.vor d a b k t) (planVor d a b k t))

def planVxor (d : BitVec 5) (a : BitVec 5) (b : BitVec 5) (k : BitVec 3) (t : BitVec 3) : Plan :=
  activePlan (iwidth t) 0 k (intOp d a b k t fun _ x y _ => (x ^^^ y : Nat))
def execVxor (d : BitVec 5) (a : BitVec 5) (b : BitVec 5) (k : BitVec 3) (t : BitVec 3) (s : State) : Result :=
  .next (s.runVector (.vxor d a b k t) (planVxor d a b k t))

def planVsll (d : BitVec 5) (a : BitVec 5) (b : BitVec 5) (k : BitVec 3) (t : BitVec 3) : Plan :=
  activePlan (iwidth t) 0 k (intOp d a b k t fun w x y _ => (x * 2 ^ (y % w) : Nat))
def execVsll (d : BitVec 5) (a : BitVec 5) (b : BitVec 5) (k : BitVec 3) (t : BitVec 3) (s : State) : Result :=
  .next (s.runVector (.vsll d a b k t) (planVsll d a b k t))

def planVsrl (d : BitVec 5) (a : BitVec 5) (b : BitVec 5) (k : BitVec 3) (t : BitVec 3) : Plan :=
  activePlan (iwidth t) 0 k (intOp d a b k t fun w x y _ => (x / 2 ^ (y % w) : Nat))
def execVsrl (d : BitVec 5) (a : BitVec 5) (b : BitVec 5) (k : BitVec 3) (t : BitVec 3) (s : State) : Result :=
  .next (s.runVector (.vsrl d a b k t) (planVsrl d a b k t))

def planVsra (d : BitVec 5) (a : BitVec 5) (b : BitVec 5) (k : BitVec 3) (t : BitVec 3) : Plan :=
  activePlan (iwidth t) 0 k (intOp d a b k t fun w x y _ => signedOf x w / (2 ^ (y % w) : Nat))
def execVsra (d : BitVec 5) (a : BitVec 5) (b : BitVec 5) (k : BitVec 3) (t : BitVec 3) (s : State) : Result :=
  .next (s.runVector (.vsra d a b k t) (planVsra d a b k t))

def planVsadd (d : BitVec 5) (a : BitVec 5) (b : BitVec 5) (k : BitVec 3) (t : BitVec 3) : Plan :=
  activePlan (iwidth t) 0 k (satOp d a b k t fun x y => x + y)
def execVsadd (d : BitVec 5) (a : BitVec 5) (b : BitVec 5) (k : BitVec 3) (t : BitVec 3) (s : State) : Result :=
  .next (s.runVector (.vsadd d a b k t) (planVsadd d a b k t))

def planVssub (d : BitVec 5) (a : BitVec 5) (b : BitVec 5) (k : BitVec 3) (t : BitVec 3) : Plan :=
  activePlan (iwidth t) 0 k (satOp d a b k t fun x y => x - y)
def execVssub (d : BitVec 5) (a : BitVec 5) (b : BitVec 5) (k : BitVec 3) (t : BitVec 3) (s : State) : Result :=
  .next (s.runVector (.vssub d a b k t) (planVssub d a b k t))

def planVadc (d : BitVec 5) (a : BitVec 5) (b : BitVec 5) (k : BitVec 3) (t : BitVec 3) : Plan :=
  fun e _ => regPlan (iwidth t) [(0, e.vn)] (carryOp d a b k t false e)
def execVadc (d : BitVec 5) (a : BitVec 5) (b : BitVec 5) (k : BitVec 3) (t : BitVec 3) (s : State) : Result :=
  .next (s.runVector (.vadc d a b k t) (planVadc d a b k t))

def planVsbc (d : BitVec 5) (a : BitVec 5) (b : BitVec 5) (k : BitVec 3) (t : BitVec 3) : Plan :=
  fun e _ => regPlan (iwidth t) [(0, e.vn)] (carryOp d a b k t true e)
def execVsbc (d : BitVec 5) (a : BitVec 5) (b : BitVec 5) (k : BitVec 3) (t : BitVec 3) (s : State) : Result :=
  .next (s.runVector (.vsbc d a b k t) (planVsbc d a b k t))

def planVmerge (d : BitVec 5) (a : BitVec 5) (b : BitVec 5) (k : BitVec 3) (t : BitVec 3) : Plan :=
  activePlan (iwidth t) 0 k (mergeOp d a b k t)
def execVmerge (d : BitVec 5) (a : BitVec 5) (b : BitVec 5) (k : BitVec 3) (t : BitVec 3) (s : State) : Result :=
  .next (s.runVector (.vmerge d a b k t) (planVmerge d a b k t))

def planVmov (d : BitVec 5) (a : BitVec 5) (k : BitVec 3) (t : BitVec 3) : Plan :=
  activePlan (iwidth t) 0 k (intOp1 d a k t fun _ x => x)
def execVmov (d : BitVec 5) (a : BitVec 5) (k : BitVec 3) (t : BitVec 3) (s : State) : Result :=
  .next (s.runVector (.vmov d a k t) (planVmov d a k t))

def planVsext (d : BitVec 5) (a : BitVec 5) (s : BitVec 3) (k : BitVec 3) (t : BitVec 3) : Plan :=
  activePlan (max (iwidth s) (iwidth t)) 0 k (extendOp d a s k t true)
def execVsext (d : BitVec 5) (a : BitVec 5) (s : BitVec 3) (k : BitVec 3) (t : BitVec 3) (st : State) : Result :=
  .next (st.runVector (.vsext d a s k t) (planVsext d a s k t))

def planVzext (d : BitVec 5) (a : BitVec 5) (s : BitVec 3) (k : BitVec 3) (t : BitVec 3) : Plan :=
  activePlan (max (iwidth s) (iwidth t)) 0 k (extendOp d a s k t false)
def execVzext (d : BitVec 5) (a : BitVec 5) (s : BitVec 3) (k : BitVec 3) (t : BitVec 3) (st : State) : Result :=
  .next (st.runVector (.vzext d a s k t) (planVzext d a s k t))

def planVclz (d : BitVec 5) (a : BitVec 5) (k : BitVec 3) (t : BitVec 3) : Plan :=
  activePlan (iwidth t) 0 k (intOp1 d a k t fun w x => (clzW w x : Nat))
def execVclz (d : BitVec 5) (a : BitVec 5) (k : BitVec 3) (t : BitVec 3) (s : State) : Result :=
  .next (s.runVector (.vclz d a k t) (planVclz d a k t))

def planVpopc (d : BitVec 5) (a : BitVec 5) (k : BitVec 3) (t : BitVec 3) : Plan :=
  activePlan (iwidth t) 0 k (intOp1 d a k t fun w x => (popW w x : Nat))
def execVpopc (d : BitVec 5) (a : BitVec 5) (k : BitVec 3) (t : BitVec 3) (s : State) : Result :=
  .next (s.runVector (.vpopc d a k t) (planVpopc d a k t))

def planVsllImm (d : BitVec 5) (a : BitVec 5) (s : BitVec 5) (k : BitVec 3) (t : BitVec 3) : Plan :=
  activePlan (iwidth t) 0 k (intOp1 d a k t fun _ x => (x * 2 ^ s.toNat : Nat))
def execVsllImm (d : BitVec 5) (a : BitVec 5) (s : BitVec 5) (k : BitVec 3) (t : BitVec 3) (st : State) : Result :=
  .next (st.runVector (.vsllImm d a s k t) (planVsllImm d a s k t))

def planVsrlImm (d : BitVec 5) (a : BitVec 5) (s : BitVec 5) (k : BitVec 3) (t : BitVec 3) : Plan :=
  activePlan (iwidth t) 0 k (intOp1 d a k t fun _ x => (x / 2 ^ s.toNat : Nat))
def execVsrlImm (d : BitVec 5) (a : BitVec 5) (s : BitVec 5) (k : BitVec 3) (t : BitVec 3) (st : State) : Result :=
  .next (st.runVector (.vsrlImm d a s k t) (planVsrlImm d a s k t))

def planVsraImm (d : BitVec 5) (a : BitVec 5) (s : BitVec 5) (k : BitVec 3) (t : BitVec 3) : Plan :=
  activePlan (iwidth t) 0 k (intOp1 d a k t fun w x => signedOf x w / (2 ^ s.toNat : Nat))
def execVsraImm (d : BitVec 5) (a : BitVec 5) (s : BitVec 5) (k : BitVec 3) (t : BitVec 3) (st : State) : Result :=
  .next (st.runVector (.vsraImm d a s k t) (planVsraImm d a s k t))

def planVcmpEq (d : BitVec 3) (a : BitVec 5) (b : BitVec 5) (k : BitVec 3) (t : BitVec 3) : Plan :=
  activePlan (iwidth t) 0 k (cmpOp d a b k t fun _ x y => x = y)
def execVcmpEq (d : BitVec 3) (a : BitVec 5) (b : BitVec 5) (k : BitVec 3) (t : BitVec 3) (s : State) : Result :=
  .next (s.runVector (.vcmpEq d a b k t) (planVcmpEq d a b k t))

def planVcmpNe (d : BitVec 3) (a : BitVec 5) (b : BitVec 5) (k : BitVec 3) (t : BitVec 3) : Plan :=
  activePlan (iwidth t) 0 k (cmpOp d a b k t fun _ x y => x ≠ y)
def execVcmpNe (d : BitVec 3) (a : BitVec 5) (b : BitVec 5) (k : BitVec 3) (t : BitVec 3) (s : State) : Result :=
  .next (s.runVector (.vcmpNe d a b k t) (planVcmpNe d a b k t))

def planVcmpLt (d : BitVec 3) (a : BitVec 5) (b : BitVec 5) (k : BitVec 3) (t : BitVec 3) : Plan :=
  activePlan (iwidth t) 0 k (cmpOp d a b k t fun w x y => signedOf x w < signedOf y w)
def execVcmpLt (d : BitVec 3) (a : BitVec 5) (b : BitVec 5) (k : BitVec 3) (t : BitVec 3) (s : State) : Result :=
  .next (s.runVector (.vcmpLt d a b k t) (planVcmpLt d a b k t))

def planVcmpLe (d : BitVec 3) (a : BitVec 5) (b : BitVec 5) (k : BitVec 3) (t : BitVec 3) : Plan :=
  activePlan (iwidth t) 0 k (cmpOp d a b k t fun w x y => signedOf x w ≤ signedOf y w)
def execVcmpLe (d : BitVec 3) (a : BitVec 5) (b : BitVec 5) (k : BitVec 3) (t : BitVec 3) (s : State) : Result :=
  .next (s.runVector (.vcmpLe d a b k t) (planVcmpLe d a b k t))

def planVcmpLtn (d : BitVec 3) (a : BitVec 5) (b : BitVec 5) (k : BitVec 3) (t : BitVec 3) : Plan :=
  activePlan (iwidth t) 0 k (cmpOp d a b k t fun _ x y => x < y)
def execVcmpLtn (d : BitVec 3) (a : BitVec 5) (b : BitVec 5) (k : BitVec 3) (t : BitVec 3) (s : State) : Result :=
  .next (s.runVector (.vcmpLtn d a b k t) (planVcmpLtn d a b k t))

def planVcmpLen (d : BitVec 3) (a : BitVec 5) (b : BitVec 5) (k : BitVec 3) (t : BitVec 3) : Plan :=
  activePlan (iwidth t) 0 k (cmpOp d a b k t fun _ x y => x ≤ y)
def execVcmpLen (d : BitVec 3) (a : BitVec 5) (b : BitVec 5) (k : BitVec 3) (t : BitVec 3) (s : State) : Result :=
  .next (s.runVector (.vcmpLen d a b k t) (planVcmpLen d a b k t))

def planVnarrowWrap (d : BitVec 5) (a : BitVec 5) (s : BitVec 3) (k : BitVec 3) (t : BitVec 3) : Plan :=
  activePlan (max (iwidth s) (iwidth t)) 0 k (narrowOp d a s k t false)
def execVnarrowWrap (d : BitVec 5) (a : BitVec 5) (s : BitVec 3) (k : BitVec 3) (t : BitVec 3) (st : State) : Result :=
  .next (st.runVector (.vnarrowWrap d a s k t) (planVnarrowWrap d a s k t))

def planVnarrowSat (d : BitVec 5) (a : BitVec 5) (s : BitVec 3) (k : BitVec 3) (t : BitVec 3) : Plan :=
  activePlan (max (iwidth s) (iwidth t)) 0 k (narrowOp d a s k t true)
def execVnarrowSat (d : BitVec 5) (a : BitVec 5) (s : BitVec 3) (k : BitVec 3) (t : BitVec 3) (st : State) : Result :=
  .next (st.runVector (.vnarrowSat d a s k t) (planVnarrowSat d a s k t))

/-! ### Floating point (R262 to R265) -/

def planVfadd (d : BitVec 5) (a : BitVec 5) (b : BitVec 5) (k : BitVec 3) (t : BitVec 3) : Plan :=
  activePlan ((FFmt.ofCode t.toNat).width) 2 k (floatOp d a b k t fun f m x y _ => f.add m x y)
def execVfadd (d : BitVec 5) (a : BitVec 5) (b : BitVec 5) (k : BitVec 3) (t : BitVec 3) (s : State) : Result :=
  .next (s.runVector (.vfadd d a b k t) (planVfadd d a b k t))

def planVfsub (d : BitVec 5) (a : BitVec 5) (b : BitVec 5) (k : BitVec 3) (t : BitVec 3) : Plan :=
  activePlan ((FFmt.ofCode t.toNat).width) 2 k (floatOp d a b k t fun f m x y _ => f.sub m x y)
def execVfsub (d : BitVec 5) (a : BitVec 5) (b : BitVec 5) (k : BitVec 3) (t : BitVec 3) (s : State) : Result :=
  .next (s.runVector (.vfsub d a b k t) (planVfsub d a b k t))

def planVfmul (d : BitVec 5) (a : BitVec 5) (b : BitVec 5) (k : BitVec 3) (t : BitVec 3) : Plan :=
  activePlan ((FFmt.ofCode t.toNat).width) 2 k (floatOp d a b k t fun f m x y _ => f.mul m x y)
def execVfmul (d : BitVec 5) (a : BitVec 5) (b : BitVec 5) (k : BitVec 3) (t : BitVec 3) (s : State) : Result :=
  .next (s.runVector (.vfmul d a b k t) (planVfmul d a b k t))

def planVfdiv (d : BitVec 5) (a : BitVec 5) (b : BitVec 5) (k : BitVec 3) (t : BitVec 3) : Plan :=
  activePlan ((FFmt.ofCode t.toNat).width) 3 k (floatOp d a b k t fun f m x y _ => f.div m x y)
def execVfdiv (d : BitVec 5) (a : BitVec 5) (b : BitVec 5) (k : BitVec 3) (t : BitVec 3) (s : State) : Result :=
  .next (s.runVector (.vfdiv d a b k t) (planVfdiv d a b k t))

def planVfsqrt (d : BitVec 5) (a : BitVec 5) (k : BitVec 3) (t : BitVec 3) : Plan :=
  activePlan ((FFmt.ofCode t.toNat).width) 3 k (floatOp1 d a k t fun f m x => f.sqrt m x)
def execVfsqrt (d : BitVec 5) (a : BitVec 5) (k : BitVec 3) (t : BitVec 3) (s : State) : Result :=
  .next (s.runVector (.vfsqrt d a k t) (planVfsqrt d a k t))

def planVfma (d : BitVec 5) (a : BitVec 5) (b : BitVec 5) (k : BitVec 3) (t : BitVec 3) : Plan :=
  activePlan ((FFmt.ofCode t.toNat).width) 2 k (floatOp d a b k t fun f m x y z => f.fma m x y z)
def execVfma (d : BitVec 5) (a : BitVec 5) (b : BitVec 5) (k : BitVec 3) (t : BitVec 3) (s : State) : Result :=
  .next (s.runVector (.vfma d a b k t) (planVfma d a b k t))

def planVfnma (d : BitVec 5) (a : BitVec 5) (b : BitVec 5) (k : BitVec 3) (t : BitVec 3) : Plan :=
  activePlan ((FFmt.ofCode t.toNat).width) 2 k (floatOp d a b k t fun f m x y z => f.fma m x.negate y z)
def execVfnma (d : BitVec 5) (a : BitVec 5) (b : BitVec 5) (k : BitVec 3) (t : BitVec 3) (s : State) : Result :=
  .next (s.runVector (.vfnma d a b k t) (planVfnma d a b k t))

def planVfmin (d : BitVec 5) (a : BitVec 5) (b : BitVec 5) (k : BitVec 3) (t : BitVec 3) : Plan :=
  activePlan ((FFmt.ofCode t.toNat).width) 2 k (floatMinMax false d a b k t)
def execVfmin (d : BitVec 5) (a : BitVec 5) (b : BitVec 5) (k : BitVec 3) (t : BitVec 3) (s : State) : Result :=
  .next (s.runVector (.vfmin d a b k t) (planVfmin d a b k t))

def planVfmax (d : BitVec 5) (a : BitVec 5) (b : BitVec 5) (k : BitVec 3) (t : BitVec 3) : Plan :=
  activePlan ((FFmt.ofCode t.toNat).width) 2 k (floatMinMax true d a b k t)
def execVfmax (d : BitVec 5) (a : BitVec 5) (b : BitVec 5) (k : BitVec 3) (t : BitVec 3) (s : State) : Result :=
  .next (s.runVector (.vfmax d a b k t) (planVfmax d a b k t))

def planVfexp2 (d : BitVec 5) (a : BitVec 5) (k : BitVec 3) (t : BitVec 3) : Plan :=
  activePlan ((FFmt.ofCode t.toNat).width) 3 k (floatOp1 d a k t fun f _ x => f.exp2 x)
def execVfexp2 (d : BitVec 5) (a : BitVec 5) (k : BitVec 3) (t : BitVec 3) (s : State) : Result :=
  .next (s.runVector (.vfexp2 d a k t) (planVfexp2 d a k t))

def planVfrsqrt (d : BitVec 5) (a : BitVec 5) (k : BitVec 3) (t : BitVec 3) : Plan :=
  activePlan ((FFmt.ofCode t.toNat).width) 3 k (floatOp1 d a k t fun f _ x => f.rsqrt x)
def execVfrsqrt (d : BitVec 5) (a : BitVec 5) (k : BitVec 3) (t : BitVec 3) (s : State) : Result :=
  .next (s.runVector (.vfrsqrt d a k t) (planVfrsqrt d a k t))

def planVfcvt (d : BitVec 5) (a : BitVec 5) (s : BitVec 2) (k : BitVec 3) (t : BitVec 3) : Plan :=
  activePlan (max (FFmt.ofCode s.toNat).width (FFmt.ofCode t.toNat).width) 2 k (cvtFF d a s k t)
def execVfcvt (d : BitVec 5) (a : BitVec 5) (s : BitVec 2) (k : BitVec 3) (t : BitVec 3) (st : State) : Result :=
  .next (st.runVector (.vfcvt d a s k t) (planVfcvt d a s k t))

def planVfcvtIntToFloat (d : BitVec 5) (a : BitVec 5) (s : BitVec 3) (k : BitVec 3) (t : BitVec 3) : Plan :=
  activePlan (max (iwidth s) (FFmt.ofCode t.toNat).width) 2 k (cvtIF d a s k t)
def execVfcvtIntToFloat (d : BitVec 5) (a : BitVec 5) (s : BitVec 3) (k : BitVec 3) (t : BitVec 3) (st : State) : Result :=
  .next (st.runVector (.vfcvtIntToFloat d a s k t) (planVfcvtIntToFloat d a s k t))

def planVfcvtFloatToInt (d : BitVec 5) (a : BitVec 5) (s : BitVec 2) (k : BitVec 3) (t : BitVec 3) : Plan :=
  activePlan (max (FFmt.ofCode s.toNat).width (iwidth t)) 2 k (cvtFI d a s k t)
def execVfcvtFloatToInt (d : BitVec 5) (a : BitVec 5) (s : BitVec 2) (k : BitVec 3) (t : BitVec 3) (st : State) : Result :=
  .next (st.runVector (.vfcvtFloatToInt d a s k t) (planVfcvtFloatToInt d a s k t))

def planVfcmpEq (d : BitVec 3) (a : BitVec 5) (b : BitVec 5) (k : BitVec 3) (t : BitVec 3) : Plan :=
  activePlan ((FFmt.ofCode t.toNat).width) 2 k (fcmpOp d a b k t 0 false)
def execVfcmpEq (d : BitVec 3) (a : BitVec 5) (b : BitVec 5) (k : BitVec 3) (t : BitVec 3) (s : State) : Result :=
  .next (s.runVector (.vfcmpEq d a b k t) (planVfcmpEq d a b k t))

def planVfcmpNe (d : BitVec 3) (a : BitVec 5) (b : BitVec 5) (k : BitVec 3) (t : BitVec 3) : Plan :=
  activePlan ((FFmt.ofCode t.toNat).width) 2 k (fcmpOp d a b k t 0 true)
def execVfcmpNe (d : BitVec 3) (a : BitVec 5) (b : BitVec 5) (k : BitVec 3) (t : BitVec 3) (s : State) : Result :=
  .next (s.runVector (.vfcmpNe d a b k t) (planVfcmpNe d a b k t))

def planVfcmpLt (d : BitVec 3) (a : BitVec 5) (b : BitVec 5) (k : BitVec 3) (t : BitVec 3) : Plan :=
  activePlan ((FFmt.ofCode t.toNat).width) 2 k (fcmpOp d a b k t 1 false)
def execVfcmpLt (d : BitVec 3) (a : BitVec 5) (b : BitVec 5) (k : BitVec 3) (t : BitVec 3) (s : State) : Result :=
  .next (s.runVector (.vfcmpLt d a b k t) (planVfcmpLt d a b k t))

def planVfcmpLe (d : BitVec 3) (a : BitVec 5) (b : BitVec 5) (k : BitVec 3) (t : BitVec 3) : Plan :=
  activePlan ((FFmt.ofCode t.toNat).width) 2 k (fcmpOp d a b k t 2 false)
def execVfcmpLe (d : BitVec 3) (a : BitVec 5) (b : BitVec 5) (k : BitVec 3) (t : BitVec 3) (s : State) : Result :=
  .next (s.runVector (.vfcmpLe d a b k t) (planVfcmpLe d a b k t))

def planVfcmpUn (d : BitVec 3) (a : BitVec 5) (b : BitVec 5) (k : BitVec 3) (t : BitVec 3) : Plan :=
  activePlan ((FFmt.ofCode t.toNat).width) 2 k (fcmpOp d a b k t 3 false)
def execVfcmpUn (d : BitVec 3) (a : BitVec 5) (b : BitVec 5) (k : BitVec 3) (t : BitVec 3) (s : State) : Result :=
  .next (s.runVector (.vfcmpUn d a b k t) (planVfcmpUn d a b k t))

/-! ### Reductions (R266) -/

def planVredsumWrap (d : BitVec 5) (a : BitVec 5) (s : BitVec 5) (k : BitVec 3) (t : BitVec 3) : Plan :=
  wholePlan (iwidth t) (redInt d a s k t (· + ·) false 0)
def execVredsumWrap (d : BitVec 5) (a : BitVec 5) (s : BitVec 5) (k : BitVec 3) (t : BitVec 3) (st : State) : Result :=
  .next (st.runVector (.vredsumWrap d a s k t) (planVredsumWrap d a s k t))

def planVredsumSat (d : BitVec 5) (a : BitVec 5) (s : BitVec 5) (k : BitVec 3) (t : BitVec 3) : Plan :=
  wholePlan (iwidth t) (redInt d a s k t (· + ·) true 0)
def execVredsumSat (d : BitVec 5) (a : BitVec 5) (s : BitVec 5) (k : BitVec 3) (t : BitVec 3) (st : State) : Result :=
  .next (st.runVector (.vredsumSat d a s k t) (planVredsumSat d a s k t))

def planVredmin (d : BitVec 5) (a : BitVec 5) (s : BitVec 5) (k : BitVec 3) (t : BitVec 3) : Plan :=
  wholePlan (iwidth t) (redInt d a s k t min false (intMax (tyUnsigned t) (iwidth t)))
def execVredmin (d : BitVec 5) (a : BitVec 5) (s : BitVec 5) (k : BitVec 3) (t : BitVec 3) (st : State) : Result :=
  .next (st.runVector (.vredmin d a s k t) (planVredmin d a s k t))

def planVredmax (d : BitVec 5) (a : BitVec 5) (s : BitVec 5) (k : BitVec 3) (t : BitVec 3) : Plan :=
  wholePlan (iwidth t) (redInt d a s k t max false (intMin (tyUnsigned t) (iwidth t)))
def execVredmax (d : BitVec 5) (a : BitVec 5) (s : BitVec 5) (k : BitVec 3) (t : BitVec 3) (st : State) : Result :=
  .next (st.runVector (.vredmax d a s k t) (planVredmax d a s k t))

def planVfredsum (d : BitVec 5) (a : BitVec 5) (s : BitVec 5) (k : BitVec 3) (t : BitVec 3) : Plan :=
  wholePlan ((FFmt.ofCode t.toNat).width) (redFloatSum d a s k t)
def execVfredsum (d : BitVec 5) (a : BitVec 5) (s : BitVec 5) (k : BitVec 3) (t : BitVec 3) (st : State) : Result :=
  .next (st.runVector (.vfredsum d a s k t) (planVfredsum d a s k t))

def planVfredmax (d : BitVec 5) (a : BitVec 5) (s : BitVec 5) (k : BitVec 3) (t : BitVec 3) : Plan :=
  wholePlan ((FFmt.ofCode t.toNat).width) (redFloatMax d a s k t)
def execVfredmax (d : BitVec 5) (a : BitVec 5) (s : BitVec 5) (k : BitVec 3) (t : BitVec 3) (st : State) : Result :=
  .next (st.runVector (.vfredmax d a s k t) (planVfredmax d a s k t))

/-! ### Permutations (R267) -/

def planVslideup (d : BitVec 5) (a : BitVec 5) (b : BitVec 5) (k : BitVec 3) (t : BitVec 3) : Plan :=
  wholePlan (iwidth t) (slideUp d a b k t)
def execVslideup (d : BitVec 5) (a : BitVec 5) (b : BitVec 5) (k : BitVec 3) (t : BitVec 3) (s : State) : Result :=
  .next (s.runVector (.vslideup d a b k t) (planVslideup d a b k t))

def planVslidedn (d : BitVec 5) (a : BitVec 5) (b : BitVec 5) (k : BitVec 3) (t : BitVec 3) : Plan :=
  wholePlan (iwidth t) (slideDn d a b k t)
def execVslidedn (d : BitVec 5) (a : BitVec 5) (b : BitVec 5) (k : BitVec 3) (t : BitVec 3) (s : State) : Result :=
  .next (s.runVector (.vslidedn d a b k t) (planVslidedn d a b k t))

def planVperm (d : BitVec 5) (a : BitVec 5) (b : BitVec 5) (k : BitVec 3) (t : BitVec 3) : Plan :=
  wholePlan (iwidth t) (permOp d a b k t)
def execVperm (d : BitVec 5) (a : BitVec 5) (b : BitVec 5) (k : BitVec 3) (t : BitVec 3) (s : State) : Result :=
  .next (s.runVector (.vperm d a b k t) (planVperm d a b k t))

def planVcomp (d : BitVec 5) (a : BitVec 5) (k : BitVec 3) (t : BitVec 3) : Plan :=
  wholePlan (iwidth t) (compOp d a k t)
def execVcomp (d : BitVec 5) (a : BitVec 5) (k : BitVec 3) (t : BitVec 3) (s : State) : Result :=
  .next (s.runVector (.vcomp d a k t) (planVcomp d a k t))

def planVexpand (d : BitVec 5) (a : BitVec 5) (k : BitVec 3) (t : BitVec 3) : Plan :=
  wholePlan (iwidth t) (expandOp d a k t)
def execVexpand (d : BitVec 5) (a : BitVec 5) (k : BitVec 3) (t : BitVec 3) (s : State) : Result :=
  .next (s.runVector (.vexpand d a k t) (planVexpand d a k t))

def planVbcast (d : BitVec 5) (a : BitVec 5) (k : BitVec 3) (t : BitVec 3) : Plan :=
  wholePlan (iwidth t) (bcastOp d a k t)
def execVbcast (d : BitVec 5) (a : BitVec 5) (k : BitVec 3) (t : BitVec 3) (s : State) : Result :=
  .next (s.runVector (.vbcast d a k t) (planVbcast d a k t))

def planVext (d : BitVec 5) (a : BitVec 5) (b : BitVec 5) (t : BitVec 3) : Plan :=
  wholePlan (iwidth t) (extOp d a b t)
def execVext (d : BitVec 5) (a : BitVec 5) (b : BitVec 5) (t : BitVec 3) (s : State) : Result :=
  .next (s.runVector (.vext d a b t) (planVext d a b t))

def planVins (d : BitVec 5) (a : BitVec 5) (b : BitVec 5) (t : BitVec 3) : Plan :=
  wholePlan (iwidth t) (insOp d a b t)
def execVins (d : BitVec 5) (a : BitVec 5) (b : BitVec 5) (t : BitVec 3) (s : State) : Result :=
  .next (s.runVector (.vins d a b t) (planVins d a b t))

/-! ### Quantise and dequantise (R268 to R270) -/

def planVquantI8 (d : BitVec 5) (a : BitVec 5) (b : BitVec 5) (k : BitVec 3) (t : BitVec 3) : Plan :=
  activePlan ((FFmt.ofCode t.toNat).width) 2 k (quantOp d a b k t 8 (-128) 127 fun x => wrapNat x 8)
def execVquantI8 (d : BitVec 5) (a : BitVec 5) (b : BitVec 5) (k : BitVec 3) (t : BitVec 3) (s : State) : Result :=
  .next (s.runVector (.vquantI8 d a b k t) (planVquantI8 d a b k t))

def planVquantI4 (d : BitVec 5) (a : BitVec 5) (b : BitVec 5) (k : BitVec 3) (t : BitVec 3) : Plan :=
  activePlan ((FFmt.ofCode t.toNat).width) 2 k (quantOp d a b k t 4 (-8) 7 fun x => wrapNat x 4)
def execVquantI4 (d : BitVec 5) (a : BitVec 5) (b : BitVec 5) (k : BitVec 3) (t : BitVec 3) (s : State) : Result :=
  .next (s.runVector (.vquantI4 d a b k t) (planVquantI4 d a b k t))

def planVquantTern (d : BitVec 5) (a : BitVec 5) (b : BitVec 5) (k : BitVec 3) (t : BitVec 3) : Plan :=
  activePlan ((FFmt.ofCode t.toNat).width) 2 k (quantOp d a b k t 2 (-1) 1 ternCode)
def execVquantTern (d : BitVec 5) (a : BitVec 5) (b : BitVec 5) (k : BitVec 3) (t : BitVec 3) (s : State) : Result :=
  .next (s.runVector (.vquantTern d a b k t) (planVquantTern d a b k t))

def planVdeqNq4 (d : BitVec 5) (a : BitVec 5) (b : BitVec 5) (k : BitVec 3) (t : BitVec 3) : Plan :=
  activePlan ((FFmt.ofCode t.toNat).width) 2 k (deqOp d a b k t 4 nq4Level 0 false)
def execVdeqNq4 (d : BitVec 5) (a : BitVec 5) (b : BitVec 5) (k : BitVec 3) (t : BitVec 3) (s : State) : Result :=
  .next (s.runVector (.vdeqNq4 d a b k t) (planVdeqNq4 d a b k t))

def planVdeqE2m1 (d : BitVec 5) (a : BitVec 5) (b : BitVec 5) (k : BitVec 3) (t : BitVec 3) : Plan :=
  activePlan ((FFmt.ofCode t.toNat).width) 2 k (deqOp d a b k t 4 e2m1Twice (-1) true)
def execVdeqE2m1 (d : BitVec 5) (a : BitVec 5) (b : BitVec 5) (k : BitVec 3) (t : BitVec 3) (s : State) : Result :=
  .next (s.runVector (.vdeqE2m1 d a b k t) (planVdeqE2m1 d a b k t))

def planVdeqTern (d : BitVec 5) (a : BitVec 5) (b : BitVec 5) (k : BitVec 3) (t : BitVec 3) : Plan :=
  activePlan ((FFmt.ofCode t.toNat).width) 2 k (deqOp d a b k t 2 ternValue 0 false)
def execVdeqTern (d : BitVec 5) (a : BitVec 5) (b : BitVec 5) (k : BitVec 3) (t : BitVec 3) (s : State) : Result :=
  .next (s.runVector (.vdeqTern d a b k t) (planVdeqTern d a b k t))

def planVquantPi (d : BitVec 5) (a : BitVec 5) (b : BitVec 5) (k : BitVec 3) (t : BitVec 3) (w : BitVec 3) : Plan :=
  activePlan ((FFmt.ofCode t.toNat).width) 2 k (quantOp d a b k t 8 (-(2 ^ w.toNat : Nat)) ((2 ^ w.toNat : Nat) - 1) fun x => wrapNat x 8)
def execVquantPi (d : BitVec 5) (a : BitVec 5) (b : BitVec 5) (k : BitVec 3) (t : BitVec 3) (w : BitVec 3) (s : State) : Result :=
  .next (s.runVector (.vquantPi d a b k t w) (planVquantPi d a b k t w))

end Sys2Proof.Machine
end

