-- ==== Sys2Proof/Machine/VecEngine.lean ====
section
/-! DEFINITION. The vector memory instructions and the engine commands of majors 0x2E to 0x3A and 0x3D (R196 to R199),
and `pcal`: for each one its plan, which gives the largest operand width (R248), the weir units (R291) and the effect,
and its meaning. -/
namespace Sys2Proof.Machine
open Sys2Proof

/-- A plane instruction (R339 to R342): a pnot, pcopy or pfill leaves an operand field 0. -/
def planePlan (op : PlaneOp) (w d a b : BitVec 5) : Plan := enginePlan 4 fun e s =>
  (s.issuePlane op (w.toNat + 1) (e.getG d) (e.getG a) (e.getG b)).bind fun x s => .ok [x] s

/-! ### Vector memory (R320 to R327, R414, R415, R419) -/

def planVld (d : BitVec 5) (a : BitVec 5) (k : BitVec 3) (t : BitVec 3) : Plan :=
  memPlan (iwidth t) 6 1 k (vload d a k t .unit)
def execVld (d : BitVec 5) (a : BitVec 5) (k : BitVec 3) (t : BitVec 3) (s : State) : Result :=
  .next (s.runVector (.vld d a k t) (planVld d a k t))

def planVst (d : BitVec 5) (a : BitVec 5) (k : BitVec 3) (t : BitVec 3) : Plan :=
  memPlan (iwidth t) 7 2 k (vstore d a k t .unit)
def execVst (d : BitVec 5) (a : BitVec 5) (k : BitVec 3) (t : BitVec 3) (s : State) : Result :=
  .next (s.runVector (.vst d a k t) (planVst d a k t))

def planVlds (d : BitVec 5) (a : BitVec 5) (b : BitVec 5) (k : BitVec 3) (t : BitVec 3) : Plan :=
  memPlan (iwidth t) 6 1 k (vload d a k t (.stride b))
def execVlds (d : BitVec 5) (a : BitVec 5) (b : BitVec 5) (k : BitVec 3) (t : BitVec 3) (s : State) : Result :=
  .next (s.runVector (.vlds d a b k t) (planVlds d a b k t))

def planVsts (d : BitVec 5) (a : BitVec 5) (b : BitVec 5) (k : BitVec 3) (t : BitVec 3) : Plan :=
  memPlan (iwidth t) 7 2 k (vstore d a k t (.stride b))
def execVsts (d : BitVec 5) (a : BitVec 5) (b : BitVec 5) (k : BitVec 3) (t : BitVec 3) (s : State) : Result :=
  .next (s.runVector (.vsts d a b k t) (planVsts d a b k t))

def planVldx (d : BitVec 5) (a : BitVec 5) (i : BitVec 5) (k : BitVec 3) (t : BitVec 3) : Plan :=
  memPlan (max 32 (iwidth t)) 8 1 k (vload d a k t (.index i (tyUnsigned t)))
def execVldx (d : BitVec 5) (a : BitVec 5) (i : BitVec 5) (k : BitVec 3) (t : BitVec 3) (s : State) : Result :=
  .next (s.runVector (.vldx d a i k t) (planVldx d a i k t))

def planVstx (d : BitVec 5) (a : BitVec 5) (i : BitVec 5) (k : BitVec 3) (t : BitVec 3) : Plan :=
  memPlan (max 32 (iwidth t)) 8 2 k (vstore d a k t (.index i (tyUnsigned t)))
def execVstx (d : BitVec 5) (a : BitVec 5) (i : BitVec 5) (k : BitVec 3) (t : BitVec 3) (s : State) : Result :=
  .next (s.runVector (.vstx d a i k t) (planVstx d a i k t))

def planVgl (d : BitVec 5) (a : BitVec 5) (i : BitVec 5) (k : BitVec 3) (t : BitVec 3) : Plan :=
  memPlan (max 32 (iwidth t)) 8 1 k (vgetLinked d a i k t)
def execVgl (d : BitVec 5) (a : BitVec 5) (i : BitVec 5) (k : BitVec 3) (t : BitVec 3) (s : State) : Result :=
  .next (s.runVector (.vgl d a i k t) (planVgl d a i k t))

def planVsc (d : BitVec 5) (a : BitVec 5) (i : BitVec 5) (k : BitVec 3) (t : BitVec 3) : Plan :=
  memPlan (max 32 (iwidth t)) 8 2 k (vstoreCond d a i k t)
def execVsc (d : BitVec 5) (a : BitVec 5) (i : BitVec 5) (k : BitVec 3) (t : BitVec 3) (s : State) : Result :=
  .next (s.runVector (.vsc d a i k t) (planVsc d a i k t))

def planVapnd (s : BitVec 5) (a : BitVec 5) (d : BitVec 5) (k : BitVec 3) (t : BitVec 3) : Plan :=
  memPlan (iwidth t) 7 2 k (vappend s a d k t)
def execVapnd (s : BitVec 5) (a : BitVec 5) (d : BitVec 5) (k : BitVec 3) (t : BitVec 3) (st : State) : Result :=
  .next (st.runVector (.vapnd s a d k t) (planVapnd s a d k t))

def planVldp (d : BitVec 5) (a : BitVec 5) (b : BitVec 5) (k : BitVec 3) (t : BitVec 3) : Plan :=
  planesPlan (iwidth t) 6 1 k (issuePlanes a b k .read) (vloadPlane d a b k t)
def execVldp (d : BitVec 5) (a : BitVec 5) (b : BitVec 5) (k : BitVec 3) (t : BitVec 3) (s : State) : Result :=
  .next (s.runVector (.vldp d a b k t) (planVldp d a b k t))

def planVstp (d : BitVec 5) (a : BitVec 5) (b : BitVec 5) (k : BitVec 3) (t : BitVec 3) : Plan :=
  planesPlan (iwidth t) 7 2 k (issuePlanes a b k .write) (vstorePlane d b k t)
def execVstp (d : BitVec 5) (a : BitVec 5) (b : BitVec 5) (k : BitVec 3) (t : BitVec 3) (s : State) : Result :=
  .next (s.runVector (.vstp d a b k t) (planVstp d a b k t))

def planVldsp (d : BitVec 5) (a : BitVec 5) (k : BitVec 3) (t : BitVec 3) : Plan :=
  memPlan (iwidth t) 6 1 k (vloadSpad d a k t)
def execVldsp (d : BitVec 5) (a : BitVec 5) (k : BitVec 3) (t : BitVec 3) (s : State) : Result :=
  .next (s.runVector (.vldsp d a k t) (planVldsp d a k t))

def planVstsp (d : BitVec 5) (a : BitVec 5) (k : BitVec 3) (t : BitVec 3) : Plan :=
  memPlan (iwidth t) 7 2 k (vstoreSpad d a k t)
def execVstsp (d : BitVec 5) (a : BitVec 5) (k : BitVec 3) (t : BitVec 3) (s : State) : Result :=
  .next (s.runVector (.vstsp d a k t) (planVstsp d a k t))

/-! ### Plane instructions (R197, R332 to R354, R360, R361, R366) -/

def planPadd (d : BitVec 5) (a : BitVec 5) (b : BitVec 5) (w : BitVec 5) : Plan := planePlan .add w d a b
def execPadd (d : BitVec 5) (a : BitVec 5) (b : BitVec 5) (w : BitVec 5) (s : State) : Result :=
  .next (s.runVector (.padd d a b w) (planPadd d a b w))

def planPsub (d : BitVec 5) (a : BitVec 5) (b : BitVec 5) (w : BitVec 5) : Plan := planePlan .sub w d a b
def execPsub (d : BitVec 5) (a : BitVec 5) (b : BitVec 5) (w : BitVec 5) (s : State) : Result :=
  .next (s.runVector (.psub d a b w) (planPsub d a b w))

def planPmul (d : BitVec 5) (a : BitVec 5) (b : BitVec 5) (w : BitVec 5) : Plan := planePlan .mul w d a b
def execPmul (d : BitVec 5) (a : BitVec 5) (b : BitVec 5) (w : BitVec 5) (s : State) : Result :=
  .next (s.runVector (.pmul d a b w) (planPmul d a b w))

def planPcmp (d : BitVec 5) (a : BitVec 5) (b : BitVec 5) (w : BitVec 5) : Plan := planePlan .cmp w d a b
def execPcmp (d : BitVec 5) (a : BitVec 5) (b : BitVec 5) (w : BitVec 5) (s : State) : Result :=
  .next (s.runVector (.pcmp d a b w) (planPcmp d a b w))

def planPand (d : BitVec 5) (a : BitVec 5) (b : BitVec 5) (w : BitVec 5) : Plan := planePlan .and w d a b
def execPand (d : BitVec 5) (a : BitVec 5) (b : BitVec 5) (w : BitVec 5) (s : State) : Result :=
  .next (s.runVector (.pand d a b w) (planPand d a b w))

def planPor (d : BitVec 5) (a : BitVec 5) (b : BitVec 5) (w : BitVec 5) : Plan := planePlan .or w d a b
def execPor (d : BitVec 5) (a : BitVec 5) (b : BitVec 5) (w : BitVec 5) (s : State) : Result :=
  .next (s.runVector (.por d a b w) (planPor d a b w))

def planPxor (d : BitVec 5) (a : BitVec 5) (b : BitVec 5) (w : BitVec 5) : Plan := planePlan .xor w d a b
def execPxor (d : BitVec 5) (a : BitVec 5) (b : BitVec 5) (w : BitVec 5) (s : State) : Result :=
  .next (s.runVector (.pxor d a b w) (planPxor d a b w))

def planPsel (d : BitVec 5) (a : BitVec 5) (b : BitVec 5) (w : BitVec 5) : Plan := planePlan .sel w d a b
def execPsel (d : BitVec 5) (a : BitVec 5) (b : BitVec 5) (w : BitVec 5) (s : State) : Result :=
  .next (s.runVector (.psel d a b w) (planPsel d a b w))

def planPshl (d : BitVec 5) (a : BitVec 5) (b : BitVec 5) (w : BitVec 5) : Plan := planePlan .shl w d a b
def execPshl (d : BitVec 5) (a : BitVec 5) (b : BitVec 5) (w : BitVec 5) (s : State) : Result :=
  .next (s.runVector (.pshl d a b w) (planPshl d a b w))

def planPshr (d : BitVec 5) (a : BitVec 5) (b : BitVec 5) (w : BitVec 5) : Plan := planePlan .shr w d a b
def execPshr (d : BitVec 5) (a : BitVec 5) (b : BitVec 5) (w : BitVec 5) (s : State) : Result :=
  .next (s.runVector (.pshr d a b w) (planPshr d a b w))

def planPnot (d : BitVec 5) (a : BitVec 5) (w : BitVec 5) : Plan := planePlan .not w d a 0
def execPnot (d : BitVec 5) (a : BitVec 5) (w : BitVec 5) (s : State) : Result :=
  .next (s.runVector (.pnot d a w) (planPnot d a w))

def planPcopy (d : BitVec 5) (a : BitVec 5) (w : BitVec 5) : Plan := planePlan .copy w d a 0
def execPcopy (d : BitVec 5) (a : BitVec 5) (w : BitVec 5) (s : State) : Result :=
  .next (s.runVector (.pcopy d a w) (planPcopy d a w))

def planPfill (d : BitVec 5) (b : BitVec 5) (w : BitVec 5) : Plan := planePlan .fill w d 0 b
def execPfill (d : BitVec 5) (b : BitVec 5) (w : BitVec 5) (s : State) : Result :=
  .next (s.runVector (.pfill d b w) (planPfill d b w))

def planPlock (d : BitVec 5) : Plan :=
  enginePlan 4 fun e s => (s.readDesc (e.getG d) .read).bind fun r s => .ok [.plock r] s
def execPlock (d : BitVec 5) (s : State) : Result := .next (s.runVector (.plock d) (planPlock d))

def planPunlock (d : BitVec 5) : Plan :=
  enginePlan 0 fun e s => (s.readDesc (e.getG d) .read).bind fun r s => .ok [.punlock r] s
def execPunlock (d : BitVec 5) (s : State) : Result := .next (s.runVector (.punlock d) (planPunlock d))

def planPcal (a : BitVec 5) : Plan :=
  enginePlan 4 fun e s => (s.readDesc (e.getG a) .write).bind fun r s => .ok [.pcal r] s
def execPcal (a : BitVec 5) (s : State) : Result :=
  .next (s.privileged fun s => s.runVector (.pcal a) (planPcal a))

/-- A `pprog` reads its governed words again at issue, as fetches; they passed the checks of R197 at decode. -/
def planPprog (d : BitVec 5) (a : BitVec 5) (n : BitVec 10) : Plan := enginePlan 4 fun e s =>
  (State.fetchWords { s with vec := false } (e.pc + 4) (n.toNat + 1)).bind fun ws s =>
    (State.issueProg { s with vec := true } (e.getG d) (e.getG a) ws).bind fun w s => .ok [w] s
def execPprog (d : BitVec 5) (a : BitVec 5) (n : BitVec 10) (s : State) : Result :=
  .next (s.governed (n.toNat + 1) governable fun _ s => s.runPlan (planPprog d a n) (n.toNat + 1))

/-! ### Folds (R368 to R389) -/

def planPlant (a : BitVec 5) (b : BitVec 5) (n : BitVec 3) : Plan :=
  enginePlan 3 fun e s => s.issuePlant (n.toNat + 1) (e.getG a) (e.getG b) none
def execPlant (a : BitVec 5) (b : BitVec 5) (n : BitVec 3) (s : State) : Result :=
  .next (s.runVector (.plant a b n) (planPlant a b n))

def planPlantChained (d : BitVec 3) (a : BitVec 5) (b : BitVec 5) (n : BitVec 3) (m : BitVec 2) : Plan :=
  enginePlan 3 fun e s => s.issuePlant (n.toNat + 1) (e.getG a) (e.getG b) (some (d.toNat, m))
def execPlantChained (d : BitVec 3) (a : BitVec 5) (b : BitVec 5) (n : BitVec 3) (m : BitVec 2) (s : State) : Result :=
  .next (s.runVector (.plantChained d a b n m) (planPlantChained d a b n m))

def planFold (d : BitVec 3) (a : BitVec 5) (b : BitVec 5) (m : BitVec 2) : Plan :=
  enginePlan 4 fun e s => s.issueFoldAt d.toNat m (e.getG a) (e.getG b)
def execFold (d : BitVec 3) (a : BitVec 5) (b : BitVec 5) (m : BitVec 2) (s : State) : Result :=
  .next (s.runVector (.fold d a b m) (planFold d a b m))

def planFread (d : BitVec 5) (a : BitVec 5) (b : BitVec 5) (y : BitVec 2) (s : BitVec 1) (n : BitVec 3) : Plan :=
  fun e _ => ⟨freadWidth y, 4, .now [(12, e.vn)] (freadBody d a b y (s = 1) n.toNat e)⟩
def execFread (d : BitVec 5) (a : BitVec 5) (b : BitVec 5) (y : BitVec 2) (s : BitVec 1) (n : BitVec 3) (st : State) : Result :=
  .next (st.runVector (.fread d a b y s n) (planFread d a b y s n))

def planFclr (d : BitVec 3) : Plan := fun _ _ => ⟨0, 4, .now [(12, 1)] (fclrBody d.toNat)⟩
def execFclr (d : BitVec 3) (s : State) : Result := .next (s.runVector (.fclr d) (planFclr d))

/-! ### Bank operations (R390 to R394) -/

def planBkadd (d : BitVec 5) (a : BitVec 5) (b : BitVec 5) (t : BitVec 3) (f : BitVec 1) : Plan :=
  enginePlan 4 fun e s => s.issueBank .add t (f = 1) (e.getG d) (e.getG a) (e.getG b)
def execBkadd (d : BitVec 5) (a : BitVec 5) (b : BitVec 5) (t : BitVec 3) (f : BitVec 1) (s : State) : Result :=
  .next (s.runVector (.bkadd d a b t f) (planBkadd d a b t f))

def planBkred (d : BitVec 5) (a : BitVec 5) (b : BitVec 5) (t : BitVec 3) (f : BitVec 1) : Plan :=
  enginePlan 4 fun e s => s.issueBank .red t (f = 1) (e.getG d) (e.getG a) (e.getG b)
def execBkred (d : BitVec 5) (a : BitVec 5) (b : BitVec 5) (t : BitVec 3) (f : BitVec 1) (s : State) : Result :=
  .next (s.runVector (.bkred d a b t f) (planBkred d a b t f))

def planBkcx (d : BitVec 5) (a : BitVec 5) (b : BitVec 5) (t : BitVec 3) (f : BitVec 1) : Plan :=
  enginePlan 4 fun e s => s.issueBank .cx t (f = 1) (e.getG d) (e.getG a) (e.getG b)
def execBkcx (d : BitVec 5) (a : BitVec 5) (b : BitVec 5) (t : BitVec 3) (f : BitVec 1) (s : State) : Result :=
  .next (s.runVector (.bkcx d a b t f) (planBkcx d a b t f))

def planBksax (d : BitVec 5) (a : BitVec 5) (b : BitVec 5) (t : BitVec 3) : Plan :=
  enginePlan 4 fun e s => s.issueBank .sax t true (e.getG d) (e.getG a) (e.getG b)
def execBksax (d : BitVec 5) (a : BitVec 5) (b : BitVec 5) (t : BitVec 3) (s : State) : Result :=
  .next (s.runVector (.bksax d a b t) (planBksax d a b t))

/-! ### Aqueduct instructions (R431 to R437) -/

def planAqPut (d : BitVec 5) (a : BitVec 5) (b : BitVec 5) : Plan :=
  enginePlan 3 fun e s => s.issueTransfer true (e.getG d) (e.getG a) (e.getG b)
def execAqPut (d : BitVec 5) (a : BitVec 5) (b : BitVec 5) (s : State) : Result :=
  .next (s.runVector (.aqPut d a b) (planAqPut d a b))

def planAqGet (d : BitVec 5) (a : BitVec 5) (b : BitVec 5) : Plan :=
  enginePlan 3 fun e s => s.issueTransfer false (e.getG a) (e.getG d) (e.getG b)
def execAqGet (d : BitVec 5) (a : BitVec 5) (b : BitVec 5) (s : State) : Result :=
  .next (s.runVector (.aqGet d a b) (planAqGet d a b))

def planAqSig (a : BitVec 5) (b : BitVec 5) : Plan := enginePlan 3 fun e s => s.issueSig (e.getG a) (e.getG b)
def execAqSig (a : BitVec 5) (b : BitVec 5) (s : State) : Result := .next (s.runVector (.aqSig a b) (planAqSig a b))

def planAqColl (a : BitVec 5) (b : BitVec 5) : Plan := enginePlan 3 fun e s => s.issueColl (e.getG a) (e.getG b)
def execAqColl (a : BitVec 5) (b : BitVec 5) (s : State) : Result :=
  .next (s.runVector (.aqColl a b) (planAqColl a b))

def planAqLease (d : BitVec 5) (a : BitVec 5) (b : BitVec 5) : Plan :=
  fun e _ => ⟨0, 3, .now [(14, 1)] (leaseBody d (e.getG a) (e.getG b))⟩
def execAqLease (d : BitVec 5) (a : BitVec 5) (b : BitVec 5) (s : State) : Result :=
  .next (s.runVector (.aqLease d a b) (planAqLease d a b))

end Sys2Proof.Machine
end

