-- ==== Sys2Proof/Machine/Sequence.lean ====
section
/-! DEFINITION. Words that the vector sequencer issues beside the program's own: those of `rframe` (R212 to R215), of
`vissue` (R295 to R299), and the vector queue that a restore brought back (R451, R453). -/
namespace Sys2Proof.Machine
open Sys2Proof

/-- The plan of a vector-stream instruction that can be issued as a word or wait in a vector queue. -/
def planOf (i : Instr) : Option Plan :=
  match i with
  | .kand d a b => some (planKand d a b)
  | .kor d a b => some (planKor d a b)
  | .kxor d a b => some (planKxor d a b)
  | .kandn d a b => some (planKandn d a b)
  | .knot d a => some (planKnot d a)
  | .kmov d a => some (planKmov d a)
  | .kpop d a => some (planKpop d a)
  | .kfirst d a => some (planKfirst d a)
  | .kset d a => some (planKset d a)
  | .kshl d a s => some (planKshl d a s)
  | .kshr d a s => some (planKshr d a s)
  | .vadd d a b k t => some (planVadd d a b k t)
  | .vsub d a b k t => some (planVsub d a b k t)
  | .vrsub d a b k t => some (planVrsub d a b k t)
  | .vmul d a b k t => some (planVmul d a b k t)
  | .vmulh d a b k t => some (planVmulh d a b k t)
  | .vmulhn d a b k t => some (planVmulhn d a b k t)
  | .vmadd d a b k t => some (planVmadd d a b k t)
  | .vmin d a b k t => some (planVmin d a b k t)
  | .vmax d a b k t => some (planVmax d a b k t)
  | .vminn d a b k t => some (planVminn d a b k t)
  | .vmaxn d a b k t => some (planVmaxn d a b k t)
  | .vand d a b k t => some (planVand d a b k t)
  | .vor d a b k t => some (planVor d a b k t)
  | .vxor d a b k t => some (planVxor d a b k t)
  | .vsll d a b k t => some (planVsll d a b k t)
  | .vsrl d a b k t => some (planVsrl d a b k t)
  | .vsra d a b k t => some (planVsra d a b k t)
  | .vsadd d a b k t => some (planVsadd d a b k t)
  | .vssub d a b k t => some (planVssub d a b k t)
  | .vadc d a b k t => some (planVadc d a b k t)
  | .vsbc d a b k t => some (planVsbc d a b k t)
  | .vmerge d a b k t => some (planVmerge d a b k t)
  | .vmov d a k t => some (planVmov d a k t)
  | .vsext d a s k t => some (planVsext d a s k t)
  | .vzext d a s k t => some (planVzext d a s k t)
  | .vclz d a k t => some (planVclz d a k t)
  | .vpopc d a k t => some (planVpopc d a k t)
  | .vsllImm d a s k t => some (planVsllImm d a s k t)
  | .vsrlImm d a s k t => some (planVsrlImm d a s k t)
  | .vsraImm d a s k t => some (planVsraImm d a s k t)
  | .vcmpEq d a b k t => some (planVcmpEq d a b k t)
  | .vcmpNe d a b k t => some (planVcmpNe d a b k t)
  | .vcmpLt d a b k t => some (planVcmpLt d a b k t)
  | .vcmpLe d a b k t => some (planVcmpLe d a b k t)
  | .vcmpLtn d a b k t => some (planVcmpLtn d a b k t)
  | .vcmpLen d a b k t => some (planVcmpLen d a b k t)
  | .vnarrowWrap d a s k t => some (planVnarrowWrap d a s k t)
  | .vnarrowSat d a s k t => some (planVnarrowSat d a s k t)
  | .vfadd d a b k t => some (planVfadd d a b k t)
  | .vfsub d a b k t => some (planVfsub d a b k t)
  | .vfmul d a b k t => some (planVfmul d a b k t)
  | .vfdiv d a b k t => some (planVfdiv d a b k t)
  | .vfsqrt d a k t => some (planVfsqrt d a k t)
  | .vfma d a b k t => some (planVfma d a b k t)
  | .vfnma d a b k t => some (planVfnma d a b k t)
  | .vfmin d a b k t => some (planVfmin d a b k t)
  | .vfmax d a b k t => some (planVfmax d a b k t)
  | .vfexp2 d a k t => some (planVfexp2 d a k t)
  | .vfrsqrt d a k t => some (planVfrsqrt d a k t)
  | .vfcvt d a s k t => some (planVfcvt d a s k t)
  | .vfcvtIntToFloat d a s k t => some (planVfcvtIntToFloat d a s k t)
  | .vfcvtFloatToInt d a s k t => some (planVfcvtFloatToInt d a s k t)
  | .vfcmpEq d a b k t => some (planVfcmpEq d a b k t)
  | .vfcmpNe d a b k t => some (planVfcmpNe d a b k t)
  | .vfcmpLt d a b k t => some (planVfcmpLt d a b k t)
  | .vfcmpLe d a b k t => some (planVfcmpLe d a b k t)
  | .vfcmpUn d a b k t => some (planVfcmpUn d a b k t)
  | .vredsumWrap d a s k t => some (planVredsumWrap d a s k t)
  | .vredsumSat d a s k t => some (planVredsumSat d a s k t)
  | .vredmin d a s k t => some (planVredmin d a s k t)
  | .vredmax d a s k t => some (planVredmax d a s k t)
  | .vfredsum d a s k t => some (planVfredsum d a s k t)
  | .vfredmax d a s k t => some (planVfredmax d a s k t)
  | .vslideup d a b k t => some (planVslideup d a b k t)
  | .vslidedn d a b k t => some (planVslidedn d a b k t)
  | .vperm d a b k t => some (planVperm d a b k t)
  | .vcomp d a k t => some (planVcomp d a k t)
  | .vexpand d a k t => some (planVexpand d a k t)
  | .vbcast d a k t => some (planVbcast d a k t)
  | .vext d a b t => some (planVext d a b t)
  | .vins d a b t => some (planVins d a b t)
  | .vquantI8 d a b k t => some (planVquantI8 d a b k t)
  | .vquantI4 d a b k t => some (planVquantI4 d a b k t)
  | .vquantTern d a b k t => some (planVquantTern d a b k t)
  | .vdeqNq4 d a b k t => some (planVdeqNq4 d a b k t)
  | .vdeqE2m1 d a b k t => some (planVdeqE2m1 d a b k t)
  | .vdeqTern d a b k t => some (planVdeqTern d a b k t)
  | .vquantPi d a b k t w => some (planVquantPi d a b k t w)
  | .vld d a k t => some (planVld d a k t)
  | .vst d a k t => some (planVst d a k t)
  | .vlds d a b k t => some (planVlds d a b k t)
  | .vsts d a b k t => some (planVsts d a b k t)
  | .vldx d a i k t => some (planVldx d a i k t)
  | .vstx d a i k t => some (planVstx d a i k t)
  | .vgl d a i k t => some (planVgl d a i k t)
  | .vsc d a i k t => some (planVsc d a i k t)
  | .vapnd s a d k t => some (planVapnd s a d k t)
  | .vldp d a b k t => some (planVldp d a b k t)
  | .vstp d a b k t => some (planVstp d a b k t)
  | .vldsp d a k t => some (planVldsp d a k t)
  | .vstsp d a k t => some (planVstsp d a k t)
  | .padd d a b w => some (planPadd d a b w)
  | .psub d a b w => some (planPsub d a b w)
  | .pmul d a b w => some (planPmul d a b w)
  | .pcmp d a b w => some (planPcmp d a b w)
  | .pand d a b w => some (planPand d a b w)
  | .por d a b w => some (planPor d a b w)
  | .pxor d a b w => some (planPxor d a b w)
  | .psel d a b w => some (planPsel d a b w)
  | .pshl d a b w => some (planPshl d a b w)
  | .pshr d a b w => some (planPshr d a b w)
  | .pnot d a w => some (planPnot d a w)
  | .pcopy d a w => some (planPcopy d a w)
  | .pfill d b w => some (planPfill d b w)
  | .plock d => some (planPlock d)
  | .punlock d => some (planPunlock d)
  | .pcal a => some (planPcal a)
  | .pprog d a n => some (planPprog d a n)
  | .plant a b n => some (planPlant a b n)
  | .plantChained d a b n m => some (planPlantChained d a b n m)
  | .fold d a b m => some (planFold d a b m)
  | .fread d a b y s n => some (planFread d a b y s n)
  | .fclr d => some (planFclr d)
  | .bkadd d a b t f => some (planBkadd d a b t f)
  | .bkred d a b t f => some (planBkred d a b t f)
  | .bkcx d a b t f => some (planBkcx d a b t f)
  | .bksax d a b t => some (planBksax d a b t)
  | .aqPut d a b => some (planAqPut d a b)
  | .aqGet d a b => some (planAqGet d a b)
  | .aqSig a b => some (planAqSig a b)
  | .aqColl a b => some (planAqColl a b)
  | .aqLease d a b => some (planAqLease d a b)
  | _ => none

/-! ### vissue -/

/-- A word added to the groups of a `vissue`: an equal word has its group already (R295). -/
def addGroup (w : BitVec 32) (i : Nat) : List (BitVec 32 × KReg) → List (BitVec 32 × KReg)
  | [] => [(w, 1#4096 <<< i)]
  | (x, g) :: t => if x = w then (x, g ||| (1#4096 <<< i)) :: t else (x, g) :: addGroup w i t

/-- The distinct words of the active elements, in ascending order of the least element, with their groups (R295). -/
def groupWords (x : VReg) (l : List Nat) : List (BitVec 32 × KReg) :=
  l.foldl (fun g i => addGroup (BitVec.ofNat 32 (elem x 32 i)) i g) []

/-- The grouping of `vissue` (R295): the length check, and the charge of class 15. -/
def planVissue (k : BitVec 3) : Plan := fun e t => ⟨32, 0, .now (activeCharge 15 k e t) fun s => .ok () s⟩

/-- The permitted issue words (R296) at a depth: what the word stands for. -/
def issueWordOf (w : BitVec 32) (depth : Nat) : Option Instr :=
  let m := (w.extractLsb' 26 6).toNat
  let fn := (w.extractLsb' 0 5).toNat
  let ok := (m = 0x21 && fn ≠ 6 && fn ≠ 7) || (m = 0x22 && fn ≠ 0x13 && fn ≠ 0x14) || (0x23 ≤ m && m ≤ 0x27) ||
    m = 0x2A || m = 0x2E || m = 0x2F || (m = 0x30 && fn ≤ 1) || (m = 0x3B && fn = 2 && depth = 1)
  if ok then (decodeWord w).filter staticOk else none

/-- What one word of a `vissue` did. -/
inductive Issued where
  | more (i : Issue) (s : State)
  | wait (w : Await) (s : State)
  /-- `i` is where the `vissue` goes on after the fault (R299, R315) -/
  | fault (c : BitVec 8) (v : Word) (word : BitVec 32) (e : VEnv) (cls : Nat) (i : Issue) (s : State)

/-- One word at a depth, under its group; `i` is the `vissue` as it stands and `rest` without that word (R295 to
R297). -/
def State.issueOne (s : State) (i rest : Issue) (w : BitVec 32) (g : KReg) (depth : Nat) (pc : Word) : Issued :=
  let rest := { rest with admitted := false }
  let e : VEnv := ⟨i.cap, some g, depth, pc⟩
  let s := if i.admitted && s.self.weirPass.isNone then
      s.modSelf fun t => { t with weirPass := some ((s.core s.myCore).weight 12) }
    else s
  let run (plan : Plan) (next : State → Issue) : Issued :=
    let p := plan e s.self
    match s.attempt e p with
    | .ok _ s => .more (next s) s.vectorDone
    | .wait a s => .wait a s
    | .trap c v s =>
      .fault c v w e p.cls (if faultCompletes c p.cls then rest else { i with admitted := s.self.weirPass.isSome }) s
  match issueWordOf w depth with
  | none => .more { rest with marked := true } (s.modSelf fun t => { t with illmask := t.illmask ||| g })
  | some (.vissue a k) =>
    run (planVissue k) fun s => { rest with inner := groupWords (s.self.getV a) (actList e.vn (e.act s.self k)) }
  | some x =>
    match planOf x with
    | some plan => run plan fun _ => rest
    | none => .more rest s

/-- The next word of a `vissue`: those of a nested one come first (R295). -/
def State.issueWord (s : State) (i : Issue) (pc : Word) : Issued :=
  match i.inner, i.todo with
  | (w, g) :: r, _ => s.issueOne i { i with inner := r } w g 2 pc
  | [], (w, g) :: r => s.issueOne i { i with todo := r } w g 1 pc
  | [], [] => .more i s

/-- No word is left. -/
def Issue.over (i : Issue) : Bool := i.todo.isEmpty && i.inner.isEmpty

/-- vissue (R295): a position that a restore brought back goes on; else the grouping, and the words follow one by
one. -/
def execVissue (a : BitVec 5) (k : BitVec 3) (s : State) : Result :=
  let t := s.self
  let e := t.venv
  let p := planVissue k e t
  .next <| match s.attempt e p with
    | .ok _ s =>
      let words := groupWords (t.getV a) (actList e.vn (e.act t k))
      if words.isEmpty then s.vectorDone.advance
      else s.vectorDone.modSelf fun t => { t with inside := some (.issue ⟨words, [], e.cap, t.word, false, false⟩) }
    | .wait w s => s.waitOn w
    | .trap c v s => (s.vectorFault c v s.self.word { e with depth := 1 } p.cls none).advance

/-- A `vissue` of the program takes its next word, or ends with the issue-word fault if it marked an element under
ISSCTL.ITE (R298). -/
def State.stepIssue (s : State) (i : Issue) : State :=
  let pc := s.self.pc
  if i.over then
    let s := s.modSelf fun t => { t with inside := none }
    if i.marked && s.self.ite then (s.vectorFault causeIssueWord 0 i.word ⟨i.cap, none, 1, pc⟩ 0 none).advance
    else s.advance
  else
    match s.issueWord i pc with
    | .more i s => s.modSelf fun t => { t with inside := some (.issue i) }
    | .wait w s => s.waitOn w
    | .fault c v w e cls i s => (s.vectorFault c v w e cls (some i)).advance

/-! ### rframe -/

/-- A 5-bit register field of a word advanced (R212). -/
def advanceField (w : BitVec 32) (lo : Nat) (by_ : Int) : BitVec 32 :=
  let f : BitVec 5 := w.extractLsb' lo 5
  (w &&& ~~~((0x1F#32) <<< lo)) ||| (((f + BitVec.ofInt 5 by_).setWidth 32) <<< lo)

/-- Which fields of a captured word name v registers: vd, va and vb (R192 to R195, R212). -/
def vectorFields (w : BitVec 32) : Bool × Bool × Bool :=
  let m := (w.extractLsb' 26 6).toNat
  let fn := (w.extractLsb' 0 5).toNat
  (m = 0x22 || m = 0x23 || m = 0x25 || m = 0x26, 0x22 ≤ m && m ≤ 0x27,
    (m = 0x22 && fn ≤ 0x15) || m = 0x24 || m = 0x27 || (m = 0x26 && (fn ≤ 3 || (5 ≤ fn && fn ≤ 8))))

/-- A captured word in replay `j` (R212). -/
def advanceWord (w : BitVec 32) (sd sa sb : BitVec 4) (j : Nat) : BitVec 32 :=
  let f := vectorFields w
  let w := if f.1 then advanceField w 21 (j * sd.toInt) else w
  let w := if f.2.1 then advanceField w 16 (j * sa.toInt) else w
  if f.2.2 then advanceField w 11 (j * sb.toInt) else w

/-- The position after a word of a frame: the next word, the next replay, or the end (none). -/
def nextFrame (words : List (BitVec 32)) (sd sa sb : BitVec 4) (count replay index : Nat) : Option Inside :=
  if index + 1 < words.length then some (.frame words sd sa sb count replay (index + 1))
  else if replay + 1 < count then some (.frame words sd sa sb count (replay + 1) 0)
  else none

/-- The end of a frame: execution goes on behind the captured words (R212). -/
def State.endFrame (s : State) (n : Nat) : State :=
  s.modSelf fun t => { t with inside := none, pc := t.pc + 4 + BitVec.ofNat 64 (4 * n) }

/-- A frame issues its next word (R212, R215). A fault notes the position of the word after it. -/
def State.stepFrame (s : State) (words : List (BitVec 32)) (sd sa sb : BitVec 4) (count replay index : Nat) : State :=
  let w := advanceWord (words.getD index 0) sd sa sb replay
  let next := nextFrame words sd sa sb count replay index
  let go (s : State) : State :=
    match next with
    | some p => s.modSelf fun t => { t with inside := some p }
    | none => s.endFrame words.length
  match (decodeWord w).bind planOf with
  | none => go s
  | some plan =>
    let e := s.self.venv
    let p := plan e s.self
    match s.attempt e p with
    | .ok _ s => go s.vectorDone
    | .wait a s => s.waitOn a
    | .trap c v s =>
      let pc := s.self.pc
      let s := s.vectorFault c v w e p.cls none
      match next with
      | some p => s.modSelf fun t => { t with resume := some (pc, p) }
      | none => s.endFrame words.length

/-- A strand inside an `rframe` or a `vissue` goes on. -/
def State.stepInside (s : State) (p : Inside) : State :=
  match p with
  | .frame words sd sa sb count replay index => s.stepFrame words sd sa sb count replay index
  | .issue i => s.stepIssue i

/-! ### The vector queue -/

/-- The head of the vector queue has completed. -/
def State.dropHead (s : State) (q : Queued) : State :=
  s.vectorDone.modSelf fun t => { t.modCount q.cls (· - 1) with vq := t.vq.drop 1 }

/-- The head of the vector queue faults again (R451, R453): one record, and the strand stops. -/
def State.requeue (s : State) (q : Queued) (c : BitVec 8) (va : Word) (depth : Nat) (issue : Option Issue) : State :=
  (s.dropOnce.leaveWeir s.cur).modSelf fun t =>
    let q := { q with issue := issue, resp := 0, va := va, elem := t.faultElem, admitted := t.weirPass, write := t.hostFault.2
                      completed := issue.isNone && faultCompletes c q.cls }
    { t.vectorDone with
      vq := q :: t.vq.drop 1, faults := [faultRec c va q.pc t.faultElem depth q.word], st := .dumping }

/-- The `vissue` depth of what an entry of the vector queue performs next (R296, R452): 0 outside `vissue`; a `vissue`
of the program is at depth 1, and so are the words it issues. -/
def Queued.depth (q : Queued) : Nat :=
  match q.issue with
  | some i => if i.inner.isEmpty then 1 else 2
  | none => if q.word.extractLsb' 26 6 = 0x3B#6 then 1 else 0

/-- The head of the vector queue runs, one word a step (R453): after the reply Invalid or Failure it takes an access fault. It
passes the weir, unless it had passed it when it faulted (R291). -/
def State.runHead (s : State) (q : Queued) : State :=
  if q.completed then s.dropHead q
  else if q.resp = 3 || q.resp = 4 then
    (s.modSelf fun t => { t with faultElem := q.elem }).requeue q causeAccess q.va q.depth q.issue
  else
    match q.issue with
    | some i =>
      if i.over then
        if i.marked && s.self.ite then
          (s.modSelf fun t => { t with faultElem := 0 }).requeue { q with word := i.word } causeIssueWord 0 1 none
        else s.dropHead q
      else
        (match s.issueWord i q.pc with
         | .more i s =>
           s.modSelf fun t => { t.modCount q.cls (· - 1) with vq := { q with issue := some i, cls := 0 } :: t.vq.drop 1 }
         | .wait w s => s.waitOn w
         | .fault c v w e cls i s =>
           (s.modSelf fun t => (t.modCount q.cls (· - 1)).modCount cls (· + 1)).requeue { q with word := w, cls := cls } c v
             e.depth (some i))
    | none =>
      let e : VEnv := ⟨q.cap, none, 0, q.pc⟩
      let s := if s.self.weirPass.isSome then s else s.modSelf fun t => { t with weirPass := q.admitted }
      let run (plan : Plan) (done : State → State) : State :=
        match s.attempt e (plan e s.self) with
        | .ok _ s => done s
        | .wait w s => s.waitOn w
        | .trap c v s => s.requeue q c v q.depth none
      match decodeWord q.word with
      | some (.vissue a k) =>
        run (planVissue k) fun s => s.vectorDone.modSelf fun t =>
          let words := groupWords (t.getV a) (actList e.vn (e.act t k))
          { t with vq := { q with issue := some ⟨words, [], q.cap, q.word, false, false⟩ } :: t.vq.drop 1 }
      | some i =>
        (match planOf i with
         | some plan => run plan fun s => s.dropHead q
         | none => s.dropHead q)
      | none => s.dropHead q

/-- The head of the vector queue runs in the mode in which it was decoded. -/
def State.stepQueue (s : State) (q : Queued) : State :=
  let cur := s.self.cur
  if q.priv = cur then s.runHead q
  else ((s.modSelf fun t => { t with cur := q.priv }).runHead q).modSelf fun t => { t with cur := cur }

/-- An instruction that the front end can leave to the vector queue: one of the vector stream whose checks at decode are
those of its fields alone (R246, R249). A `pprog` has its words checked at decode and `pcal` the mode. -/
def deferrable (i : Instr) : Bool :=
  match i with
  | .pprog _ _ _ => false
  | .pcal _ => false
  | .vissue _ _ => true
  | i => (planOf i).isSome && staticOk i

/-- The vector queue holds at most 256 instructions (R451). -/
def queueDepth : Nat := 256

/-- The front end decodes a vector instruction, captures its operands, and leaves it to the vector queue (R217, R246, R300). -/
def State.capture (s : State) (i : Instr) : State :=
  let t := s.self
  let e := t.venv
  let cls := match planOf i with
    | some plan => (plan e t).cls
    | none => 0
  let q : Queued := ⟨t.word, e.pc, e.cap, none, cls, 0, 0, 0, false, none, t.cur, false⟩
  s.modSelf fun t => { (t.modCount cls (· + 1)).setPc (t.pc + 4) with vq := t.vq ++ [q] }

/-- A transfer between memory and vector registers whose addresses and checks no vector or mask register enters that another
such transfer writes. -/
def transfers (i : Instr) : Bool :=
  match i with
  | .vld _ _ _ _ => true
  | .vst _ _ _ _ => true
  | .vlds _ _ _ _ _ => true
  | .vsts _ _ _ _ _ => true
  | .vldsp _ _ _ _ => true
  | .vstsp _ _ _ _ => true
  | .vldp _ _ _ _ _ => true
  | .vstp _ _ _ _ _ => true
  | _ => false

/-- The next instruction of the queue of a strand that a vector fault has stopped had left the vector sequencer too, and faults
as well: it stays in the queue with a record of its own (R451 step 2). Only transfers behind faulted transfers do so here, in
queue order; one that does not fault had not left the sequencer. -/
def State.faultNext (s : State) : State :=
  let t := s.self
  let k := t.faults.length
  let faulted := t.vq.take k
  match t.vq[k]? with
  | some q =>
    let plain (q : Queued) : Bool := q.issue.isNone && !q.completed && q.resp = 0 && q.admitted.isNone &&
      ((decodeWord q.word).any transfers)
    if !(faulted.all fun q => q.issue.isNone && (decodeWord q.word).any transfers) || !plain q then s
    else
      match (decodeWord q.word).bind planOf with
      | some plan =>
        let e : VEnv := ⟨q.cap, none, 0, q.pc⟩
        let u := s.modSelf fun t => { t with cur := q.priv }
        (match u.attempt e (plan e u.self) with
         | .trap c va s =>
           (s.dropOnce.leaveWeir s.cur).modSelf fun x =>
             let q := { q with va := va, elem := x.faultElem, admitted := x.weirPass, write := x.hostFault.2
                               completed := faultCompletes c q.cls }
             { x.vectorDone with
               cur := t.cur, vq := t.vq.take k ++ q :: t.vq.drop (k + 1)
               faults := t.faults ++ [faultRec c va q.pc x.faultElem 0 q.word] }
         | _ => s)
      | none => s
  | none => s

/-- What must not run before the vector queue is empty (R53, R234, R246, R300, R331, R387, R402): the vector stream, and
what waits for it. -/
def afterQueue (i : Instr) : Bool :=
  (planOf i).isSome ||
  match i with
  | .vissue _ _ => true
  | .rframe _ _ _ _ _ => true
  | .vsetn _ _ _ _ => true
  | .vsetnFloat _ _ _ _ => true
  | .vgetn _ => true
  | .vslip _ => true
  | .lfork _ => true
  | .ljoin _ => true
  | .halt => true
  | .cend => true
  | .waitc _ _ _ _ => true
  | .fenceSv => true
  | .fenceVs => true
  | .fenceVv => true
  | .fenceSys => true
  | .drainPln => true
  | .drainSpm => true
  | .drainFold => true
  | .drainBk => true
  | .drainAq => true
  | .barArrive _ => true
  | .cjoin _ => true
  | .srd _ r => r = 0x8 || r = 0x91
  | .swr _ r => r = 0x8
  | _ => false

end Sys2Proof.Machine
end

