-- ==== Sys2Proof/Machine/Dump.lean ====
section
/-! DEFINITION. Dump areas (R451, R452), `vsave` and `vrestore` (R453), and the vector-fault dump. -/
namespace Sys2Proof.Machine
open Sys2Proof

/-- ANX_IDENT (R114): 12 basins, product 0x0012, stepping A0. -/
def anxIdent : Nat := 0xC00124100

/-- Does something as the strand in a slot. -/
def State.inSlot (s : State) (n : Nat) (f : State → State) : State := { f { s with cur := n } with cur := s.cur }

/-- A word that keeps an area from moving to another core: plant, fold, fread or fclr (R452). -/
def tileWord (w : BitVec 32) : Bool := w.extractLsb' 26 6 = 0x38#6 || w.extractLsb' 26 6 = 0x39#6

/-- The first 256 bytes of a dump area but for SREC (R452). -/
def State.headerBytes (s : State) (t : Strand) (nrec : Nat) (resumeAt : Word) : List Byte :=
  let movable := t.vq.all fun q => !tileWord q.word
  bytesOf 1 4 ++ bytesOf (coreOf s.cur) 1 ++ bytesOf t.lgc.toNat 1 ++ bytesOf t.sw.toNat 1 ++
  bytesOf (1 + 2 * boolNat movable) 1 ++ bytesOf t.ctxid.toNat 2 ++ bytesOf nrec 2 ++
  bytesOf (Config.vframeSize t.lgc.toNat t.sw.toNat) 4 ++ bytesOf resumeAt.toNat 8 ++ bytesOf anxIdent 8 ++ bytesOf 0 32

/-- Byte `i` of the opaque part that carries a token (R452; log entry 9). -/
def opaqueByte (token i : Nat) : Byte := if i < 8 then leByte token i else Config.dumpByte token i

/-- The locks of one holder become another's (R452). -/
def State.moveLocks (s : State) (old new : Nat) : State :=
  { s with basins := s.basins.map fun (n, b) =>
      (n, { b with locks := b.locks.map fun (l : Lock) => if l.slot = old then { l with slot := new } else l }) }

/-- The pseudo holder of the locks that a dump area records. -/
def tokenHolder (token : Nat) : Nat := 1536 + token

/-- The dump area written at `base` (R451 step 3, R452): every part, and what the opaque part stands for. SREC keeps a
record whose access has not run again, and is 0 otherwise (log entry 34). -/
def State.writeArea (s : State) (base : Nat) (resumeAt : Word) (loops : List LoopEntry) (recs : List FaultRec) : State :=
  let t := s.self
  let token := s.nextId
  let s := { s with nextId := token + 1, saved := ⟨token, loops, t⟩ :: s.saved }
  let s := s.moveLocks s.cur (tokenHolder token)
  let s := s.writeList base (s.headerBytes t recs.length resumeAt)
  let s := if t.sreq.isSome || (s.pageReqs.any fun r => r.record = base + 0x40) then s else s.writeList (base + 0x40) (List.replicate 32 0)
  let s := s.writeList (base + 0x60) (List.replicate 160 0)
  let s := s.writeList (base + 0x100) ((recs.flatMap FaultRec.bytes) ++ List.replicate (8192 - 32 * recs.length) 0)
  let s := s.writeList (base + 0x2100) ((List.range 8).flatMap fun k => bytesOf (t.getK t.vn (BitVec.ofNat 3 k)).toNat 512)
  let s := s.writeList (base + 0x3100) ((List.range 32).flatMap fun v =>
    bytesOf (t.getV (BitVec.ofNat 5 v)).toNat (t.vlen / 8))
  s.writeList (base + 0x3100 + 4 * t.vlen)
    ((List.range (Config.vframeSize t.lgc.toNat t.sw.toNat)).map (opaqueByte token))

/-- A page request for a host-page record of a dump, which parks its answer in record `i` (R456). -/
def State.requestFor (s : State) (base i : Nat) (r : FaultRec) : FaultRec × State :=
  if r.cause = causeHostPage then
    let p := s.requestPage r.va ((s.self.vq[i]?).any fun q => q.write) (base + 0x100 + 32 * i)
    ({ r with resp := 1, port := s.leasePort.setWidth 8, tag := p.1, inc := s.incOf s.leasePort }, p.2)
  else (r, s)

/-- The vector state after its area has been written by a dump: the queue is empty (R451). -/
def Strand.dumped (t : Strand) (nrec : Nat) : Strand :=
  { t with vq := [], faults := [], resume := none, nrec := BitVec.ofNat 9 nrec }

/-- The vector-fault dump of the running strand (R451): once its accepted commands have completed, the area at XFRAME
is written and trap 0x20 is taken, at the address of the first instruction not decoded (R447). The dump waits for the
leases on its area (R405). -/
def State.faultDump (s : State) : State :=
  let base := s.xframeOf s.cur
  if s.self.exl then s.doubleTrap causeVector 0x0D
  else if !s.self.areaOk base then s.doubleTrap causeVector 0x10
  else if (s.leasedIn base s.self.areaSize).isSome then s
  else
    let s := s.fetchPoint
    let t := s.self
    let r := t.faults.foldl (fun a x =>
      let y := State.requestFor a.2 base a.1.length x
      (a.1 ++ [y.1], y.2)) (([] : List FaultRec), s)
    let s := r.2.writeArea base t.pc t.loops r.1
    (s.modSelf fun t => t.dumped r.1.length).takeTrap causeVector (BitVec.ofNat 64 base) t.pc

/-- The frame trap (R453): XVAL is the operand address. -/
def State.frameTrap (s : State) (a : Word) : State := s.trapHere causeFrame a

/-- The checks on the address of `vsave` and `vrestore` (R453). -/
def State.frameOk (s : State) (a : Word) : Bool := s.self.areaOk a.toNat

/-- The start values that `vsave` leaves (R453). -/
def Strand.afterSave (t : Strand) : Strand :=
  { t with v := [], k := [], vn := 0, xld := 0, xls := [], cntL := 0, cntS := 0, cntC := 0, cntT := 0, vq := [], slink := none, vlinks := [],
           faults := [], resume := none }

/-- vsave (R453): the strand's accepted commands complete first. -/
def State.vsave (a : BitVec 5) (s : State) : State :=
  let va := s.getG a
  let kinds := [0, 1, 2, 3, 4]
  if !s.frameOk va then s.frameTrap va
  else if s.busyIn s.cur kinds then s.waitOn (.engines kinds)
  else
    match s.leasedIn va.toNat s.self.areaSize with
    | some l => s.waitOn (.lease l)
    | none =>
    let t := s.self
    ((s.writeArea va.toNat t.xpc t.shadowLoops []).modSelf Strand.afterSave).advance

def execVsave (a : BitVec 5) (s : State) : Result := .next (s.privileged (State.vsave a))

/-- Whether `n` bytes at an address are those that carry a token. -/
def State.holdsToken (s : State) (pa token n : Nat) : Bool := (List.range n).all fun i => s.byteAt (pa + i) = opaqueByte token i

/-- What the opaque part at an address stands for, if a dump or a `vsave` of as many lane groups wrote it and nothing has changed
it. -/
def State.findSaved (s : State) (pa n : Nat) (lgc : BitVec 3) : Option Saved :=
  s.saved.find? fun x => x.strand.lgc = lgc && s.holdsToken pa x.token n

/-- What an opaque part that no dump of this device wrote restores: left open (R452; log entry 9). -/
def Strand.restoreFree (t : Strand) (tok : Nat) : Strand :=
  let f (i : Nat) : Word := Config.restored tok i
  let loops := (List.range ((f 0).toNat % 7)).map fun i => LoopEntry.mk (f (8 + 4 * i)) (f (9 + 4 * i)) (f (10 + 4 * i)) (f (11 + 4 * i))
  { ((t.setFctl (f 1)) : Strand) with
    vn := (f 2).toNat % (t.vlen / 8 + 1), slip := (f 3).extractLsb' 0 3, bs := if 6 ≤ (f 4).toNat % 8 then 0 else (f 4).extractLsb' 0 3
    ite := (f 5).getLsbD 0, expp := (f 5).getLsbD 1, exps := (f 5).getLsbD 2, expte := (f 5).getLsbD 3
    lockerr := (f 5).getLsbD 4, margin := (f 5).getLsbD 5, aqFail := (f 5).getLsbD 6
    plNext := (f 6).extractLsb' 0 16, plFirst := (f 6).extractLsb' 16 16, aqCause := (f 6).extractLsb' 32 3
    cntL := (f 7).toNat % 256, cntS := (f 7).toNat / 256 % 256, cntC := (f 7).toNat / 65536 % 256
    cntT := (f 7).toNat / 16777216 % 256
    illmask := BitVec.ofNat 4096 ((List.range 64).foldl (fun a i => a * 2 ^ 64 + (f (40 + i)).toNat) 0)
    expmask := BitVec.ofNat 4096 ((List.range 64).foldl (fun a i => a * 2 ^ 64 + (f (104 + i)).toNat) 0)
    xld := loops.length, xls := shadowOf loops, vq := [], resume := none, barRec := [] }

/-- What an opaque part restores (R453): `resp` are the replies that the records of the area hold, in queue order. The
continuation record that the strand runs comes with it, and its launch (R469; log entry 62). -/
def Strand.restoreFrom (t : Strand) (x : Saved) (resp : List (BitVec 8)) : Strand :=
  let o := x.strand
  let vq := o.vq.zipIdx.map fun e => { e.1 with resp := resp.getD e.2 e.1.resp }
  { t with
    bind := o.bind, join := o.join, root := o.root, parent := o.parent, children := o.children, monsel := o.monsel
    vn := o.vn, slip := o.slip, bs := o.bs, maskW := o.maskW, sat := o.sat, rm := o.rm, fflags := o.fflags
    ite := o.ite, expp := o.expp, exps := o.exps, expte := o.expte, plNext := o.plNext, plFirst := o.plFirst
    lockerr := o.lockerr, margin := o.margin, aqCause := o.aqCause, aqFail := o.aqFail
    illmask := o.illmask, expmask := o.expmask, cntL := o.cntL, cntS := o.cntS, cntC := o.cntC, cntT := o.cntT
    barRec := o.barRec, xld := x.loops.length, xls := shadowOf x.loops, vq := vq, resume := o.resume }

/-- The masks and vector registers that an area holds (R452). -/
def State.loadImages (s : State) (base : Nat) : State :=
  let t := s.self
  let k (n : Nat) : KReg := BitVec.ofNat 4096 (leRead s.byteAt (base + 0x2100 + 512 * n) 512)
  let v (n : Nat) : VReg := BitVec.ofNat 32768 (leRead s.byteAt (base + 0x3100 + t.vlen / 8 * n) (t.vlen / 8))
  s.setSelf { t with
    k := (List.range 7).foldl (fun l n => l.set 0 (n + 1) (k (n + 1))) []
    v := (List.range 32).foldl (fun l n => l.set 0 n (v n)) [] }

/-- The records of an area that wait for their reply (R453). -/
def State.pendRecord (s : State) (base : Nat) : Bool :=
  let nrec := min 256 (s.readCo (base + 10) 2)
  (List.range nrec).any fun i => s.byteAt (base + 0x100 + 32 * i + 1) = 1

/-- The strand's context descriptor is read, as when a strand starts or is restored (R152): what the read delivers is
right, or the fault. Nothing is read in the boot context (R444). -/
def State.ctxBad (s : State) (ctx : BitVec 16) : Option (BitVec 8) :=
  if s.inBoot ctx || (s.ctxDesc ctx).isSome then none else some (s.ctxFault ctx)

/-- A fault of the descriptor of the running strand's context, at the address where the strand goes on (R152, R459; log
entry 61). -/
def State.ctxTrap (s : State) (c : BitVec 8) (at_ : Word) : State :=
  let s := if c = causeMachineCheck then s.strandReport s.cur s.self { kind := 3, addr := at_.toNat } else s
  s.takeTrap c at_ s.self.pc

/-- vrestore (R453). -/
def State.vrestore (a : BitVec 5) (s : State) : State :=
  let va := s.getG a
  let base := va.toNat
  let byte (o : Nat) : Nat := (s.byteAt (base + o)).toNat
  if base % 256 ≠ 0 || !devRange base 0x3100 then s.frameTrap va
  else
    let sw : BitVec 2 := BitVec.ofNat 2 (byte 6)
    let t := { s.self with sw := sw }
    if !t.areaOk base || s.readCo base 4 ≠ 1 || byte 7 % 2 ≠ 1 || s.readCo (base + 24) 8 ≠ anxIdent ||
        byte 5 ≠ t.lgc.toNat || 4 ≤ byte 6 || (byte 4 ≠ s.myCore && byte 7 / 2 % 2 = 0) then s.frameTrap va
    else
      match s.ctxBad t.ctxid with
      | some c => s.ctxTrap c t.xpc
      | none =>
      if s.pendRecord base then s.waitOn (.replies base)
      else if s.leased (base / 64) then s.waitOn (.lease (base / 64))
      else
      let size := Config.vframeSize t.lgc.toNat sw.toNat
      let resp := (List.range (min 256 (s.readCo (base + 10) 2))).map fun i => s.byteAt (base + 0x101 + 32 * i)
      let t := { t with vlinks := if sw = s.self.sw then t.vlinks else [] }
      let s' := ((s.setSelf t).relend s.myCore (s.lent s.myCore)).loadImages base
      let s' := match s.findSaved (base + 0x3100 + 4 * t.vlen) size t.lgc with
        | some x => (s'.modSelf fun t => t.restoreFrom x resp).moveLocks (tokenHolder x.token) s.cur
        | none => { (s'.modSelf fun t => t.restoreFree s'.freeCtr) with freeCtr := s'.freeCtr + 1 }
      (s'.writeCo (base + 7) 1 (byte 7 - byte 7 % 2)).advance

def execVrestore (a : BitVec 5) (s : State) : Result := .next (s.privileged (State.vrestore a))

end Sys2Proof.Machine
end

