-- ==== Sys2Proof/Machine/System.lean ====
section
/-! DEFINITION. Service calls, the return from a trap and `idle` (R450), fences and drains (R331, R401, R402), `waitc`
(R300), cache and TLB maintenance (R328, R330), and `vfree` (R458). -/
namespace Sys2Proof.Machine
open Sys2Proof

/-- svc (R450): the service-call trap, with the address after it. -/
def execSvc (n : BitVec 10) (s : State) : Result := .next (s.takeTrap causeService (n.setWidth 64) (s.self.pc + 4))

/-- tret (R450). -/
def execTret (s : State) : Result := .next (s.privileged fun s => s.modSelf Strand.returnTrap)

/-- idle (R450): WAIT until one of its three events. -/
def execIdle (s : State) : Result :=
  .next (s.privileged fun s =>
    if s.self.idleDone then (s.modSelf fun t => { t with idleDone := false }).advance else s.waitOn .event)

/-- An instruction that passes the weir with a charge of 0 (R291) and then acts. -/
def State.passWeir (s : State) (f : State → State) : State :=
  match s.throughWeir [] with
  | .ok _ s => f s
  | .wait w s => s.waitOn w
  | .trap c v s => s.trapHere c v

/-- The end of such an instruction. -/
def State.passed (s : State) : State := s.vectorDone.advance

/-- fence.sv, fence.vs and fence.vv (R401, R402): every access of the strand's streams is performed when its
instruction completes. -/
def execFenceSv (s : State) : Result := .next (s.passWeir State.passed)
def execFenceVs (s : State) : Result := .next (s.passWeir State.passed)
def execFenceVv (s : State) : Result := .next (s.passWeir State.passed)

/-- The dirty lines of the reservoir written back (R401, R402). -/
def State.cleanReservoir (s : State) : State := (s.resv.filter fun e => e.2.dirty).foldl (fun s e => s.cleanResv e.1) s

/-- fence.sys (R401, R402): it waits while the link to a host that a line must reach is down (R111). -/
def execFenceSys (s : State) : Result :=
  .next (s.passWeir fun s =>
    match s.awayPort fun _ => true with
    | some p => s.waitOn (.writeBack p)
    | none => s.cleanReservoir.passed)

/-- A drain (R331). -/
def State.drain (kinds : List Nat) (s : State) : State :=
  if s.busyIn s.cur kinds then s.waitOn (.engines kinds) else s.advance

def execDrainPln (s : State) : Result := .next (s.drain [0])
def execDrainSpm (s : State) : Result := .next (s.drain [1])
def execDrainFold (s : State) : Result := .next (s.drain [2])
def execDrainBk (s : State) : Result := .next (s.drain [3])
def execDrainAq (s : State) : Result := .next (s.drain [4])

/-- The counts of a `waitc` hold (R300). That a single field of 15 never waits is the model's choice: the rule says so of
four (log entry 87). -/
def Strand.countsOk (t : Strand) (l s c k : Nat) : Bool :=
  (t.cntL ≤ l || l = 15) && (t.cntS ≤ s || s = 15) && (t.cntC ≤ c || c = 15) && (t.cntT ≤ k || k = 15)

/-- waitc (R300). -/
def execWaitc (l s' c t : BitVec 4) (s : State) : Result :=
  .next (if s.self.countsOk l.toNat s'.toNat c.toNat t.toNat then s.advance
    else s.waitOn (.counts l.toNat s'.toNat c.toNat t.toNat))

/-! ### Cache maintenance -/

/-- The place behind an address for `cclean` and `cinval` (R328): no permission is needed, and a host page that no TLB holds
an ATS translation of is none. -/
def State.probe (s : State) (va : Nat) : Res (Option Place) :=
  let t := s.self
  let of (e : TlbEntry) (s : State) : Res (Option Place) :=
    if pteClass e.leaf = 4 then
      match e.pasid with
      | none => .ok none s
      | some pasid =>
        if !s.leaseLive then .ok none s
        else
          match s.ats.find? fun a => a.port = s.leasePort && a.pasid = pasid && a.ctx = t.ctxid && a.vbase ≤ va &&
              va < a.vbase + a.size with
          | some a => .ok (some (.host (a.hpa + (va - a.vbase)))) s
          | none => .ok none s
    else (s.placeOf e va .probe).bind fun p s => .ok (some p) s
  if s.inBoot t.ctxid then (s.bootPlace va .probe).bind fun p s => .ok (some p) s
  else
    match s.findTlb t.ctxid va with
    | some e => of e s
    | none => (s.fillTlb va fun _ => false).bind fun e s => of e s

/-- What `cclean` and `cinval` do to one line (R328). -/
def State.maintain (s : State) (inval : Bool) (p : Place) : State :=
  match p with
  | .dev pa =>
    if inval then (s.dropLine (s.migRead pa / 64)).dropLine (pa / 64)
    else (s.cleanLine (s.migRead pa / 64)).cleanLine (pa / 64)
  | .host hpa => if inval then s.dropWithViews (hpa / 64) else s.cleanResv (hpa / 64)
  | .peer dv pa _ _ =>
    if inval then { s with peer := s.peer.filter fun (l : PeerLine) => !(l.dev = dv && l.line = pa / 64) } else s
  | _ => s

/-- What the handling of one line first waits for: the link to its host (R111). -/
def State.maintainWait (s : State) (p : Place) : Option Await :=
  match p with
  | .host hpa => (s.awayPort fun l => l = hpa / 64).map .writeBack
  | _ => none

/-- The lines of one page that overlap a range, handled: `n` lines from the line of `va`. -/
def State.maintainLines (s : State) (inval : Bool) (va : Nat) : Nat → Res Unit
  | 0 => .ok () s
  | n + 1 => (s.probe va).bind fun p s =>
      match p with
      | some p =>
        (match s.maintainWait p with
         | some w => .wait w s
         | none => (s.maintain inval p).maintainLines inval (va / 64 * 64 + 64) n)
      | none => s.maintainLines inval (va / 64 * 64 + 64) n

/-- The range page by page (R328): `k` pages from the one that holds `va`, up to `hi`. -/
def State.maintainRange (s : State) (inval : Bool) (va hi : Nat) : Nat → Res Unit
  | 0 => .ok () s
  | k + 1 =>
    let stop := min hi ((va / 4096 + 1) * 4096)
    (s.maintainLines inval va ((stop - 1) / 64 - va / 64 + 1)).bind fun _ s => s.maintainRange inval stop hi k

/-- cclean and cinval (R328). -/
def State.maintainAll (inval : Bool) (a b : BitVec 5) (s : State) : State :=
  let va := s.getG a
  let n := (s.getG b).toNat
  if n = 0 then s.advance
  else if va.extractLsb' 48 16 ≠ 0 || 2 ^ 48 < va.toNat + n then s.trapHere causeTranslation va
  else
    match s.maintainRange inval va.toNat (va.toNat + n) (pageCount va.toNat n) with
    | .ok _ s => s.advance
    | .trap c v s => s.trapHere c v
    | .wait w s => s.waitOn w

def execCclean (a b : BitVec 5) (s : State) : Result := .next (s.maintainAll false a b)
def execCinval (a b : BitVec 5) (s : State) : Result := .next (s.maintainAll true a b)

/-! ### TLB maintenance -/

/-- Whether a `tlbinv` of a scope matches a translation (R330). -/
def tlbMatch (scope : Nat) (ctx : BitVec 16) (va : Nat) (ectx : BitVec 16) (glob : Bool) (base size : Nat) : Bool :=
  let here := base ≤ va && va < base + size
  match scope with
  | 0 => true
  | 1 => !glob && ectx = ctx
  | 2 => here && (glob || ectx = ctx)
  | _ => here

/-- The translations that a selector names, dropped (R330). -/
def State.dropTlb (s : State) (sel va : Word) : State :=
  let scope := if sel.extractLsb' 32 32 ≠ 0 || sel.extractLsb' 2 14 ≠ 0 then 0 else bitsOf sel 0 2
  let ctx : BitVec 16 := sel.extractLsb' 16 16
  { s with tlb := s.tlb.filter fun e => !tlbMatch scope ctx va.toNat e.ctx e.glob e.vbase e.size
           ats := s.ats.filter fun e => !tlbMatch scope ctx va.toNat e.ctx false e.vbase e.size }

/-- The walks in flight for translations that a selector names end without filling, ATS exchanges and questions to owners
among them: the accesses that asked walk again (R307, R330). -/
def State.dropWalks (s : State) (sel va : Word) : State :=
  let scope := if sel.extractLsb' 32 32 ≠ 0 || sel.extractLsb' 2 14 ≠ 0 then 0 else bitsOf sel 0 2
  let ctx : BitVec 16 := sel.extractLsb' 16 16
  let again (t : Strand) (page : Nat) : Strand :=
    if tlbMatch scope ctx va.toNat t.ctxid false (page * 4096) 4096 then t.goesOn else t
  { s with strands := s.strands.map fun (n, t) =>
      (n, (match t.st with
        | .wait (.ats _ page _) => again t page
        | .wait (.fill _ page) => again t page
        | _ => t).forgetPlaces) }

/-- Whether a command makes accesses that a translation stands behind: a lock makes none. -/
def Work.accesses : Work → Bool
  | .plock _ => false
  | .punlock _ => false
  | _ => true

/-- Accesses begun before a number was given that have not been performed: engine commands, and accesses of strands at
peers and in the FIFOs of banks. -/
def State.pendingBefore (s : State) (k : Nat) : Bool :=
  (s.ops.any fun o => o.id < k && o.work.accesses) ||
    s.strands.any fun e =>
      match e.2.st with
      | .wait (.peer tok _ _) => tok < k
      | .wait (.cast _ _ _ _ tok) => tok < k
      | .wait (.bank tok _) => tok < k
      | _ => false

/-- tlbinv (R330): it waits for the accesses begun before it, of every strand, since any of them may have been translated
by a dropped translation (log entry 35). -/
def State.tlbInvalidate (a b : BitVec 5) (s : State) : State :=
  let snap := s.self.snap.getD s.nextId
  let s := (s.dropTlb (s.getG a) (s.getG b)).dropWalks (s.getG a) (s.getG b)
  if s.pendingBefore snap then
    (s.modSelf fun t => { t with snap := some snap }).waitOn (.commands snap)
  else (s.modSelf fun t => { t with snap := none }).advance

def execTlbinv (a b : BitVec 5) (s : State) : Result := .next (s.privileged (State.tlbInvalidate a b))

/-- vfree (R458). -/
def State.vitrineFree (a : BitVec 5) (s : State) : State :=
  let va := s.getG a
  let pa := va.toNat
  if pa % 65536 ≠ 0 then s.trapHere causeMisaligned va
  else if !s.isTableMem pa then s.trapHere causeAccess va
  else
    let f := s.frame (pa / 65536)
    (if f.state = 0 then s else s.setFrame (pa / 65536) ⟨0, 0, f.gen + 1⟩).advance

def execVfree (a : BitVec 5) (s : State) : Result := .next (s.privileged (State.vitrineFree a))

end Sys2Proof.Machine
end

