-- ==== Sys2Proof/Machine/Strands.lean ====
section
/-! DEFINITION. The configuration of the vector unit (R243, R251 to R253), forks and joins (R275 to R278),
continuations (R279 to R286), and `cend`. -/
namespace Sys2Proof.Machine
open Sys2Proof

/-- The change of slice width (R251): registers, masks and vector links go. -/
def Strand.setSlice (t : Strand) (sw : BitVec 2) : Strand :=
  if sw = t.sw then t else { t with sw := sw, v := [], k := [], vlinks := [] }

/-- A `vsetn` of element width `w` (R251). -/
def Strand.setVn (t : Strand) (d a : BitVec 5) (sw : BitVec 2) (w : Nat) : Strand :=
  let t := t.setSlice sw
  let n := min (t.getG a).toNat (t.vlen / w)
  { (t.setG d (BitVec.ofNat 64 n)) with vn := n, maskW := w }

/-- The checks of `vsetn` (R249, R251, R275), which are precise. -/
def Strand.vsetnOk (t : Strand) (sw : BitVec 2) : Bool :=
  t.bind.swMin ≤ sw && sw ≤ t.bind.swMax && (sw = t.sw || (t.children.isEmpty && t.parent.isNone))

/-- An instruction of major 0x20: one unit of class 4 (R291). -/
def State.configure (s : State) (f : State → State) : State :=
  match s.throughWeir [(4, 1)] with
  | .ok _ s => (f s).passed
  | .wait w s => s.waitOn w
  | .trap c v s => s.trapHere c v

/-- A `vsetn` of element width `w` (R251): a wider slice takes banks of the core's L1D (R243). -/
def State.setVn (s : State) (d a : BitVec 5) (sw : BitVec 2) (w : Nat) : State :=
  (s.modSelf fun t => t.setVn d a sw w).relend s.myCore (s.lent s.myCore)

def execVsetn (d a : BitVec 5) (sw : BitVec 2) (ty : BitVec 3) (s : State) : Result :=
  .next (if s.self.vsetnOk sw then s.configure fun s => s.setVn d a sw (iwidth ty) else s.illegal)
def execVsetnFloat (d a : BitVec 5) (sw : BitVec 2) (ty : BitVec 3) (s : State) : Result :=
  .next (if s.self.vsetnOk sw then s.configure fun s => s.setVn d a sw (FFmt.ofCode ty.toNat).width else s.illegal)

/-- vgetn (R252) and vslip (R253). -/
def execVgetn (d : BitVec 5) (s : State) : Result :=
  .next (s.configure fun s => s.modSelf fun t => t.setG d (BitVec.ofNat 64 t.vn))
def execVslip (n : BitVec 5) (s : State) : Result :=
  .next (s.configure fun s => s.modSelf fun t => { t with slip := n.extractLsb' 0 3 })

/-! ### Forks -/

/-- The half of an image of `L` lane groups that moves to the parent or, with `up`, to the child (R276). -/
def splitImage (L rows : Nat) (up : Bool) (x : VReg) : VReg :=
  let h := L / 2
  BitVec.ofNat 32768 (packN 512 ((List.range (h * rows)).map fun n =>
    elem x 512 (n / h * L + n % h + (if up then h else 0))))

/-- The image that two halves recombine to (R277). -/
def joinImage (L rows : Nat) (lo hi : VReg) : VReg :=
  let h := L / 2
  BitVec.ofNat 32768 (packN 512 ((List.range (L * rows)).map fun n =>
    if n % L < h then elem lo 512 (n / L * h + n % L) else elem hi 512 (n / L * h + (n % L - h))))

/-- The old position of bit `p` of a half mask, at elements of width `w` (R276). -/
def oldPos (L w : Nat) (up : Bool) (p : Nat) : Nat :=
  let e := 512 / w
  let h := L / 2
  (p / e / h * L + p / e % h + (if up then h else 0)) * e + p % e

/-- The half of a mask (R276): positions that receive no bit are 0. -/
def splitMask (L w : Nat) (up : Bool) (m : KReg) : KReg :=
  packK ((List.range 4096).map fun p => oldPos L w up p < 4096 && m.getLsbD (oldPos L w up p))

/-- The bits of a mask below position `n`: the positions of the elements that an image holds (R276). -/
def maskBelow (n : Nat) (m : KReg) : KReg := m &&& BitVec.ofNat 4096 (2 ^ min n 4096 - 1)

/-- The mask that two halves recombine to, for the first `n` positions (R277). -/
def joinMask (L w n : Nat) (lo hi : KReg) : KReg :=
  let e := 512 / w
  let h := L / 2
  packK ((List.range (min 4096 n)).map fun i =>
    let j := i / e % L
    let row := i / e / L
    if j < h then lo.getLsbD ((row * h + j) * e + i % e) else hi.getLsbD ((row * h + (j - h)) * e + i % e))

/-- How many of the elements below VN move to the parent (R276). -/
def keptCount (L w vn : Nat) : Nat := ((List.range vn).filter fun i => i / (512 / w) % L < L / 2).length

/-- The registers of a strand, or of its child, after a split (R276). -/
def Strand.half (t : Strand) (up : Bool) : Strand :=
  let L := 2 ^ t.lgc.toNat
  let rows := t.slice / 512
  let kept := keptCount L t.maskW t.vn
  { t with
    v := (List.range 32).foldl (fun l n => l.set 0 n (splitImage L rows up (t.v.get 0 n))) []
    k := (List.range 7).foldl (fun l n => 
      l.set 0 (n + 1) (splitMask L t.maskW up (maskBelow (L * t.slice / t.maskW) (t.k.get 0 (n + 1))))) []
    vn := if up then t.vn - kept else kept
    lgc := t.lgc - 1
    vlinks := [] }

/-- The frame top and the spill base of a slot in its launch's areas (R135). -/
def State.areaOf (s : State) (t : Strand) (slot : Nat) : Word × Word :=
  let b := t.bind
  let core := coreOf slot
  let x := 4 * (core / 16 % 6) + core % 4
  let y := 4 * (core / 16 / 6) + core % 16 / 4
  match s.launchOf b.launch with
  | some l =>
    let a := l.areas.getD ((y - b.y0) * b.w + (x - b.x0)) (0, 0)
    (a.1 + BitVec.ofNat 64 (slot % 8 * b.frameSz + b.frameSz), a.2 + BitVec.ofNat 64 (slot % 8 * b.spillSz))
  | none => (BitVec.ofNat 64 b.frameSz, 0)

/-- The child of a fork (R275). That it has the parent's mask element width until its own first `vsetn` is the model's
choice (log entry 88). -/
def Strand.childOf (t : Strand) (d : BitVec 5) (parent : Nat) (area : Word × Word) : Strand :=
  let h := t.half true
  let c : Strand :=
    { pc := t.pc + 4, g := t.g, v := h.v, k := h.k, vn := h.vn, lgc := h.lgc, slip := t.slip, bs := t.bs, sw := t.sw,
      lgbase := t.lgbase + BitVec.ofNat 3 (2 ^ (t.lgc.toNat - 1)), maskW := t.maskW, sat := t.sat, rm := t.rm,
      fflags := t.fflags, loops := t.loops, cur := t.ctxid = 0, ctxid := t.ctxid, ite := t.ite, bind := t.bind,
      parent := some parent }
  ((c.setG 2 area.1).setG 3 area.2).setG d 0

/-- The lowest FREE slot of a core (R275). -/
def State.lowestFree (s : State) (core : Nat) : Option Nat :=
  ((List.range 8).map (8 * core + ·)).find? fun n => (s.strand n).isNone

/-- lfork (R275). -/
def State.fork (d : BitVec 5) (s : State) : State :=
  let t := s.self
  if t.lgc = 0 then (s.setG d (BitVec.ofInt 64 (-2))).passed
  else
    match s.lowestFree s.myCore with
    | none => (s.setG d (BitVec.allOnes 64)).passed
    | some c =>
      let child := t.childOf d s.cur (s.areaOf t c)
      let parent := { t.half false with children := ⟨c, t.vn, t.maskW⟩ :: t.children }
      ((s.setStrand c child).setSelf (parent.setG d (BitVec.ofNat 64 (c % 8 + 1)))).passed

def execLfork (d : BitVec 5) (s : State) : Result := .next (s.passWeir (State.fork d))

/-- A strand's locks released (R362). -/
def State.releaseLocks (s : State) (slot : Nat) : State :=
  { s with basins := s.basins.map fun (n, b) => (n, { b with locks := b.locks.filter fun l => l.slot ≠ slot }) }

/-- A fork child is in JOIN with nothing outstanding (R277). -/
def State.childReady (s : State) (slot : Nat) : Bool :=
  ((s.strand slot).map fun t => decide (t.st = .join)).getD true && !(s.ops.any fun o => o.slot = slot)

/-- The registers of a strand after its most recent child has joined (R277). -/
def Strand.rejoin (t c : Strand) (r : Child) : Strand :=
  let L := 2 ^ (t.lgc.toNat + 1)
  let rows := t.slice / 512
  { t with
    v := (List.range 32).foldl (fun l n => l.set 0 n (joinImage L rows (t.v.get 0 n) (c.v.get 0 n))) []
    k := (List.range 7).foldl (fun l n =>
      l.set 0 (n + 1) (joinMask L r.maskW (L * t.slice / r.maskW) (t.k.get 0 (n + 1)) (c.k.get 0 (n + 1)))) []
    lgc := t.lgc + 1, vn := r.vn, children := t.children.drop 1, vlinks := [] }

/-- The running strand joins its most recent child, which is ready (R277). -/
def State.joinChild (s : State) (r : Child) : State :=
  let c := (s.strand r.slot).getD {}
  ((s.modSelf fun t => t.rejoin c r).releaseLocks r.slot).freeSlot r.slot

/-- A strand with unjoined children joins them, the most recent first, one a step; then it does `f` (R277, R278). -/
def State.joinAll (s : State) (f : State → State) : State :=
  match s.self.children with
  | [] => f s
  | r :: _ => if s.childReady r.slot then s.joinChild r else s.waitOn (.child r.slot)

/-- A fork child enters JOIN (R277): a request to it is withdrawn (R454). -/
def Strand.enterJoin (t : Strand) : Strand := { t.vectorDone with st := .join, preq := none }

/-- ljoin (R277). -/
def State.ljoin (a : BitVec 5) (s : State) : State :=
  let t := s.self
  let x := t.getG a
  if x = 0 then
    if t.parent.isSome then s.passWeir fun s => s.joinAll fun s => s.modSelf Strand.enterJoin else s.illegal
  else
    match t.children with
    | [] => s.illegal
    | r :: _ =>
      if x.toNat ≠ r.slot % 8 + 1 then s.illegal
      else s.passWeir fun s => if s.childReady r.slot then (s.joinChild r).passed else s.waitOn (.child r.slot)

def execLjoin (a : BitVec 5) (s : State) : Result := .next (s.ljoin a)

/-! ### Continuations -/

/-- A continuation ring that is enabled (R280): it lies in device memory of its basin, outside an enabled cast
pool. -/
def State.ringOk (s : State) (basin : Nat) (q : ContQueue) : Bool :=
  let base := q.base.toNat * 4096
  let n := 64 * 2 ^ q.log2n.toNat
  q.log2n ≠ 0 && rangeIn basin base n && !s.inPool base && !s.inPool (base + n - 1) &&
    (List.range (n / 2 ^ 20)).all fun i => !s.inPool (base + i * 2 ^ 20)

/-- The device's binding of a record to its launch (R280): 32 bytes, the launch's number first. -/
def Binding.bytes (b : Binding) : List Byte :=
  bytesOf b.launch 6 ++ bytesOf b.ctx.toNat 2 ++ bytesOf (b.codeBase / 65536) 6 ++ bytesOf b.codeSize 4 ++
  bytesOf b.sw.toNat 1 ++ bytesOf b.x0 1 ++ bytesOf b.y0 1 ++ bytesOf b.w 1 ++ bytesOf b.h 1 ++ bytesOf b.frameSz 4 ++
  bytesOf b.spillSz 4 ++ bytesOf 0 1

/-- A continuation record that keeps the limits of R279, from its 32 bytes as a number. -/
def recordOk (v : Nat) : Bool :=
  fieldAt v 0x10 8 % 8 = 0 && fieldAt v 0x18 1 ≤ 3 && fieldAt v 0x19 1 ≤ 3 && fieldAt v 0x1A 2 = 0

/-- Where the next record of a continuation queue goes (R280). -/
def ContQueue.tailAt (q : ContQueue) : Nat := q.base.toNat * 4096 + 64 * (q.tail.toNat % 2 ^ q.log2n.toNat)

/-- The entries of a continuation queue that strands hold for records which the owners of their counters may give them leave
to push (R284). -/
def State.ringHeld (s : State) (basin p : Nat) : Nat :=
  s.strands.countP fun e => basinOf (coreOf e.1) = basin && e.2.joining.any fun v => fieldAt v 0x19 1 = p

/-- A continuation queue has no room for a further record (R283). -/
def State.ringFull (s : State) (basin p : Nat) : Bool :=
  let q := (s.basin basin).cq.get {} p
  decide (2 ^ q.log2n.toNat ≤ (q.tail - q.head).toNat + s.ringHeld basin p)

/-- The record at an address, read and checked as `cspawn` does (R283): its bytes, or the trap. The push waits for the
leases on the entry that it writes (R405). -/
def State.readRecord (s : State) (va : Word) : Res Nat :=
  if va.toNat % 32 ≠ 0 then .trap causeRecord va s
  else
    (s.locate va 32 .read).bind fun p s => (s.readAt p va 32).bind fun v s =>
      if !recordOk v.1 then .trap causeRecord va s
      else
        let q := (s.basin s.myBasin).cq.get {} (fieldAt v.1 0x19 1)
        if !s.ringOk s.myBasin q || s.ringFull s.myBasin (fieldAt v.1 0x19 1) then .trap causeRing va s
        else if s.leased (q.tailAt / 64) then .wait (.lease (q.tailAt / 64)) s
        else .ok v.1 s

/-- A record pushed to its queue of the strand's basin, bound to the strand's launch (R280, R283, R450). -/
def State.push (s : State) (v : Nat) : State :=
  let basin := s.myBasin
  let p := fieldAt v 0x19 1
  let b := s.basin basin
  let q := b.cq.get {} p
  let bind := s.self.bind
  let s := s.writeList q.tailAt (bytesOf v 32 ++ bind.bytes)
  let s := s.setBasin basin { b with cq := b.cq.set {} p { q with tail := q.tail + 1 } }
  let s := { s with annex := { s.annex with launches := s.annex.launches.map fun (l : Launch) =>
      if l.id = bind.launch then { l with live := l.live + 1 } else l } }
  s.wakeIdle basin

/-- cspawn (R283). -/
def execCspawn (a : BitVec 5) (s : State) : Result :=
  .next (s.passWeir fun s =>
    let va := s.getG a
    (s.readRecord va).finish false fun v s => (s.push v).dropOnce.passed)

/-- The record that a counter's last decrement pushes (R284): its faults are reported with the record's address. -/
def State.joinRecord (s : State) (va : Word) : Res Nat :=
  (s.locate (va + 8) 8 .read).bind fun p s => (s.readAt p (va + 8) 8).bind fun x s =>
    let at_ : Word := BitVec.ofNat 64 x.1
    match s.readRecord at_ with
    | .trap c _ s => .trap c at_ s
    | r => r

/-- The decrement of a counter at a peer (R284): its owner makes each read-modify-write at one point. The first takes a
counter that is not 1 down by one; a counter that is 1 stays so until the record has been read and checked and its entry of
the queue is held, and then a second one makes it 0, which gives leave to push. -/
def State.joinAway (s : State) (va : Word) (p : Place) (dv : BitVec 12) (pa : Nat) : Res Unit :=
  let ask (op : Nat) : PeerMsg := (dv, 1, fun tok => .homeCommand (BitVec.ofNat 52 pa) 0 op 4 [] 0 tok)
  match s.self.joining with
  | some v =>
    let q := (s.basin s.myBasin).cq.get {} (fieldAt v 0x19 1)
    let freed (s : State) : State := s.modSelf fun t => { t with joining := none }
    (match s.self.answers.find 0 with
     | some (1, 0) =>
       if s.leased (q.tailAt / 64) then .wait (.lease (q.tailAt / 64)) s
       else s.askOwners [ask 7] [] fun _ s => .ok () ((freed s).push v)
     | some (_, 0) =>
       s.askOwners [ask 7] [] fun _ s =>
         let r := ((freed s).modSelf fun t => { t with placed := [(va, p)] }).sendAll [ask 6]
         .wait r.2 r.1
     | _ => s.askOwners [ask 7] [] fun _ s => .trap causeAccess va (freed s))
  | none =>
    s.askOwners [ask 6] [(va, p)] fun ans s =>
      match ans.find 0 with
      | some (x, 0) =>
        if x = 1 then
          (s.joinRecord va).bind fun v s =>
            let r := (s.modSelf fun t => { t with joining := some v, placed := [(va, p)] }).sendAll [ask 7]
            .wait r.2 r.1
        else .ok () s
      | _ => .trap causeAccess va s

/-- A read-modify-write of a row finds its bank idle (R284, R355). -/
def State.whenIdle (s : State) (p : Place) : Res Unit :=
  match p with
  | .plane pa => if s.bankIdle pa then .ok () s else .wait (.idle pa) s
  | _ => .ok () s

/-- The decrement of a counter, with its push (R284): one step at the counter's home. The page must allow the read and the
write (log entry 63). -/
def State.joinCounter (s : State) (va : Word) : Res Unit :=
  if va.toNat % 8 ≠ 0 then .trap causeAccess va s
  else
    (s.locate va 4 .write).bind fun p s => (s.locate va 4 .read).bind fun _ s =>
      match p with
      | .peer dv pa _ _ => s.joinAway va p dv pa
      | p => (s.whenIdle p).bind fun _ s => (s.readAt p va 4).bind fun x s =>
        let n := (x.1 + 2 ^ 32 - 1) % 2 ^ 32
        if x.1 = 1 then
          match s.writeWait p with
          | some w => .wait w s
          | none => (s.joinRecord va).bind fun v s => .ok () ((s.writeAt p 4 n).push v)
        else s.storeAt va p 4 n

/-- cjoin (R284). -/
def execCjoin (a : BitVec 5) (s : State) : Result :=
  .next (s.passWeir fun s =>
    (s.joinCounter (s.getG a)).finish true fun _ s => s.dropOnce.passed)

/-- cend (R285): END, as `halt`. -/
def execCend (s : State) : Result :=
  .next (s.passWeir fun s => s.modSelf fun t => { t with st := .ended, weirPass := none })

end Sys2Proof.Machine
end

