-- ==== Sys2Proof/Machine/Banks.lean ====
section
/-! DEFINITION. The slots of a bank (R355), its refresh (R356), the row micro-ops that a `pprog` runs (R336, R354), locks
(R360, R361), the completions of plane instructions, plants, folds and bank operations (R365, R374, R382, R394), the
refresh of scratchpad rows (R312, R316), and thermal protection (R36, R37, R462, R463). -/
namespace Sys2Proof.Machine
open Sys2Proof

/-! ### Row micro-ops -/

/-- The command and the open group that a row micro-op runs for, while a bank's slot runs one. -/
def State.rowGroup (s : State) : Option (EngineOp × Group) :=
  s.rowCtx.bind fun c => (s.op c.1).bind fun o =>
    (o.groups.find? fun g => g.bank = c.2 && g.opened).map fun g => (o, g)

/-- The base row of a command's data-row codes (R354). -/
def Work.rowBase : Work → Nat
  | .pprog _ b _ => b
  | _ => 0

/-- A row micro-op (R336): in every subarray of its group. Outside a `pprog` it is an illegal instruction (R197). -/
def State.rowMicro (s : State) (i : Instr) : State :=
  match s.rowCtx, s.rowGroup with
  | none, _ => s.illegal
  | _, some (o, g) =>
    (match rowOpOf o.work.rowBase i with
     | some op =>
       let r := s.groupSlot o g s.inp.amounts op
       r.1.setOp (r.2.1.putGroup r.2.2)
     | none => s)
  | _, none => s

def execRowcp (d s' : BitVec 5) (s : State) : Result := .next (s.rowMicro (.rowcp d s'))
def execRowmaj (x y z : BitVec 5) (s : State) : Result := .next (s.rowMicro (.rowmaj x y z))
def execRownot (d s' : BitVec 5) (s : State) : Result := .next (s.rowMicro (.rownot d s'))
def execRowshl (d s' c : BitVec 5) (s : State) : Result := .next (s.rowMicro (.rowshl d s' c))
def execRowshr (d s' c : BitVec 5) (s : State) : Result := .next (s.rowMicro (.rowshr d s' c))

/-! ### The slots of a bank -/

/-- A group opens (R334, R338, R381): the contents of the compute rows of a plane command are unspecified, and a fold
meets the latches of its subarrays. -/
def State.openGroup (s : State) (o : EngineOp) (g : Group) : State × EngineOp × Group :=
  let g := { g with opened := true }
  match o.work with
  | .fold _ _ _ _ _ _ _ => (s, g.subs.foldl (fun (o : EngineOp) (x : Nat) => s.foldOpen o x) o, g)
  | _ => (g.subs.foldl (fun (s : State) (x : Nat) => s.freeCompute x) s, o, g)

/-- A group takes no slot: every subarray of a fold's group has Z = 0 (R382), or the command has no row op. -/
def State.slotless (s : State) (o : EngineOp) (g : Group) : Bool :=
  match o.work with
  | .fold _ _ _ _ _ _ _ => g.subs.all fun x => (s.latches.get {} x).nonzero = 0
  | w => w.program.isEmpty

/-- The subarrays of a group that a row op senses: a fold reads no row where Z = 0 (R382). -/
def State.sensed (s : State) (o : EngineOp) (fail : List Nat) : List Nat :=
  match o.work with
  | .fold _ _ _ _ _ _ _ => fail.filter fun x => (s.latches.get {} x).nonzero ≠ 0
  | _ => fail

/-- A group closes (R365, R366): the reports of its margin errors, or the choice of its calibration. -/
def State.closeGroup (s : State) (o : EngineOp) (g : Group) : State :=
  let s := match o.work with
    | .pcal _ => g.subs.foldl (fun (s : State) (x : Nat) => s.freeCompute x) (s.calibrate g.bank g.subs
        (fun r s => s.opReport (g.bank / 512) o { r with tag := o.tag.toNat }) s.inp.amounts)
    | _ => s.closeMargins o g
  s.setOp (o.dropGroup g)

/-- The next slot of an open group (R355 items 3 and 5). -/
def State.groupTurn (s : State) (o : EngineOp) (g : Group) : State :=
  let op := o.work.program.getD g.pos .pass
  let s :=
    match o.work with
    | .pprog _ _ words =>
      (match (words.map decodeWord).getD g.pos none with
       | some i => { State.rowMicro { s with rowCtx := some (o.id, g.bank) } i with rowCtx := none }
       | none =>
         let r := s.groupSlot o g s.inp.amounts op
         r.1.setOp (r.2.1.putGroup r.2.2))
    | _ =>
      let r := s.groupSlot (g.subs.foldl (fun (o : EngineOp) (x : Nat) => s.foldRow o g.pos x) o) g
        (s.sensed o s.inp.amounts) op
      let f := (r.2.1.margins.drop o.margins.length).foldl (fun (a : State × EngineOp) (m : Nat × Nat) => a.1.foldSuspect a.2 m.1) (r.1, r.2.1)
      f.1.setOp (f.2.putGroup r.2.2)
  match s.op o.id with
  | some o =>
    (match o.groups.find? fun x => x.subs = g.subs with
     | some g => if o.work.program.length ≤ g.pos then s.closeGroup o g else s
     | none => s)
  | none => s

/-- Opening the next group in a bank's FIFO, whose first row op takes the slot (R355 item 5). Groups that take no slot
open and close on the way; a `plant` at the head waits for its bytes (R374), and a chained fold for its `plant`'s last byte
(R373). -/
def State.openNext (s : State) (bank : Nat) : Nat → State
  | 0 => s
  | n + 1 =>
    match s.bankHead bank with
    | none => s
    | some (o, g) =>
      match o.work with
      | .plant _ _ _ _ _ _ _ => s
      | _ =>
        if o.after.any fun k => (s.op k).isSome then s
        else
        let r := s.openGroup o g
        let s' := r.1.setOp (r.2.1.putGroup r.2.2)
        if s.slotless o g then (s'.closeGroup r.2.1 r.2.2).openNext bank n else s'.groupTurn r.2.1 r.2.2

/-- The command whose row op a bank would run in this slot: that of its open group, or the first of the group that would open
next. A `plant` at the head, or a fold that waits for one, keeps the bank from opening any. -/
def State.nextRow (s : State) (bank : Nat) : List EngineOp → Option EngineOp
  | [] => none
  | o :: l =>
    let gs := if o.held then [] else o.groups.filter fun g => g.bank = bank
    let plant := match o.work with
      | .plant _ _ _ _ _ _ _ => true
      | _ => false
    if gs.isEmpty then s.nextRow bank l
    else if gs.any (·.opened) then some o
    else if plant || o.after.any fun k => (s.op k).isSome then none
    else if gs.all (s.slotless o) then s.nextRow bank l
    else some o

/-- The clk of a refresh count for the launch of the command whose row op waits behind it (R474; log entry 36). -/
def State.countRefresh (s : State) (bank : Nat) : State :=
  match (s.nextRow bank s.ops).bind fun o => s.strand o.slot with
  | some t => { s with annex := { s.annex with launches := s.annex.launches.map fun (l : Launch) =>
      if l.id = t.bind.launch then { l with trefr := min (l.trefr + 35) (2 ^ 64 - 1) } else l } }
  | none => s

/-- The demand access at the head of a bank's FIFO, unless another strand holds a lock on its subarray whose operation has it
open: then the access waits for the end of that operation (R355, R360). -/
def State.demandNext (s : State) (bank : Nat) : Option Demand :=
  ((s.banks.get {} bank).fifo.head?).filter fun d =>
    let sub := d.line / 2 ^ 14
    d.slot.isNone || !((s.basin (bank / 512)).locks.any fun l =>
      some l.slot ≠ d.slot && l.subs.contains sub &&
      s.ops.any fun o => o.slot = l.slot && o.groups.any fun g => g.opened && g.subs.contains sub)

/-- The slot of the demand access at the head (R355): the next one reaches the head. -/
def State.demandSlot (s : State) (bank : Nat) (d : Demand) : State :=
  let b := s.banks.get {} bank
  State.serveDemand { s with banks := s.banks.set {} bank { b with fifo := b.fifo.drop 1, begun := 0 } } d

/-- One more slot of group work of a bank has begun (R355). -/
def State.workBegun (s : State) (bank : Nat) : State :=
  let b := s.banks.get {} bank
  if b.fifo.isEmpty then s else { s with banks := s.banks.set {} bank { b with begun := b.begun + 1 } }

/-- One slot of a bank (R355): a due refresh; the demand access that has seen 8 slots of group work; the open group; the demand
access at the head; the next group. -/
def State.bankSlot (s : State) (bank : Nat) : State :=
  let b := s.banks.get {} bank
  if b.due ≠ 0 then
    let s := s.countRefresh bank
    { s with banks := s.banks.set {} bank { b with due := b.due - 1, slot := b.slot + 1 } }
  else
    match (s.demandNext bank).filter fun _ => 8 ≤ b.begun with
    | some d => s.demandSlot bank d
    | none =>
      match (s.bankHead bank).filter fun h => h.2.opened with
      | some (o, g) => (s.workBegun bank).groupTurn o g
      | none =>
        match s.demandNext bank with
        | some d => s.demandSlot bank d
        | none => s.openNext bank s.ops.length

/-- Demand accesses of other units reach a bank: of caches, of casts, of bank operations (R355). -/
def State.otherDemands (s : State) (bank : Nat) : Nat → State
  | 0 => s
  | n + 1 =>
    ({ s with nextId := s.nextId + 1 }.enqueue ⟨s.nextId, none, 2 ^ 21 * bank, 0, none⟩).otherDemands bank n

/-- A bank of a basin by number: 384 in each. -/
def bankNamed (basin k : Nat) : Bool := basin < 12 && k < 384
def bankId (basin k : Nat) : Nat := 512 * basin + k

/-- BANK_SLOT (R355): `amounts` are the subarrays whose sensed reference bits differ in this slot (R364), or, in the
last slot of a calibration, the failures of its sweep (R366); `len` demand accesses of other units have arrived. Before READY
a bank is idle (R115). -/
def execBankSlot (s : State) : Result :=
  let k := bankId s.inp.unit s.inp.part
  .next (if bankNamed s.inp.unit s.inp.part then s.whenReady ((s.admitWaiting.otherDemands k s.inp.len).bankSlot k) else s)

/-- REFRESH_DEADLINE (R356): the deadline of the next slot passes, at the spacing of the die's interval; before READY a bank
is idle (R115). -/
def execRefreshDeadline (s : State) : Result :=
  let k := bankId s.inp.unit s.inp.part
  let b := s.banks.get {} k
  let i := (s.basin s.inp.unit).interval.get 32 (s.inp.part / 32)
  .next (if bankNamed s.inp.unit s.inp.part && b.nextAt ≤ s.clk * 12288 then
      s.whenReady { s with banks := s.banks.set {} k { b with due := b.due + 1, nextAt := b.nextAt + i * 1100000 } }
    else s)

/-! ### Locks -/

/-- A command acts on some subarray of a set in its groups: what a grant and a release wait for (R360, R361). -/
def EngineOp.uses (o : EngineOp) (subs : List Nat) : Bool :=
  !o.work.isLock && !o.work.isUnlock && meets ((o.work.fountain).getD []) subs

/-- The commands accepted before one. -/
def State.acceptedBefore (s : State) (o : EngineOp) : List EngineOp :=
  (s.ops.takeWhile fun p => p.id ≠ o.id).filter fun p => !p.held

/-- A demand access to one of some subarrays waits that came before a number (R360). -/
def State.demandBefore (s : State) (id : Nat) (subs : List Nat) : Bool :=
  s.banks.any fun b => b.2.fifo.any fun d => d.slot.isSome && d.id < id && subs.contains (d.line / 2 ^ 14)

/-- The three conditions of a grant (R360), and no accepted command of another strand is left on the subarrays (log
entry 97). -/
def State.grantable (s : State) (o : EngineOp) (d : Desc) : Bool :=
  let locks := (s.basin d.basin).locks
  !o.held && !((s.acceptedBefore o).any fun p => p.uses d.subs) && !s.demandBefore o.id d.subs &&
    !(s.ops.any fun p => !p.held && p.slot ≠ o.slot && p.uses d.subs) &&
    !(locks.any fun l => l.slot ≠ o.slot && meets l.subs d.subs) && locks.length < 64

/-- LOCK_GRANT (R360): the command is named by its number. -/
def execLockGrant (s : State) : Result :=
  let s := s.admitWaiting
  .next (match s.op s.inp.unit with
    | some o =>
      (match o.work with
       | .plock d =>
         if s.grantable o d then
           let b := s.basin d.basin
           (s.setBasin d.basin { b with locks := ⟨o.slot, o.id, d.subs⟩ :: b.locks }).finishOp o
         else s
       | _ => s)
    | none => s)

/-- The locks of a fountain, most recent first, without the first that a strand holds on this set. -/
def dropLock (slot : Nat) (subs : List Nat) : List Lock → List Lock
  | [] => []
  | l :: t => if l.slot = slot && risingSet l.subs = risingSet subs then t else l :: dropLock slot subs t

/-- LOCK_RELEASE (R361): once the strand's earlier operations on those subarrays have completed. -/
def execLockRelease (s : State) : Result :=
  .next (match s.op s.inp.unit with
    | some o =>
      (match o.work with
       | .punlock d =>
         let pending := s.ops.any fun p => p.id < o.id && p.slot = o.slot && meets ((p.work.fountain).getD []) d.subs
         if pending then s
         else
           let b := s.basin d.basin
           let rest := dropLock o.slot d.subs b.locks
           if rest = b.locks then
             (match s.strand o.slot with
              | some t => (s.setStrand o.slot { t with lockerr := true }).finishOp o
              | none => s.finishOp o)
           else (s.setBasin d.basin { b with locks := rest }).finishOp o
       | _ => s)
    | none => s)

/-! ### Completions -/

/-- PLSTAT after a command with margin errors (R333, R365). -/
def State.noteMargins (s : State) (o : EngineOp) : State :=
  match (if o.margins.isEmpty then none else s.strand o.slot) with
  | some t => s.setStrand o.slot { t with margin := true, plFirst := if t.margin then t.plFirst else o.tag }
  | none => s

/-- PLANE_INSTRUCTION_COMPLETE (R365): no group is left. -/
def execPlaneInstructionComplete (s : State) : Result :=
  .next (match s.op s.inp.unit with
    | some o =>
      (match o.work with
       | .plane _ _ _ _ _ _ _ => if o.groups.isEmpty then (s.noteMargins o).finishOp o else s
       | .pprog _ _ _ => if o.groups.isEmpty then (s.noteMargins o).finishOp o else s
       | .pcal _ => if o.groups.isEmpty then (s.noteMargins o).finishOp o else s
       | _ => s)
    | none => s)

/-- PLANT_LATCH_LOAD_COMPLETE (R372, R374): the next `code` rows of the group at the head of a bank's FIFO land, or all
that are left (0); with the last one the group completes. -/
def execPlantLatchLoadComplete (s : State) : Result :=
  let s := s.admitWaiting
  .next (match s.op s.inp.unit with
    | some o =>
      (match o.work, s.bankHead s.inp.part with
       | .plant _ _ n bcast _ _ _, some (h, g) =>
         if h.id = o.id then
           let left := plantRows n bcast g - g.pos
           let r := s.loadRows o g (if s.inp.code = 0 then left else min s.inp.code left)
           if r.2.pos < plantRows n bcast g then r.1.setOp (o.putGroup r.2)
           else
             let o := o.dropGroup g
             if o.groups.isEmpty then r.1.finishOp o else r.1.setOp o
         else s
       | _, _ => s)
    | none => s)

/-- The tile that a fold adds to. -/
def Work.tile : Work → Option Nat
  | .fold _ t _ _ _ _ _ => some t
  | _ => none

/-- FOLD_COMPLETE (R380, R382, R386): the additions of a fold, after those of the earlier folds of its core on its
tile. -/
def execFoldComplete (s : State) : Result :=
  .next (match s.op s.inp.unit with
    | some o =>
      let core := coreOf o.slot
      if o.work.tile.isSome && o.groups.isEmpty &&
          !((s.acceptedBefore o).any fun p => coreOf p.slot = core && p.work.tile = o.work.tile) then
        let s := s.noteMargins o
        (s.setCore core ((s.core core).foldInto o s.clk)).finishOp o
      else s
    | none => s)

/-- The physical addresses that a bank operation touches. -/
def Work.bankCells : Work → List Nat
  | .bank _ _ _ d x _ => d ++ x
  | _ => []

/-- The elements that a bank operation may write (R392). -/
def Work.bankWrites : Work → List Nat
  | .bank op _ _ d x _ => if op = .cx then d ++ x else d
  | _ => []

/-- BANK_OPERATION_COMPLETE (R392 to R394): in the arrival order of its basins, with the flags it raises. A write to a
line waits for the leases that this device granted on it (R405). -/
def execBankOperationComplete (s : State) : Result :=
  .next (match s.op s.inp.unit with
    | some o =>
      (match o.work with
       | .bank _ _ _ _ _ _ =>
         let mine := o.work.bankCells.map paBasin
         if (s.ops.any fun p => p.id < o.id && p.work.bankCells.any fun a => mine.contains (paBasin a)) ||
             o.work.bankWrites.any fun a => s.leased (a / 64) then s
         else
           let r := s.runBank o
           let s := match r.1.strand o.slot with
             | some t => r.1.setStrand o.slot { t with fflags := t.fflags ||| r.2 }
             | none => r.1
           s.finishOp o
       | _ => s)
    | none => s)

/-! ### Scratchpad refresh -/

/-- The refresh slot of a scratchpad bank that is next, at its clk (R312, R316): an ephemeral bank passes; an expired row
stays so and is reported once; any other row is young again. The slots that no step has taken yet count in the ages of
the rows all the same (`State.rowLast`). -/
def State.refreshRow (s : State) (core bank : Nat) : State :=
  let c := s.core core
  let at_ := c.spNext.get 0 bank
  let k := c.spRow.get 0 bank
  let row := 1024 * bank + k
  let c' := { c with spRow := c.spRow.set 0 bank ((k + 1) % 1024)
                     spNext := c.spNext.set 0 bank (at_ + s.deadline core / 2048) }
  if c.eph.getLsbD bank then s.setCore core c'
  else
    match (if c.rowDead.get false row then none else s.rowLast core row at_) with
    | some w => s.setCore core { c' with rowClk := c'.rowClk.put row w }
    | none =>
      let c' := { c' with rowDead := c'.rowDead.set false row true }
      if c.rowReported.get false row then s.setCore core c'
      else
        (s.setCore core { c' with rowReported := c'.rowReported.set false row true }).report (basinOf core)
          { kind := 6, core := core, bank := bank, index := k }

/-- The reports that are due of rows of a bank are raised (R316). -/
def State.raiseDue (s : State) (core bank : Nat) : State :=
  let c := s.core core
  if c.rowDue.isEmpty then s
  else
    (c.rowDue.filter fun r => r / 1024 = bank).foldl (fun s r =>
      s.report (basinOf core) { kind := 6, core := core, bank := bank, index := r % 1024 })
      (s.setCore core { c with rowDue := c.rowDue.filter fun r => r / 1024 ≠ bank })

/-- SCRATCHPAD_REFRESH (R115, R312): the bank `part` of a core, once its slot has come. -/
def execScratchpadRefresh (s : State) : Result :=
  .next (s.whenReady (if s.inp.unit < 192 && s.inp.part < 48 && (s.core s.inp.unit).spNext.get 0 s.inp.part ≤ s.clk then
      (s.raiseDue s.inp.unit s.inp.part).refreshRow s.inp.unit s.inp.part
    else s))

/-! ### Thermal protection -/

/-- The value of a temperature in 1/16 °C (R478). -/
def deg (x : BitVec 16) : Int := x.toInt

/-- The sensors next to a sensor (R462): 0 to 23 of the array dies, 24 to 27 of the control layer. -/
def neighbours (n : Nat) : List Nat :=
  (List.range 28).filter fun m => m ≠ n &&
    (if n < 24 then
      (if m < 24 then decide (m / 2 ≤ n / 2 + 1) && decide (n / 2 ≤ m / 2 + 1) else decide (n / 2 = 0))
    else decide (24 ≤ m) || decide (m / 2 = 0))

/-- The spread of a list of readings. -/
def spread (l : List (BitVec 16)) : Int :=
  (l.map deg).foldl max (deg (l.headD 0)) - (l.map deg).foldl min (deg (l.headD 0))

/-- A sensor with one more sample: 10 s are 10,000 samples. -/
def Sensor.sample (x : Sensor) (p : SensorSample) : Sensor :=
  { x with temp := p.temp, recent := (p.temp :: x.recent).take 10000 }

/-- Whether a sensor fails at a sample (R462): `all` are the basin's sensors after the sample. -/
def sensorFails (all : Table Sensor) (n : Nat) (p : SensorSample) : Bool :=
  let mine := (all.get {} n).recent
  p.fault || deg p.temp < -640 || 2400 < deg p.temp ||
    (10000 ≤ mine.length && spread mine = 0 &&
      (neighbours n).any fun m => 48 < spread ((all.get {} m).recent.take 10000))

/-- The hottest of some sensors that have not failed; none when all have. -/
def hottest (all : Table Sensor) (l : List Nat) : Option Int :=
  ((l.map fun n => all.get {} n).filter fun x => !x.failed).foldl
    (fun a x => some (max (a.getD (deg x.temp)) (deg x.temp))) none

/-- The refresh interval in ms that a die's sensors give (R36, R462). -/
def dieInterval (all : Table Sensor) (d : Nat) : Nat :=
  let l := [2 * d, 2 * d + 1]
  if (l.any fun n => (all.get {} n).failed) || l.any fun n => 1360 < deg (all.get {} n).temp then 16 else 32

/-- The retention deadline that the control-layer sensors give (R37, R312, R462). -/
def bandDeadline (all : Table Sensor) : Nat :=
  let l := [24, 25, 26, 27]
  let some_ (t : Int) : Bool := l.any fun n => t < deg (all.get {} n).temp
  if (l.any fun n => (all.get {} n).failed) || some_ 1360 then 11000 else if some_ 880 then 22000 else 44000

/-- The slot limit of a quad at a sample (R463): `c` from its control-layer sensor, `a` from the array dies. -/
def Quad.thermal (q : Quad) (c a : Option Int) : Quad :=
  match c, a with
  | some c, some a =>
    if 1600 ≤ c || 1472 ≤ a then { q with limit := max 1 (q.limit - 2), cool := 0 }
    else if c < 1520 && a < 1408 then
      if q.cool + 1 = 10 then { q with limit := min 16 (q.limit + 1), cool := 0 } else { q with cool := q.cool + 1 }
    else { q with cool := 0 }
  | _, _ => { q with limit := max 1 (q.limit - 2), cool := 0 }

/-- A basin's scratchpads under a new retention deadline, from the next slot of each refresh controller (R312). -/
def State.setDeadline (s : State) (basin d : Nat) : State :=
  let b := s.basin basin
  if b.retention = d then s
  else
    let turn (s : State) (core : Nat) : State :=
      s.setCore core { (List.range 48).foldl (fun c k => c.nextSpan k (s.spanOf core k s.clk)) (s.core core) with
                         rowDue := (s.core core).rowDue ++ (List.range 48).flatMap (s.foundRows core) }
    let s := (List.range 16).foldl (fun s i => turn s (16 * basin + i)) s
    s.setBasin basin { s.basin basin with retention := d }

/-- The samples taken in and the failures found (R462), with their reports. -/
def State.takeSamples (s : State) (basin : Nat) (l : List SensorSample) : State :=
  let b := s.basin basin
  let named := l.zipIdx.filter fun e => e.2 < 28
  let all := named.foldl (fun t e => t.set {} e.2 ((t.get {} e.2).sample e.1)) b.sensors
  let bad := (named.filter fun e => !(all.get {} e.2).failed && sensorFails all e.2 e.1).map (·.2)
  let all := bad.foldl (fun t n => t.set {} n { t.get {} n with failed := true }) all
  bad.foldl (fun s n => s.report basin { kind := 7, index := n }) (s.setBasin basin { b with sensors := all })

/-- What a basin's sensors set at a sample: the intervals of its dies, the deadline of its scratchpads and the slot
limits of its quads (R36, R37, R463). `was` are the sensors before the sample: one that the sample finds failed reads as
the hottest band from the next sample on, and takes no part in R463 from this one on (R462). -/
def State.applySample (s : State) (basin : Nat) (was : Table Sensor) : State :=
  let b := s.basin basin
  let all := b.sensors
  let bands : Table Sensor := all.map fun e => (e.1, { e.2 with failed := (was.get {} e.1).failed })
  let s := s.setBasin basin { b with
    interval := (List.range 12).foldl (fun t d => t.set 32 d (dieInterval bands d)) b.interval }
  let s := s.setDeadline basin (bandDeadline bands)
  let a := hottest all (List.range 24)
  (List.range 4).foldl (fun s i =>
    let q := s.quad (4 * basin + i)
    let q' := q.thermal (hottest all [24 + i]) a
    let s := s.setQuad (4 * basin + i) q'
    if (q.limit = 16) ≠ (q'.limit = 16) then s.report basin { kind := 8, index := i } else s) s

/-- The samples of a basin taken in, and the next ones due in 1 ms (R36, R462). -/
def State.sampleBasin (s : State) (basin : Nat) (l : List SensorSample) : State :=
  let was := (s.basin basin).sensors
  let s := s.setBasin basin { s.basin basin with
    nextSample := s.clk + 1100000, sampleUs := some (s.clk / 1100), sensorsWas := was }
  (s.takeSamples basin l).applySample basin was

/-- THERMAL_SAMPLE (R36, R463): the 28 readings of a basin, once every 1 ms. -/
def execThermalSample (s : State) : Result :=
  .next (if s.inp.unit < 12 && (s.basin s.inp.unit).nextSample ≤ s.clk then
      s.whenReady (s.sampleBasin s.inp.unit s.inp.samples)
    else s)

end Sys2Proof.Machine
end

