-- ==== Sys2Proof/Machine/Barrier.lean ====
section
/-! DEFINITION. Barriers (R422 to R426). -/
namespace Sys2Proof.Machine
open Sys2Proof

/-- The key of a group for a core (R422): 64 groups of each basin, then the device's. -/
def groupKey (core n : Nat) : Nat := if n < 64 then basinOf core * 64 + n else 768 + (n - 64)

def State.group (s : State) (k : Nat) : BarGroup := s.groups.get {} k
def State.setGroup (s : State) (k : Nat) (g : BarGroup) : State := { s with groups := s.groups.set {} k g }

/-- The mesh coordinates of a core (R26). -/
def meshX (core : Nat) : Nat := 4 * (core / 16 % 6) + core % 4
def meshY (core : Nat) : Nat := 4 * (core / 16 / 6) + core % 16 / 4

/-- The rectangle of a membership operand (R423): column, row, width and height. -/
def memberRect (m : Word) : Nat × Nat × Nat × Nat := (bitsOf m 0 5, bitsOf m 5 3, 2 ^ bitsOf m 8 3, 2 ^ bitsOf m 11 2)

/-- A core is a member (R423). -/
def isMember (m : Word) (core : Nat) : Bool :=
  let r := memberRect m
  r.1 ≤ meshX core && meshX core < r.1 + r.2.2.1 && r.2.1 ≤ meshY core && meshY core < r.2.1 + r.2.2.2

/-- The arrivals that each member core makes in a generation (R423). -/
def arrivals (m : Word) : Nat := bitsOf m 13 3 + 1

/-- Bits of a membership operand that any `bar.set` checks (R423). -/
def memberBits (m : Word) : Bool := m.extractLsb' 17 47 = 0 && bitsOf m 8 3 ≤ 4

/-- The rectangle limits of R423 for a strand on a core. -/
def memberLimits (m : Word) (b : Binding) (core n : Nat) : Bool :=
  let r := memberRect m
  b.x0 ≤ r.1 && r.1 + r.2.2.1 ≤ b.x0 + b.w && b.y0 ≤ r.2.1 && r.2.1 + r.2.2.2 ≤ b.y0 + b.h &&
    (r.1 - b.x0) % r.2.2.1 = 0 && (r.2.1 - b.y0) % r.2.2.2 = 0 &&
    (64 ≤ n || (let x := 4 * (core / 16 % 6)
                let y := 4 * (core / 16 / 6)
                x ≤ r.1 && r.1 + r.2.2.1 ≤ x + 4 && y ≤ r.2.1 && r.2.1 + r.2.2.2 ≤ y + 4))

/-- A membership that takes effect at once, in a new generation (R423). -/
def BarGroup.setNow (g : BarGroup) (owner : BitVec 16) (m : Word) : BarGroup :=
  { g with members := m, pending := none, gen := g.gen + 1, owner := if m.getLsbD 16 then none else some owner }

/-- bar.set on a group, for a strand of a context (R423, R424). -/
def BarGroup.set (g : BarGroup) (ctx : BitVec 16) (priv : Bool) (m : Word) : BarGroup :=
  if priv && m.getLsbD 16 then { gen := g.gen + 1 }
  else
    match g.owner with
    | none => g.setNow ctx m
    | some o => if g.counts.isEmpty then g.setNow o m else { g with pending := some m }

/-- A boundary (R423): a new generation, and the pending membership. -/
def BarGroup.boundary (g : BarGroup) : BarGroup :=
  let g := { g with gen := g.gen + 1, counts := [] }
  match g.pending with
  | some m => { g with members := m, pending := none, owner := if m.getLsbD 16 then none else g.owner }
  | none => g

/-- Every required arrival is in (R423). -/
def BarGroup.full (g : BarGroup) : Bool :=
  (List.range 192).all fun c => !isMember g.members c || g.counts.get 0 c = arrivals g.members

/-- An arrival from a core (R423). -/
def BarGroup.arrive (g : BarGroup) (core : Nat) : BarGroup :=
  let g := { g with counts := g.counts.set 0 core (g.counts.get 0 core + 1) }
  if g.full then g.boundary else g

/-- The barrier fault (R423): XVAL is the group number. -/
def State.barrierFault (s : State) (n : Nat) : State := s.trapHere causeBarrier (BitVec.ofNat 64 n)

/-- bar.set (R423, R424). -/
def State.barSet (a : BitVec 5) (n : Nat) (s : State) : State :=
  let t := s.self
  let m := t.getG a
  let k := groupKey s.myCore n
  let g := s.group k
  if !memberBits m || (!t.cur && !memberLimits m t.bind s.myCore n) ||
      (!t.cur && g.owner.any fun o => o ≠ t.ctxid) then s.barrierFault n
  else (s.setGroup k (g.set t.ctxid t.cur m)).passed

/-- bar.arrive (R423). -/
def State.barArrive (n : Nat) (s : State) : State :=
  let t := s.self
  let k := groupKey s.myCore n
  let g := s.group k
  if g.owner ≠ some t.ctxid || !isMember g.members s.myCore then s.barrierFault n
  else if arrivals g.members ≤ g.counts.get 0 s.myCore then s.waitOn (.boundary k g.gen)
  else ((s.setGroup k (g.arrive s.myCore)).modSelf fun t => { t with barRec := t.barRec.put n g.gen }).passed

/-- bar.wait (R423, R425). -/
def State.barWait (n : Nat) (s : State) : State :=
  let t := s.self
  let k := groupKey s.myCore n
  let g := s.group k
  let mine := g.owner = some t.ctxid
  match t.barRec.find n with
  | none => if mine then s.passed else s.barrierFault n
  | some r =>
    if r ≠ g.gen then s.passed else if mine then s.waitOn (.barrier k g.gen) else s.barrierFault n

def execBarSet (a : BitVec 5) (g : BitVec 16) (s : State) : Result := .next (s.passWeir (State.barSet a g.toNat))
def execBarArrive (g : BitVec 16) (s : State) : Result := .next (s.passWeir (State.barArrive g.toNat))
def execBarWait (g : BitVec 16) (s : State) : Result := .next (s.passWeir (State.barWait g.toNat))

end Sys2Proof.Machine
end

