-- ==== Sys2Proof/Machine/MemEvents.lean ====
section
/-! DEFINITION. The steps of the memory system that no instruction makes: walks (R157, R307), the host's answers to address
translation (R308, R310) and to page requests (R457), snoops and host writes (R169, R408), accesses through the HDM
windows (R170), evictions (R174, R301) and the end of a logical lease (R400). -/
namespace Sys2Proof.Machine
open Sys2Proof

/-! ### Walks -/

/-- A walk for the running strand (R153 to R158): it fills a translation, or reports the walker's fault to the access
that asked; a remote vitrine page is asked for at its owner. -/
def State.walkNow (s : State) (va : Word) : State :=
  if va.extractLsb' 48 16 ≠ 0 || s.inBoot s.self.ctxid || (s.findTlb s.self.ctxid va.toNat).isSome then s
  else
    match s.fillTlb va.toNat with
    | .ok _ s => s
    | .trap _ _ s => s
    | .wait w s => s.waitOn w

/-- PAGE_WALK (R157): for the strand in a slot that runs. -/
def execPageWalk (s : State) : Result :=
  .next (if ((s.strand s.inp.unit).map (·.st)) = some .run then s.inSlot s.inp.unit fun s => s.walkNow s.inp.addr else s)

/-! ### Address translation services -/

/-- The smallest translation unit that the device advertises (R308). -/
def atsUnit : Nat := 4096

/-- The size at which an answer of the host is held: at most that of the host leaf (R308). -/
def State.atsSize (s : State) (ctx : BitVec 16) (va len : Nat) : Nat :=
  let leaf := match s.tlb.find? fun e => (e.glob || e.ctx = ctx) && e.vbase ≤ va && va < e.vbase + e.size with
    | some e => e.size
    | none => atsUnit
  max atsUnit (min (2 ^ len) leaf)

/-- A host translation taken into the TLB that missed it (R306, R308). -/
def State.addAts (s : State) (ctx : BitVec 16) (unit page : Nat) : State :=
  let i := s.inp
  let n := s.atsSize ctx (page * 4096) i.len
  let s := s.tlbRoom unit
  { s with ats :=
      ⟨unit, i.port, i.pasid, ctx, page * 4096 / n * n, n, i.target.toNat / n * n, i.canRead, i.canWrite⟩ :: s.ats }

/-- The answer granted what the access needs (R308). -/
def grants (i : Input) (write : Bool) : Bool := if write then i.canWrite else i.canRead

/-- A message of a host: a port whose link is down carries none (R111), and one of an earlier incarnation of the port
is dropped and counted (R124, R409). -/
def State.fromHost (s : State) (f : State → State) : State :=
  if !s.portUp s.inp.port then s
  else if s.inp.inc = s.incOf s.inp.port then f s
  else { s with annex := { s.annex with stale := satInc s.annex.stale } }

/-- The host's answer reaches a strand that waits for it (R308): with the permission the access needs, the translation is
held; else the access will take the host-page fault (R309). -/
def State.atsServe (s : State) (n page : Nat) : State :=
  match s.strand n with
  | some t =>
    (match t.st with
     | .wait (.ats units _ w) =>
       if grants s.inp w then units.foldl (fun s u => s.addAts t.ctxid u page) (s.setStrand n t.goesOn)
       else s.setStrand n { t.goesOn with atsDenied := some page }
     | _ => s)
  | none => s

/-- The slots of the strands that share the request of a strand (R307): they wait in its basin for the same page of the same
context, with no more access than was asked for. -/
def State.atsSharers (s : State) (n : Nat) (ctx : BitVec 16) (page : Nat) (write : Bool) : List Nat :=
  s.strands.filterMap fun e =>
    match e.2.st with
    | .wait (.ats _ p w) =>
      if basinOf (coreOf e.1) = basinOf (coreOf n) && e.2.ctxid = ctx && p = page && (write || !w) then some e.1 else none
    | _ => none

/-- The host's answer for the page that the strand in a slot waits for (R308): every strand that shares the request goes
on. -/
def State.atsAnswer (s : State) (n : Nat) : State :=
  match s.strand n with
  | some t =>
    (match t.st with
     | .wait (.ats _ page w) =>
       if s.inp.addr.toNat / 4096 ≠ page || !s.leaseLive || s.inp.port ≠ s.leasePort then s
       else (s.atsSharers n t.ctxid page w).foldl (fun s k => s.atsServe k page) s
     | _ => s)
  | none => s

/-- Every strand that waits for an ATS answer makes its access again: the port that was asked answers no more (R111,
R308). -/
def State.wakeAts (s : State) : State :=
  { s with strands := s.strands.map fun (n, t) =>
      (n, match t.st with
        | .wait (.ats _ _ _) => t.goesOn
        | _ => t) }

/-- ATS_TRANSLATION_COMPLETION (R308). -/
def execAtsTranslationCompletion (s : State) : Result := .next (s.fromHost fun s => s.atsAnswer s.inp.unit)

/-- Two ranges of addresses overlap. -/
def AtsEntry.meets (e : AtsEntry) (base n : Nat) : Bool := overlaps e.vbase e.size base n

/-- The range of an invalidation: 2^len bytes at its address. -/
def invBase (i : Input) : Nat := i.addr.toNat / 2 ^ i.len * 2 ^ i.len

/-- How many invalidations a port may have received that are not completed: the depth of the queue that the device
advertises (R308). A host keeps to it (log entry 92). -/
def atsQueueDepth : Nat := 32

/-- ATS_INVALIDATION_REQUEST (R310): from this clk no access uses a matching translation. -/
def execAtsInvalidationRequest (s : State) : Result :=
  .next (s.fromHost fun s =>
    let i := s.inp
    if atsQueueDepth ≤ s.atsInvs.countP fun e => e.1 = i.port then s
    else
      { s with ats := s.ats.filter fun e => !(e.port = i.port && e.pasid = i.pasid && e.meets (invBase i) (2 ^ i.len))
               strands := s.strands.map fun e => (e.1, e.2.forgetPlaces)
               atsInvs := s.atsInvs ++ [(i.port, i.tag)] })

/-- An access to a host page has been translated and is not yet performed: a part of the same store waits for peers (R310,
R399). -/
def State.hostPending (s : State) : Bool :=
  s.strands.any fun e => e.2.placed.any fun p =>
    match p.2 with
    | .host _ => true
    | _ => false

/-- INVALIDATION_COMPLETION (R310): once the accesses that were translated before have been performed, the oldest completion
is sent; a link that is down carries none (R111). -/
def execInvalidationCompletion (s : State) : Result :=
  .next (match s.atsInvs with
    | [] => s
    | (p, tag) :: r => if s.hostPending || !s.portUp p then s
        else { s with atsInvs := r }.send (.atsInvDone p s.sender.2 tag))

/-! ### Page requests -/

/-- RESP of the record that a tag names (R457); a request that waited for the host's allocation leaves (R309). -/
def State.parkReply (s : State) (tag : BitVec 32) (resp : BitVec 8) : State :=
  match s.pageReqs.find? fun r => r.tag = tag with
  | some r =>
    ({ s with pageReqs := s.pageReqs.filter fun x => x.tag ≠ tag }.ownWrite (r.record + 1) [resp]).sendHeld r.port
  | none => s

/-- The response names a request that is pending (R457). -/
def State.repliesTo (s : State) (i : Input) : Bool :=
  s.pageReqs.any fun r => r.tag = i.tag && r.ctx = i.ctx && r.inc = i.inc && r.port = i.port

/-- A response in RETAIN or DEEP RETAIN is held by the annex; the 257th and later ones become LOST (R466). -/
def State.holdReply (s : State) (tag : BitVec 32) (resp : BitVec 8) : State :=
  let l := s.annex.heldReplies
  { s with annex := { s.annex with heldReplies := l ++ [(tag, if 256 ≤ l.length then 5 else resp)] } }

/-- The device is suspended: RETAIN or DEEP RETAIN (R466). -/
def State.retained (s : State) : Bool := s.annex.suspState = 4 || s.annex.suspState = 5

/-- PAGE_REQUEST_GROUP_RESPONSE (R457): RESP is 2 Success, 3 Invalid Request or 4 Response Failure. -/
def execPageRequestGroupResponse (s : State) : Result :=
  .next (s.fromHost fun s =>
    let i := s.inp
    let resp : BitVec 8 := BitVec.ofNat 8 i.code
    if !s.repliesTo i || !(i.code = 2 || i.code = 3 || i.code = 4) then s
    else if s.retained then s.holdReply i.tag resp else s.parkReply i.tag resp)

/-! ### The host's own accesses -/

/-- Dirty data of a host line that the reservoir holds. -/
def State.dirtyLine (s : State) (hl : Nat) : Option (BitVec 512) :=
  (s.resv.find hl).bind fun l => if l.dirty then some l.data else none

/-- The answer to a snoop (R304, R408). -/
def State.snoopReply (s : State) (hl : Nat) (d : Option (BitVec 512)) : State :=
  s.send (.snoopReply s.inp.port s.sender.2 hl d)

/-- A snoop that takes the line from the reservoir (R169, R304, R408): dirty data go to the host, views derived from it
go, and links on it break (R411). -/
def State.snoop (s : State) (hl : Nat) : State :=
  ((s.dropWithViews hl).breakLinks (2 ^ 60 + hl)).snoopReply hl (s.dirtyLine hl)

/-- A snoop for the host's read: dirty data go to the host, and the line stays, shared (R304). -/
def State.snoopShared (s : State) (hl : Nat) : State :=
  let s' := s.cleanResv hl
  (match s'.resv.find hl with
   | some l => { s' with resv := s'.resv.put hl { l with owned := false } }
   | none => s').snoopReply hl (s.dirtyLine hl)

/-- HOST_SNOOP (R115, R408, R409): `code` 2 is for the host's read of the line. Any other takes the line; with `line`, the host
then writes it, and with code 1 what it writes is poisoned. -/
def execHostSnoop (s : State) : Result :=
  .next (s.fromHost fun s =>
    let hl := s.inp.addr.toNat / 64
    if !s.ready then s
    else if s.inp.code = 2 then s.snoopShared hl
    else
      let s := s.snoop hl
      match s.inp.line with
      | some d =>
        let s := s.setHostLine hl d
        if s.inp.code = 1 then { s with hostPoison := hl :: s.hostPoison } else s
      | none => s)

/-- A whole 2 MiB frame is device memory outside the reservoir, and outside the cast pools. -/
def State.granuleOk (s : State) (base : Nat) (pools : Bool) : Bool :=
  isDevMem base && isDevMem (base + 2 ^ 20) && !(pools && (s.inPool base || s.inPool (base + 2 ^ 20)))

/-- The physical address behind an offset of port `p`'s HDM window, or none for an invalid granule (R170). -/
def State.hdmTarget (s : State) (p off : Nat) : Option Nat :=
  if !s.hdmtWritten.get false p then
    (if s.granuleOk (off / 2 ^ 21 * 2 ^ 21) false then some off else none)
  else
    let a := (s.hdmt.get 0 p).toNat * 4096 + 8 * (off / 2 ^ 21)
    if !isDevMem a then none
    else
      let e := s.readCo a 8
      let base := e / 2 ^ 21 * 2 ^ 21
      if e % 2 ^ 21 = 1 && e < 2 ^ 52 && s.granuleOk base true then some (base + off % 2 ^ 21) else none

/-- A line of device memory as its home serves it to a host: none when it cannot be delivered correct (R357). -/
def State.homeLine (s : State) (pa : Nat) : Option (BitVec 512) × State :=
  let at_ := s.migRead pa
  if s.lostAt pa 64 then (none, s.report (paBasin at_) { kind := 3, addr := at_ })
  else (some (s.lineNow (at_ / 64)), s.corrected at_ 64)

/-- The named bytes of a line written at its home. -/
def State.putLine (s : State) (pa : Nat) (d : BitVec 512) (bytes : BitVec 64) : State :=
  (List.range 64).foldl (fun s i => if bytes.getLsbD i then s.writeCo (pa + i) 1 (lineByte d i).toNat else s) s

/-- A read through a window that gives no data is poisoned (R170, R409). -/
def State.poisonedRead (s : State) (p : BitVec 1) (off : Nat) : State :=
  s.send (.hostData p s.sender.2 (off / 64) 0 true)

/-- The size in bytes of a port's HDM window (R110, R112). -/
def State.windowSize (s : State) (p : BitVec 1) : Nat := s.annex.hdmGib.get 128 p.toNat * 2 ^ 30

/-- A host's copies of a line of device memory: it has read it, or no longer needs to be told of a write (R170, R408). -/
def State.hostTakes (s : State) (p : BitVec 1) (line : Nat) : State :=
  if s.hostCopies.contains (p, line) then s else { s with hostCopies := (p, line) :: s.hostCopies }
def State.hostGives (s : State) (p : BitVec 1) (line : Nat) : State :=
  { s with hostCopies := s.hostCopies.filter (· ≠ (p, line)) }

/-- A host access through an HDM window (R110, R112, R170, R408): the line at `off`, read, or written in the bytes of
`value`. A write waits for the leases that this device granted on the line, and calls back the other host's copy. Beyond
the window the port decodes nothing. Before READY and in RETAIN no unit serves it (R115, R466). -/
def State.hdm (s : State) (p : BitVec 1) (off : Nat) : State :=
  let idle := s.retained || !s.ready
  if !s.portUp p || s.windowSize p ≤ off then s
  else
  match s.inp.line with
  | some d =>
    if s.inp.inc ≠ s.incOf p then s.fromHost id
    else if idle then s
    else
      (match s.hdmTarget p.toNat off with
       | some pa => if s.leased (pa / 64) then s else (s.hostGives p (pa / 64)).putLine pa d s.inp.value
       | none => s.report 0 { kind := 0x0A, index := p.toNat, addr := off })
  | none =>
    if s.inp.inc ≠ s.incOf p then (s.fromHost id).poisonedRead p off
    else if idle then s.poisonedRead p off
    else
      (match s.hdmTarget p.toNat off with
       | some pa =>
         let r := s.homeLine pa
         (match r.1 with
          | some d => (r.2.hostTakes p (pa / 64)).send (.hostData p s.sender.2 (off / 64) d false)
          | none => r.2.poisonedRead p off)
       | none => (s.report 0 { kind := 0x0A, index := p.toNat, addr := off }).poisonedRead p off)

/-- HDM_ACCESS (R170). -/
def execHdmAccess (s : State) : Result := .next (s.hdm s.inp.port (s.inp.addr.toNat / 64 * 64))

/-! ### Copies that go -/

/-- CACHE_EVICTION (R174, R301, R304): code 0 an ordinary line from the L1D or L2 slice `part`, 1 a reservoir line, which
stays while it has to go over a link that is down (R111), 2 a cast, 3 a leased copy of a peer's line; `part` names a cast or a copy by its place. -/
def execCacheEviction (s : State) : Result :=
  .next (match s.inp.code with
    | 0 => s.evict s.inp.part (s.inp.addr.toNat / 64)
    | 1 => if (s.awayPort fun l => l = s.inp.addr.toNat / 64).isSome then s else s.dropWithViews (s.inp.addr.toNat / 64)
    | 2 => { s with casts := s.casts.eraseIdx s.inp.part }
    | 3 => if ((s.peer[s.inp.part]?).map (·.once)) = some none then { s with peer := s.peer.eraseIdx s.inp.part } else s
    | _ => s)

/-- The clean copy of an ordinary line in one L1D or L2 slice goes (R400). -/
def State.expireCopy (s : State) (unit line : Nat) : State :=
  if unit < 1728 then { s with copies := s.copies.drop (2048 * line + unit) } else s

/-- LOGICAL_LEASE_EXPIRY (R400): code 0 a copy of a line in the L1D or L2 slice `part`, 1 a cast of a page of this
device. A copy whose lease has run out serves no read even before this step (`State.heldLine`, `State.findCast`). -/
def execLogicalLeaseExpiry (s : State) : Result :=
  .next (match s.inp.code with
    | 0 => s.expireCopy s.inp.part (s.inp.addr.toNat / 64)
    | 1 => if ((s.casts[s.inp.part]?).map (·.dev)) = some none then { s with casts := s.casts.eraseIdx s.inp.part } else s
    | _ => s)

end Sys2Proof.Machine
end

