-- ==== Sys2Proof/Machine/Boot.lean ====
section
/-! DEFINITION. Bring-up (R115 to R119), attestation (R120), the CXL links (R111), the host lease (R121 to R126), and the
annex register block as a host reads it (R114). -/
namespace Sys2Proof.Machine
open Sys2Proof

/-- A change of the annex. -/
def State.modAnnex (s : State) (f : Annex → Annex) : State := { s with annex := f s.annex }

/-! ### Bring-up -/

/-- DEVICE_RESET (R115): every register at its reset value. The cells keep what they hold until INIT clears them (R117), and
the fuses theirs (R116); the hosts' memory, what has been sent, and the model's own names and turns stay. -/
def execDeviceReset (s : State) : Result :=
  .next { State.reset with agenda := s.agenda, freeCtr := s.freeCtr, nextId := s.nextId, mem := s.mem, errs := s.errs
                           unchecked := s.unchecked, hostMem := s.hostMem, hostPoison := s.hostPoison, out := s.out
                           annex := { rollback := s.annex.rollback, fusedKey := s.annex.fusedKey, flash := s.annex.flash } }

/-- RESET_RELEASED (R115): VERIFY takes the image in flash. -/
def execResetReleased (s : State) : Result :=
  .next (if s.annex.bootState = 0 then s.modAnnex fun a => { a with bootState := 1, fromWindow := false } else s)

/-- A byte of the image that VERIFY takes (R115): of the one in flash, or of the one in the recovery window at 0x100000. -/
def Annex.imageByte (a : Annex) (i : Nat) : Byte :=
  ((if a.fromWindow then a.recovery.get 0 ((0x100000 + i) / 8) else a.flash.get 0 (i / 8)).extractLsb' (8 * (i % 8)) 8)

/-- The bytes of the recovery window (R114). -/
def windowBytes : Nat := 0xF00000

/-- The causes of the checks of R116 that an image fails: 1 signature, 2 digest, 3 rollback, 4 format. -/
def failedChecks (key : BitVec 512) (rollback : BitVec 32) (f : Nat → Byte) : List Nat :=
  let h := Config.headerSize f
  let b := Config.bodySize f
  let bytes (i n : Nat) : List Byte := (List.range n).map fun k => f (i + k)
  (if Config.sm2Verify key (Config.sm3 (bytes 0 (h + b))) (bytes (h + b) 64) then [] else [1]) ++
    (if Config.sm3 (bytes h b) = Config.imageDigest f then [] else [2]) ++
    (if rollback ≤ (Config.imageVersion f).extractLsb' 0 32 then [] else [3]) ++
    (if h + b + 64 ≤ windowBytes then [] else [4])

/-- VERIFY (R115, R116, R118) of the image that `fromWindow` names: one that passes every check goes to INIT, with the version of
its header and the digest of its body. Which of several failed checks CAUSE names is left open (log entry 10). -/
def execVerify (s : State) : Result :=
  let f := s.annex.imageByte
  let bad := failedChecks s.annex.fusedKey s.annex.rollback f
  let free := (Config.freeWord s.freeCtr).toNat
  .next (if s.annex.bootState ≠ 1 then s
    else if bad.isEmpty then
      s.modAnnex fun a =>
        { a with bootState := 2, bootCause := 0, fwver := Config.imageVersion f, digest := Config.imageDigest f }
    else
      { s with freeCtr := s.freeCtr + 1 }.modAnnex fun a =>
        { a with bootState := 4, bootCause := BitVec.ofNat 8 (bad.getD (free % bad.length) 1) })

/-- The calibration groups that a list of sweep failures names (R366). -/
def sweptGroups (fails : List Nat) : List Nat := risingSet (fails.map fun f => f / 129 / 16 / 8)

/-- The calibration that INIT makes on every group (R366): a group with no failure selects setting 7. -/
def State.calibrateAll (s : State) (fails : List Nat) : State :=
  (sweptGroups fails).foldl (fun s m =>
    let bank := m / 16
    s.calibrate bank ((List.range 8).map fun i => 8 * m + i) (fun r s => s.report (bank / 512) r) fails) { s with sense := [] }

/-- Everything that INIT clears (R117): device memory, the reservoir and the scratchpads, check bits whole. -/
def State.clearAll (s : State) : State :=
  { s with mem := [], errs := [], unchecked := [], cache := [], copies := [], resv := [], casts := [], frames := []
           latches := [], comp := [], spInit := s.clk
           cores := s.cores.map fun e => (e.1, { e.2 with rowClk := [], rowDead := [], rowReported := [] }) }

/-- INIT (R115, R117, R366): `amounts` are the failures of its calibration sweep. -/
def execInit (s : State) : Result :=
  .next (if s.annex.bootState = 2 then
      (s.clearAll.calibrateAll s.inp.amounts).modAnnex fun a => { a with bootState := 3 }
    else s)

/-- BOOTCMD (R119): VERIFY takes the image in the recovery window. -/
def execBootcmd (s : State) : Result :=
  .next (s.fromHost fun s =>
    if s.annex.bootState = 4 && s.inp.value = 1 then s.modAnnex fun a => { a with bootState := 1, fromWindow := true } else s)

/-! ### Attestation -/

/-- Bytes written into the mailbox. -/
def Annex.putMail (a : Annex) (off : Nat) (l : List Byte) : Annex :=
  { a with mailbox := l.zipIdx.foldl (fun m e => m.set 0 (off + e.2) e.1) a.mailbox }

/-- A dword of the mailbox. -/
def Annex.mail (a : Annex) (off : Nat) : Word := BitVec.ofNat 64 (leRead (fun i => Table.get 0 a.mailbox i) off 8)

/-- The command dword. -/
def Annex.command (a : Annex) : Word := a.mail 0xF8
def Annex.setCommand (a : Annex) (v : Nat) : Annex := a.putMail 0xF8 (bytesOf v 8)

/-- A command is in progress (R120). -/
def Annex.mailBusy (a : Annex) : Bool := a.command = 1 || a.command = 3 || a.command = 4

/-- Command 4 is ignored before the first piece of a chain and after its last (R120). -/
def Annex.noNext (a : Annex) : Bool := a.piece = 0 || Config.certLength ≤ a.piece * 192

/-- ATTESTATION_QUOTE (R120). -/
def execAttestationQuote (s : State) : Result :=
  .next (s.fromHost fun s =>
    if s.annex.mailBusy then s else s.modAnnex fun a => { a.setCommand 1 with piece := 0 })

/-- CERTIFICATE_PIECE_FIRST (R120). -/
def execCertificatePieceFirst (s : State) : Result :=
  .next (s.fromHost fun s =>
    if s.annex.mailBusy then s else s.modAnnex fun a => { a.setCommand 3 with piece := 0 })

/-- CERTIFICATE_PIECE_NEXT (R120). -/
def execCertificatePieceNext (s : State) : Result :=
  .next (s.fromHost fun s =>
    if s.annex.mailBusy || s.annex.noNext then s else s.modAnnex fun a => a.setCommand 4)

/-- The 160 bytes of a quote (R120); the signature is left open (log entry 10). The nonce is the one that the mailbox holds
when the quote is made: the model's choice (log entry 84). -/
def State.quote (s : State) : List Byte :=
  let nonce := leRead (fun i => Table.get 0 s.annex.mailbox i) 0 32
  bytesOf 1 4 ++ bytesOf 0x00124100 4 ++ bytesOf s.annex.fwver.toNat 8 ++ bytesOf s.annex.digest.toNat 32 ++
  bytesOf nonce 32 ++ bytesOf s.us.toNat 8 ++ bytesOf 0 8 ++
  (List.range 64).map fun i => Config.quoteByte (BitVec.ofNat 256 nonce) (64 * s.freeCtr + i)

/-- The piece of the certificate chain that is next, with its descriptor dword (R120; log entry 10). -/
def certPiece (k : Nat) : List Byte × Nat :=
  ((List.range 192).map fun i => if 192 * k + i < Config.certLength then Config.certByte (192 * k + i) else 0,
    Config.certLength % 2 ^ 32 + 2 ^ 32 * (k % 2 ^ 16) + (if Config.certLength ≤ 192 * (k + 1) then 2 ^ 63 else 0))

/-- ATTESTATION_COMMAND_DONE (R120). -/
def execAttestationCommandDone (s : State) : Result :=
  let cmd := s.annex.command
  .next (if cmd = 1 then
      { s with freeCtr := s.freeCtr + 1 }.modAnnex fun a => (a.putMail 0x20 s.quote).setCommand 2
    else if cmd = 3 || cmd = 4 then
      let p := certPiece s.annex.piece
      s.modAnnex fun a =>
        { ((a.putMail 0x20 p.1).putMail 0xE0 (bytesOf p.2 8)).setCommand 2 with piece := a.piece + 1 }
    else s)

/-! ### Links and the host lease -/

/-- LINK_TRAINING (R111): `code` lanes at `len` GT/s. Below x8 or 32 GT/s the link stays down; below x16 or 64 GT/s a
report says so, in the ring of basin 0: R111 names no ring, and this one is the model's choice (log entry 38). That a port which is up does not train again is
the model's choice too (log entry 83). -/
def execLinkTraining (s : State) : Result :=
  let i := s.inp
  .next (if i.code < 8 || i.len < 32 || s.portUp i.port then s
    else
      let s := (s.modAnnex fun a => { a with linkUp := i.port :: a.linkUp }).sendHeld i.port
      if i.code < 16 || i.len < 64 then s.report 0 { kind := 9, index := i.port.toNat } else s)

/-- Every record whose request went, or was to go, through a port is LOST (R457), and no strand waits for an answer of the
port (R308). -/
def State.loseReplies (s : State) (p : BitVec 1) : State :=
  ((s.pageReqs.filter fun r => r.port = p).foldl (fun (s : State) (r : PageReq) => s.ownWrite (r.record + 1) [5])
    { s with pageReqs := s.pageReqs.filter fun r => r.port ≠ p
             pageHeld := s.pageHeld.filter fun o => o.pagePort ≠ some p }).wakeAts

/-- PORT_LINK_DOWN (R111, R457). -/
def execPortLinkDown (s : State) : Result :=
  let p := s.inp.port
  let s' := if s.leaseLive && s.leasePort = p then s.loseReplies p else s
  .next ({ s' with hostCopies := s'.hostCopies.filter fun e => e.1 ≠ p }.modAnnex fun a =>
    { a with linkUp := a.linkUp.filter (· ≠ p) })

/-- The other port. -/
def otherPort (p : BitVec 1) : BitVec 1 := p ^^^ 1

/-- The end of a live lease (R124, R126, R308, R457): ACTIVE clear, the next incarnation, the port's translations and
pending records gone, and the lease vector on the other port, if its link is up. -/
def State.endLease (s : State) : State :=
  let p := s.leasePort
  let s := s.modAnnex fun a =>
    if p = 0 then { a with active := 0, inc0 := a.inc0 + 1 } else { a with active := 0, inc1 := a.inc1 + 1 }
  let s := { s with ats := s.ats.filter fun e => e.port ≠ p }.loseReplies p
  if s.portUp (otherPort p) then s.send (.msix (otherPort p) s.sender.2 0) else s

/-- A lease whose time has come ends (R124). -/
def State.lapse (s : State) : State := if s.annex.active ≠ 0 && s.annex.expiry ≤ s.us then s.endLease else s

/-- The fields of a write of HLEASE (R121). -/
def leaseActive (v : Word) : BitVec 2 := v.extractLsb' 62 2
def leaseExpiry (v : Word) : BitVec 48 := v.extractLsb' 0 48

/-- ACTIVE names a port. -/
def namesPort (v : Word) (p : BitVec 1) : Bool := leaseActive v = (if p = 0 then 1 else 2)

/-- The written EXPIRY is admissible (R122). -/
def State.expiryOk (s : State) (v : Word) : Bool :=
  s.us.toNat < (leaseExpiry v).toNat && (leaseExpiry v).toNat ≤ s.us.toNat + 100000

/-- The three writes of HLEASE that are accepted from port `p` (R122). -/
def State.renews (s : State) (p : BitVec 1) (v : Word) : Bool :=
  s.leaseLive && s.leasePort = p && namesPort v p && s.expiryOk v
def State.claims (s : State) (p : BitVec 1) (v : Word) : Bool := !s.leaseLive && namesPort v p && s.expiryOk v
def State.releases (s : State) (p : BitVec 1) (v : Word) : Bool :=
  s.leaseLive && s.leasePort = p && leaseActive v = 0

/-- A turn that brings a write of port 0 to HLEASE (R114, R121). -/
def Act.writesHlease (a : Act) : Option Input :=
  match a with
  | .unit .claim i => if i.port = 0 then some i else none
  | .unit .registerWrite i =>
    if i.port = 0 && i.part = 0 && !i.canRead && i.off = 0x20 && i.size = 8 then some i else none
  | _ => none

/-- A claim of port 0 that reaches HLEASE in the same clk (R123): among the turns that follow with no delay. -/
def State.claimAhead (s : State) : Bool :=
  (s.agenda.takeWhile fun t => t.delay = 0).any fun t =>
    t.act.writesHlease.any fun i => i.inc = s.incOf 0 && s.portUp 0 && s.claims 0 i.value

/-- A rejected write is counted (R122, R125). -/
def State.reject (s : State) : State := s.modAnnex fun a => { a with rej := satInc a.rej }

def State.renew (s : State) (v : Word) : State := s.modAnnex fun a => { a with expiry := leaseExpiry v }

/-- A claim takes the lease, and pending interrupts are delivered in its clk (R122, R123, R126; log entry 64). -/
def State.claim (s : State) (p : BitVec 1) (v : Word) : State :=
  if p = 1 && s.claimAhead then s.reject
  else
    let s := s.lapse
    let l := s.annex.msixPending
    l.foldl (fun s k => s.send (.msix p s.sender.2 k))
      (s.modAnnex fun a => { a with active := leaseActive v, expiry := leaseExpiry v, msixPending := [] })

def State.release (s : State) : State := s.endLease.modAnnex fun a => { a with expiry := 0 }

/-- A write of HLEASE (R115, R122). -/
def State.writeHlease (s : State) (p : BitVec 1) (v : Word) : State :=
  if s.annex.bootState ≠ 3 then s
  else if s.renews p v then s.renew v
  else if s.claims p v then s.claim p v
  else if s.releases p v then s.release
  else s.reject

/-- RENEWAL (R122): a write that meets none of the three cases is rejected and counted. -/
def execRenewal (s : State) : Result :=
  .next (s.fromHost fun s => if s.renews s.inp.port s.inp.value then s.writeHlease s.inp.port s.inp.value
    else if s.claims s.inp.port s.inp.value || s.releases s.inp.port s.inp.value then s
    else s.writeHlease s.inp.port s.inp.value)

/-- CLAIM (R122, R123). -/
def execClaim (s : State) : Result :=
  .next (s.fromHost fun s => if s.claims s.inp.port s.inp.value then s.writeHlease s.inp.port s.inp.value
    else if s.renews s.inp.port s.inp.value || s.releases s.inp.port s.inp.value then s
    else s.writeHlease s.inp.port s.inp.value)

/-- RELEASE (R122). -/
def execRelease (s : State) : Result :=
  .next (s.fromHost fun s => if s.releases s.inp.port s.inp.value then s.writeHlease s.inp.port s.inp.value
    else if s.claims s.inp.port s.inp.value || s.renews s.inp.port s.inp.value then s
    else s.writeHlease s.inp.port s.inp.value)

/-- LEASE_LAPSE (R124): the clk in which a lease expires ends it too (`State.tick`). -/
def execLeaseLapse (s : State) : Result := .next s.lapse

/-! ### The annex register block -/

/-- A launch queue. -/
def State.lq (s : State) (q : Nat) : LaunchQueue := s.annex.queues.get {} q
def State.setLq (s : State) (q : Nat) (x : LaunchQueue) : State := s.modAnnex fun a => { a with queues := a.queues.set {} q x }

/-- LQCTL (R127). -/
def LaunchQueue.ctl (x : LaunchQueue) : Word :=
  fieldsOf [(x.ctx.toNat, 48), (x.vec.toNat, 16), (x.log2.toNat, 8), (boolNat x.err, 2), (boolNat x.en, 0)]

/-- CURH: the basins under a current hold (R476). -/
def State.curh (s : State) : Nat :=
  (List.range 12).foldl (fun a b => if s.currentHold b then a + 2 ^ b else a) 0

/-- A dword of the annex register block as a read gives it (R114 and the register maps of R115, R118, R121, R124, R127,
R464, R476, R478). -/
def State.annexRead (s : State) (off : Nat) : Word :=
  let a := s.annex
  if off = 0 then BitVec.ofNat 64 anxIdent
  else if off = 0x8 then (if a.bootState = 2 || a.bootState = 3 then a.fwver else 0)
  else if off = 0x10 then fieldsOf [(a.bootCause.toNat, 8), (a.bootState.toNat, 0)]
  else if off = 0x20 then fieldsOf [(a.active.toNat, 62), (a.expiry.toNat, 0)]
  else if off = 0x28 then fieldsOf [(a.inc1.toNat, 48), (a.inc0.toNat, 32), (a.stale.toNat, 16), (a.rej.toNat, 0)]
  else if off = 0x30 then s.us.setWidth 64
  else if off = 0x40 then a.suspTime
  else if off = 0x50 then fieldsOf [(a.suspResult.toNat, 8), (a.suspState.toNat, 0)]
  else if off = 0x58 then a.cap.setWidth 64
  else if off = 0x60 then fieldsOf [(a.h.toNat, 16), (s.curh, 0)]
  else if 0x100 ≤ off && off < 0x900 then
    let x := s.lq ((off - 0x100) / 0x20)
    (match off % 0x20 with
     | 0 => fieldsOf [(x.base.toNat, 7)]
     | 8 => x.ctl
     | 16 => x.tail.setWidth 64
     | _ => x.head.setWidth 64)
  else if 0x1000 ≤ off && off < 0x1100 then a.mail (off - 0x1000)
  else if 0x2000 ≤ off && off < 0x3000 then s.monitor ((off - 0x2000) / 8)
  else if 0x100000 ≤ off && off < 0x1000000 then a.recovery.get 0 (off / 8)
  else 0

end Sys2Proof.Machine
end

