-- ==== Sys2Proof/Machine/Registers.lean ====
section
/-! DEFINITION. The writes of system registers that change more than their own fields, as steps of their own (R53, R169,
R170, R173, R178, R443, R444), and the line copies of a migration (R178). The step names the strand that writes by its
slot; `swr` makes the same writes. -/
namespace Sys2Proof.Machine
open Sys2Proof

/-- A write of a privileged register by the strand in a slot: a strand in user mode makes none (R201). -/
def State.asWriter (s : State) (n : Nat) (f : State → State) : State :=
  if ((s.strand n).map (·.cur)) = some true then s.inSlot n f else s

/-- CTXTAB_WRITE (R151, R444). -/
def execCtxtabWrite (s : State) : Result := .next (s.asWriter s.inp.unit fun s => s.writeCtxtab s.inp.value)

/-- CTXID_WRITE (R443). -/
def execCtxidWrite (s : State) : Result :=
  .next (s.asWriter s.inp.unit fun s => s.modSelf fun t => t.setCtx s.inp.value)

/-- Every earlier instruction of a strand's vector stream has completed (R53). -/
def Strand.vectorIdle (t : Strand) : Bool := t.vq.isEmpty && t.inside.isNone && !t.midway

/-- FCTL_WRITE (R53): the write comes after the flags of every earlier instruction of the strand. -/
def execFctlWrite (s : State) : Result :=
  let n := s.inp.unit
  .next (if (s.strand n).any Strand.vectorIdle && !s.busyIn n [5] then
      s.inSlot n fun s => s.modSelf fun t => t.setFctl s.inp.value
    else s)

/-- HDMT_WRITE (R170). -/
def execHdmtWrite (s : State) : Result :=
  .next (s.asWriter s.inp.unit fun s => s.writeHdmt s.inp.port.toNat s.inp.value)

/-- ARF_WRITE (R168, R169): the register is 0x20 + 2k or 0x21 + 2k. -/
def execArfWrite (s : State) : Result :=
  .next (if 0x20 ≤ s.inp.code && s.inp.code ≤ 0x3F && (s.arfAway s.inp.code s.inp.value).isNone then
      s.asWriter s.inp.unit fun s => s.writeArf s.inp.code s.inp.value
    else s)

/-- CASTPOOL_WRITE (R173): the pool of the writer's basin. -/
def execCastpoolWrite (s : State) : Result := .next (s.asWriter s.inp.unit fun s => s.writeCastpool s.inp.value)

/-- A basin and one of its four migration slots. -/
def migNamed (basin k : Nat) : Bool := basin < 12 && k < 4

/-- MIGRATION_COPY (R178). -/
def execMigrationCopy (s : State) : Result :=
  .next (if migNamed s.inp.unit s.inp.part then s.startMigration s.inp.unit s.inp.part else s)

/-- MIGRATION_IDLE (R178). -/
def execMigrationIdle (s : State) : Result :=
  .next (if migNamed s.inp.unit s.inp.part then s.stopMigration s.inp.unit s.inp.part else s)

/-- The slot after its next line has been copied (R178). -/
def Migration.advance (m : Migration) : Migration :=
  { m with prog := m.prog + 64, state := if m.prog + 64 = migSize m.size then 2 else 1 }

/-- The next line of a slot in COPY goes to the new frame, and to those of slots that have that for their old frame, once no
lease that this device granted on those lines runs (R178, R405). A codeword that cannot be corrected stays one (R357). -/
def State.copyLine (s : State) (basin k : Nat) : State :=
  let m := (s.basin basin).mig.get {} k
  let old := m.old.toNat * 4096 + m.prog
  let new := m.new.toNat * 4096 + m.prog
  if m.state ≠ 1 || s.leased (new / 64) then s
  else
    let lost := s.errs.filter fun e => e.1 / 4 = old / 64 && s.lostAt (16 * e.1) 16
    let news := new :: s.migWrites new
    let v := leRead s.homeByte old 64
    let s := (news.foldl (fun s a => s.dropLine (a / 64)) (s.corrected old 64)).writeEach 64 v news
    let s := { s with errs := news.foldl (fun t a => lost.foldl (fun (t : Table Nat) (e : Nat × Nat) =>
      t.put (e.1 - old / 16 + a / 16) e.2) t) s.errs }
    let b := s.basin basin
    s.setBasin basin { b with mig := b.mig.set {} k m.advance }

/-- MIGRATION_LINE_COPY (R178). -/
def execMigrationLineCopy (s : State) : Result :=
  .next (if migNamed s.inp.unit s.inp.part then s.copyLine s.inp.unit s.inp.part else s)

end Sys2Proof.Machine
end

