-- ==== Sys2Proof/Machine/Suspend.lean ====
section
/-! DEFINITION. Suspend and resume (R464 to R468), the power governor (R476), energy (R475) and the monitors (R478). -/
namespace Sys2Proof.Machine
open Sys2Proof

/-! ### Commands -/

/-- A write of SUSPCTL reaches the register from the port with the live lease (R464). -/
def State.suspWrite (s : State) (f : State → State) : State :=
  s.fromHost fun s =>
    if !s.ready then s
    else if s.leaseLive && s.leasePort = s.inp.port then f s
    else s.reject

/-- RESULT 4: a command that is not valid in this state (R465). -/
def State.badCommand (s : State) : State := s.modAnnex fun a => { a with suspResult := 4 }

/-- SUSPEND_ARM (R465): from RUN, with every basin's SUSPAREA valid; `value` bit 0 is DEEP. -/
def execSuspendArm (s : State) : Result :=
  .next (s.suspWrite fun s =>
    if s.annex.suspState ≠ 0 then s.badCommand
    else if (List.range 12).any fun b => !(s.basin b).suspV then s.modAnnex fun a => { a with suspResult := 3 }
    else s.modAnnex fun a => { a with suspState := 1, suspCmd := 1, suspDeep := s.inp.value.getLsbD 0 })

/-- RESUME_ARM (R465): from RETAIN or DEEP RETAIN. -/
def execResumeArm (s : State) : Result :=
  .next (s.suspWrite fun s => if s.retained then s.modAnnex fun a => { a with suspCmd := 2 } else s.badCommand)

/-- SUSPEND_CANCEL (R465): in ARMED. -/
def execSuspendCancel (s : State) : Result :=
  .next (s.suspWrite fun s =>
    if s.annex.suspState = 1 then s.modAnnex fun a => { a with suspState := 0, suspCmd := 0 } else s.badCommand)

/-! ### Suspend -/

/-- SUSPTIME in ns (R464). -/
def State.suspAt (s : State) : Nat :=
  (s.annex.suspTime.extractLsb' 30 34).toNat * 10 ^ 9 + (s.annex.suspTime.extractLsb' 0 30).toNat

/-- A command that acts while the time is not synchronised is reported (R465). -/
def State.unsynced (s : State) : State := if s.aqSync then s else s.report 0 { kind := 0x0E }

/-- STOPPING (R465, R466): the armed suspend acts when AQTIME reaches SUSPTIME. -/
def execStopping (s : State) : Result :=
  .next (if s.annex.suspState = 1 && s.annex.suspCmd = 1 && s.suspAt ≤ s.aqNow then
      s.unsynced.modAnnex fun a => { a with suspState := 2, stopAt := s.clk }
    else s)

/-- A strand that has stopped for a suspend (R466): at a pre-emption point outside a trap handler, or in JOIN. -/
def Strand.stopped (t : Strand) : Bool := t.st = .join || (t.atPoint && !t.exl)

/-- A strand in END that waits for a child, which has stopped itself (R278, R466). -/
def State.endHeld (s : State) (t : Strand) : Bool :=
  t.st = .ended && ((t.children.head?).map fun c => !s.childReady c.slot) = some true

/-- An engine command that a suspend does not wait for: a collective between two steps (R441, R466). -/
def Work.stopped : Work → Bool
  | .coll c => decide (c.sentStep < c.now)
  | _ => false

/-- Every strand and every collective has stopped, and every other command has completed (R466). -/
def State.quiet (s : State) : Bool :=
  s.strands.all (fun e => e.2.stopped || s.endHeld e.2) && s.ops.all fun o => o.work.stopped

/-- The timer of a collective goes on after the clk for which it stood still (R441, R466). -/
def EngineOp.later (o : EngineOp) (n : Nat) : EngineOp :=
  match o.work with
  | .coll c => { o with work := .coll { c with since := c.since + n } }
  | _ => o

/-- SUSPEND_ABANDONED (R466): 4 s after SUSPTIME. -/
def execSuspendAbandoned (s : State) : Result :=
  .next (if s.annex.suspState = 2 && s.suspAt + 4 * 10 ^ 9 ≤ s.aqNow && !s.quiet then
      let s := { s with ops := s.ops.map fun (o : EngineOp) => o.later (s.clk - s.annex.stopAt) }
      (s.report 0 { kind := 0x0E }).modAnnex fun a => { a with suspState := 0, suspCmd := 0, suspResult := 2 }
    else s)

/-- The caches written back and emptied: L1D, L2, the reservoir, casts, leased copies and TLBs (R466). -/
def State.emptyCaches (s : State) : State :=
  let s := s.cache.foldl (fun s e => s.dropLine e.1) s
  let s := s.resv.foldl (fun s e => s.dropResv e.1) s
  { s with casts := [], copies := [], peer := [], tlb := [], ats := [] }

/-- The rows that a save marks expired in one core (R466, R467): rows that hold data and whose age has reached the
deadline hold none afterwards. -/
def State.markExpired (s : State) (core : Nat) : State :=
  let dead := (List.range 49152).filter fun row => s.expired core row
  let c := s.core core
  s.setCore core { c with rowDead := dead.foldl (fun t r => t.set false r true) c.rowDead }

/-- A strand that the device itself pre-empts for a suspend (R410, R466): its links go, and an instruction at which it
waits executes again. -/
def Strand.paused (t : Strand) : Strand :=
  let st : SlotState := match t.st with
    | .wait _ => .run
    | x => x
  { t with st := st, slink := none, vlinks := [], weirPass := none, parked := none, descRead := none, atsDenied := none
           answers := [], placed := [], genRead := none, openCast := [], snap := none
           rowData := [], resumed := false, wrote := false }

/-- Every strand paused, and the weirs' queues empty. -/
def State.pauseAll (s : State) : State :=
  { s with strands := s.strands.map fun e => (e.1, e.2.paused)
           cores := s.cores.map fun e => (e.1, { e.2 with queue := [] }) }

/-- The 96 MiB of a basin's suspend area (R464). -/
def State.suspArea (s : State) (basin : Nat) : Nat := (s.basin basin).suspBase.toNat * 2 ^ 21
def suspBytes : Nat := 96 * 2 ^ 20

/-! The layout of a suspend area has no rule; this one is the model's choice (log entry 49). -/

/-- Where the area of a basin holds the scratchpad of its core `k`, the marks of that core's expired rows, a bit each, its tiles,
eight bytes an accumulator, TILESTAT, and the strand of the basin's slot `n`. -/
def spadSave (base k : Nat) : Nat := base + 3 * 2 ^ 20 * k
def markSave (base k : Nat) : Nat := base + 48 * 2 ^ 20 + 8192 * k
def tileSave (base k : Nat) : Nat := base + 49 * 2 ^ 20 + 2 ^ 18 * k
def tilestatSave (base k : Nat) : Nat := base + 53 * 2 ^ 20 + 8 * k
def strandSave (base n : Nat) : Nat := base + 56 * 2 ^ 20 + 288 * 2 ^ 10 * n

/-- The dump area of a saved strand, behind its registers. -/
def dumpSave (at_ : Nat) : Nat := at_ + 0x1000

/-- Words written one after another. -/
def State.writeWords (s : State) (at_ : Nat) (l : List Word) : State := s.writeList at_ (l.flatMap fun w => bytesOf w.toNat 8)

/-- Word `i` from an address. -/
def State.wordAt (s : State) (at_ i : Nat) : Word := BitVec.ofNat 64 (s.readCo (at_ + 8 * i) 8)

/-- An accumulator as the area holds it: its 40 bits, and its poison bit. -/
def Core.tileWord (c : Core) (i : Nat) : Word := fieldsOf [((c.acc.get 0 i).toNat, 0), (boolNat (c.poison.get false i), 40)]

/-- The system registers of a strand, by number: the shadow loop stack after its depth. -/
def strandRegs : List Nat :=
  [0x5, 0x8, 0x69, 0x81, 0x90, 0xA2, 0xC0, 0xC1, 0xC2, 0xC4, 0xC5, 0xC6, 0xC8, 0xE0, 0xE7] ++ (List.range 24).map (0xE8 + ·) ++
    (List.range 64).map (0x100 + ·) ++ (List.range 64).map (0x140 + ·)

/-- What an area holds of a strand before its dump area: its g registers, its PC and its system registers. -/
def State.strandWords (s : State) (slot : Nat) : List Word :=
  let u := { s with cur := slot }
  (List.range 32).map (fun i => u.getG (BitVec.ofNat 5 i)) ++ u.self.pc :: strandRegs.map fun r => u.sysRead (BitVec.ofNat 16 r)

/-- One strand saved (R466): its g registers, its system registers, and its dump area as `vsave` forms it. -/
def State.saveStrand (s : State) (base slot : Nat) : State :=
  match s.strand slot with
  | none => s
  | some t =>
    let at_ := strandSave base (slot % 128)
    (s.writeWords at_ (s.strandWords slot)).inSlot slot fun s => s.writeArea (dumpSave at_) t.xpc t.shadowLoops []

/-- The scratchpad, the tiles and TILESTAT of one core saved (R466), its expired rows marked. -/
def State.saveCore (s : State) (base core : Nat) : State :=
  let k := core % 16
  let c := s.core core
  let mark (j : Nat) : Nat := (List.range 8).foldl (fun a i => a + 2 ^ i * boolNat (c.rowDead.get false (8 * j + i))) 0
  let s := s.writeList (spadSave base k) ((List.range (3 * 2 ^ 20)).map fun o => s.spadByte core o)
  let s := s.writeList (markSave base k) ((List.range 6144).map fun j => BitVec.ofNat 8 (mark j))
  let s := s.writeWords (tileSave base k) ((List.range 32768).map c.tileWord)
  s.writeWords (tilestatSave base k) [c.tilestat]

/-- A save of a basin writes its suspend area (R466). -/
def State.fillArea (s : State) (basin : Nat) : State :=
  let base := s.suspArea basin
  let s := (List.range 16).foldl (fun s k => s.saveCore base (16 * basin + k)) s
  (List.range 128).foldl (fun s n => s.saveStrand base (128 * basin + n)) s

/-- A lease that this device granted runs on a suspend area: the save waits for it (R405). -/
def State.areasLeased (s : State) : Bool := (List.range 12).any fun b => (s.leasedIn (s.suspArea b) suspBytes).isSome

/-- What a save does (R466): the strands stop, expired rows are marked, the caches go empty, and the areas are written. -/
def State.save (s : State) : State :=
  (List.range 12).foldl (fun s b => s.fillArea b)
    ((List.range 192).foldl (fun s c => s.markExpired c) s.pauseAll).emptyCaches

/-- SAVING (R464, R466): once everything has stopped the device is in SAVING; then it saves, and the basins enter RETAIN or
DEEP RETAIN. -/
def execSaving (s : State) : Result :=
  .next (if s.annex.suspState = 2 && s.quiet then s.modAnnex fun a => { a with suspState := 3 }
    else if s.annex.suspState = 3 && !s.areasLeased && (s.awayPort fun _ => true).isNone then
      s.save.modAnnex fun a => { a with suspState := if a.suspDeep then 5 else 4, suspCmd := 0 }
    else s)

/-! ### Resume -/

/-- A subarray that DEEP RETAIN refreshes (R464, R466): RETTAB keeps it, or it holds the suspend area, the retention table
or a ring of CRBASE or CQBASE. -/
def State.kept (s : State) (basin sub : Nat) : Bool :=
  let b := s.basin basin
  let base := sub * 2 ^ 20
  let holds (a n : Nat) : Bool := n ≠ 0 && overlaps a n base (2 ^ 20)
  let entry := b.rettab.toNat * 4096 + 16 * (sub / 128 % 512)
  (isDevMem entry && (BitVec.ofNat 128 (s.readCo entry 16)).getLsbD (sub % 128)) ||
    holds (s.suspArea basin) suspBytes || holds (b.rettab.toNat * 4096) (384 * 16) ||
    (b.crLog2n ≠ 0 && holds (b.crBase.toNat * 4096) (64 * 2 ^ b.crLog2n.toNat)) ||
    (List.range 4).any fun p =>
      let q := b.cq.get {} p
      q.log2n ≠ 0 && holds (q.base.toNat * 4096) (64 * 2 ^ q.log2n.toNat)

/-- Subarrays not kept cleared, their check bits whole and their rows checked (R117, R467). -/
def State.clearLost (s : State) : State :=
  let lost (pa : Nat) : Bool := pa < 2 ^ 40 && !s.kept (paBasin pa) (pa / 2 ^ 20)
  { s with mem := s.mem.filter fun e => !lost e.1, errs := s.errs.filter fun e => !lost (16 * e.1)
           unchecked := s.unchecked.filter fun e => !lost (1024 * e.1) }

/-- The responses held during RETAIN are parked (R466). -/
def State.parkHeld (s : State) : State :=
  s.annex.heldReplies.foldl (fun s e => s.parkReply e.1 e.2) (s.modAnnex fun a => { a with heldReplies := [] })

/-- A collective goes on from the step after STEP, its timer started again (R467). -/
def EngineOp.resumed (o : EngineOp) (clk : Nat) : EngineOp :=
  match o.work with
  | .coll c => { o with work := .coll { c with since := clk } }
  | _ => o

/-- A register of a strand as its save left it. -/
def Strand.loadReg (t : Strand) (n : Nat) (v : Word) : Strand :=
  let put (m : KReg) (j : Nat) : KReg := maskClear m j (~~~0#64) ||| (v.setWidth 4096 <<< (64 * j))
  if n = 0x5 then { t with slip := v.extractLsb' 5 3, bs := v.extractLsb' 2 3 }
  else if n = 0x8 then t.setFctl v
  else if n = 0x69 then { t with ite := v.getLsbD 0 }
  else if n = 0x81 then { t with expp := v.getLsbD 2, exps := v.getLsbD 1, expte := v.getLsbD 0 }
  else if n = 0x90 then { t with plNext := v.extractLsb' 32 16, plFirst := v.extractLsb' 16 16
                                 lockerr := v.getLsbD 1, margin := v.getLsbD 0 }
  else if n = 0xA2 then { t with aqCause := v.extractLsb' 1 3, aqFail := v.getLsbD 0 }
  else if n = 0xC0 then { t with xpc := v }
  else if n = 0xC1 then { t with xcause := v.extractLsb' 0 8 }
  else if n = 0xC2 then { t with xval := v }
  else if n = 0xC4 then { t.setXstat v with cur := v.getLsbD 2 }
  else if n = 0xC5 then { t with xscratch := v }
  else if n = 0xC8 then { t with ctxid := v.extractLsb' 0 16 }
  else if n = 0xE0 then { t with monsel := v.extractLsb' 0 9 }
  else if n = 0xE7 then { t with xld := min 6 v.toNat }
  else if 0xE8 ≤ n && n ≤ 0xFF then if (n - 0xE8) / 4 < t.xld then { t with xls := t.xls.set 0 (n - 0xE8) v } else t
  else if 0x100 ≤ n && n ≤ 0x13F then { t with illmask := put t.illmask (n - 0x100) }
  else if 0x140 ≤ n && n ≤ 0x17F then { t with expmask := put t.expmask (n - 0x140) }
  else t

/-- What the opaque part of the dump area of a saved strand stands for: that strand, or, where the area has changed, what no rule
gives (log entries 9 and 49). -/
def State.savedStrand (s : State) (dump : Nat) : Strand × Option Nat :=
  let byte (o : Nat) : Nat := (s.byteAt (s.migRead (dump + o))).toNat
  let t : Strand := { lgc := BitVec.ofNat 3 (min 3 (byte 5)), sw := BitVec.ofNat 2 (byte 6) }
  match s.findSaved (dump + 0x3100 + 4 * t.vlen) (Config.vframeSize t.lgc.toNat t.sw.toNat) t.lgc with
  | some x => (x.strand, some x.token)
  | none => (t.restoreFree s.freeCtr, none)

/-- One strand restored from the suspend area (R467): nothing but its slot is kept outside it. -/
def State.restoreStrand (s : State) (base slot : Nat) : State :=
  match s.strand slot with
  | none => s
  | some _ =>
    let at_ := strandSave base (slot % 128)
    let w (i : Nat) : Word := s.wordAt at_ i
    let x := s.savedStrand (dumpSave at_)
    let t := { x.1 with g := (List.range 32).foldl (fun l i => l.set 0 i (w i)) [], pc := w 32 }
    let t := strandRegs.zipIdx.foldl (fun (t : Strand) e => t.loadReg e.1 (w (33 + e.2))) t
    let c := s.core (coreOf slot)
    let s := s.setCore (coreOf slot) { c with xframe := c.xframe.set 0 (slot % 8) (w 44) }
    let s := (s.setStrand slot t).inSlot slot fun s => s.loadImages (dumpSave at_)
    match x.2 with
    | some token => s.moveLocks (tokenHolder token) slot
    | none => { s with freeCtr := s.freeCtr + 1 }

/-- The scratchpad, the tiles and TILESTAT of one core restored from the suspend area (R467). Rows expired at the save stay
expired, and every other row is young. -/
def State.restoreCore (s : State) (base core : Nat) : State :=
  let k := core % 16
  let dead := (List.range 49152).filter fun r => (s.byteAt (s.migRead (markSave base k + r / 8))).getLsbD (r % 8)
  let word (i : Nat) : Word := s.wordAt (tileSave base k) i
  let stat := s.wordAt (tilestatSave base k) 0
  let c := s.core core
  let s := (List.range (3 * 2 ^ 20)).foldl (fun u o => u.setRawByte (spadPa core o) (s.byteAt (s.migRead (spadSave base k + o)))) s
  s.setCore core { c with
    rowClk := [], rowDead := dead.foldl (fun t r => t.set false r true) []
    acc := (List.range 32768).foldl (fun t i => t.set 0 i ((word i).extractLsb' 0 40)) []
    poison := (List.range 32768).foldl (fun t i => t.set false i ((word i).getLsbD 40)) []
    tileNan := stat.extractLsb' 16 8, tileRange := stat.extractLsb' 8 8, tileOvf := stat.extractLsb' 0 8 }

/-- A basin restored from its suspend area (R467). -/
def State.readArea (s : State) (basin : Nat) : State :=
  let base := s.suspArea basin
  let s := (List.range 16).foldl (fun s k => s.restoreCore base (16 * basin + k)) s
  (List.range 128).foldl (fun s n => s.restoreStrand base (128 * basin + n)) s

/-- What a resume does (R467). Latch sets are as INIT leaves them. -/
def State.restoreAll (s : State) : State :=
  let s := if s.annex.suspDeep then s.clearLost else s
  let s := { s with spInit := s.clk, latches := [], ops := s.ops.map fun (o : EngineOp) => o.resumed s.clk }
  ((List.range 12).foldl (fun s b => s.readArea b) s).parkHeld

/-- RESTORING (R464, R465, R467): the armed resume acts when AQTIME reaches SUSPTIME, and the device is in RESTORING; then
it restores, and runs. -/
def execRestoring (s : State) : Result :=
  .next (if s.retained && s.annex.suspCmd = 2 && s.suspAt ≤ s.aqNow then
      s.unsynced.modAnnex fun a => { a with suspState := 6, suspCmd := 0 }
    else if s.annex.suspState = 6 then s.restoreAll.modAnnex fun a => { a with suspState := 0, suspResult := 1 }
    else s)

/-! ### Power -/

/-- CURRENT_HOLD (R476): the metered current of a basin over the last µs, in mA. -/
def execCurrentHold (s : State) : Result :=
  let b := s.inp.unit
  .next (if b < 12 && 150000 < s.inp.code then
      s.whenReady (s.setBasin b { s.basin b with holdEnd := s.clk + 1100 })
    else s)

/-- The comparison of the power of the device over the last ms, in mW, with the cap (R476). -/
def Annex.compareCap (a : Annex) (mw : Nat) : Annex :=
  let cap := 1000 * a.cap.toNat
  if a.cap = 0 then { a with h := 0, capLow := 0 }
  else if cap < mw then { a with h := if a.h = 15 then 15 else a.h + 1, capLow := 0 }
  else if 100 * mw < 95 * cap then
    if a.capLow + 1 = 10 then { a with h := if a.h = 0 then 0 else a.h - 1, capLow := 0 }
    else { a with capLow := a.capLow + 1 }
  else { a with capLow := 0 }

/-- CAP_HOLD (R476): once every 1 ms. -/
def execCapHold (s : State) : Result :=
  .next (if s.annex.nextCompare ≤ s.clk then
      s.whenReady (s.modAnnex fun a => { a.compareCap s.inp.code with nextCompare := s.clk + 1100000 })
    else s)

/-- ENERGY_APPORTION (R475), once in every 1 µs interval: the energies of the basins in it in nJ, divided in proportion to
the charges; the shares are whole nJ (log entry 43). The meters count on for the monitors (R478). -/
def execEnergyApportion (s : State) : Result :=
  let total := s.inp.amounts.foldl (· + ·) 0
  let sum := s.annex.launches.foldl (fun n (l : Launch) => n + l.charged) 0
  .next (if s.annex.nextMeter ≤ s.clk then
      s.whenReady (s.modAnnex fun a =>
        { a with nextMeter := s.clk + 1100, basinNj := a.basinNj + total, launches := a.launches.map fun (l : Launch) =>
          { l with energy := if sum = 0 then l.energy else l.energy + total * l.charged / sum, charged := 0 } })
    else s)

/-- How wide a meter's entry is (R478). -/
def monitorValue (i : Nat) (v : Word) : Word :=
  if i % 32 = 28 || i % 32 = 29 then v &&& 0xFFFF
  else v &&& 0xFFFFFFFF

/-- What an entry takes at an update (R478): a supply or a process monitor what it reads; the energies of the device and of
the annex since reset, in whole µJ, the annex's with the nJ that its meter brings. -/
def State.metered (s : State) (i : Nat) : Word × State :=
  if i = 384 then (BitVec.ofNat 64 (s.annex.basinNj / 1000), s)
  else if i = 385 then
    let n := s.annex.annexNj + s.inp.value.toNat
    (BitVec.ofNat 64 (n / 1000), s.modAnnex fun a => { a with annexNj := n })
  else (monitorValue i s.inp.value, s)

/-- MONITOR_UPDATE (R478): the entry `part` is updated, once in its period; the sensors' entries follow the sensors. -/
def execMonitorUpdate (s : State) : Result :=
  let i := s.inp.part
  let now := s.clk / meterPeriod i
  let m := s.monitors.get {} i
  .next (if ((i < 384 && 28 ≤ i % 32) || i = 384 || i = 385) && m.period ≠ some now then
      s.whenReady (
        let r := s.metered i
        { r.2 with monitors := r.2.monitors.set {} i ⟨r.1, some now, m.value⟩ })
    else s)

end Sys2Proof.Machine
end

