-- ==== Sys2Proof/Machine/HostIf.lean ====
section
/-! DEFINITION. What a host writes into the annex register block (R13, R114, R125): launch queues and their doorbells
(R127 to R130), and the registers that have no behaviour of their own. -/
namespace Sys2Proof.Machine
open Sys2Proof

/-- A queue stops on an error (R133): ERR, and its launch vector. -/
def State.stopQueue (s : State) (q : Nat) : State :=
  let x := s.lq q
  (s.setLq q { x with err := true }).raiseMsix x.vec.toNat

/-- The pending records of a queue exceed its ring (R129). -/
def LaunchQueue.over (x : LaunchQueue) : Bool := 2 ^ x.log2.toNat < (x.tail - x.head).toNat

/-- A launch is the head of its queue: not admitted, and HEAD has not passed it (R129). -/
def Launch.isHead (l : Launch) : Bool := l.slots.isEmpty

/-- The queue's head is no longer considered, and its reservation is dropped (R130): what the annex was doing for it ends,
the completion record of a refused head that is still to be written included. When the queue is enabled again, the annex reads the
record again: R130 considers it afresh, R131 reads each record once, and this is the model's choice (log entry 65). -/
def State.dropHeads (s : State) (q : Nat) : State :=
  let gone := s.annex.launches.filter fun l => l.queue = q && l.isHead
  let s := s.modAnnex fun a => { a with launches := a.launches.filter fun l => !(l.queue = q && l.isHead) }
  { s with strands := gone.foldl (fun t l => t.drop (1536 + 64 * l.id + q)) (s.strands.drop (1536 + q)) }

/-- A write of LQCTL (R127 to R130): fields that are held while EN = 1, ERR, RST, and the change of EN. A queue whose context
descriptor cannot be read when it is enabled stops (R152). -/
def State.writeLqctl (s : State) (q : Nat) (v : Word) : State :=
  let x := s.lq q
  let en := v.getLsbD 0
  let x' : LaunchQueue := { x with
    vec := if bitsOf v 16 6 < 2 then 2 else v.extractLsb' 16 6
    ctx := if x.en then x.ctx else v.extractLsb' 48 16
    log2 := if x.en then x.log2 else if bitsOf v 8 4 < 4 then 4 else v.extractLsb' 8 4
    err := x.err && !v.getLsbD 2
    head := if v.getLsbD 1 && !x.en then 0 else x.head
    tail := if v.getLsbD 1 && !x.en then 0 else x.tail
    en := en }
  let s := s.setLq q x'
  if x.en && !en then s.dropHeads q
  else if !x.en && en && (x'.over || (s.ctxBad x'.ctx).isSome) then s.stopQueue q
  else s

/-- A write of LQTAIL (R129): a doorbell while EN = 1. -/
def State.writeTail (s : State) (q : Nat) (v : Word) : State :=
  let x := { s.lq q with tail := v.extractLsb' 0 32 }
  let s := s.setLq q x
  if x.en && x.over then s.stopQueue q else s

/-- A write to a register that the port with the live lease alone may write (R115, R125). -/
def State.leaseWrite (s : State) (p : BitVec 1) (f : State → State) : State :=
  if !s.ready then s
  else if s.leaseLive && s.leasePort = p then f s
  else s.reject

/-- DOORBELL (R129). -/
def execDoorbell (s : State) : Result :=
  .next (s.fromHost fun s => s.leaseWrite s.inp.port fun s => s.writeTail s.inp.queue.toNat s.inp.value)

/-- QUEUE_ENABLE (R128): a write of LQCTL that takes EN from 0 to 1. -/
def execQueueEnable (s : State) : Result :=
  .next (s.fromHost fun s => s.leaseWrite s.inp.port fun s =>
    if !(s.lq s.inp.queue.toNat).en && s.inp.value.getLsbD 0 then s.writeLqctl s.inp.queue.toNat s.inp.value else s)

/-- QUEUE_DISABLE (R130): a write of LQCTL that clears EN. -/
def execQueueDisable (s : State) : Result :=
  .next (s.fromHost fun s => s.leaseWrite s.inp.port fun s =>
    if (s.lq s.inp.queue.toNat).en && !s.inp.value.getLsbD 0 then s.writeLqctl s.inp.queue.toNat s.inp.value else s)

/-- QUEUE_RESET (R127): a write of LQCTL with RST while EN = 0; with EN = 1 it is ignored. -/
def execQueueReset (s : State) : Result :=
  .next (s.fromHost fun s => s.leaseWrite s.inp.port fun s =>
    if !(s.lq s.inp.queue.toNat).en && s.inp.value.getLsbD 1 then s.writeLqctl s.inp.queue.toNat s.inp.value else s)

/-- PWRCAP (R476): a cap from 1 to 199 W is 200. -/
def capOf (v : Word) : BitVec 16 := let n := bitsOf v 0 16; if 1 ≤ n && n ≤ 199 then 200 else v.extractLsb' 0 16

/-- HLSTAT (R13, R124): each bit of a count is cleared by a 1. -/
def Annex.clearCounts (a : Annex) (v : Word) : Annex :=
  { a with stale := a.stale &&& ~~~(v.extractLsb' 16 16), rej := a.rej &&& ~~~(v.extractLsb' 0 16) }

/-- A command in the mailbox's command dword is a step of its own (R120); any other value is stored while no command is in
progress. -/
def Annex.mailWrite (a : Annex) (off : Nat) (v : Word) : Annex :=
  if off = 0xF8 then (if a.mailBusy || v = 1 || v = 3 || v = 4 then a else a.setCommand v.toNat)
  else a.putMail off (bytesOf v.toNat 8)

/-- A host's write of an aligned dword of the block, in a register without behaviour of its own (R13, R114). -/
def State.annexWrite (s : State) (p : BitVec 1) (off : Nat) (v : Word) : State :=
  if off % 8 ≠ 0 then s
  else if off = 0x20 then s.writeHlease p v
  else if off = 0x28 then s.modAnnex fun a => a.clearCounts v
  else if off = 0x40 then s.leaseWrite p fun s => s.modAnnex fun a => { a with suspTime := v }
  else if off = 0x58 then s.leaseWrite p fun s => s.modAnnex fun a => { a with cap := capOf v }
  else if 0x100 ≤ off && off < 0x900 then
    let q := (off - 0x100) / 0x20
    s.leaseWrite p fun s =>
      (match off % 0x20 with
       | 0 => if (s.lq q).en then s else s.setLq q { s.lq q with base := v.extractLsb' 7 41 }
       | 8 => s.writeLqctl q v
       | 16 => s.writeTail q v
       | _ => s)
  else if 0x1000 ≤ off && off < 0x1100 then s.modAnnex fun a => a.mailWrite (off - 0x1000) v
  else if 0x100000 ≤ off && off < 0x1000000 then s.modAnnex fun a => { a with recovery := a.recovery.set 0 (off / 8) v }
  else s

/-- An access that the block serves: an aligned dword (R114). -/
def dwordAt (off size : Nat) : Bool := off % 8 = 0 && size = 8

/-- A host's read of the block (R114, R125, R409): all ones for an access that is no aligned dword and for a stale one. -/
def State.hostRead (s : State) (p : BitVec 1) (off size : Nat) : State :=
  let reply (s : State) (v : Word) : State := s.send (.mmioRead p s.sender.2 v)
  if !s.portUp p then s
  else if s.inp.inc ≠ s.incOf p then reply (s.fromHost id) (BitVec.allOnes 64)
  else reply s (if dwordAt off size then s.annexRead off else BitVec.allOnes 64)

/-- A host sets the size of its port's HDM window in whole GiB: the two windows expose at most 256 GiB, and a size beyond
that is not taken (R110, R112; log entry 56). -/
def State.setWindow (s : State) (p : BitVec 1) (gib : Nat) : State :=
  if gib + s.annex.hdmGib.get 128 (otherPort p).toNat ≤ 256 then
    s.modAnnex fun a => { a with hdmGib := a.hdmGib.set 128 p.toNat gib }
  else s

/-- A host sets how many page requests of its port may be outstanding, and those that wait may leave (R309; log entry
55). -/
def State.setAllocation (s : State) (p : BitVec 1) (n : Nat) : State :=
  (s.modAnnex fun a => { a with pageAlloc := a.pageAlloc.set 256 p.toNat n }).sendHeld p

/-- A write of a system register by the strand in a slot, as `swr` makes it (R13, R201, R445). -/
def State.strandWrite (s : State) (n : Nat) (r : BitVec 16) (v : Word) : State :=
  if (s.strand n).isNone || s.busyIn n (sysWaits r true) || (r = 0x8 && !(s.strand n).any Strand.vectorIdle) ||
      (s.arfAway r.toNat v).isSome then s
  else if sysPrivileged r then s.asWriter n fun s => s.sysWrite r v
  else s.inSlot n fun s => s.sysWrite r v

/-- REGISTER_WRITE (R13): `part` 0 is a host's write of the block at `off`, or with `canRead` its read (log entry 48);
`part` 1 is the write of system register `code` by the strand in slot `unit`; `part` 2 and 3 are a host's settings of its
port's window and page-request allocation (R110, R309). -/
def execRegisterWrite (s : State) : Result :=
  let i := s.inp
  .next (if i.part = 1 then s.strandWrite i.unit (BitVec.ofNat 16 i.code) i.value
    else if i.part = 2 then s.fromHost fun s => s.setWindow i.port i.value.toNat
    else if i.part = 3 then s.fromHost fun s => s.setAllocation i.port i.value.toNat
    else if i.canRead then s.hostRead i.port i.off.toNat i.size
    else s.fromHost fun s => if dwordAt i.off.toNat i.size then s.annexWrite i.port i.off.toNat i.value else s)

end Sys2Proof.Machine
end

