-- ==== Sys2Proof/Machine/Turn.lean ====
section
/-! DEFINITION. The turn of a strand slot (R204, R208, R271 to R274): what it does next, the end of a wait, pre-emption
(R454, R455), the faults of a fetch (R202 to R205), the vector-fault dump (R451), the weir's clk (R292) and the pulse
frames (R293, R294); and the passing of time (R28, R474). -/
namespace Sys2Proof.Machine
open Sys2Proof

/-! ### Time -/

/-- How many of `n` clk from `a` on have a given residue modulo 16. -/
def residues (a n r : Nat) : Nat := (a + n + 15 - r) / 16 - (a + 15 - r) / 16

/-- How many of `n` clk from `a` on have a residue that a test accepts. -/
def clkCount (a n : Nat) (f : Nat → Bool) : Nat :=
  (List.range 16).foldl (fun x r => if f r then x + residues a n r else x) 0

/-- A counter of R474: it saturates. -/
def sat64 (x : Nat) : Nat := min x (2 ^ 64 - 1)

/-- What `n` clk add to the counters of a launch for one of its strands (R474). -/
def State.countClk (s : State) (n slot : Nat) (t : Strand) (l : Launch) : Launch :=
  let q := s.quad (quadOf (coreOf slot))
  let stop := (s.basin (basinOf (coreOf slot))).holdEnd
  let cur := min (s.clk + n) stop - s.clk
  let host := clkCount (s.clk + cur) (n - cur) fun r => r < s.annex.h.toNat
  let weir := t.st = .wait .weir
  { l with
    busy := sat64 (l.busy + n)
    tpat := sat64 (l.tpat + clkCount s.clk n fun r => !q.latched.getLsbD r)
    ttherm := sat64 (l.ttherm + clkCount s.clk n fun r => q.latched.getLsbD r && !q.eff.getLsbD r)
    tweir := if weir then sat64 (l.tweir + (n - cur - host)) else l.tweir
    tcurr := if weir then sat64 (l.tcurr + cur) else l.tcurr
    thost := if weir then sat64 (l.thost + host) else l.thost }

/-- `n` clk pass in which nothing else happens (R28, R474): the counters run but for strands that a suspend has switched
out. -/
def State.elapse (s : State) (n : Nat) : State :=
  let count (l : Launch) : Launch :=
    s.strands.foldl (fun l e => if e.2.bind.launch = l.id then s.countClk n e.1 e.2 l else l) l
  { s with
    clk := s.clk + n
    annex := { s.annex with launches := if s.annex.suspState < 3 then s.annex.launches.map count else s.annex.launches } }

/-- The weir of a core admits from the head of its queue (R292). `n` bounds the admissions. -/
def State.admitHeads (s : State) (core : Nat) : Nat → State
  | 0 => s
  | n + 1 =>
    let c := (s.core core).settle s.clk
    match c.queue with
    | [] => s
    | e :: r =>
      if s.held (basinOf core) || !(c.inForce s.clk).admits ((c.inForce s.clk).cost e.charge) then s
      else ((s.setCore core { c with queue := r }).letThrough e.slot e.charge).admitHeads core n

/-- What a weir does in a clk (R292). -/
def State.weirClk (s : State) (core : Nat) : State := s.admitHeads core (s.core core).queue.length

/-- EFF from PAT and the slot limit T (R294): set bits cleared from the highest down. -/
def effOf (pat : BitVec 16) (limit : Nat) : BitVec 16 :=
  let rec go (p : BitVec 16) : Nat → BitVec 16
    | 0 => p
    | n + 1 => if popFrom p.toNat 16 ≤ limit then p else go (p &&& ~~~(1#16 <<< n)) n
  go pat 16

/-- A frame boundary of a quad (R293): PAT and the EFF of it are latched. -/
def Quad.latch (q : Quad) : Quad := { q with latched := q.pat, eff := effOf q.pat q.limit }

/-- What the first moment of a clk brings: a lease whose time has come ends (R124), so does a synchronisation (R430), frames
begin at multiples of 16 clk (R293), and the weirs admit (R292). -/
def State.clkBegins (s : State) : State :=
  let s := s.lapse.syncEnds
  let s := if s.clk % 16 = 0 then s.quads.foldl (fun s e => s.setQuad e.1 e.2.latch) s else s
  s.cores.foldl (fun s e => s.weirClk e.1) s

/-- How many of the next `n` clk nothing happens in that `clkBegins` would bring, the last of them apart: a weir that holds
an instruction, a frame that changes a latched pattern, the end of a lease or of synchronisation. -/
def State.quietClk (s : State) (n : Nat) : Nat :=
  if s.cores.any fun e => !e.2.queue.isEmpty then 1
  else
    let frame := if s.quads.any fun e => e.2.latch ≠ e.2 then 16 - s.clk % 16 else n
    let lease := if s.annex.active ≠ 0 then max 1 (1100 * s.annex.expiry.toNat - s.clk) else n
    let sync := if s.aqSync then max 1 (s.aqLast + 8800000 - s.clk) else n
    min n (min frame (min lease sync))

/-- `n` clk pass, at most `fuel` times to the next thing that happens. -/
def State.pass (s : State) : Nat → Nat → State
  | 0, n => s.elapse n
  | fuel + 1, n => if n = 0 then s else ((s.elapse (s.quietClk n)).clkBegins).pass fuel (n - s.quietClk n)

/-- `n` clk pass (R28, R124, R292, R293, R474), and the device's own writes that waited for leases are performed (R405). -/
def State.tick (s : State) (n : Nat) : State :=
  let s := s.pass n n
  if s.deferred.isEmpty then s else s.flushDeferred

/-! ### The fetch -/

/-- A pre-emption honoured (R454): the position of a waiting strand is its instruction. -/
def State.preempt (s : State) : State :=
  let t := s.self
  if !t.yields then s
  else
    let s := if t.st = .run then s.fetchPoint else s
    (s.modSelf fun t => { t with preq := none }).takeTrap causePreempt 0 s.self.pc

/-- The fault of a fetch (R204, R205): the code range first, then translation and permission. -/
def State.fetchFault (s : State) : State :=
  let s := s.fetchPoint
  let t := s.self
  if !s.inCode t.pc then s.codeEnd t.pc t.lastPc
  else
    match s.fetchWord t.pc with
    | .trap c v s => s.takeTrap c v t.pc
    | .wait w s => s.waitOn w
    | .ok _ s => s

/-- The word fetched is noted (R203, R205). -/
def Strand.fetched (t : Strand) (w : BitVec 32) : Strand := { t with word := w, lastPc := t.pc }

/-- The trap of a word that is no instruction (R202, R203). -/
def State.badWord (s : State) : State :=
  let s := s.fetchPoint
  let t := s.self
  if !s.inCode t.pc then s
  else
    match s.fetchWord t.pc with
    | .ok w s => if (decodeWord w).isNone then (s.modSelf fun t => t.fetched w).illegal else s
    | .trap _ _ s => s
    | .wait w s => s.waitOn w

/-- A queued instruction still has a general register to write (R217). -/
def Strand.owesG (t : Strand) : Bool :=
  t.vq.any fun q =>
    match decodeWord q.word with
    | some (.vapnd _ _ _ _ _) => true
    | some (.vext _ _ _ _) => true
    | some (.kpop _ _) => true
    | some (.kfirst _ _) => true
    | some (.aqLease _ _ _) => true
    | _ => q.word.extractLsb' 26 6 = 0x28#6

/-- What an instruction waits for at decode while the vector queue holds something (R217, R246). -/
def Strand.heldBack (t : Strand) (i : Instr) : Bool := afterQueue i || (t.owesG && i ≠ .tret)

/-- What a slot does in its turn: a step that needs no instruction, or an instruction or event that runs. -/
inductive Ready where
  | done (s : State)
  | go (i : Instr) (s : State)

/-- A decoded instruction runs, unless it waits for the vector queue, which then goes on (R217, R246). -/
def State.runOrHold (s : State) (i : Instr) : Ready :=
  match s.self.vq with
  | q :: _ => if s.self.heldBack i then .done (s.stepQueue q) else .go i s
  | [] => .go i s

/-- A strand in RUN fetches its next instruction (R204), and `f` says what becomes of it. -/
def State.fetchThen (s0 : State) (f : State → Instr → Ready) : Ready :=
  let s := s0.fetchPoint
  if !s.inCode s.self.pc then .go .codeEndFault s0
  else
    match s.fetchWord s.self.pc with
    | .trap _ _ _ => .go .codeEndFault s0
    | .wait w s => .done (s.waitOn w)
    | .ok w s =>
      match decodeWord w with
      | none => .go .illegalInstruction s0
      | some i => f (s.modSelf fun t => t.fetched w) i

/-- A strand in RUN fetches its next instruction and runs it. -/
def State.fetchNext (s : State) : Ready := s.fetchThen State.runOrHold

/-- The strand has answers of peers, or demand accesses, of the instruction that it stands at, which goes on without a new
fetch (R274, R319). -/
def State.goOn (s : State) : Ready :=
  match decodeWord s.self.word with
  | some i => s.runOrHold i
  | none => s.fetchNext

/-- A strand in RUN (R274, R453): a position inside an instruction goes on, the vector queue goes on outside a trap handler,
a request is honoured, or the next instruction is fetched. -/
def State.runStrand (s : State) : Ready :=
  let t := s.self
  match t.inside with
  | some p => .done (s.stepInside p)
  | none =>
    match (if t.exl then [] else t.vq) with
    | q :: _ => .done (s.stepQueue q)
    | [] =>
      if !t.answers.isEmpty || t.resumed then s.goOn
      else if t.yields then .go .preemption s
      else s.fetchNext

/-- A strand in RUN whose front end goes on before its vector queue (R217, R246, R396): it leaves an instruction of the vector
stream to the queue, and runs any other that need not wait for it. A trap handler, and a strand whose queue has begun its
head or is inside an instruction, goes on as in any other turn. -/
def State.runAhead (s : State) : Ready :=
  let t := s.self
  if t.exl || t.inside.isSome || t.midway then s.runStrand
  else if t.yields then .go .preemption s
  else s.fetchThen fun s i =>
    if deferrable i && !s.self.owesG && s.self.vq.length < queueDepth then .done (s.capture i) else s.runOrHold i

/-- The device suspends, and the strand has stopped (R466). -/
def State.halts (s : State) (t : Strand) : Bool :=
  (s.annex.suspState = 2 && t.stopped) || 3 ≤ s.annex.suspState

/-- The strand in a slot is taken by the front end: it is in RUN, and no suspend or double trap has stopped it (R273). -/
def State.runsAt (s : State) (n : Nat) : Bool :=
  match s.strand n with
  | some t => decide (t.st = .run) && t.doubled.isNone && !s.halts t
  | none => false

/-- The quad of a core is enabled in this clk (R293). -/
def State.enabled (s : State) (core : Nat) : Bool := (s.quad (quadOf core)).eff.getLsbD (s.clk % 16)

/-- The slots of a core after the one taken last, in the order of the round-robin (R273). -/
def State.slotOrder (s : State) (core : Nat) : List Nat :=
  (List.range 8).map fun k => 8 * core + ((s.core core).lastSlot + 1 + k) % 8

/-- The strand that the front end of a core takes in this clk: the next one in RUN, one per enabled cycle (R273). -/
def State.frontNext (s : State) (core : Nat) : Option Nat :=
  if s.enabled core && (s.core core).turnEnd ≤ s.clk then (s.slotOrder core).find? s.runsAt else none

/-- The front end of a core has taken the strand in a slot (R273). -/
def State.taken (s : State) (n : Nat) : State :=
  s.setCore (coreOf n) { s.core (coreOf n) with lastSlot := n % 8, turnEnd := s.clk + 1 }

/-- What the front end does with the strand that it takes, by `f`; a fault of the fetch is a step of its own, which takes the
front end itself. -/
def State.take (s : State) (n : Nat) (f : State → Ready) : Ready :=
  match f (s.taken n) with
  | .go .codeEndFault _ => .go .codeEndFault s
  | .go .illegalInstruction _ => .go .illegalInstruction s
  | r => r

/-- The turn of a slot (R271, R273, R274, R293): in an enabled cycle, a strand in RUN runs if the front end takes it; one in
WAIT honours a request or leaves when its condition holds. -/
def State.turn (s : State) (n : Nat) (f : State → Ready) : Ready :=
  let s := { s with cur := n, inp := { unit := n }, rowCtx := none }
  match s.strand n with
  | none => .done s
  | some t =>
    if s.halts t || !s.enabled (coreOf n) then .done s
    else
    match t.st with
    | .run =>
      if t.doubled.isSome then .go .strandEnd s
      else if s.frontNext (coreOf n) = some n then s.take n f
      else .done s
    | .wait _ => if t.yields then .go .preemption s else .go .awaitedCondition s
    | .join => .done s
    | .ended => .go .strandEnd s
    | .dumping => .go .vectorFaultDump s

/-- The turn of a slot whose vector queue goes before its front end. -/
def State.prepare (s : State) (n : Nat) : Ready := s.turn n State.runStrand

/-- The turn of a slot whose front end goes before its vector queue. In a strand that a vector fault has stopped, the queue's
next instruction is looked at (R451). -/
def State.prepareAhead (s : State) (n : Nat) : Ready :=
  match s.turn n State.runAhead with
  | .go .vectorFaultDump s => .done s.faultNext
  | r => r

/-- What a step of a front end that goes ahead leaves, `s` being the state before it: an instruction that waits stands at
decode, and the vector queue goes on instead (R217). -/
def State.aheadOf (s : State) (n : Nat) (t : State) : State :=
  let waits := match (t.strand n).map (·.st) with
    | some (.wait _) => true
    | _ => false
  if waits && ((s.strand n).any fun u => !u.vq.isEmpty) then
    match s.prepare n with
    | .done u => u
    | .go _ _ => t
  else t

/-! ### Waits -/

/-- The condition that a strand waits for holds (R271). -/
def State.awaitHolds (s : State) (n : Nat) (t : Strand) : Await → Bool
  | .counts l c k m => t.countsOk l c k m
  | .engines kinds => !s.busyIn n kinds
  | .barrier k g => (s.group k).gen ≠ g
  | .boundary k g => (s.group k).gen ≠ g
  | .child c => s.childReady c
  | .weir => t.weirPass.isSome
  | .event => t.idleDone
  | .ats units page w => t.atsDenied.isSome || !s.leaseLive || units.all fun u => s.ats.any fun (e : AtsEntry) =>
      e.unit = u && e.ctx = t.ctxid && e.vbase ≤ page * 4096 && page * 4096 < e.vbase + e.size &&
        (if w then e.canWrite else e.canRead)
  | .fill _ _ => t.genRead.isSome
  | .link => s.leaseUp || !s.leaseLive
  | .writeBack p => s.portUp p
  | .peer _ k _ => (List.range k).all fun i => (t.answers.find i).isSome
  | .replies a => !s.pendRecord a
  | .cast dv f g _ _ =>
      (s.findCast (basinOf (coreOf n)) (some dv) f g).isSome || t.openCast.contains (dv, f) || !t.answers.isEmpty
  | .bank tok k => !(s.banks.any fun b => b.2.fifo.any fun d => tok ≤ d.id && d.id < tok + k)
  | .idle pa => s.bankIdle pa
  | .lease line => !s.leased line
  | .commands k => !s.pendingBefore k

/-- A strand whose condition holds leaves WAIT (R271), unless it honours a request there (R274, R454). -/
def State.awaken (s : State) (n : Nat) : State :=
  match s.strand n with
  | some t =>
    (match t.st with
     | .wait w => if s.awaitHolds n t w then s.setStrand n t.goesOn else s
     | _ => s)
  | none => s

/-- AWAITED_CONDITION (R271). -/
def execAwaitedCondition (s : State) : Result := .next (s.awaken s.inp.unit)

/-- PREEMPTION (R293, R454). -/
def execPreemption (s : State) : Result :=
  .next (if (s.strand s.inp.unit).isSome && s.enabled (coreOf s.inp.unit) then s.inSlot s.inp.unit State.preempt else s)

/-- PREEMPTION_REQUEST (R454): a write of PREQ. -/
def execPreemptionRequest (s : State) : Result := .next (s.postAll (bitsOf s.inp.value 16 8) (bitsOf s.inp.value 0 8))

/-- LOOPLATE_COUNT (R455): once per request. -/
def execLooplateCount (s : State) : Result :=
  let n := s.inp.unit
  .next (match s.strand n with
    | some t =>
      if (t.preq.any fun c => c + 2 ^ 20 ≤ s.clk) && !t.preqLate then
        let s := s.setStrand n { t with preqLate := true }
        s.setCore (coreOf n) { s.core (coreOf n) with looplate := satInc (s.core (coreOf n)).looplate }
      else s
    | none => s)

/-- The front end takes a strand that stands at a fetch (R273, R293). -/
def State.atFetch (s : State) (n : Nat) : Bool :=
  decide (s.frontNext (coreOf n) = some n) && ((s.strand n).map fun t => t.inside.isNone && t.answers.isEmpty && !t.resumed).getD false

/-- ILLEGAL_INSTRUCTION (R202, R203). -/
def execIllegalInstruction (s : State) : Result :=
  .next (if s.atFetch s.inp.unit then (s.taken s.inp.unit).inSlot s.inp.unit State.badWord else s)

/-- CODE_END_FAULT (R204, R205). -/
def execCodeEndFault (s : State) : Result :=
  .next (if s.atFetch s.inp.unit then (s.taken s.inp.unit).inSlot s.inp.unit State.fetchFault else s)

/-- The dump of a stopped strand can be made: its accepted commands have completed (R451), and the quad is enabled (R293). -/
def State.dumpReady (s : State) (n : Nat) : Bool :=
  ((s.strand n).map (·.st)) = some .dumping && !(s.ops.any fun o => o.slot = n) && s.enabled (coreOf n)

/-- VECTOR_FAULT_DUMP (R451). -/
def execVectorFaultDump (s : State) : Result :=
  let n := s.inp.unit
  .next (if s.dumpReady n then s.inSlot n State.faultDump else s)

/-- WEIR_CLK (R292): the next clk, in which the weirs admit. -/
def execWeirClk (s : State) : Result := .next (s.tick 1)

/-- PULSE_FRAME (R293): the next frame begins, at a multiple of 16 clk. -/
def execPulseFrame (s : State) : Result := .next (s.tick (16 - s.clk % 16))

/-! ### A program placed for the next step -/

/-- Where `withFetchWord` puts its word: the boot context maps it to itself (R444). -/
def probeBase : Nat := 0x10000

/-- A strand of the kernel's context that stands at that address, in the code range of 64 KiB from there (R442). -/
def probeStrand : Strand :=
  { pc := BitVec.ofNat 64 probeBase, cur := true, bind := { codeBase := probeBase, codeSize := 65536 } }

/-- The four bytes of a word in memory, whatever the caches hold. -/
def State.placeWord (s : State) (w : Nat) : State :=
  let s := { s with cache := s.cache.drop (probeBase / 64), errs := s.errs.drop (probeBase / 16) }
  (((s.setRawByte probeBase (leByte w 0)).setRawByte (probeBase + 1) (leByte w 1)).setRawByte
    (probeBase + 2) (leByte w 2)).setRawByte (probeBase + 3) (leByte w 3)

/-- A strand placed in slot 0 at a word, in the boot context, with nothing before it in the agenda, and core 0 about to take
it (log entry 1). -/
def State.placeStrand (s : State) : State :=
  let s := s.setCore 0 { s.core 0 with lastSlot := 7, turnEnd := 0 }
  let s := s.setQuad 0 { s.quad 0 with eff := 0xFFFF }
  { s with agenda := [], cur := 0, ctxtabWritten := false, krSize := 0, strands := s.strands.put 0 probeStrand
           annex := { s.annex with suspState := 0 } }

/-! ### Turns that no agenda names -/

/-- The end of a stopped strand is not held up: its commands have completed, and its next child is ready (R277, R285). -/
def State.endReady (s : State) (n : Nat) (t : Strand) : Bool :=
  !(s.ops.any fun o => o.slot = n) && (t.doubled.isSome || (t.children.head?).all fun c => s.childReady c.slot)

/-- The dump of a strand waits for a lease on its area (R405). -/
def State.dumpHeld (s : State) (n : Nat) (t : Strand) : Bool :=
  !t.exl && t.areaOk (s.xframeOf n) && (s.leasedIn (s.xframeOf n) t.areaSize).isSome

/-- A slot may have a turn now: the strand that the front end takes, or one that a turn would move out of WAIT, END or a dump
(R273, R293). -/
def State.wantsTurn (s : State) (n : Nat) : Bool :=
  match s.strand n with
  | some t =>
    !s.halts t && s.enabled (coreOf n) && (match t.st with
      | .run => if t.doubled.isSome then s.endReady n t else s.frontNext (coreOf n) = some n
      | .wait w => t.yields || s.awaitHolds n t w
      | .join => false
      | .ended => s.endReady n t
      | .dumping => s.dumpReady n && !s.dumpHeld n t)
  | none => false

/-- The turn that comes next in this clk, when no agenda names one: the cores in order, each with its slots in turn (R273;
log entry 1). -/
def State.nextTurn (s : State) : Option Nat :=
  (List.range 192).findSome? fun core => (s.slotOrder core).find? s.wantsTurn


end Sys2Proof.Machine
end

