-- ==== Sys2Proof/Machine/Launch.lean ====
section
/-! DEFINITION. Launches (R132, R134 to R149): the record at the head of a queue, its signals, admission, root strands and
the copy engine; continuation pops (R281, R282), the end of a strand (R234, R278, R285, R448), retirement and the
completion record (R470 to R474, R477). -/
namespace Sys2Proof.Machine
open Sys2Proof

/-! ### The annex's own accesses -/

/-- The slot that stands for the annex while it acts for a queue (`id` 0) or for a launch (log entry 39). -/
def annexSlot (id q : Nat) : Nat := 1536 + 64 * id + q

/-- The annex's access has ended. -/
def State.leaveAnnex (s : State) (n cur : Nat) : State := { (s.dropOnce.freeSlot n) with cur := cur }

/-- An access of the annex in a context, checked as the context's strands are (R127): while it waits for the host or a peer
it is made again later. -/
def State.asAnnex {α : Type} (s : State) (n : Nat) (ctx : BitVec 16) (f : State → Res α) : Res α :=
  let t : Strand := (s.strand n).getD { ctxid := ctx, cur := ctx = 0 }
  let blocked := match t.st with
    | .wait w => if s.awaitHolds n t w then none else some w
    | _ => none
  match blocked with
  | some w => .wait w s
  | none =>
    match f { (s.setStrand n { t with st := .run }) with cur := n } with
    | .ok a s' => .ok a (s'.leaveAnnex n s.cur)
    | .trap c v s' => .trap c v (s'.leaveAnnex n s.cur)
    | .wait w s' => .wait w { (s'.waitOn w) with cur := s.cur }

/-- `n` bytes of one line, aligned, as a number. -/
def State.readWide (s : State) (va : Word) (n : Nat) : Res Nat :=
  (s.locate va n .read).bind fun p s => (s.readAt p va n).bind fun v s => .ok v.1 s

/-- `n` bytes of one line, as a number. -/
def State.readPart (s : State) (va : Word) (n : Nat) : Res Nat :=
  (s.locate va 1 .read).bind fun p s => (s.readAt p va n).bind fun v s => .ok v.1 s

/-- At most 64 bytes, which may lie in two lines, as a number. -/
def State.readPiece (s : State) (va : Word) (n : Nat) : Res Nat :=
  let m := min n (64 - va.toNat % 64)
  (s.readPart va m).bind fun a s =>
    if n = m then .ok a s
    else (s.readPart (va + BitVec.ofNat 64 m) (n - m)).bind fun b s => .ok (a + 256 ^ m * b) s

/-! ### The launch record -/

/-- The core at mesh coordinates (R26). -/
def coreAt (x y : Nat) : Nat := 16 * (x / 4 + 6 * (y / 4)) + 4 * (y % 4) + x % 4

/-- The cores of a rectangle in row-major order (R135, R136). -/
def Binding.cores (b : Binding) : List Nat :=
  (List.range b.h).flatMap fun j => (List.range b.w).map fun i => coreAt (b.x0 + i) (b.y0 + j)

/-- The refusal code of a record's own fields, or 0 (R134, R136, R137, R139). -/
def recordCode (v : Nat) : Nat :=
  let f (o n : Nat) : Nat := fieldAt v o n
  let x := f 4 1
  let y := f 5 1
  let w := f 6 1
  let h := f 7 1
  let sw := f 3 1
  let fr := f 0x20 4
  let sp := f 0x24 4
  let sig (k : Nat) : Nat := f (0x40 + 16 * k) 8
  if f 0 1 ≠ 1 then 1
  else if 24 ≤ x || 8 ≤ y || w = 0 || 24 < w || 24 < x + w || h = 0 || 8 < h || 8 < y + h then 2
  else if f 2 1 % 2 = 1 && (x % 2 = 1 || y % 2 = 1 || w % 2 = 1 || h % 2 = 1) then 3
  else if sw % 4 < sw / 4 % 4 || sw / 16 % 4 < sw % 4 || sw / 16 % 4 < sw / 4 % 4 then 4
  else if f 8 8 % 65536 ≠ 0 || f 0x10 4 < 4 || 67108864 < f 0x10 4 || f 0x10 4 % 4 ≠ 0 || f 0x14 4 % 4 ≠ 0 ||
      f 0x10 4 ≤ f 0x14 4 then 5
  else if f 0x18 8 % 8 ≠ 0 || f 0x28 8 % 16 ≠ 0 || f 0x30 8 % 128 ≠ 0 || f 0x38 8 % 32 ≠ 0 then 6
  else if f 1 1 / 4 ≠ 0 || f 2 1 / 4 ≠ 0 || sw / 64 ≠ 0 ||
      (List.range 4).any (fun k => sig k ≠ 0 && (sig k / 2 ^ 48 ≠ 0 || sig k / 2 % 4 ≠ 0)) then 7
  else if fr % 64 ≠ 0 || sp % 64 ≠ 0 || 268435456 < fr + sp then 8
  else 0

/-- A launch from its record (R134). -/
def parseLaunch (id q : Nat) (recno : BitVec 32) (ctx : BitVec 16) (v : Nat) : Launch :=
  let f (o n : Nat) : Nat := fieldAt v o n
  let word (o : Nat) : Word := BitVec.ofNat 64 (f o 8)
  let sw := f 3 1
  { id := id, queue := q, recno := recno, ctx := ctx
    bind :=
      { launch := id, ctx := ctx, codeBase := f 8 8, codeSize := f 0x10 4, prio := f 1 1 % 4, sw := BitVec.ofNat 2 sw
        swMin := BitVec.ofNat 2 (sw / 4), swMax := BitVec.ofNat 2 (sw / 16), x0 := f 4 1, y0 := f 5 1, w := f 6 1
        h := f 7 1, frameSz := f 0x20 4, spillSz := f 0x24 4, fuse := f 2 1 % 2 = 1 }
    entry := BitVec.ofNat 64 (f 8 8 + f 0x14 4), arg := word 0x18, compl := word 0x30, irq := f 2 1 / 2 % 2 = 1
    sigs := (List.range 4).filterMap fun k =>
      let s := word (0x40 + 16 * k)
      if s = 0 then none else some (s &&& ~~~(7 : Word), s.getLsbD 0, word (0x48 + 16 * k)) }

/-- The lower of two refusal codes, of which 0 is none (R139). -/
def lowerCode (a b : Nat) : Nat := if a = 0 then b else if b = 0 then a else min a b

/-- The area table from an address on (R135): its entries, and the lowest code that applies to one of them, 6 or 9. Every
entry is read (R139). -/
def State.readAreas (s : State) (va : Word) : Nat → Res (Nat × List (Word × Word))
  | 0 => .ok (0, []) s
  | n + 1 =>
    match s.readWide va 16 with
    | .wait w s => .wait w s
    | .trap _ _ s => (s.readAreas (va + 16) n).bind fun r s => .ok (lowerCode 9 r.1, r.2) s
    | .ok v s =>
      let c := if v % 2 ^ 64 % 64 ≠ 0 || v / 2 ^ 64 % 64 ≠ 0 then 6 else 0
      (s.readAreas (va + 16) n).bind fun r s =>
        .ok (lowerCode c r.1, (BitVec.ofNat 64 v, BitVec.ofNat 64 (v / 2 ^ 64)) :: r.2) s

/-- The walk of a copy chain (R147, R149): its descriptors, and 7 for a bad chain or 9 for a fault, either of which ends
the walk. -/
def State.walkChain (s : State) (va : Word) : Nat → Res (Nat × List CopyDesc)
  | 0 => .ok (7, []) s
  | n + 1 =>
    match s.readWide va 32 with
    | .wait w s => .wait w s
    | .trap _ _ s => .ok (9, []) s
    | .ok v s =>
      let fl := fieldAt v 0x14 4
      let d : CopyDesc := ⟨BitVec.ofNat 64 v, BitVec.ofNat 64 (fieldAt v 8 8), fieldAt v 0x10 4, fl % 2 = 1⟩
      if d.len = 0 || fl / 4 ≠ 0 || fieldAt v 0x18 8 ≠ 0 then .ok (7, []) s
      else if fl / 2 % 2 = 1 then .ok (0, [d]) s
      else (s.walkChain (va + 32) n).bind fun r s => .ok (r.1, d :: r.2) s

/-- What the annex finds of a record that is at the head: the lowest code that applies, or 0, with its areas and its copies
(R139). -/
def State.examine (s : State) (v : Nat) (b : Binding) : Res (Nat × List (Word × Word) × List CopyDesc) :=
  let c := recordCode v
  if 1 ≤ c && c ≤ 6 then .ok (c, [], []) s
  else
    let ccb : Word := BitVec.ofNat 64 (fieldAt v 0x38 8)
    (s.readAreas (BitVec.ofNat 64 (fieldAt v 0x28 8)) (b.w * b.h)).bind fun areas s =>
    (if ccb = 0 then .ok (0, []) s else s.walkChain ccb 256).bind fun chain s =>
      .ok (lowerCode c (lowerCode areas.1 chain.1), areas.2, chain.2) s

/-! ### Completion -/

/-- A launch of the annex, changed. -/
def State.modLaunch (s : State) (id : Nat) (f : Launch → Launch) : State :=
  s.modAnnex fun a => { a with launches := a.launches.map fun (x : Launch) => if x.id = id then f x else x }

/-- A launch of the annex, as it stands. -/
def State.withLaunch (s : State) (id : Nat) (f : Launch → State) : State :=
  match s.launchOf id with
  | some l => f l
  | none => s

/-- A launch leaves the annex. -/
def State.dropLaunch (s : State) (id : Nat) : State :=
  s.modAnnex fun a => { a with launches := a.launches.filter fun (x : Launch) => x.id ≠ id }

/-- MEANMHZ (R474). -/
def Launch.meanMhz (l : Launch) : Nat := if l.busy = 0 then 0 else 1100 * (l.busy - l.tpat - l.ttherm) / l.busy

/-- The 128 bytes of a completion record (R471), STATUS among them. A refused launch has one time (R472). -/
def Launch.record (l : Launch) (now : Word) : List Byte :=
  let time := if l.status = 2 then l.start else now
  bytesOf l.status 4 ++ bytesOf l.reason 1 ++ bytesOf 0 1 ++ bytesOf l.queue 2 ++ bytesOf l.recno.toNat 4 ++
  bytesOf l.reports 4 ++ bytesOf l.start.toNat 8 ++ bytesOf time.toNat 8 ++ bytesOf (l.energy / 1000) 8 ++
  bytesOf l.meanMhz 4 ++ bytesOf 0 4 ++ bytesOf l.busy 8 ++ bytesOf l.tweir 8 ++ bytesOf l.ttherm 8 ++
  bytesOf l.tcurr 8 ++ bytesOf l.thost 8 ++ bytesOf l.tpat 8 ++ bytesOf l.trefr 8 ++ bytesOf l.detail 8 ++ bytesOf 0 16

/-- The bytes of a list as a number, lowest first. -/
def leNumber (l : List Byte) : Nat := l.foldr (fun b a => a * 256 + b.toNat) 0

/-- The pieces of a completion record but STATUS (R473): offset and size. -/
def bodyPieces : List (Nat × Nat) := (4, 4) :: (List.range 15).map fun i => (8 * (i + 1), 8)

/-- The pieces in which a completion record is written (R473), STATUS last. -/
def recordPieces : List (Nat × Nat) := bodyPieces ++ [(0, 4)]

/-- The place of a later byte of the same page. -/
def Place.plus (p : Place) (o : Nat) : Place :=
  match p with
  | .dev pa => .dev (pa + o)
  | .plane pa => .plane (pa + o)
  | .spad c x => .spad c (x + o)
  | .host h => .host (h + o)
  | .vitrine pa g => .vitrine (pa + o) g
  | .peer d pa b g => .peer d (pa + o) b g

/-- Pieces of a record written at a place of this device or of the host. -/
def State.putPieces (s : State) (p : Place) (l : List Byte) (pieces : List (Nat × Nat)) : State :=
  pieces.foldl (fun s e => s.writeAt (p.plus e.1) e.2 (leNumber ((l.drop e.1).take e.2))) s

/-- The write of a completion record at a peer (R473): STATUS goes once the other fields have been performed there. -/
def State.writeRecordPeer (s : State) (l : Launch) (body : List Byte) (p : Place) (dv : BitVec 12) (pa : Nat) : Res Unit :=
  let put (s : State) (pieces : List (Nat × Nat)) : Res Unit :=
    s.writePeers (pieces.map fun e => (dv, pa + e.1, e.2, leNumber ((body.drop e.1).take e.2))) [(l.compl, p)]
      fun s => .ok () s
  if l.bodyDone then put s [(0, 4)]
  else (put s bodyPieces).bind fun _ s => put (s.modLaunch l.id fun l => { l with bodyDone := true }) [(0, 4)]

/-- The write of a completion record in its context (R473, R477): nothing of it is written unless all of it can be. A
misaligned COMPL cannot be written (log entry 47). -/
def State.writeRecord (s : State) (l : Launch) : Res Unit :=
  (s.locate l.compl 128 .write).bind fun p s =>
    match (s.writeWait p).or (s.writeWait (p.plus 64)) with
    | some w => .wait w s
    | none =>
      let l := (s.launchOf l.id).getD l
      let body := l.record s.aqtime
      match p with
      | .peer dv pa _ _ => s.writeRecordPeer l body p dv pa
      | p => .ok () (s.putPieces p body recordPieces)

/-- The head that was refused before its admission moves on (R139). -/
def State.passHead (s : State) (l : Launch) : State :=
  let x := s.lq l.queue
  if l.slots.isEmpty && x.head = l.recno then s.setLq l.queue { x with head := x.head + 1 } else s

/-- The report of a completion record that could not be written (R477). -/
def Launch.lost (l : Launch) (cause : BitVec 8) : Report :=
  { kind := 0x11, lq := l.queue, ctx := l.ctx.toNat, lrec := l.recno.toNat, addr := l.compl.toNat
    data := l.status + 2 ^ 32 * l.reason + 2 ^ 40 * cause.toNat }

/-- The basin of the core at (X0, Y0), or 0 off the mesh (R477). -/
def Binding.home (b : Binding) : Nat := if b.x0 < 24 && b.y0 < 8 then basinOf (coreAt b.x0 b.y0) else 0

/-- The completion record of a retired launch (R473, R477): written after the launch's writes to host pages have reached
the host, and then its vector; or the queue stops. -/
def State.complete (s : State) (l : Launch) : State :=
  match s.cleanReservoir.asAnnex (annexSlot l.id l.queue) l.ctx fun s => s.writeRecord l with
  | .ok _ s =>
    let s := (s.passHead l).dropLaunch l.id
    if l.irq then s.raiseMsix (s.lq l.queue).vec.toNat else s
  | .trap c _ s => ((s.stopQueue l.queue).report l.bind.home (l.lost c)).dropLaunch l.id
  | .wait _ s => s

/-- A queue that is served: enabled, and not stopped (R130, R133). That a clear of ERR alone, with EN still 1, serves the
queue again is the model's choice (log entry 81). -/
def State.serves (s : State) (q : Nat) : Bool := (s.lq q).en && !(s.lq q).err

/-- The completion record can be made: the links that its write-backs need are up (R111), and the interval of the supply
meters in which the launch last charged has ended (R475). -/
def State.canComplete (s : State) (l : Launch) : Bool := (s.awayPort fun _ => true).isNone && l.charged = 0

/-- COMPLETION_RECORD (R473). The refused head of a queue that has stopped stays (R133). -/
def execCompletionRecord (s : State) : Result :=
  .next (s.withLaunch s.inp.unit fun l =>
    if l.phase = .retired && (!l.slots.isEmpty || s.serves l.queue) && s.canComplete l then s.complete l else s)

/-- A launch after its refusal (R139, R472). -/
def Launch.refused (l : Launch) (code : Nat) (now : Word) : Launch :=
  { l with phase := .retired, status := 2, reason := code, start := now }

/-- A launch that the annex holds is refused (R139). -/
def State.refuse (s : State) (id code : Nat) : State :=
  let s := s.modLaunch id fun l => l.refused code s.aqtime
  s.withLaunch id fun l => if s.canComplete l then s.complete l else s

/-! ### Signals -/

/-- One read of every present signal: whether all match (R138). -/
def State.readSignals (s : State) : List (Word × Bool × Word) → Res Bool
  | [] => .ok true s
  | (a, ge, x) :: t =>
    (s.readWide a 8).bind fun v s =>
      (s.readSignals t).bind fun rest s => .ok (rest && (if ge then x.toNat ≤ v else decide (v = x.toNat))) s

/-- A round of reads of a head's signals (R138): once all match in one round it is runnable; a fault refuses it. -/
def State.signalRound (s : State) (l : Launch) : State :=
  match s.asAnnex (annexSlot l.id l.queue) l.ctx fun s => s.readSignals l.sigs with
  | .ok true s => s.modLaunch l.id fun l => { l with phase := .runnable none }
  | .ok false s => s
  | .trap _ _ s => s.refuse l.id 9
  | .wait _ s => s

/-- The launch at the head of a queue that is served, in a phase. -/
def State.headIn (s : State) (q : Nat) (p : Phase) : Option Launch :=
  if s.serves q then s.annex.launches.find? fun (l : Launch) => l.queue = q && l.phase = p else none

/-- SIGNAL_REREAD (R138): the home of a signal's line has reported a write. -/
def execSignalReread (s : State) : Result :=
  .next (match s.headIn s.inp.queue.toNat .waiting with
    | some l => s.signalRound l
    | none => s)

/-- SIGNAL_POLL (R138). -/
def execSignalPoll (s : State) : Result :=
  .next (match s.headIn s.inp.queue.toNat .waiting with
    | some l => s.signalRound l
    | none => s)

/-- The queue has a pending record at its head that the annex has not read (R129, R132). -/
def State.unreadHead (s : State) (q : Nat) : Bool :=
  s.ready && s.serves q && (s.lq q).head ≠ (s.lq q).tail &&
    !(s.annex.launches.any fun (l : Launch) => l.queue = q && l.slots.isEmpty)

/-- The 128 bytes of the record at the head of a queue, read in the queue's context (R127, R131). -/
def State.readSlot (s : State) (x : LaunchQueue) : Res Nat :=
  let va : Word := BitVec.ofNat 64 (x.base.toNat * 128 + 128 * (x.head.toNat % 2 ^ x.log2.toNat))
  (s.readWide va 64).bind fun a s => (s.readWide (va + 64) 64).bind fun b s => .ok (a + 2 ^ 512 * b) s

/-- A record that has been read is checked (R139): it is refused, or its signals are read. While the annex waits for a table
that the record names, the record is kept (R131). -/
def State.checkHead (s : State) (l : Launch) : State :=
  match s.asAnnex (annexSlot l.id l.queue) l.ctx fun s => s.examine l.raw l.bind with
  | .ok (0, areas, copies) s =>
    let s := s.modLaunch l.id fun l => { l with phase := .waiting, areas := areas, copies := copies }
    s.withLaunch l.id s.signalRound
  | .ok (code, _, _) s => s.refuse l.id code
  | .trap _ _ s => s
  | .wait _ s => s

/-- The report of a record that could not be read, so that no completion record of its refusal can be written (R139, R477):
what it holds of the record's fields is the model's choice (log entry 95). -/
def LaunchQueue.unread (x : LaunchQueue) (q : Nat) (cause : BitVec 8) : Report :=
  { kind := 0x11, lq := q, ctx := x.ctx.toNat, lrec := x.head.toNat, data := 2 + 2 ^ 40 * cause.toNat }

/-- LAUNCH_RECORD_HEAD (R131, R139): a record becomes head, is read once, is checked, and has its signals read. -/
def execLaunchRecordHead (s : State) : Result :=
  let q := s.inp.queue.toNat
  let x := s.lq q
  .next (match s.headIn q .reading with
    | some l => s.checkHead l
    | none =>
      if !s.unreadHead q then s
      else
        match s.asAnnex (annexSlot 0 q) x.ctx fun s => s.readSlot x with
        | .ok v s =>
          let l := { parseLaunch s.nextId q x.head x.ctx v with phase := .reading, raw := v }
          ({ s with nextId := s.nextId + 1 }.modAnnex fun a => { a with launches := a.launches ++ [l] }).checkHead l
        | .trap c _ s => (s.stopQueue q).report 0 (x.unread q c)
        | .wait _ s => s)

/-! ### Admission -/

/-- A core on which a launch may place its root: no strand, and no lane group or slot set aside (R140). -/
def State.coreFree (s : State) (core : Nat) : Bool :=
  (List.range 8).all (fun k => (s.strand (8 * core + k)).isNone) &&
    !(s.annex.launches.any fun (l : Launch) => l.phase = .copying && l.bind.cores.contains core)

/-- The resources of a launch are free (R140). -/
def State.fits (s : State) (l : Launch) : Bool :=
  l.bind.cores.all fun c => s.coreFree c && (s.quad (quadOf c)).fused = none

/-- The order of R132: higher priority first, then round-robin after the queue last admitted at that priority. Where none
has been admitted yet the rule names no start, and the order starts at queue 0: the model's choice (DESIGN CHOICE, log
entry 21). -/
def State.before (s : State) (a b : Launch) : Bool :=
  let place (l : Launch) : Nat := (l.queue + 127 - s.annex.rrobin.get 63 l.bind.prio) % 64
  b.bind.prio < a.bind.prio || (a.bind.prio = b.bind.prio && place a ≤ place b)

/-- A launch put into the order of consideration. -/
def State.insertHead (s : State) (l : Launch) : List Launch → List Launch
  | [] => [l]
  | x :: t => if s.before l x then l :: x :: t else x :: s.insertHead l t

/-- The place of a head's reservation, if it has one. -/
def Launch.place (l : Launch) : Option Nat :=
  match l.phase with
  | .runnable r => r
  | _ => none

def Launch.isRunnable (l : Launch) : Bool :=
  match l.phase with
  | .runnable _ => true
  | _ => false

/-- The runnable heads of the queues that are served, in their order (R132). -/
def State.runnables (s : State) : List Launch :=
  (s.annex.launches.filter fun (l : Launch) => l.isRunnable && s.serves l.queue).foldl
    (fun t l => s.insertHead l t) []

/-- A reservation placed before this head's own covers one of its cores (R141). That 'later' is later in time, whatever the
heads' priorities, and that a reservation stands while its queue is stopped, is the model's choice (log entry 82). -/
def State.reservedFrom (s : State) (l : Launch) : Bool :=
  s.annex.launches.any fun (x : Launch) => x.id ≠ l.id &&
    match x.place with
    | some k => (match l.place with
      | some j => decide (k < j)
      | none => true) && x.bind.cores.any fun c => l.bind.cores.contains c
    | none => false

/-- The root strand of a launch on a core (R143, R144): `i` is the core's place in row-major order. -/
def rootStrand (l : Launch) (i slot : Nat) : Strand :=
  let b := l.bind
  let a := l.areas.getD i (0, 0)
  let t : Strand :=
    { pc := l.entry, lgc := 3, sw := b.sw, ctxid := l.ctx, cur := l.ctx = 0, bind := b, root := true }
  ((((t.setG 1 l.arg).setG 2 (a.1 + BitVec.ofNat 64 ((slot % 8 + 1) * b.frameSz))).setG 3
    (a.2 + BitVec.ofNat 64 (slot % 8 * b.spillSz))).setG 4 (BitVec.ofNat 64 i)).setG 5
    (BitVec.ofNat 64 (i % b.w + 256 * (i / b.w) + 65536 * b.w + 16777216 * b.h))

/-- A strand starts in a slot: a wider slice takes banks of the core's L1D (R243). -/
def State.startStrand (s : State) (n : Nat) (t : Strand) : State :=
  (s.setStrand n t).relend (coreOf n) (s.lent (coreOf n))

/-- The context descriptor of a strand that starts is read: the start takes its fault (R152; log entry 61). -/
def State.startContext (s : State) (n : Nat) : State :=
  s.inSlot n fun s =>
    match s.ctxBad s.self.ctxid with
    | some c => s.ctxTrap c s.self.pc
    | none => s

/-- Every root strand starts in one clk (R143). -/
def State.startRoots (s : State) (l : Launch) : State :=
  let s := (l.slots.zipIdx).foldl (fun s e => s.startStrand e.1 (rootStrand l e.2 e.1)) s
  (l.slots.foldl State.startContext s).modLaunch l.id fun x => { x with phase := .running, live := l.slots.length }

/-- The quads of a rectangle. -/
def Binding.quads (b : Binding) : List Nat := b.cores.map quadOf

/-- The cores of a quad (R26). -/
def quadCores (q : Nat) : List Nat := (List.range 4).map (quadCore (q / 4 * 16 + q % 4 / 2 * 8 + q % 2 * 2))

/-- A quad fused for a launch, or released: its L1Ds are written back and invalidated first (R142). -/
def State.fuseQuad (s : State) (q : Nat) (owner : Option Nat) : State :=
  let s := (quadCores q).foldl (fun s core => s.emptyUnit (9 * core) 0) s
  s.setQuad q { s.quad q with fused := owner }

/-- The quads of a FUSE launch fused, or released (R142). -/
def State.fuse (s : State) (l : Launch) (owner : Option Nat) : State :=
  if l.bind.fuse then l.bind.quads.foldl (fun s q => s.fuseQuad q owner) s else s

/-- A launch admitted whole (R140, R143): HEAD advances, its slots are taken, and its phase-0 copies or its root strands
come next. The spec does not say which free slot of a core is its reserved one; a core that may be admitted to holds no
strand, and slot 0 is the model's choice (DESIGN CHOICE, log entry 66). -/
def State.admitLaunch (s : State) (l : Launch) : State :=
  let x := s.lq l.queue
  let l := { l with phase := .copying, start := s.aqtime, slots := l.bind.cores.map (8 * ·) }
  let s := (s.setLq l.queue { x with head := x.head + 1 }).modAnnex fun a =>
    { a with rrobin := a.rrobin.set 63 l.bind.prio l.queue }
  let s := (s.modLaunch l.id fun _ => l).fuse l (some l.id)
  if l.copies.any fun d => !d.late then s else s.startRoots l

/-- The scheduler considers the heads in order: the first that may be admitted is, and those before it reserve their
cores (R141). -/
def State.schedule (s : State) : List Launch → State
  | [] => s
  | l :: t =>
    if !s.reservedFrom l && s.fits l then s.admitLaunch l
    else
      match l.place with
      | some _ => s.schedule t
      | none =>
        State.schedule ({ s with nextId := s.nextId + 1 }.modLaunch l.id fun x => { x with phase := .runnable (some s.nextId) }) t

/-- ADMISSION (R143): while the device suspends, admission stops (R466). -/
def execAdmission (s : State) : Result :=
  .next (if s.ready && s.annex.suspState < 2 then s.schedule s.runnables else s)

/-! ### The copy engine -/

/-- The pieces of a descriptor from byte `k` on (R148): one destination line at a time, each read before it is written.
What has been copied is kept with the launch. -/
def State.copyFrom (s : State) (id : Nat) (d : CopyDesc) (k : Nat) : Nat → Res Unit
  | 0 => .ok () s
  | fuel + 1 =>
    if d.len ≤ k then .ok () s
    else
      let dst := d.dst + BitVec.ofNat 64 k
      let n := min (d.len - k) (64 - dst.toNat % 64)
      (s.readPiece (d.src + BitVec.ofNat 64 k) n).bind fun v s =>
      (s.locate dst 1 .write).bind fun p s =>
      (s.storeAt dst p n v).bind fun _ s =>
        let s := s.modLaunch id fun l => { l with copied := k + n }
        s.dropOnce.copyFrom id d (k + n) fuel

/-- The next descriptor of a phase from place `i` on. -/
def nextCopy (late : Bool) (i : Nat) : List CopyDesc → Option (Nat × CopyDesc)
  | [] => none
  | d :: t => if d.late = late then some (i, d) else nextCopy late (i + 1) t

/-- The phase of a launch ends (R143, R146). -/
def State.phaseEnds (s : State) (l : Launch) : State :=
  if l.phase = .copying then s.startRoots l else s.modLaunch l.id fun l => { l with phase := .retired }

/-- The launch after a phase-1 copy faulted (R149, R471): a strand fault goes before it. -/
def Launch.copyFault (l : Launch) (i : Nat) (c : BitVec 8) : Launch :=
  if l.status = 4 then { l with phase := .retired }
  else { l with phase := .retired, status := 3, detail := i + 256 * c.toNat }

/-- The next descriptor of a launch's running phase is copied whole (R148, R149). -/
def State.copyNext (s : State) (l : Launch) : State :=
  let late : Bool := l.phase = .leaving
  match nextCopy late l.next (l.copies.drop l.next) with
  | none => s.phaseEnds l
  | some (i, d) =>
    match s.asAnnex (annexSlot l.id l.queue) l.ctx fun s => s.copyFrom l.id d l.copied (d.len / 64 + 2) with
    | .ok _ s =>
      let s := s.modLaunch l.id fun l => { l with next := i + 1, copied := 0 }
      if (nextCopy late (i + 1) (l.copies.drop (i + 1))).isNone then s.phaseEnds l else s
    | .trap c _ s => if late then s.modLaunch l.id fun l => l.copyFault i c else (s.fuse l none).refuse l.id 9
    | .wait _ s => s

/-- COPY_DESCRIPTOR_COMPLETE (R148, R149). -/
def execCopyDescriptorComplete (s : State) : Result :=
  .next (s.withLaunch s.inp.unit fun l => if l.phase = .copying || l.phase = .leaving then s.copyNext l else s)

/-- No strand of a launch holds a slot, and none of its records goes on (R470). -/
def State.allEnded (s : State) (l : Launch) : Bool :=
  l.live = 0 && !(s.strands.any fun e => e.1 < 1536 && e.2.bind.launch = l.id)

/-- LAUNCH_RETIREMENT (R146, R470). -/
def execLaunchRetirement (s : State) : Result :=
  .next (s.withLaunch s.inp.unit fun l =>
    if l.phase = .running && s.allEnded l then
      s.modLaunch l.id fun l => { l with next := 0, copied := 0,
                                         phase := if l.copies.any fun d => d.late then .leaving else .retired }
    else s)

/-! ### Continuations -/

/-- The queues of a basin that hold records. -/
def State.fullQueues (s : State) (basin : Nat) : List Nat :=
  (List.range 4).filter fun p =>
    let q := (s.basin basin).cq.get {} p
    s.ringOk basin q && q.head ≠ q.tail

/-- The queue that the next pop takes (R281): the one chosen before, while its record could not be placed. -/
def State.popQueue (s : State) (basin : Nat) : Option Nat :=
  let l := s.fullQueues basin
  match (s.basin basin).chosen.filter l.contains with
  | some p => some p
  | none =>
    match l.find? fun p => 61 ≤ ((s.basin basin).cq.get {} p).skip with
    | some p => some p
    | none => l.getLast?

/-- The lane groups of a core that are owned, or set aside by an admitted launch (R271). -/
def State.laneOwned (s : State) (core g : Nat) : Bool :=
  (List.range 8).any (fun k =>
    match s.strand (8 * core + k) with
    | some t => t.lgbase.toNat ≤ g && g < t.lgbase.toNat + 2 ^ t.lgc.toNat
    | none => false) ||
  s.annex.launches.any fun (l : Launch) => l.phase = .copying && l.bind.cores.contains core

/-- The lowest aligned set of 2^n unowned lane groups of a core. -/
def State.freeLanes (s : State) (core n : Nat) : Option Nat :=
  ((List.range (8 / 2 ^ n)).map (2 ^ n * ·)).find? fun b => (List.range (2 ^ n)).all fun i => !s.laneOwned core (b + i)

/-- A record of a launch may run in a quad (R282): not in one fused for another launch, and a record of a FUSE launch only
in one fused for its own. -/
def State.quadTakes (s : State) (core : Nat) (b : Binding) : Bool :=
  (s.quad (quadOf core)).fused = if b.fuse then some b.launch else none

/-- Where a record goes (R282): the lowest core of its launch in the basin with a FREE slot and lane groups. -/
def State.placeFor (s : State) (basin : Nat) (b : Binding) (n : Nat) : Option (Nat × Nat) :=
  ((List.range 16).map (16 * basin + ·)).findSome? fun core =>
    if b.cores.contains core && s.quadTakes core b then
      (s.lowestFree core).bind fun slot => (s.freeLanes core n).map fun g => (slot, g)
    else none

/-- The binding that bytes 32 to 63 of an entry hold (R280); what they do not hold is the launch's. -/
def bindingOf (v : Nat) (l : Launch) : Binding :=
  { l.bind with
    launch := fieldAt v 0 6, ctx := BitVec.ofNat 16 (fieldAt v 6 2), codeBase := fieldAt v 8 6 * 65536
    codeSize := fieldAt v 14 4, sw := BitVec.ofNat 2 (fieldAt v 18 1), x0 := fieldAt v 19 1, y0 := fieldAt v 20 1
    w := fieldAt v 21 1, h := fieldAt v 22 1, frameSz := fieldAt v 23 4, spillSz := fieldAt v 27 4 }

/-- The strand of a record (R282). -/
def State.recordStrand (s : State) (v : Nat) (b : Binding) (slot lanes : Nat) : Strand :=
  let lgc := fieldAt v 0x18 1 % 4
  let core := coreOf slot
  let t : Strand :=
    { pc := BitVec.ofNat 64 v, lgc := BitVec.ofNat 3 lgc, lgbase := BitVec.ofNat 3 lanes, sw := b.sw, ctxid := b.ctx
      cur := b.ctx = 0, bind := b, join := BitVec.ofNat 64 (fieldAt v 0x10 8) }
  let t := { t with vn := min (fieldAt v 0x1C 4) (t.vlen / 8) }
  let a := s.areaOf t slot
  let dx := meshX core - b.x0
  let dy := meshY core - b.y0
  ((((t.setG 1 (BitVec.ofNat 64 (fieldAt v 8 8))).setG 2 a.1).setG 3 a.2).setG 4 (BitVec.ofNat 64 (dy * b.w + dx))).setG 5
    (BitVec.ofNat 64 (dx + 256 * dy + 65536 * b.w + 16777216 * b.h))

/-- The counters of the queues after a pop from queue `p` (R281). -/
def popped (cq : Table ContQueue) (p : Nat) : Table ContQueue :=
  (List.range 4).foldl (fun t k =>
    let q := t.get {} k
    let q := if k = p then { q with head := q.head + 1, skip := 0 }
      else if q.head = q.tail then { q with skip := 0 }
      else if k < p then { q with skip := q.skip + 1 } else q
    t.set {} k q) cq

/-- The entry that the next pop of a queue reads (R280). -/
def ContQueue.headAt (q : ContQueue) : Nat := q.base.toNat * 4096 + 64 * (q.head.toNat % 2 ^ q.log2n.toNat)

/-- A quad that its launch has no further strand for: none runs there, and the basin holds no record of the launch that
could start there (R142, R282). -/
def State.quadDone (s : State) (q id : Nat) : Bool :=
  let queued (p : Nat) : Bool :=
    let c := (s.basin (q / 4)).cq.get {} p
    (List.range (c.tail - c.head).toNat).any fun i =>
      fieldAt (s.readCo ({ c with head := c.head + BitVec.ofNat 32 i }.headAt + 32) 32) 0 6 = id
  !(s.strands.any fun e => e.2.bind.launch = id && e.1 < 1536 && quadOf (coreOf e.1) = q) &&
    !((List.range 4).any queued) && !((s.launchOf id).any fun l => l.phase = .copying)

/-- The quads of a basin whose launch has ended there are written back, invalidated and fused no more (R142). -/
def State.unfuse (s : State) (basin : Nat) : State :=
  ((List.range 4).map (4 * basin + ·)).foldl (fun s q =>
    match (s.quad q).fused with
    | some id => if s.quadDone q id then s.fuseQuad q none else s
    | none => s) s

/-- One pop of a basin (R281, R282): the record is popped only when it can be placed, and until then no other is. An entry
whose binding names no launch is consumed (log entry 67). -/
def State.pop (s : State) (basin : Nat) : State :=
  match s.popQueue basin with
  | none => s
  | some p =>
    let b := s.basin basin
    let at_ := (b.cq.get {} p).headAt
    let v := s.readCo at_ 32
    let w := s.readCo (at_ + 32) 32
    let s' := s.setBasin basin { b with cq := popped b.cq p, chosen := none }
    match s.launchOf (fieldAt w 0 6) with
    | none => s'
    | some l =>
      let bind := bindingOf w l
      match s.placeFor basin bind (fieldAt v 0x18 1 % 4) with
      | none => s.setBasin basin { b with chosen := some p }
      | some (slot, g) => ((s'.startStrand slot (s.recordStrand v bind slot g)).startContext slot).unfuse basin

/-- CONTINUATION_POP (R281): while the device suspends, pops stop (R466). -/
def execContinuationPop (s : State) : Result :=
  .next (if s.inp.unit < 12 && s.annex.suspState < 2 then s.pop s.inp.unit else s)

/-! ### The end of a strand -/

/-- A strand or record of a launch has ended (R146). -/
def State.leaveLaunch (s : State) (id : Nat) : State :=
  s.modAnnex fun a => { a with launches := a.launches.map fun (l : Launch) =>
    if l.id = id then { l with live := l.live - 1 } else l }

/-- The slot and its lane groups become FREE (R285, R362). -/
def State.vacate (s : State) (n : Nat) : State := (((s.releaseLocks n).leaveWeir n).freeSlot n).unfuse (basinOf (coreOf n))

/-- A record has ended: its slot is free, and its launch has one less. -/
def State.finishRecord (s : State) (n : Nat) (t : Strand) : State := (s.vacate n).leaveLaunch t.bind.launch

/-- The strand is an unjoined child of a strand that goes on. -/
def State.hasParent (s : State) (n : Nat) (t : Strand) : Bool :=
  match t.parent.bind s.strand with
  | some p => p.doubled.isNone && p.children.any fun c => c.slot = n
  | none => false

/-- The end of a strand that a double trap stopped (R448): a child enters JOIN for its parent, a child of a strand that
ends with it goes, and a record makes its `cjoin` if that does not fail. -/
def State.endDoubled (s : State) (n : Nat) (t : Strand) : State :=
  if s.hasParent n t then s.setStrand n t.enterJoin
  else if t.parent.isSome then s.vacate n
  else if t.join = 0 then s.finishRecord n t
  else
    match State.joinCounter { s with cur := n } t.join with
    | .ok _ s' => { s' with cur := s.cur }.finishRecord n t
    | .trap _ _ _ => s.finishRecord n t
    | .wait w s' => { s'.waitOn w with cur := s.cur }

/-- The end of a strand after `halt` or `cend` (R234, R277, R278, R285): its children first, then its `cjoin`, whose
failure traps at the `halt` or `cend`. A `cjoin` that waits is made again from the `halt` or `cend`, which the weir has
admitted. -/
def State.endNormal (s : State) (n : Nat) (t : Strand) : State :=
  match t.children with
  | c :: _ => if s.childReady c.slot then s.inSlot n fun s => s.joinChild c else s
  | [] =>
    if t.parent.isSome then s.setStrand n t.enterJoin
    else if t.join = 0 then s.finishRecord n t
    else
      match State.joinCounter { s with cur := n } t.join with
      | .ok _ s' => { s' with cur := s.cur }.finishRecord n t
      | .trap c v s' => { s'.scalarFault c v true with cur := s.cur }
      | .wait w s' => { (s'.waitOn w).modSelf fun t => { t with weirPass := some 1 } with cur := s.cur }

/-- STRAND_END (R285): once the strand's accepted commands have completed. -/
def execStrandEnd (s : State) : Result :=
  let n := s.inp.unit
  .next (match s.strand n with
    | some t =>
      if s.ops.any fun o => o.slot = n then s
      else if t.doubled.isSome then (if t.st = .ended || t.st = .run then s.endDoubled n t else s)
      else if t.st = .ended then s.endNormal n t else s
    | none => s)

end Sys2Proof.Machine
end

