-- ==== Sys2Proof/Machine/Peers.lean ====
section
/-! DEFINITION. What reaches this device over the Aqueduct: messages of peers (R409, R429, R432, R433, R435 to R441), the
failure of a transfer (R434), cast fetches (R436), the expiry of leases (R405, R407), the timeout of a collective step
(R441), and time synchronisation (R430). -/
namespace Sys2Proof.Machine
open Sys2Proof

/-! ### The owner's side -/

/-- A message that is not dropped (R429). -/
def State.admits (s : State) (m : AqMsg) : Bool :=
  let e := s.peerEntry m.dev
  s.ptabEn && e.getLsbD 63 && e.extractLsb' 40 22 = 0 && e.extractLsb' 16 8 = 0 && e.extractLsb' 0 16 = m.inc

/-- How many lines of data an answer brings, which go by the peer's ports in turn (R428). -/
def dataLines : AqBody → Nat
  | .lineData _ _ _ _ => 1
  | .linesData _ l => l.length
  | _ => 0

/-- An answer to the sender of a message. -/
def State.answer (s : State) (m : AqMsg) (b : AqBody) : State :=
  let k := s.aqTurn.get 0 m.dev.toNat
  if dataLines b = 0 then s.sendAq m.dev 0 b
  else { s with aqTurn := s.aqTurn.set 0 m.dev.toNat (k + dataLines b) }.sendAq m.dev k b

/-- An address that a peer may name: this device's memory or a scratchpad (R156, R434). -/
def State.owns (s : State) (pa : Nat) : Bool := s.isTableMem pa || isSpad pa

/-- An address that a peer may write: no part of a frame that is OPEN or SEALED (R157). -/
def State.ownsPlain (s : State) (pa : Nat) : Bool := s.owns pa && (s.frame (pa / 65536)).state = 0

/-- A line as its owner serves it (R357, R417, R432): the bytes of a vitrine page above its pointer are 0; none when it
cannot be delivered correct (R459). -/
def State.serveLine (s : State) (pa : Nat) : Option (BitVec 512) × State :=
  let f := s.frame (pa / 65536)
  if 2 ^ 40 ≤ pa then (some (s.localLine pa), s)
  else if s.lostAt pa 64 then (none, s.report (paBasin pa) { kind := 3, addr := pa })
  else
    let byte (a : Nat) : Byte := if f.state ≠ 0 && f.ptr ≤ a % 65536 then 0 else s.localByte a
    (some (BitVec.ofNat 512 (leRead byte pa 64)), s.corrected (s.migRead pa) 64)

/-- The named bytes of a line written for a peer. -/
def State.takeLine (s : State) (pa : Nat) (d : BitVec 512) (bytes : BitVec 64) : State :=
  (List.range 64).foldl (fun s i => if bytes.getLsbD i then s.putLocal (pa + i) 1 (lineByte d i).toNat else s) s

/-- A lease granted on a line (R405), with the time at which it ends: within 50 µs, and left open by the spec (log entry
46). -/
def State.grantLease (s : State) (dv : BitVec 12) (line : Nat) : Nat × State :=
  let n := s.aqNow + (Config.freeWord s.freeCtr).toNat % 50001
  (n, { s with freeCtr := s.freeCtr + 1, granted := ⟨dv, line, n, s.clk⟩ :: s.granted })

/-- The links of a peer's strands set on a line (R411). -/
def State.setLinks (s : State) (dv : BitVec 12) (line : Nat) (names : List Nat) : State :=
  { s with rlinks := (s.rlinks.filter fun e => !(e.1 = dv && names.contains e.2.1)) ++
             names.map fun n => (dv, n, line) }

/-- A read of a vitrine page that its owner does not serve: the page is FREE, or of another generation (R174). -/
def State.staleRead (s : State) (pa : Nat) (gen : Option (BitVec 16)) : Bool :=
  let f := s.frame (pa / 65536)
  gen.any fun g => f.state = 0 || f.gen ≠ g

/-- A peer reads a line (R174, R405, R411): with a lease while the time is synchronised, and none on a vitrine page. -/
def State.serveRead (s : State) (m : AqMsg) (pa : Nat) (lease : Bool) (links : List Nat) (gen : Option (BitVec 16))
    (tok : Nat) : State :=
  if !s.owns pa then s.answer m (.nack tok 4)
  else if s.staleRead pa gen then s.answer m (.homeResult tok 0 causeStaleCast)
  else
    let r := s.serveLine pa
    let s := r.2.setLinks m.dev (pa / 64) links
    if lease && s.aqSync && (s.frame (pa / 65536)).state = 0 then
      let g := s.grantLease m.dev (pa / 64)
      g.2.answer m (.lineData tok (r.1.getD 0) (some g.1) r.1.isNone)
    else s.answer m (.lineData tok (r.1.getD 0) none r.1.isNone)

/-- A peer writes bytes of a line: it waits for the leases on the line, and is then performed and acknowledged (R405,
R432). -/
def State.serveWrite (s : State) (m : AqMsg) (pa : Nat) (d : BitVec 512) (bytes : BitVec 64) (tok : Nat) : State :=
  if !s.ownsPlain pa then s.answer m (.nack tok 4)
  else if s.leased (pa / 64) then s
  else (s.takeLine pa d bytes).answer m (.ack tok)

/-- A peer's store to several lines of this device, performed at one point (R399, R406). -/
def State.serveWrites (s : State) (m : AqMsg) (l : List (BitVec 52 × BitVec 512 × BitVec 64)) (tok : Nat) : State :=
  let at_ (e : BitVec 52 × BitVec 512 × BitVec 64) : Nat := e.1.toNat / 64 * 64
  if l.any fun e => !s.ownsPlain (at_ e) then s.answer m (.nack tok 4)
  else if l.any fun e => s.leased (at_ e / 64) then s
  else (l.foldl (fun s e => s.takeLine (at_ e) e.2.1 e.2.2) s).answer m (.ack tok)

/-- The add of a signal (R433). -/
def State.serveAdd (s : State) (m : AqMsg) (pa : Nat) (addend : Word) (tok : Nat) : State :=
  if !s.ownsPlain pa then s.answer m (.nack tok 4)
  else if s.leased (pa / 64) then s
  else
    let v := leRead s.localByte pa 8
    (s.putLocal pa 8 ((v + addend.toNat) % 2 ^ 64)).answer m (.ack tok)

/-- A conditional store at the owner (R413): 64 bytes of a line and 8 of a mask, under the link of that name. -/
def State.serveStore (s : State) (m : AqMsg) (pa : Nat) (data : List Byte) (link tok : Nat) : State :=
  if !s.ownsPlain pa then s.answer m (.nack tok 4)
  else if !s.rlinks.contains (m.dev, link, pa / 64) then s.answer m (.homeResult tok 0 0)
  else if s.leased (pa / 64) then s
  else
    let v := data.foldr (fun b a => a * 256 + b.toNat) 0
    (s.takeLine pa (BitVec.ofNat 512 v) (BitVec.ofNat 64 (v / 2 ^ 512))).answer m (.homeResult tok 1 0)

/-- The lines of a peer's load, read at one point (R398, R414). -/
def State.serveLines (s : State) (m : AqMsg) (l : List (BitVec 52 × List Nat × Option (BitVec 16))) (tok : Nat) : State :=
  let at_ (e : BitVec 52 × List Nat × Option (BitVec 16)) : Nat := e.1.toNat / 64 * 64
  if l.any fun e => !s.owns (at_ e) then s.answer m (.nack tok 4)
  else if l.any fun e => s.staleRead (at_ e) e.2.2 then s.answer m (.homeResult tok 0 causeStaleCast)
  else
    let r := l.foldl (fun (a : List (BitVec 512 × Bool) × State) e =>
      let x := a.2.serveLine (at_ e)
      (a.1 ++ [(x.1.getD 0, x.1.isNone)], x.2.setLinks m.dev (at_ e / 64) e.2.1)) ([], s)
    r.2.answer m (.linesData tok r.1)

/-- The lines of a peer's conditional store, each written if its link is intact, all at one point (R399, R415). -/
def State.serveStores (s : State) (m : AqMsg) (l : List (BitVec 52 × BitVec 512 × BitVec 64 × Nat)) (tok : Nat) : State :=
  let at_ (e : BitVec 52 × BitVec 512 × BitVec 64 × Nat) : Nat := e.1.toNat / 64 * 64
  let ok (e : BitVec 52 × BitVec 512 × BitVec 64 × Nat) : Bool := s.rlinks.contains (m.dev, e.2.2.2, at_ e / 64)
  if l.any fun e => !s.ownsPlain (at_ e) then s.answer m (.nack tok 4)
  else if l.any fun e => ok e && s.leased (at_ e / 64) then s
  else ((l.filter ok).foldl (fun s e => s.takeLine (at_ e) e.2.1 e.2.2.1) s).answer m (.storeResults tok (l.map ok))

/-- The read-modify-writes of a counter for a peer's `cjoin` (R284): 6 takes it down by one unless it is 1, 7 makes it 0 if
it is 1. -/
def State.serveCount (s : State) (m : AqMsg) (pa op tok : Nat) : State :=
  if !s.ownsPlain pa then s.answer m (.nack tok 4)
  else if s.leased (pa / 64) then s
  else
    let v := leRead s.localByte pa 4
    let s := if op = 6 && v ≠ 1 then s.putLocal pa 4 ((v + 2 ^ 32 - 1) % 2 ^ 32)
      else if op = 7 && v = 1 then s.putLocal pa 4 0 else s
    s.answer m (.homeResult tok (BitVec.ofNat 64 v) 0)

/-- The result of a command on a vitrine page. -/
def State.accessed (m : AqMsg) (tok : Nat) (r : Accession × State) : State :=
  r.2.answer m (.homeResult tok r.1.value r.1.cause)

/-- A cast fetch at the owner (R436): a sealed page of that generation with its contents, else no data. A page with a
codeword that cannot be delivered correct fails the fetch (R459). -/
def State.serveCast (s : State) (m : AqMsg) (pa : Nat) (gen : BitVec 16) (tok : Nat) : State :=
  let f := s.frame (pa / 65536)
  if f.state ≠ 2 || f.gen ≠ gen then s.answer m (.castData tok (.notSealed f.gen (f.state = 1)))
  else if s.frameLost (pa / 65536) then
    (s.report (paBasin pa) { kind := 3, addr := pa }).answer m (.castData tok .failed)
  else s.answer m (.castData tok (.sealed f.gen f.ptr ((List.range f.ptr).map fun i => s.homeByte (pa + i))))

/-- A command performed at the owner's home (R175, R284, R411, R418 to R421, R436). -/
def State.serveHome (s : State) (m : AqMsg) (pa : Nat) (gen : BitVec 16) (op n : Nat) (data : List Byte)
    (link tok : Nat) : State :=
  if op = 4 then s.serveStore m pa data link tok
  else if 6 ≤ op then s.serveCount m (pa / 8 * 8) op tok
  else if !s.isTableMem pa then s.answer m (.nack tok 4)
  else if op = 0 then State.accessed m tok (s.accede pa gen n data)
  else if op = 1 then State.accessed m tok (s.sealFrame pa gen)
  else if op = 2 then State.accessed m tok (s.querySeal pa gen)
  else if op = 3 then s.answer m (.homeResult tok ((s.frame (pa / 65536)).gen.setWidth 64) 0)
  else s.serveCast m (pa / 65536 * 65536) gen tok

/-! ### Answers -/

/-- The strand that waits for an answer with a token, and the answer's place. -/
def State.asker (s : State) (tok : Nat) : Option (Nat × Strand × Nat) :=
  s.strands.findSome? fun e =>
    match e.2.st with
    | .wait (.peer t n _) => if t ≤ tok && tok < t + n then some (e.1, e.2, tok - t) else none
    | .wait (.fill t _) => if t = tok then some (e.1, e.2, 0) else none
    | _ => none

/-- What an answer leaves with the strand that waits for it: a walk notes the generation, or that there is none (R175); an
instruction notes the value and the cause. -/
def Strand.told (t : Strand) (i : Nat) (v : Word) (cause : BitVec 8) : Strand :=
  match t.st with
  | .wait (.fill _ page) => { t with genRead := some (page, if cause = 0 then some (v.extractLsb' 0 16) else none) }
  | _ => { t with answers := t.answers.put i (v, cause) }

/-- A strand's message has its answer. -/
def State.answered (s : State) (tok : Nat) (v : Word) (cause : BitVec 8) : State :=
  match s.asker tok with
  | some (n, t, i) => s.setStrand n (t.told i v cause)
  | none => s

/-- A list of answers from a number on. -/
def State.answeredAll (s : State) (tok : Nat) : List Word → State
  | [] => s
  | v :: l => (s.answered tok v 0).answeredAll (tok + 1) l

/-- A message of a strand has failed (R434): AQSTAT, the report, and no answer but an access fault (log entry 30). -/
def State.failMessage (s : State) (tok : Nat) (cause : Nat) : State :=
  match s.asker tok with
  | some (n, t, i) =>
    let t' := (t.aqFailed cause).told i 0 causeAccess
    (s.setStrand n t').strandReport n t' { kind := 0x0C }
  | none => s

/-- How many numbers the message with a number names: the lines of a conditional store (R415), else one. -/
def State.tokSpan (s : State) (tok : Nat) : Nat :=
  (s.out.findSome? fun o =>
    match o with
    | .aq _ _ _ _ (.storeLines l t) => if t = tok then some l.length else none
    | _ => none).getD 1

/-- The command and the line that a token of an engine names. -/
def State.opOfTok (s : State) (tok : Nat) : Option (EngineOp × Nat) :=
  if tok < 2 ^ 64 then none else (s.op (tok / 2 ^ 64 - 1)).map fun o => (o, tok % 2 ^ 64)

/-- A transfer with its lines replaced; with all of them done it completes (R432). -/
def State.withLines (s : State) (o : EngineOp) (w : Work) (l : List AqLine) : State :=
  if l.all fun x => x.done then s.finishOp o else s.setOp { o with work := w }

/-- An acknowledgement (R432, R433). -/
def State.acked (s : State) (tok : Nat) : State :=
  match s.opOfTok tok with
  | some (o, i) =>
    (match o.work with
     | .put dv l => s.withLines o (.put dv (markDone l i)) (markDone l i)
     | .sig _ _ _ _ => s.finishOp o
     | _ => s)
  | none => s.answered tok 0 0

/-- The line that this device asked for with a token. -/
def State.askedLine (s : State) (tok : Nat) : Option Nat :=
  s.out.findSome? fun o =>
    match o with
    | .aq _ _ _ _ (.readLine pa _ _ _ t) => if t = tok then some (pa.toNat / 64) else none
    | _ => none

/-- The strand in a slot has what it waited for. -/
def State.proceed (s : State) (n : Nat) : State :=
  match s.strand n with
  | some t => s.setStrand n { t with st := .run }
  | none => s

/-- The unit that takes the copy a strand asked for (R305). -/
def Await.unit : Await → Nat
  | .peer _ _ u => u
  | _ => 0

/-- The lines that this device asked one owner for with a token. -/
def State.askedLines (s : State) (tok : Nat) : List Nat :=
  (s.out.findSome? fun o =>
    match o with
    | .aq _ _ _ _ (.readLines l t) => if t = tok then some (l.map fun e => e.1.toNat / 64) else none
    | _ => none).getD []

/-- The copy of a line that a peer served to the strand in a slot (R405, R430): in the unit that asked while its lease
runs, or for this access alone. -/
def State.copyFor (s : State) (n : Nat) (w : Await) (dv : BitVec 12) (line : Nat) (d : BitVec 512) (poisoned : Bool)
    (lease : Option Nat) : PeerLine :=
  match (if s.aqSync then lease else none) with
  | some x => ⟨dv, line, d, poisoned, none, w.unit, x, s.bankFor w.unit line⟩
  | none => ⟨dv, line, d, poisoned, some n, w.unit, 0, 0⟩

/-- A copy taken in, in place of the one that it renews. -/
def State.addPeer (s : State) (p : PeerLine) : State :=
  let renews := s.peer.any fun x => x.dev = p.dev && x.line = p.line && x.once = p.once && x.holder = p.holder
  let s := if p.once.isSome || renews then s else s.makeRoom p.holder p.bank
  { s with peer := p :: s.peer.filter fun x =>
      !(x.dev = p.dev && x.line = p.line && x.once = p.once && x.holder = p.holder) }

/-- The line that a peer served (R405, R432, R459): for a strand, or for an `aq.get`, which writes it once no lease of
this device runs on the local line. A poisoned line fails the transfer (log entry 45). -/
def State.served (s : State) (m : AqMsg) (tok : Nat) (d : BitVec 512) (lease : Option Nat) (poisoned : Bool) : State :=
  match s.opOfTok tok with
  | some (o, i) =>
    (match o.work with
     | .get dv l =>
       let here := (l.getD i ⟨0, 0, false, false⟩).here
       if poisoned then s.failOp o 2 0
       else if s.leased (here / 64) then s
       else ((s.spadWaits o.slot (spadRow here)).putLocal here 64 d.toNat).withLines o (.get dv (markDone l i)) (markDone l i)
     | _ => s)
  | none =>
    match s.asker tok, s.askedLine tok with
    | some (n, t, _), some line =>
      (match t.st with
       | .wait w => (s.addPeer (s.copyFor n w m.dev line d poisoned lease)).proceed n
       | _ => s)
    | _, _ => s

/-- The lines that an owner served at one point, for the strand that asked (R398). -/
def State.servedLines (s : State) (m : AqMsg) (tok : Nat) (l : List (BitVec 512 × Bool)) : State :=
  match s.asker tok with
  | some (n, _, _) =>
    (((s.askedLines tok).zip l).foldl (fun s e => s.addPeer ⟨m.dev, e.1, e.2.1, e.2.2, some n, 0, 0, 0⟩) s).answered tok 0 0
  | none => s

/-- A rank's write to a line of WORK, for the step of a collective that this device has reached (R437 to R440): it is performed
as any remote write; with its last line the step is complete. Any other, and one for a WORK under a lease, stays with its
sender. -/
def State.collLine (s : State) (m : AqMsg) (seq : Word) (step rank : Nat) (pa : Nat) (d : BitVec 512) (bytes : BitVec 64) :
    State :=
  let fits (c : Coll) : Bool := c.seq = seq && c.now = step && ((c.takes step).map (·.rank)) = some rank &&
    (c.lines step).contains (pa / 64) && !c.got.contains (pa / 64)
  let found := s.ops.findSome? fun o =>
    match o.work with
    | .coll c => if fits c && !s.rangeLeased c.work c.workBytes then some (o, c) else none
    | _ => none
  match found with
  | some (o, c) =>
    let r := s.advanceColl c
    let c := r.2
    if c.sentStep < step then s
    else
      let c := { c with got := (pa / 64) :: c.got, incs := if rank < c.n then c.incs.put rank m.inc else c.incs }
      let s := r.1.takeLine pa d bytes
      let r := if (c.lines step).all fun l => c.got.contains l then s.stepDone c else (s, c)
      r.1.setOp { o with work := .coll r.2 }
  | none => s

/-- The incarnation last heard of a device, noted for its rank (R441). -/
def Coll.heard (c : Coll) (m : AqMsg) : Coll :=
  match (c.devs.zipIdx).find? fun e => e.1 = m.dev with
  | some (_, r) => { c with incs := c.incs.put r m.inc }
  | none => c

/-- A rank has aborted a collective (R441). -/
def State.collStop (s : State) (m : AqMsg) (seq : Word) : State :=
  let found := s.ops.findSome? fun o =>
    match o.work with
    | .coll c => if c.seq = seq then some (o, c) else none
    | _ => none
  match found with
  | some (o, c) => s.abortColl o (c.heard m) 0xFFFF false
  | none => s

/-! ### Casts -/

/-- The bytes of a cast's page as a table. -/
def castTable (data : List Byte) : Table Byte := (data.zipIdx.filter fun e => e.1 ≠ 0).map fun e => (e.2, e.1)

/-- A strand that waits for the cast that a message of this device asked a peer for (R436). -/
def Strand.waitsCast (t : Strand) (dv : BitVec 12) (tok : Nat) : Bool :=
  match t.st with
  | .wait (.cast d _ _ _ k) => d = dv && k = tok
  | _ => false

/-- What the answer of the owner tells a strand (R174, R436): the page is open, with its generation, or stale; a failed
fetch is an access fault. -/
def Strand.castTold (t : Strand) (a : CastAnswer) (cause : Nat) : Strand :=
  match t.st with
  | .wait (.cast dv frame gen _ _) =>
    let t := { t with st := .run }
    let fault (t : Strand) (c : BitVec 8) : Strand := { t with answers := t.answers.put 0 (0, c) }
    (match a with
     | .sealed g _ _ => if g = gen then t else fault t causeStaleCast
     | .notSealed g isOpen => if isOpen && g = gen then { t with openCast := (dv, frame) :: t.openCast } else fault t causeStaleCast
     | .failed => fault (t.aqFailed cause) causeAccess)
  | _ => t

/-- The cast that an answer installs (R175, R436): a sealed page of the leaf's generation, in the basin that asked. -/
def State.castHeld (s : State) (n : Nat) (t : Strand) (a : CastAnswer) : State :=
  match t.st, a with
  | .wait (.cast dv frame gen _ _), .sealed g ptr data =>
    if g = gen then s.addCast ⟨basinOf (coreOf n), some dv, frame, gen, ptr, castTable (data.take ptr), s.clk⟩ else s
  | _, _ => s

/-- The answer to a cast fetch, for every strand that shares it (R436). `cause` says why a fetch failed (R434). -/
def State.castAnswer (s : State) (dv : BitVec 12) (tok : Nat) (a : CastAnswer) (cause : Nat) : State :=
  (s.strands.filter fun e => e.2.waitsCast dv tok).foldl (fun s e =>
    let u := (s.strand e.1).getD e.2
    let t := u.castTold a cause
    let s := (s.castHeld e.1 u a).setStrand e.1 t
    if a = .failed then s.strandReport e.1 t { kind := 0x0C } else s) s

/-- A refusal of a peer (R434): the cause is 3, dropped at the peer, or 4, refused there. A refused cast fetch fails
(R436). -/
def State.nacked (s : State) (dv : BitVec 12) (tok : Nat) (cause : BitVec 3) : State :=
  if cause ≠ 3 && cause ≠ 4 then s
  else
    match s.opOfTok tok with
    | some (o, _) => s.failOp o cause.toNat 0
    | none => ((List.range (s.tokSpan tok)).foldl (fun s k => s.failMessage (tok + k) cause.toNat) s).castAnswer dv tok
        .failed cause.toNat

/-- An incoming message performed. -/
def State.perform (s : State) (m : AqMsg) : State :=
  match m.body with
  | .readLine pa lease links gen tok => s.serveRead m (pa.toNat / 64 * 64) lease links gen tok
  | .lineData tok d lease poisoned => s.served m tok d lease poisoned
  | .readLines l tok => s.serveLines m l tok
  | .linesData tok l => s.servedLines m tok l
  | .storeLines l tok => s.serveStores m l tok
  | .storeResults tok l => s.answeredAll tok (l.map fun b => boolWord b)
  | .writeLine pa d bytes tok => s.serveWrite m (pa.toNat / 64 * 64) d bytes tok
  | .writeLines l tok => s.serveWrites m l tok
  | .addDword pa a tok => s.serveAdd m (pa.toNat / 8 * 8) a tok
  | .ack tok => s.acked tok
  | .nack tok cause => s.nacked m.dev tok cause
  | .homeCommand pa gen op n data link tok => s.serveHome m pa.toNat gen op n data link tok
  | .homeResult tok v fault => s.answered tok v fault
  | .releaseLease lines => { s with granted := s.granted.filter fun (l : Lease) => !(l.dev = m.dev && lines.contains l.line) }
  | .castData tok a => s.castAnswer m.dev tok a 2
  | .collLine seq step rank pa d bytes => s.collLine m seq step rank (pa.toNat / 64 * 64) d bytes
  | .collReduce _ _ _ => s
  | .collAbort seq => s.collStop m seq

/-- AQUEDUCT_MESSAGE (R409, R429, R466): dropped and counted, dropped in RETAIN, or performed; before READY the fabric is
idle (R115). A write that waits for a lease stays with its sender. -/
def execAqueductMessage (s : State) : Result :=
  .next (match s.inp.msg with
    | some m =>
      s.whenReady (if s.retained then s
        else if s.admits m then s.perform m else { s with aqStale := satInc s.aqStale })
    | none => s)

/-! ### Failures, casts and leases -/

/-- 10 ms have passed since a message was sent (R434). -/
def State.tenMs (s : State) (sentAt : Nat) : Bool := sentAt + 11000000 ≤ s.clk

/-- A transfer may fail with a cause now (R434): 1 when 10 ms have passed since its last flit, the others once a flit that
is not acknowledged has been sent. -/
def State.mayFail (s : State) (o : EngineOp) (cause rank : Nat) : Bool :=
  let lines (l : List AqLine) : Bool :=
    (l.any fun x => x.sent && !x.done) && (cause ≠ 1 || (l.all (·.sent) && s.tenMs o.sentAt))
  match o.work with
  | .put _ l => lines l
  | .get _ l => lines l
  | .sig _ _ _ sent => sent && (cause ≠ 1 || s.tenMs o.sentAt)
  | .coll c =>
    let here (p : Option Pass) : Bool := (p.map (·.rank)) = some rank
    (here (c.gives c.sentStep) || (c.sentStep = c.now && here (c.takes c.now))) && (cause ≠ 1 || s.tenMs o.sentAt) &&
      !s.rangeLeased c.status c.statusBytes
  | _ => false

/-- TRANSFER_FAILURE (R434): `unit` is an engine command, of a collective the transfer with rank `len` (N for the switch);
or, with `part` 1, a slot whose strand waits for a message; `code` is the cause. -/
def execTransferFailure (s : State) : Result :=
  let i := s.inp
  .next (if i.code = 0 || 4 < i.code then s
    else if i.part = 1 then
      (match s.strand i.unit with
       | some t =>
         (match t.st with
          | .wait (.peer tok n _) =>
            if i.code = 1 && !s.tenMs t.sentAt then s
            else
              (List.range n).foldl (fun s k =>
                if ((s.strand i.unit).bind fun t => t.answers.find k).isSome then s else s.failMessage (tok + k) i.code) s
          | .wait (.fill tok _) => if i.code = 1 && !s.tenMs t.sentAt then s else s.failMessage tok i.code
          | _ => s)
       | none => s)
    else
      match s.op i.unit with
      | some o => if s.mayFail o i.code i.len then s.failOp o i.code i.len else s
      | none => s)

/-- PEER_LEASE_EXPIRY (R405): the copies of a peer's line go, and leases of this device that have run out are forgotten.
A copy whose lease has run out serves no read even before this step (`State.findPeer`). -/
def execPeerLeaseExpiry (s : State) : Result :=
  let line := s.inp.addr.toNat / 64
  .next { s with peer := s.peer.filter fun (p : PeerLine) => !(p.dev = s.inp.dev && p.line = line && p.once = none)
                 granted := s.granted.filter fun (l : Lease) => State.leaseRuns { s with granted := [l] } l.line }

/-- CAST_FETCH (R436): the answer to the fetch that the strand in slot `unit` waits for, as a message of the incarnation
`inc`; or the failure of the fetch, with its cause (R434). -/
def execCastFetch (s : State) : Result :=
  let i := s.inp
  .next (match s.strand i.unit, i.cast with
    | some t, some a =>
      (match t.st with
       | .wait (.cast dv _ _ _ tok) =>
         s.whenReady (if s.retained then s
           else if a = .failed then
             (if i.code = 0 || 4 < i.code ||
                 (i.code = 1 && !((s.strands.filter fun e => e.2.waitsCast dv tok).all fun e => s.tenMs e.2.sentAt)) then s
              else s.castAnswer dv tok a i.code)
           else if s.admits ⟨dv, i.inc, .castData tok a⟩ then s.castAnswer dv tok a 0
           else { s with aqStale := satInc s.aqStale })
       | _ => s)
    | _, _ => s)

/-- COLLECTIVE_STEP_TIMEOUT (R441): a rank that has waited more than TMO µs for a message of a step aborts; while the
device suspends the timers stop (R466). -/
def execCollectiveStepTimeout (s : State) : Result :=
  .next (match s.op s.inp.unit with
    | some o =>
      (match o.work with
       | .coll c =>
         (match c.takes c.now with
          | some p =>
            if s.annex.suspState < 2 && c.sentStep = c.now && 1100 * c.tmo < s.clk - c.since then
              { s with freeCtr := s.freeCtr + 1 }.abortColl o c (s.failRank c p.rank) true
            else s
          | none => s)
       | _ => s)
    | none => s)

/-! ### Time -/

/-- A completed exchange (R430): `value` is the time as AQTIME, `code` the bound in ns. -/
def State.timeSync (s : State) : State :=
  let i := s.inp
  let s := { s with aqSec := i.value.extractLsb' 30 34, aqNs := i.value.extractLsb' 0 30, aqLast := s.clk
                    aqBound := BitVec.ofNat 16 (min i.code 65535) }
  if 100 < i.code then s.loseSync
  else
    let s := { s with aqGood := s.aqGood + 1 }
    if !s.aqSync && 3 ≤ s.aqGood then { s with aqSync := true }.report 0 { kind := 0x0B } else s

/-- TIME_SYNC_EXCHANGE (R115, R430). -/
def execTimeSyncExchange (s : State) : Result := .next (s.whenReady s.timeSync)

/-- SYNC_LOSS (R430): 8 ms without a completed exchange. -/
def execSyncLoss (s : State) : Result := .next s.syncEnds

/-- OPERATION_COMPLETION (R300, R432, R433, R440): an outstanding Aqueduct operation goes on, or completes. -/
def execOperationCompletion (s : State) : Result :=
  .next (match s.op s.inp.unit with
    | some o => s.advanceAq o s.inp.part
    | none => s)

end Sys2Proof.Machine
end

