-- ==== Sys2Proof/Machine/ScalarFloat.lean ====
section
/-! DEFINITION. Scalar floating point (R224 to R229). -/
namespace Sys2Proof.Machine
open Sys2Proof

/-- A float result: zeros above its width, flags ORed into FCTL (R51, R54). -/
def State.floatResult (s : State) (d : BitVec 5) (r : Nat × FFlags) : State :=
  s.modSelf fun t => ((t.setG d (BitVec.ofNat 64 r.1)).orFlags r.2).setPc (t.pc + 4)

/-- F(g[r]) (R225). -/
def State.readF (s : State) (f : FFmt) (r : BitVec 5) : FVal := f.read (s.getG r).toNat

/-- A binary float operation under the mode of its field (R225). -/
def float2 (op : FFmt → Nat → FVal → FVal → Nat × FFlags) (d a b : BitVec 5) (m : BitVec 3) (f : BitVec 2)
    (s : State) : State :=
  let fm := FFmt.ofCode f.toNat
  s.floatResult d (op fm (s.self.mode m) (s.readF fm a) (s.readF fm b))

def execFadd (d a b : BitVec 5) (m : BitVec 3) (f : BitVec 2) (s : State) : Result := .next (float2 FFmt.add d a b m f s)
def execFsub (d a b : BitVec 5) (m : BitVec 3) (f : BitVec 2) (s : State) : Result := .next (float2 FFmt.sub d a b m f s)
def execFmul (d a b : BitVec 5) (m : BitVec 3) (f : BitVec 2) (s : State) : Result := .next (float2 FFmt.mul d a b m f s)
def execFdiv (d a b : BitVec 5) (m : BitVec 3) (f : BitVec 2) (s : State) : Result := .next (float2 FFmt.div d a b m f s)
def execFsqrt (d a : BitVec 5) (m : BitVec 3) (f : BitVec 2) (s : State) : Result :=
  let fm := FFmt.ofCode f.toNat
  .next (s.floatResult d (fm.sqrt (s.self.mode m) (s.readF fm a)))
/-- gd is also the addend (R225). -/
def execFma (d a b : BitVec 5) (m : BitVec 3) (f : BitVec 2) (s : State) : Result :=
  let fm := FFmt.ofCode f.toNat
  .next (s.floatResult d (fm.fma (s.self.mode m) (s.readF fm a) (s.readF fm b) (s.readF fm d)))
def execFmin (d a b : BitVec 5) (f : BitVec 2) (s : State) : Result :=
  .next (s.floatResult d ((FFmt.ofCode f.toNat).minMax false (s.getG a).toNat (s.getG b).toNat))
def execFmax (d a b : BitVec 5) (f : BitVec 2) (s : State) : Result :=
  .next (s.floatResult d ((FFmt.ofCode f.toNat).minMax true (s.getG a).toNat (s.getG b).toNat))
def execFcmp (d a b : BitVec 5) (f p : BitVec 2) (s : State) : Result :=
  let r := (FFmt.ofCode f.toNat).compare p.toNat (s.getG a).toNat (s.getG b).toNat
  .next (s.floatResult d (if r.1 then 1 else 0, r.2))
def execFclass (d a : BitVec 5) (f : BitVec 2) (s : State) : Result :=
  .next (s.result d (BitVec.ofNat 64 (2 ^ (FFmt.ofCode f.toNat).classBit (s.getG a).toNat)))

/-- The integer code of an fcvt type code: n types have bit 2 set (R42, R188). -/
def codeUnsigned (c : BitVec 4) : Bool := c.getLsbD 2
def codeWidth (c : BitVec 4) : Nat := 8 * 2 ^ (c.extractLsb' 0 2).toNat

/-- fcvt of a register value between two type codes (R55, R229): the register written and the flags. -/
def convert (src dst : BitVec 4) (mode : Nat) (x : Word) : Word × FFlags :=
  if src.getLsbD 3 then
    let r := (FFmt.ofCode (dst.extractLsb' 0 2).toNat).ofInt mode (intValue (codeUnsigned src) (codeWidth src) x.toNat)
    (BitVec.ofNat 64 r.1, r.2)
  else
    let v := (FFmt.ofCode (src.extractLsb' 0 2).toNat).read x.toNat
    if dst.getLsbD 3 then
      let r := floatToInt mode (codeUnsigned dst) (codeWidth dst) v
      (BitVec.ofInt 64 r.1, r.2)
    else
      let r := (FFmt.ofCode (dst.extractLsb' 0 2).toNat).deliver mode v
      (BitVec.ofNat 64 r.1, r.2)

/-- The source code stands in gb[14:11], the destination in fn[3:0] (R229). -/
def execFcvt (d a : BitVec 5) (src : BitVec 4) (m : BitVec 3) (dst : BitVec 4) (s : State) : Result :=
  let r := convert src dst (s.self.mode m) (s.getG a)
  .next (s.floatResult d (r.1.toNat, r.2))

end Sys2Proof.Machine
end

