-- ==== Sys2Proof/Machine/Dispatch.lean ====
section
/-! DEFINITION. One arm per constructor of `Instr`, each one direct call of its meaning. -/
namespace Sys2Proof.Machine
open Sys2Proof

def exec (i : Instr) (s : State) : Host.Outcome State Fault Refusal :=
  match i with
  | .add d a b => Sys2Proof.Machine.execAdd d a b s
  | .sub d a b => Sys2Proof.Machine.execSub d a b s
  | .and d a b => Sys2Proof.Machine.execAnd d a b s
  | .or d a b => Sys2Proof.Machine.execOr d a b s
  | .xor d a b => Sys2Proof.Machine.execXor d a b s
  | .andn d a b => Sys2Proof.Machine.execAndn d a b s
  | .sll d a b => Sys2Proof.Machine.execSll d a b s
  | .srl d a b => Sys2Proof.Machine.execSrl d a b s
  | .sra d a b => Sys2Proof.Machine.execSra d a b s
  | .slt d a b => Sys2Proof.Machine.execSlt d a b s
  | .sltn d a b => Sys2Proof.Machine.execSltn d a b s
  | .min d a b => Sys2Proof.Machine.execMin d a b s
  | .max d a b => Sys2Proof.Machine.execMax d a b s
  | .minn d a b => Sys2Proof.Machine.execMinn d a b s
  | .maxn d a b => Sys2Proof.Machine.execMaxn d a b s
  | .mul d a b => Sys2Proof.Machine.execMul d a b s
  | .mulh d a b => Sys2Proof.Machine.execMulh d a b s
  | .mulhn d a b => Sys2Proof.Machine.execMulhn d a b s
  | .div d a b => Sys2Proof.Machine.execDiv d a b s
  | .divn d a b => Sys2Proof.Machine.execDivn d a b s
  | .rem d a b => Sys2Proof.Machine.execRem d a b s
  | .remn d a b => Sys2Proof.Machine.execRemn d a b s
  | .clz d a => Sys2Proof.Machine.execClz d a s
  | .ctz d a => Sys2Proof.Machine.execCtz d a s
  | .popc d a => Sys2Proof.Machine.execPopc d a s
  | .sext d a n => Sys2Proof.Machine.execSext d a n s
  | .zext d a n => Sys2Proof.Machine.execZext d a n s
  | .addi d a imm => Sys2Proof.Machine.execAddi d a imm s
  | .andi d a imm => Sys2Proof.Machine.execAndi d a imm s
  | .ori d a imm => Sys2Proof.Machine.execOri d a imm s
  | .xori d a imm => Sys2Proof.Machine.execXori d a imm s
  | .slli d a src => Sys2Proof.Machine.execSlli d a src s
  | .srli d a src => Sys2Proof.Machine.execSrli d a src s
  | .srai d a src => Sys2Proof.Machine.execSrai d a src s
  | .slti d a imm => Sys2Proof.Machine.execSlti d a imm s
  | .sltni d a imm => Sys2Proof.Machine.execSltni d a imm s
  | .ldih d a imm => Sys2Proof.Machine.execLdih d a imm s
  | .adpc d imm => Sys2Proof.Machine.execAdpc d imm s
  | .fadd d a b m f => Sys2Proof.Machine.execFadd d a b m f s
  | .fsub d a b m f => Sys2Proof.Machine.execFsub d a b m f s
  | .fmul d a b m f => Sys2Proof.Machine.execFmul d a b m f s
  | .fdiv d a b m f => Sys2Proof.Machine.execFdiv d a b m f s
  | .fsqrt d a m f => Sys2Proof.Machine.execFsqrt d a m f s
  | .fma d a b m f => Sys2Proof.Machine.execFma d a b m f s
  | .fmin d a b f => Sys2Proof.Machine.execFmin d a b f s
  | .fmax d a b f => Sys2Proof.Machine.execFmax d a b f s
  | .fcmp d a b f p => Sys2Proof.Machine.execFcmp d a b f p s
  | .fcvt d a src m t => Sys2Proof.Machine.execFcvt d a src m t s
  | .fclass d a f => Sys2Proof.Machine.execFclass d a f s
  | .beq a b o => Sys2Proof.Machine.execBeq a b o s
  | .bne a b o => Sys2Proof.Machine.execBne a b o s
  | .blt a b o => Sys2Proof.Machine.execBlt a b o s
  | .bge a b o => Sys2Proof.Machine.execBge a b o s
  | .bltn a b o => Sys2Proof.Machine.execBltn a b o s
  | .bgen a b o => Sys2Proof.Machine.execBgen a b o s
  | .jal o => Sys2Proof.Machine.execJal o s
  | .jr a => Sys2Proof.Machine.execJr a s
  | .lpSet a k => Sys2Proof.Machine.execLpSet a k s
  | .lpBrk a => Sys2Proof.Machine.execLpBrk a s
  | .lpBrkZ a => Sys2Proof.Machine.execLpBrkZ a s
  | .rframe g n d a b => Sys2Proof.Machine.execRframe g n d a b s
  | .ldB d a e => Sys2Proof.Machine.execLdB d a e s
  | .ldBn d a e => Sys2Proof.Machine.execLdBn d a e s
  | .ldH d a e => Sys2Proof.Machine.execLdH d a e s
  | .ldHn d a e => Sys2Proof.Machine.execLdHn d a e s
  | .ldW d a e => Sys2Proof.Machine.execLdW d a e s
  | .ldWn d a e => Sys2Proof.Machine.execLdWn d a e s
  | .ldD d a e => Sys2Proof.Machine.execLdD d a e s
  | .gl d a e => Sys2Proof.Machine.execGl d a e s
  | .stB d a e => Sys2Proof.Machine.execStB d a e s
  | .stH d a e => Sys2Proof.Machine.execStH d a e s
  | .stW d a e => Sys2Proof.Machine.execStW d a e s
  | .stD d a e => Sys2Proof.Machine.execStD d a e s
  | .sc d a b => Sys2Proof.Machine.execSc d a b s
  | .apnd d a b z => Sys2Proof.Machine.execApnd d a b z s
  | .seal a => Sys2Proof.Machine.execSeal a s
  | .sealq d a => Sys2Proof.Machine.execSealq d a s
  | .srd d src => Sys2Proof.Machine.execSrd d src s
  | .swr a src => Sys2Proof.Machine.execSwr a src s
  | .svc n => Sys2Proof.Machine.execSvc n s
  | .waitc l src c t => Sys2Proof.Machine.execWaitc l src c t s
  | .cclean a b => Sys2Proof.Machine.execCclean a b s
  | .cinval a b => Sys2Proof.Machine.execCinval a b s
  | .tlbinv a b => Sys2Proof.Machine.execTlbinv a b s
  | .pcal a => Sys2Proof.Machine.execPcal a s
  | .vsave a => Sys2Proof.Machine.execVsave a s
  | .vrestore a => Sys2Proof.Machine.execVrestore a s
  | .vfree a => Sys2Proof.Machine.execVfree a s
  | .vsetn d a src t => Sys2Proof.Machine.execVsetn d a src t s
  | .vsetnFloat d a src t => Sys2Proof.Machine.execVsetnFloat d a src t s
  | .vgetn d => Sys2Proof.Machine.execVgetn d s
  | .vslip src => Sys2Proof.Machine.execVslip src s
  | .kand d a b => Sys2Proof.Machine.execKand d a b s
  | .kor d a b => Sys2Proof.Machine.execKor d a b s
  | .kxor d a b => Sys2Proof.Machine.execKxor d a b s
  | .kandn d a b => Sys2Proof.Machine.execKandn d a b s
  | .knot d a => Sys2Proof.Machine.execKnot d a s
  | .kmov d a => Sys2Proof.Machine.execKmov d a s
  | .kpop d a => Sys2Proof.Machine.execKpop d a s
  | .kfirst d a => Sys2Proof.Machine.execKfirst d a s
  | .kset d a => Sys2Proof.Machine.execKset d a s
  | .kshl d a src => Sys2Proof.Machine.execKshl d a src s
  | .kshr d a src => Sys2Proof.Machine.execKshr d a src s
  | .vadd d a b k t => Sys2Proof.Machine.execVadd d a b k t s
  | .vsub d a b k t => Sys2Proof.Machine.execVsub d a b k t s
  | .vrsub d a b k t => Sys2Proof.Machine.execVrsub d a b k t s
  | .vmul d a b k t => Sys2Proof.Machine.execVmul d a b k t s
  | .vmulh d a b k t => Sys2Proof.Machine.execVmulh d a b k t s
  | .vmulhn d a b k t => Sys2Proof.Machine.execVmulhn d a b k t s
  | .vmadd d a b k t => Sys2Proof.Machine.execVmadd d a b k t s
  | .vmin d a b k t => Sys2Proof.Machine.execVmin d a b k t s
  | .vmax d a b k t => Sys2Proof.Machine.execVmax d a b k t s
  | .vminn d a b k t => Sys2Proof.Machine.execVminn d a b k t s
  | .vmaxn d a b k t => Sys2Proof.Machine.execVmaxn d a b k t s
  | .vand d a b k t => Sys2Proof.Machine.execVand d a b k t s
  | .vor d a b k t => Sys2Proof.Machine.execVor d a b k t s
  | .vxor d a b k t => Sys2Proof.Machine.execVxor d a b k t s
  | .vsll d a b k t => Sys2Proof.Machine.execVsll d a b k t s
  | .vsrl d a b k t => Sys2Proof.Machine.execVsrl d a b k t s
  | .vsra d a b k t => Sys2Proof.Machine.execVsra d a b k t s
  | .vsadd d a b k t => Sys2Proof.Machine.execVsadd d a b k t s
  | .vssub d a b k t => Sys2Proof.Machine.execVssub d a b k t s
  | .vadc d a b k t => Sys2Proof.Machine.execVadc d a b k t s
  | .vsbc d a b k t => Sys2Proof.Machine.execVsbc d a b k t s
  | .vmerge d a b k t => Sys2Proof.Machine.execVmerge d a b k t s
  | .vmov d a k t => Sys2Proof.Machine.execVmov d a k t s
  | .vsext d a src k t => Sys2Proof.Machine.execVsext d a src k t s
  | .vzext d a src k t => Sys2Proof.Machine.execVzext d a src k t s
  | .vclz d a k t => Sys2Proof.Machine.execVclz d a k t s
  | .vpopc d a k t => Sys2Proof.Machine.execVpopc d a k t s
  | .vsllImm d a src k t => Sys2Proof.Machine.execVsllImm d a src k t s
  | .vsrlImm d a src k t => Sys2Proof.Machine.execVsrlImm d a src k t s
  | .vsraImm d a src k t => Sys2Proof.Machine.execVsraImm d a src k t s
  | .vcmpEq d a b k t => Sys2Proof.Machine.execVcmpEq d a b k t s
  | .vcmpNe d a b k t => Sys2Proof.Machine.execVcmpNe d a b k t s
  | .vcmpLt d a b k t => Sys2Proof.Machine.execVcmpLt d a b k t s
  | .vcmpLe d a b k t => Sys2Proof.Machine.execVcmpLe d a b k t s
  | .vcmpLtn d a b k t => Sys2Proof.Machine.execVcmpLtn d a b k t s
  | .vcmpLen d a b k t => Sys2Proof.Machine.execVcmpLen d a b k t s
  | .vnarrowWrap d a src k t => Sys2Proof.Machine.execVnarrowWrap d a src k t s
  | .vnarrowSat d a src k t => Sys2Proof.Machine.execVnarrowSat d a src k t s
  | .vfadd d a b k t => Sys2Proof.Machine.execVfadd d a b k t s
  | .vfsub d a b k t => Sys2Proof.Machine.execVfsub d a b k t s
  | .vfmul d a b k t => Sys2Proof.Machine.execVfmul d a b k t s
  | .vfdiv d a b k t => Sys2Proof.Machine.execVfdiv d a b k t s
  | .vfsqrt d a k t => Sys2Proof.Machine.execVfsqrt d a k t s
  | .vfma d a b k t => Sys2Proof.Machine.execVfma d a b k t s
  | .vfnma d a b k t => Sys2Proof.Machine.execVfnma d a b k t s
  | .vfmin d a b k t => Sys2Proof.Machine.execVfmin d a b k t s
  | .vfmax d a b k t => Sys2Proof.Machine.execVfmax d a b k t s
  | .vfexp2 d a k t => Sys2Proof.Machine.execVfexp2 d a k t s
  | .vfrsqrt d a k t => Sys2Proof.Machine.execVfrsqrt d a k t s
  | .vfcvt d a src k t => Sys2Proof.Machine.execVfcvt d a src k t s
  | .vfcvtIntToFloat d a src k t => Sys2Proof.Machine.execVfcvtIntToFloat d a src k t s
  | .vfcvtFloatToInt d a src k t => Sys2Proof.Machine.execVfcvtFloatToInt d a src k t s
  | .vfcmpEq d a b k t => Sys2Proof.Machine.execVfcmpEq d a b k t s
  | .vfcmpNe d a b k t => Sys2Proof.Machine.execVfcmpNe d a b k t s
  | .vfcmpLt d a b k t => Sys2Proof.Machine.execVfcmpLt d a b k t s
  | .vfcmpLe d a b k t => Sys2Proof.Machine.execVfcmpLe d a b k t s
  | .vfcmpUn d a b k t => Sys2Proof.Machine.execVfcmpUn d a b k t s
  | .vredsumWrap d a src k t => Sys2Proof.Machine.execVredsumWrap d a src k t s
  | .vredsumSat d a src k t => Sys2Proof.Machine.execVredsumSat d a src k t s
  | .vredmin d a src k t => Sys2Proof.Machine.execVredmin d a src k t s
  | .vredmax d a src k t => Sys2Proof.Machine.execVredmax d a src k t s
  | .vfredsum d a src k t => Sys2Proof.Machine.execVfredsum d a src k t s
  | .vfredmax d a src k t => Sys2Proof.Machine.execVfredmax d a src k t s
  | .vslideup d a b k t => Sys2Proof.Machine.execVslideup d a b k t s
  | .vslidedn d a b k t => Sys2Proof.Machine.execVslidedn d a b k t s
  | .vperm d a b k t => Sys2Proof.Machine.execVperm d a b k t s
  | .vcomp d a k t => Sys2Proof.Machine.execVcomp d a k t s
  | .vexpand d a k t => Sys2Proof.Machine.execVexpand d a k t s
  | .vbcast d a k t => Sys2Proof.Machine.execVbcast d a k t s
  | .vext d a b t => Sys2Proof.Machine.execVext d a b t s
  | .vins d a b t => Sys2Proof.Machine.execVins d a b t s
  | .vquantI8 d a b k t => Sys2Proof.Machine.execVquantI8 d a b k t s
  | .vquantI4 d a b k t => Sys2Proof.Machine.execVquantI4 d a b k t s
  | .vquantTern d a b k t => Sys2Proof.Machine.execVquantTern d a b k t s
  | .vdeqNq4 d a b k t => Sys2Proof.Machine.execVdeqNq4 d a b k t s
  | .vdeqE2m1 d a b k t => Sys2Proof.Machine.execVdeqE2m1 d a b k t s
  | .vdeqTern d a b k t => Sys2Proof.Machine.execVdeqTern d a b k t s
  | .vquantPi d a b k t w => Sys2Proof.Machine.execVquantPi d a b k t w s
  | .vld d a k t => Sys2Proof.Machine.execVld d a k t s
  | .vst d a k t => Sys2Proof.Machine.execVst d a k t s
  | .vlds d a b k t => Sys2Proof.Machine.execVlds d a b k t s
  | .vsts d a b k t => Sys2Proof.Machine.execVsts d a b k t s
  | .vldx d a imm k t => Sys2Proof.Machine.execVldx d a imm k t s
  | .vstx d a imm k t => Sys2Proof.Machine.execVstx d a imm k t s
  | .vgl d a imm k t => Sys2Proof.Machine.execVgl d a imm k t s
  | .vsc d a imm k t => Sys2Proof.Machine.execVsc d a imm k t s
  | .vapnd src a d k t => Sys2Proof.Machine.execVapnd src a d k t s
  | .vldp d a b k t => Sys2Proof.Machine.execVldp d a b k t s
  | .vstp d a b k t => Sys2Proof.Machine.execVstp d a b k t s
  | .vldsp d a k t => Sys2Proof.Machine.execVldsp d a k t s
  | .vstsp d a k t => Sys2Proof.Machine.execVstsp d a k t s
  | .padd d a b w => Sys2Proof.Machine.execPadd d a b w s
  | .psub d a b w => Sys2Proof.Machine.execPsub d a b w s
  | .pmul d a b w => Sys2Proof.Machine.execPmul d a b w s
  | .pcmp d a b w => Sys2Proof.Machine.execPcmp d a b w s
  | .pand d a b w => Sys2Proof.Machine.execPand d a b w s
  | .por d a b w => Sys2Proof.Machine.execPor d a b w s
  | .pxor d a b w => Sys2Proof.Machine.execPxor d a b w s
  | .pnot d a w => Sys2Proof.Machine.execPnot d a w s
  | .psel d a b w => Sys2Proof.Machine.execPsel d a b w s
  | .pshl d a b w => Sys2Proof.Machine.execPshl d a b w s
  | .pshr d a b w => Sys2Proof.Machine.execPshr d a b w s
  | .pcopy d a w => Sys2Proof.Machine.execPcopy d a w s
  | .pfill d b w => Sys2Proof.Machine.execPfill d b w s
  | .plock d => Sys2Proof.Machine.execPlock d s
  | .punlock d => Sys2Proof.Machine.execPunlock d s
  | .pprog d a n => Sys2Proof.Machine.execPprog d a n s
  | .rowcp d src => Sys2Proof.Machine.execRowcp d src s
  | .rowmaj x y z => Sys2Proof.Machine.execRowmaj x y z s
  | .rownot d src => Sys2Proof.Machine.execRownot d src s
  | .rowshl d src c => Sys2Proof.Machine.execRowshl d src c s
  | .rowshr d src c => Sys2Proof.Machine.execRowshr d src c s
  | .plant a b n => Sys2Proof.Machine.execPlant a b n s
  | .plantChained d a b n m => Sys2Proof.Machine.execPlantChained d a b n m s
  | .fold d a b m => Sys2Proof.Machine.execFold d a b m s
  | .fread d a b y src n => Sys2Proof.Machine.execFread d a b y src n s
  | .fclr d => Sys2Proof.Machine.execFclr d s
  | .bkadd d a b t f => Sys2Proof.Machine.execBkadd d a b t f s
  | .bkred d a b t f => Sys2Proof.Machine.execBkred d a b t f s
  | .bkcx d a b t f => Sys2Proof.Machine.execBkcx d a b t f s
  | .bksax d a b t => Sys2Proof.Machine.execBksax d a b t s
  | .lfork d => Sys2Proof.Machine.execLfork d s
  | .ljoin a => Sys2Proof.Machine.execLjoin a s
  | .vissue a k => Sys2Proof.Machine.execVissue a k s
  | .cspawn a => Sys2Proof.Machine.execCspawn a s
  | .cjoin a => Sys2Proof.Machine.execCjoin a s
  | .barArrive g => Sys2Proof.Machine.execBarArrive g s
  | .barWait g => Sys2Proof.Machine.execBarWait g s
  | .barSet a g => Sys2Proof.Machine.execBarSet a g s
  | .aqPut d a b => Sys2Proof.Machine.execAqPut d a b s
  | .aqGet d a b => Sys2Proof.Machine.execAqGet d a b s
  | .aqSig a b => Sys2Proof.Machine.execAqSig a b s
  | .aqColl a b => Sys2Proof.Machine.execAqColl a b s
  | .aqLease d a b => Sys2Proof.Machine.execAqLease d a b s
  | .halt => Sys2Proof.Machine.execHalt s
  | .tret => Sys2Proof.Machine.execTret s
  | .fenceSv => Sys2Proof.Machine.execFenceSv s
  | .fenceVs => Sys2Proof.Machine.execFenceVs s
  | .fenceVv => Sys2Proof.Machine.execFenceVv s
  | .fenceSys => Sys2Proof.Machine.execFenceSys s
  | .drainPln => Sys2Proof.Machine.execDrainPln s
  | .drainSpm => Sys2Proof.Machine.execDrainSpm s
  | .drainFold => Sys2Proof.Machine.execDrainFold s
  | .drainBk => Sys2Proof.Machine.execDrainBk s
  | .drainAq => Sys2Proof.Machine.execDrainAq s
  | .idle => Sys2Proof.Machine.execIdle s
  | .cend => Sys2Proof.Machine.execCend s
  | .deviceReset => Sys2Proof.Machine.execDeviceReset s
  | .resetReleased => Sys2Proof.Machine.execResetReleased s
  | .verify => Sys2Proof.Machine.execVerify s
  | .init => Sys2Proof.Machine.execInit s
  | .bootcmd => Sys2Proof.Machine.execBootcmd s
  | .attestationQuote => Sys2Proof.Machine.execAttestationQuote s
  | .certificatePieceFirst => Sys2Proof.Machine.execCertificatePieceFirst s
  | .certificatePieceNext => Sys2Proof.Machine.execCertificatePieceNext s
  | .attestationCommandDone => Sys2Proof.Machine.execAttestationCommandDone s
  | .linkTraining => Sys2Proof.Machine.execLinkTraining s
  | .portLinkDown => Sys2Proof.Machine.execPortLinkDown s
  | .renewal => Sys2Proof.Machine.execRenewal s
  | .claim => Sys2Proof.Machine.execClaim s
  | .release => Sys2Proof.Machine.execRelease s
  | .leaseLapse => Sys2Proof.Machine.execLeaseLapse s
  | .doorbell => Sys2Proof.Machine.execDoorbell s
  | .queueEnable => Sys2Proof.Machine.execQueueEnable s
  | .queueDisable => Sys2Proof.Machine.execQueueDisable s
  | .queueReset => Sys2Proof.Machine.execQueueReset s
  | .registerWrite => Sys2Proof.Machine.execRegisterWrite s
  | .launchRecordHead => Sys2Proof.Machine.execLaunchRecordHead s
  | .signalReread => Sys2Proof.Machine.execSignalReread s
  | .signalPoll => Sys2Proof.Machine.execSignalPoll s
  | .admission => Sys2Proof.Machine.execAdmission s
  | .copyDescriptorComplete => Sys2Proof.Machine.execCopyDescriptorComplete s
  | .continuationPop => Sys2Proof.Machine.execContinuationPop s
  | .awaitedCondition => Sys2Proof.Machine.execAwaitedCondition s
  | .strandEnd => Sys2Proof.Machine.execStrandEnd s
  | .launchRetirement => Sys2Proof.Machine.execLaunchRetirement s
  | .completionRecord => Sys2Proof.Machine.execCompletionRecord s
  | .weirClk => Sys2Proof.Machine.execWeirClk s
  | .pulseFrame => Sys2Proof.Machine.execPulseFrame s
  | .preemptionRequest => Sys2Proof.Machine.execPreemptionRequest s
  | .preemption => Sys2Proof.Machine.execPreemption s
  | .looplateCount => Sys2Proof.Machine.execLooplateCount s
  | .vectorFaultDump => Sys2Proof.Machine.execVectorFaultDump s
  | .ctxtabWrite => Sys2Proof.Machine.execCtxtabWrite s
  | .ctxidWrite => Sys2Proof.Machine.execCtxidWrite s
  | .fctlWrite => Sys2Proof.Machine.execFctlWrite s
  | .hdmtWrite => Sys2Proof.Machine.execHdmtWrite s
  | .arfWrite => Sys2Proof.Machine.execArfWrite s
  | .castpoolWrite => Sys2Proof.Machine.execCastpoolWrite s
  | .migrationCopy => Sys2Proof.Machine.execMigrationCopy s
  | .migrationIdle => Sys2Proof.Machine.execMigrationIdle s
  | .migrationLineCopy => Sys2Proof.Machine.execMigrationLineCopy s
  | .pageWalk => Sys2Proof.Machine.execPageWalk s
  | .atsTranslationCompletion => Sys2Proof.Machine.execAtsTranslationCompletion s
  | .pageRequestGroupResponse => Sys2Proof.Machine.execPageRequestGroupResponse s
  | .atsInvalidationRequest => Sys2Proof.Machine.execAtsInvalidationRequest s
  | .invalidationCompletion => Sys2Proof.Machine.execInvalidationCompletion s
  | .hostSnoop => Sys2Proof.Machine.execHostSnoop s
  | .hdmAccess => Sys2Proof.Machine.execHdmAccess s
  | .bankSlot => Sys2Proof.Machine.execBankSlot s
  | .refreshDeadline => Sys2Proof.Machine.execRefreshDeadline s
  | .scratchpadRefresh => Sys2Proof.Machine.execScratchpadRefresh s
  | .thermalSample => Sys2Proof.Machine.execThermalSample s
  | .lockGrant => Sys2Proof.Machine.execLockGrant s
  | .lockRelease => Sys2Proof.Machine.execLockRelease s
  | .planeInstructionComplete => Sys2Proof.Machine.execPlaneInstructionComplete s
  | .plantLatchLoadComplete => Sys2Proof.Machine.execPlantLatchLoadComplete s
  | .foldComplete => Sys2Proof.Machine.execFoldComplete s
  | .bankOperationComplete => Sys2Proof.Machine.execBankOperationComplete s
  | .operationCompletion => Sys2Proof.Machine.execOperationCompletion s
  | .aqueductMessage => Sys2Proof.Machine.execAqueductMessage s
  | .transferFailure => Sys2Proof.Machine.execTransferFailure s
  | .peerLeaseExpiry => Sys2Proof.Machine.execPeerLeaseExpiry s
  | .castFetch => Sys2Proof.Machine.execCastFetch s
  | .collectiveStepTimeout => Sys2Proof.Machine.execCollectiveStepTimeout s
  | .timeSyncExchange => Sys2Proof.Machine.execTimeSyncExchange s
  | .syncLoss => Sys2Proof.Machine.execSyncLoss s
  | .suspendArm => Sys2Proof.Machine.execSuspendArm s
  | .resumeArm => Sys2Proof.Machine.execResumeArm s
  | .suspendCancel => Sys2Proof.Machine.execSuspendCancel s
  | .stopping => Sys2Proof.Machine.execStopping s
  | .suspendAbandoned => Sys2Proof.Machine.execSuspendAbandoned s
  | .saving => Sys2Proof.Machine.execSaving s
  | .restoring => Sys2Proof.Machine.execRestoring s
  | .currentHold => Sys2Proof.Machine.execCurrentHold s
  | .capHold => Sys2Proof.Machine.execCapHold s
  | .energyApportion => Sys2Proof.Machine.execEnergyApportion s
  | .monitorUpdate => Sys2Proof.Machine.execMonitorUpdate s
  | .illegalInstruction => Sys2Proof.Machine.execIllegalInstruction s
  | .codeEndFault => Sys2Proof.Machine.execCodeEndFault s
  | .cacheEviction => Sys2Proof.Machine.execCacheEviction s
  | .logicalLeaseExpiry => Sys2Proof.Machine.execLogicalLeaseExpiry s

end Sys2Proof.Machine
end

