-- ==== Sys2Proof/Machine/Step.lean ====
section
/-! DEFINITION. One step of the machine: the next turn of the agenda, or of the cores (R271, R273). -/
namespace Sys2Proof.Machine
open Sys2Proof

/-- The turn of a slot: what `prepare` says that it runs. -/
def runSlot (s : State) (n : Nat) : Host.Outcome State Fault Refusal :=
  if n < 1536 then
    match s.prepare n with
    | .done s => .next s
    | .go i s => exec i s
  else .fault (.noSuchUnit n)

/-- The turn of a slot whose front end goes before its vector queue. -/
def runAhead (s : State) (n : Nat) : Host.Outcome State Fault Refusal :=
  if n < 1536 then
    match s.prepareAhead n with
    | .done s => .next s
    | .go i t =>
      match exec i t with
      | .next u => .next (s.aheadOf n u)
      | r => r
  else .fault (.noSuchUnit n)

/-- A step of a unit of the device: a row of the table that no word encodes. A word is run by a strand alone. -/
def runUnit (s : State) (i : Instr) (inp : Input) : Host.Outcome State Fault Refusal :=
  if i.isWord then .next s else exec i { s with inp := inp }

/-- One turn. -/
def runAct (s : State) (a : Act) : Host.Outcome State Fault Refusal :=
  match a with
  | .slot n => runSlot s n
  | .ahead n => runAhead s n
  | .unit i inp => runUnit s i inp

/-- The turn that comes next in this clk, if there is one (R273; log entry 1). -/
def runNext (s : State) : Host.Outcome State Fault Refusal :=
  match s.nextTurn with
  | some n => runSlot s n
  | none => .next s

/-- One step: the next turn of the agenda; with an empty agenda the next turn of the cores, after a clk if this one has
none left (R271, R273). -/
def step (s : State) : Host.Outcome State Fault Refusal :=
  match s.agenda with
  | [] => runNext (if s.nextTurn.isSome then s else s.tick 1)
  | t :: r => runAct { s.tick t.delay with agenda := r } t.act

/-- `s` with an instruction word where the next step fetches, and a strand that stands there (log entry 1). -/
def State.withFetchWord (s : State) (nbits w : Nat) : State := (s.placeWord (w % 2 ^ nbits)).placeStrand

end Sys2Proof.Machine
end

