-- ==== Sys2Proof/Safety.lean ====
section
/-! DEFINITION. What counts as a safe step: it answers a next state. -/
namespace Sys2Proof
open Sys2Proof.Machine

/-- The step answers a next state. -/
def Safe (s : State) : Prop := ∃ t, step s = .next t

end Sys2Proof
end

