-- ==== Sys2Proof/Certificates/Slice0/Obligations.lean ====
section
/-! DEFINITION. The statements about this model. Each docstring names the rule of the spec that the statement
formalises; the definitions in `Sys2Proof.Claims` are the statements' own vocabulary. -/


/-! ### What a reader sees of two states -/

namespace Sys2Proof.Claims
open Sys2Proof Sys2Proof.Machine

/-- Every byte of memory reads as before: device memory through the caches, the scratchpads, and host memory. -/
def SameMemory (s t : State) : Prop :=
  (∀ a, t.byteAt a = s.byteAt a) ∧ (∀ a, t.rawByte a = s.rawByte a) ∧
    (∀ c o, t.spadByte c o = s.spadByte c o) ∧ ∀ a, t.hostByte a = s.hostByte a

/-- Nothing but the running strand changes: no other strand, no register of a core, a basin or the device, no byte of
memory. -/
def OnlySelf (s t : State) : Prop := t = s.setSelf t.self ∧ SameMemory s t

/-- Register `d` receives `v` (g0 stays zero, R216), and every other general register keeps its value. -/
def GetsG (s t : State) (d : BitVec 5) (v : Word) : Prop :=
  t.getG d = (if d = 0 then 0 else v) ∧ ∀ r, r ≠ d → t.getG r = s.getG r

/-- An instruction that completes, writes one general register and falls through, and changes nothing else. -/
def Delivers (i : Instr) (s : State) (d : BitVec 5) (v : Word) : Prop :=
  ∃ t, exec i s = .next t ∧ OnlySelf s t ∧ GetsG s t d v ∧
    t.self = { s.self with g := t.self.g, pc := s.self.pc + 4 }

/-- The same, with flags ORed into FCTL. -/
def DeliversF (i : Instr) (s : State) (d : BitVec 5) (v : Word) (fl : FFlags) : Prop :=
  ∃ t, exec i s = .next t ∧ OnlySelf s t ∧ GetsG s t d v ∧
    t.self = { s.self with g := t.self.g, pc := s.self.pc + 4, fflags := s.self.fflags ||| fl }

/-- An instruction that completes with the fetch going on at `pc`, and changes nothing else. -/
def GoesTo (i : Instr) (s : State) (pc : Word) : Prop :=
  ∃ t, exec i s = .next t ∧ OnlySelf s t ∧ t.self = { s.self with pc := pc }

/-- S(v) of the low `w` bits, by place value. -/
def signedLow (v : Word) (w : Nat) : Int :=
  let m : Int := ((v.toNat % 2 ^ w : Nat) : Int)
  if m < (2 : Int) ^ (w - 1) then m else m - (2 : Int) ^ w

/-- The truth value that a comparison writes. -/
def flagWord (p : Prop) [Decidable p] : Word := if p then 1 else 0

/-- The bits of a word that are one. -/
def ones (v : Word) : Nat := (List.range 64).countP fun i => v.getLsbD i

end Sys2Proof.Claims

open Sys2Proof Sys2Proof.Machine Sys2Proof.Claims

/-! ### Scalar integer (07_scalar.md) -/

/-- R219: each register form of major 0x01, its exact value wrapped to 64 bits, with its frame. -/
def Sys2Proof.Claims.ScalarRegisterForms : Prop :=
  ∀ (s : State) (d a b : BitVec 5),
    let A := s.getG a
    let B := s.getG b
    let sh := B.toNat % 64
    Delivers (.add d a b) s d (BitVec.ofInt 64 (A.toInt + B.toInt)) ∧
    Delivers (.sub d a b) s d (BitVec.ofInt 64 (A.toInt - B.toInt)) ∧
    Delivers (.and d a b) s d (A &&& B) ∧
    Delivers (.or d a b) s d (A ||| B) ∧
    Delivers (.xor d a b) s d (A ^^^ B) ∧
    Delivers (.andn d a b) s d (A &&& ~~~B) ∧
    Delivers (.sll d a b) s d (BitVec.ofNat 64 (A.toNat * 2 ^ sh)) ∧
    Delivers (.srl d a b) s d (BitVec.ofNat 64 (A.toNat / 2 ^ sh)) ∧
    Delivers (.sra d a b) s d (BitVec.ofInt 64 (A.toInt / (2 : Int) ^ sh)) ∧
    Delivers (.slt d a b) s d (flagWord (A.toInt < B.toInt)) ∧
    Delivers (.sltn d a b) s d (flagWord (A.toNat < B.toNat)) ∧
    Delivers (.min d a b) s d (BitVec.ofInt 64 (min A.toInt B.toInt)) ∧
    Delivers (.max d a b) s d (BitVec.ofInt 64 (max A.toInt B.toInt)) ∧
    Delivers (.minn d a b) s d (BitVec.ofNat 64 (min A.toNat B.toNat)) ∧
    Delivers (.maxn d a b) s d (BitVec.ofNat 64 (max A.toNat B.toNat)) ∧
    Delivers (.mul d a b) s d (BitVec.ofInt 64 (A.toInt * B.toInt)) ∧
    Delivers (.mulh d a b) s d (BitVec.ofInt 64 (A.toInt * B.toInt / 2 ^ 64)) ∧
    Delivers (.mulhn d a b) s d (BitVec.ofNat 64 (A.toNat * B.toNat / 2 ^ 64)) ∧
    (∃ z ≤ 64, Delivers (.clz d a) s d (BitVec.ofNat 64 z) ∧
      (∀ i < z, A.getLsbD (63 - i) = false) ∧ (z < 64 → A.getLsbD (63 - z) = true)) ∧
    (∃ z ≤ 64, Delivers (.ctz d a) s d (BitVec.ofNat 64 z) ∧
      (∀ i < z, A.getLsbD i = false) ∧ (z < 64 → A.getLsbD z = true)) ∧
    Delivers (.popc d a) s d (BitVec.ofNat 64 (ones A)) ∧
    Delivers (.sext d a 0) s d (BitVec.ofInt 64 (signedLow A 8)) ∧
    Delivers (.sext d a 1) s d (BitVec.ofInt 64 (signedLow A 16)) ∧
    Delivers (.sext d a 2) s d (BitVec.ofInt 64 (signedLow A 32)) ∧
    Delivers (.zext d a 0) s d (BitVec.ofNat 64 (A.toNat % 2 ^ 8)) ∧
    Delivers (.zext d a 1) s d (BitVec.ofNat 64 (A.toNat % 2 ^ 16)) ∧
    Delivers (.zext d a 2) s d (BitVec.ofNat 64 (A.toNat % 2 ^ 32))

/-- R220: division truncates toward zero, a zero divisor gives all ones and the dividend as the remainder, and the
one overflow wraps; nothing traps and FCTL is untouched. -/
def Sys2Proof.Claims.DivisionTruncatesAndNeverTraps : Prop :=
  ∀ (s : State) (d a b : BitVec 5),
    let P := (s.getG a).toInt
    let Q := (s.getG b).toInt
    let p := (s.getG a).toNat
    let q := (s.getG b).toNat
    Delivers (.div d a b) s d (BitVec.ofInt 64 (if Q = 0 then -1 else P.tdiv Q)) ∧
    Delivers (.rem d a b) s d (BitVec.ofInt 64 (if Q = 0 then P else P - P.tdiv Q * Q)) ∧
    Delivers (.divn d a b) s d (BitVec.ofNat 64 (if q = 0 then 2 ^ 64 - 1 else p / q)) ∧
    Delivers (.remn d a b) s d (BitVec.ofNat 64 (if q = 0 then p else p - p / q * q))

/-- R221: each immediate form, with its immediate sign- or zero-extended as the table says, and its frame. -/
def Sys2Proof.Claims.ScalarImmediateForms : Prop :=
  ∀ (s : State) (d a : BitVec 5) (i : BitVec 16) (n : BitVec 6),
    let A := s.getG a
    let Is := i.toInt
    let Iz := BitVec.ofNat 64 i.toNat
    Delivers (.addi d a i) s d (BitVec.ofInt 64 (A.toInt + Is)) ∧
    Delivers (.andi d a i) s d (A &&& Iz) ∧
    Delivers (.ori d a i) s d (A ||| Iz) ∧
    Delivers (.xori d a i) s d (A ^^^ Iz) ∧
    Delivers (.slli d a n) s d (BitVec.ofNat 64 (A.toNat * 2 ^ n.toNat)) ∧
    Delivers (.srli d a n) s d (BitVec.ofNat 64 (A.toNat / 2 ^ n.toNat)) ∧
    Delivers (.srai d a n) s d (BitVec.ofInt 64 (A.toInt / (2 : Int) ^ n.toNat)) ∧
    Delivers (.slti d a i) s d (flagWord (A.toInt < Is)) ∧
    Delivers (.sltni d a i) s d (flagWord (A.toNat < (BitVec.ofInt 64 Is).toNat)) ∧
    Delivers (.ldih d a i) s d (BitVec.ofInt 64 (A.toInt + Is * 65536)) ∧
    Delivers (.adpc d i) s d (BitVec.ofInt 64 (s.self.pc.toInt + Is * 65536))



/-! ### Scalar floating point -/

/-- R225, R51, R54: the arithmetic operations deliver the value and the flags of their format's operation on the
operands as read, under the mode that the RM field names (DYN: FCTL.RM), with zeros above the width; the flags are
ORed into FCTL and nothing else changes. -/
def Sys2Proof.Claims.ScalarFloatArithmetic : Prop :=
  ∀ (s : State) (d a b : BitVec 5) (m : BitVec 3) (c : BitVec 2),
    let f := FFmt.ofCode c.toNat
    let mode := if m = 7 then s.self.rm.toNat else m.toNat
    let x := f.read ((s.getG a).toNat % 2 ^ f.width)
    let y := f.read ((s.getG b).toNat % 2 ^ f.width)
    let z := f.read ((s.getG d).toNat % 2 ^ f.width)
    let gives (i : Instr) (r : Nat × FFlags) : Prop :=
      DeliversF i s d (BitVec.ofNat 64 (r.1 % 2 ^ f.width)) r.2
    gives (.fadd d a b m c) (f.add mode x y) ∧
    gives (.fsub d a b m c) (f.sub mode x y) ∧
    gives (.fmul d a b m c) (f.mul mode x y) ∧
    gives (.fdiv d a b m c) (f.div mode x y) ∧
    gives (.fsqrt d a m c) (f.sqrt mode x) ∧
    gives (.fma d a b m c) (f.fma mode x y z)

/-- The table of special operands of R225, for every format and mode. -/
def Sys2Proof.Claims.FloatSpecialOperands : Prop :=
  ∀ (c mode : Nat),
    let f := FFmt.ofCode c
    let zero (n : Bool) : FVal := .fin n 0 0
    (∀ y s, f.add mode (.nan s) y = (f.nan, if s || y.snan then flagNV else 0) ∧
      f.add mode y (.nan s) = (f.nan, if s || y.snan then flagNV else 0) ∧
      f.mul mode (.nan s) y = (f.nan, if s || y.snan then flagNV else 0) ∧
      f.mul mode y (.nan s) = (f.nan, if s || y.snan then flagNV else 0) ∧
      f.div mode (.nan s) y = (f.nan, if s || y.snan then flagNV else 0) ∧
      f.div mode y (.nan s) = (f.nan, if s || y.snan then flagNV else 0) ∧
      f.sqrt mode (.nan s) = (f.nan, if s then flagNV else 0)) ∧
    (∀ n, f.add mode (.inf n) (.inf !n) = (f.nan, flagNV) ∧ f.sub mode (.inf n) (.inf n) = (f.nan, flagNV) ∧
      f.add mode (.inf n) (.inf n) = (f.inf n, 0)) ∧
    (∀ n p e z, f.mul mode (.inf n) (.fin p 0 e) = (f.nan, flagNV) ∧ f.mul mode (.fin p 0 e) (.inf n) = (f.nan, flagNV) ∧
      f.fma mode (.inf n) (.fin p 0 e) z = (f.nan, flagNV) ∧ f.fma mode (.fin p 0 e) (.inf n) z = (f.nan, flagNV)) ∧
    (∀ n p m e e', 0 < m → f.div mode (.fin n m e) (.fin p 0 e') = (f.inf (n != p), flagDZ)) ∧
    (∀ n p e e', f.div mode (.fin n 0 e) (.fin p 0 e') = (f.nan, flagNV) ∧ f.div mode (.inf n) (.inf p) = (f.nan, flagNV)) ∧
    (∀ m e, 0 < m → f.sqrt mode (.fin true m e) = (f.nan, flagNV)) ∧
    f.sqrt mode (.inf true) = (f.nan, flagNV) ∧ f.sqrt mode (zero true) = (f.zero true, 0) ∧
    (∀ n m e, 0 < m → f.add mode (.fin n m e) (.fin (!n) m e) = (f.zero (decide (mode = 2)), 0)) ∧
    (∀ n, f.add mode (zero n) (zero n) = (f.zero n, 0))

namespace Sys2Proof.Claims

/-- The rational number that a finite float is. -/
def ratOf : FVal → ℚ
  | .fin n m e => (if n then -1 else 1) * (m : ℚ) * (2 : ℚ) ^ e
  | _ => 0

/-- A number that the format represents, with the pattern that encodes it. -/
def Represents (f : FFmt) (p : Nat) (q : ℚ) : Prop :=
  p < 2 ^ f.width ∧ (∃ n m e, f.read p = .fin n m e) ∧ ratOf (f.read p) = q

/-- A number of a format's precision, its exponent unbounded: its significand. -/
def Grid (f : FFmt) (u : ℝ) (k : ℤ) : Prop :=
  (2 : ℤ) ^ f.fbits ≤ |k| ∧ |k| < (2 : ℤ) ^ (f.fbits + 1) ∧ ∃ q : ℤ, u = (k : ℝ) * (2 : ℝ) ^ q

/-- `q` is what a rounding mode makes of `x` among the numbers of a set (R48): toward zero, −∞ or +∞ no number of the set lies
between, to nearest none is closer, and a tie goes to the number that is even, or away from zero. -/
def RoundedIn (P : ℝ → Prop) (even : Prop) (mode : Nat) (x q : ℝ) : Prop :=
  P q ∧ 0 ≤ q * x ∧ ∀ z, P z →
    (mode = 1 → |q| ≤ |x| ∧ (|z| ≤ |x| → |z| ≤ |q|)) ∧
    (mode = 2 → q ≤ x ∧ (z ≤ x → z ≤ q)) ∧
    (mode = 3 → x ≤ q ∧ (x ≤ z → q ≤ z)) ∧
    (mode = 0 → |x - q| ≤ |x - z| ∧ (|x - q| = |x - z| → q ≠ z → even)) ∧
    (mode = 4 → |x - q| ≤ |x - z| ∧ (|x - q| = |x - z| → |z| ≤ |q|))

/-- `r` is the pattern and the flags of a nonzero number rounded once to a format (R48, R49, R51). `u` is the number rounded
with an unbounded exponent: from 2^(bias + 1) on it is an overflow, and below 2^(1 − bias) it is tiny, which flushes a b16. -/
def Rounds (f : FFmt) (mode : Nat) (x : ℝ) (r : Nat × FFlags) : Prop :=
  ∃ (u : ℝ) (k : ℤ) (neg : Bool), (neg = true ↔ x < 0) ∧ Grid f u k ∧
    RoundedIn (fun z => ∃ j, Grid f z j) (2 ∣ k) mode x u ∧
    let top : ℝ := (2 : ℝ) ^ (f.bias + 1)
    let tiny : ℝ := (2 : ℝ) ^ (1 - (f.bias : ℤ))
    (top ≤ |u| → r =
      (if mode = 1 ∨ (mode = 2 ∧ neg = false) ∨ (mode = 3 ∧ neg = true) then f.largest neg else f.inf neg,
        flagOF ||| flagNX)) ∧
    (|u| < tiny → f.flush = true → r = (f.zero neg, flagUF ||| flagNX)) ∧
    (|u| < top → (tiny ≤ |u| ∨ f.flush = false) →
      ∃ q : ℚ, Represents f r.1 q ∧
        RoundedIn (fun z => ∃ (p : Nat) (y : ℚ), Represents f p y ∧ z = (y : ℝ)) (r.1 % 2 = 0) mode x (q : ℝ) ∧
        (q = 0 → r.1 = f.zero neg) ∧ ((q : ℝ) = x → r.2 = 0) ∧
        ((q : ℝ) ≠ x → tiny ≤ |u| → r.2 = flagNX) ∧ ((q : ℝ) ≠ x → |u| < tiny → r.2 = flagUF ||| flagNX))

end Sys2Proof.Claims

/-- R48, R49, R51: every nonzero exact value is rounded once to the format under the mode: an overflow gives infinity or the
largest finite number with OF and NX; where subnormals are kept, a result is the represented number that the mode asks
for, NX says that it is not exact, and UF that it is tiny besides; a tiny b16 is a zero with UF and NX. An exact zero is a zero
of its sign with no flag. -/
def Obligations.RoundingIsCorrect : Prop :=
  ∀ (c mode : Nat) (n : Bool) (m : Nat) (e : Int), mode ≤ 4 →
    let f := FFmt.ofCode c
    (0 < m → Rounds f mode (ratOf (.fin n m e)) (f.round mode n m e)) ∧ f.round mode n 0 e = (f.zero n, 0)

/-- R49, R225: the sum, the difference, the product, the quotient, the root and the fused product and sum of finite operands are
the exact number rounded once; an exact zero has the sign that R225 gives it. -/
def Sys2Proof.Claims.FloatArithmeticIsExact : Prop :=
  ∀ (c mode : Nat) (n1 n2 n3 : Bool) (m1 m2 m3 : Nat) (e1 e2 e3 : Int), mode ≤ 4 →
    let f := FFmt.ofCode c
    let x : FVal := .fin n1 m1 e1
    let y : FVal := .fin n2 m2 e2
    let z : FVal := .fin n3 m3 e3
    let X : ℝ := ratOf x
    let Y : ℝ := ratOf y
    let Z : ℝ := ratOf z
    let zero (same : Prop) [Decidable same] (n : Bool) : Nat × FFlags := (f.zero (if same then n else decide (mode = 2)), 0)
    (X + Y ≠ 0 → Rounds f mode (X + Y) (f.add mode x y)) ∧ (X + Y = 0 → f.add mode x y = zero (n1 = n2) n1) ∧
    (X - Y ≠ 0 → Rounds f mode (X - Y) (f.sub mode x y)) ∧ (X - Y = 0 → f.sub mode x y = zero (n1 = !n2) n1) ∧
    (X * Y ≠ 0 → Rounds f mode (X * Y) (f.mul mode x y)) ∧ (X * Y = 0 → f.mul mode x y = (f.zero (n1 != n2), 0)) ∧
    (Y ≠ 0 → (X ≠ 0 → Rounds f mode (X / Y) (f.div mode x y)) ∧ (X = 0 → f.div mode x y = (f.zero (n1 != n2), 0))) ∧
    (0 < X → Rounds f mode (Real.sqrt X) (f.sqrt mode x)) ∧ (X = 0 → f.sqrt mode x = (f.zero n1, 0)) ∧
    (X * Y + Z ≠ 0 → Rounds f mode (X * Y + Z) (f.fma mode x y z)) ∧
    (X * Y + Z = 0 → f.fma mode x y z = zero ((n1 != n2) = n3) n3)

/-- R226, R227, R228: fmin, fmax, fcmp and fclass by the order of the values as read; none uses a mode. -/
def Sys2Proof.Claims.ScalarFloatCompare : Prop :=
  ∀ (s : State) (d a b : BitVec 5) (c p : BitVec 2),
    let f := FFmt.ofCode c.toNat
    let x := f.read (s.getG a).toNat
    let y := f.read (s.getG b).toNat
    let nv : FFlags := if x.snan || y.snan then flagNV else 0
    (x.isNan = true → y.isNan = true →
      DeliversF (.fmin d a b c) s d (BitVec.ofNat 64 f.nan) nv ∧ DeliversF (.fmax d a b c) s d (BitVec.ofNat 64 f.nan) nv) ∧
    (∃ u v, DeliversF (.fmin d a b c) s d (BitVec.ofNat 64 u) nv ∧ DeliversF (.fmax d a b c) s d (BitVec.ofNat 64 v) nv ∧
      u < 2 ^ f.width ∧ v < 2 ^ f.width ∧
      (x.isNan = false → y.isNan = true → f.read u = x ∧ f.read v = x) ∧
      (x.isNan = true → y.isNan = false → f.read u = y ∧ f.read v = y) ∧
      (x.isNan = false → y.isNan = false →
        (f.read u = x ∨ f.read u = y) ∧ (f.read v = x ∨ f.read v = y) ∧
        x.less (f.read u) = false ∧ y.less (f.read u) = false ∧
        (f.read v).less x = false ∧ (f.read v).less y = false)) ∧
    DeliversF (.fcmp d a b c p) s d
      (flagWord (if x.isNan || y.isNan then p = 3
        else (p = 0 ∧ x.cmp y = .eq) ∨ (p = 1 ∧ x.cmp y = .lt) ∨ (p = 2 ∧ x.cmp y ≠ .gt)))
      (if (x.isNan || y.isNan) && (p = 1 || p = 2) then flagNV else nv) ∧
    Delivers (.fclass d a c) s d (match x with
      | .inf true => 1
      | .fin true m _ => if m = 0 then 8 else if m < 2 ^ f.fbits then 4 else 2
      | .fin false m _ => if m = 0 then 16 else if m < 2 ^ f.fbits then 32 else 64
      | .inf false => 128
      | .nan true => 256
      | .nan false => 512)

/-- R229, R55: `fcvt` between two type codes. -/
def Sys2Proof.Claims.ScalarFloatConvert : Prop :=
  ∀ (s : State) (d a : BitVec 5) (cs cd : BitVec 4) (m : BitVec 3),
    let A := (s.getG a).toNat
    let mode := if m = 7 then s.self.rm.toNat else m.toNat
    let isInt (c : BitVec 4) : Bool := c.getLsbD 3
    let unsig (c : BitVec 4) : Bool := c.getLsbD 2
    let w (c : BitVec 4) : Nat := 8 * 2 ^ (c.toNat % 4)
    let f (c : BitVec 4) : FFmt := FFmt.ofCode (c.toNat % 4)
    let n : Int := if unsig cs then ((A % 2 ^ w cs : Nat) : Int) else signedLow (s.getG a) (w cs)
    (isInt cs = true → isInt cd = false →
      let r := (f cd).round mode (n < 0) n.natAbs 0
      DeliversF (.fcvt d a cs m cd) s d (BitVec.ofNat 64 (r.1 % 2 ^ (f cd).width)) r.2) ∧
    (isInt cs = false → isInt cd = false →
      match (f cs).read A with
      | .nan sig => DeliversF (.fcvt d a cs m cd) s d (BitVec.ofNat 64 (f cd).nan) (if sig then flagNV else 0)
      | .inf neg => DeliversF (.fcvt d a cs m cd) s d (BitVec.ofNat 64 ((f cd).inf neg)) 0
      | .fin neg q e =>
        let r := (f cd).round mode neg q e
        DeliversF (.fcvt d a cs m cd) s d (BitVec.ofNat 64 (r.1 % 2 ^ (f cd).width)) r.2) ∧
    (isInt cs = false → isInt cd = true →
      let lo : Int := if unsig cd then 0 else -(2 : Int) ^ (w cd - 1)
      let hi : Int := if unsig cd then (2 : Int) ^ w cd - 1 else (2 : Int) ^ (w cd - 1) - 1
      match (f cs).read A with
      | .nan _ => DeliversF (.fcvt d a cs m cd) s d 0 flagNV
      | .inf neg => DeliversF (.fcvt d a cs m cd) s d (BitVec.ofInt 64 (if neg then lo else hi)) flagNV
      | .fin neg q e =>
        let r := roundAt mode neg q e false 0
        let v : Int := if neg then -(r.1 : Int) else r.1
        DeliversF (.fcvt d a cs m cd) s d (BitVec.ofInt 64 (if v < lo then lo else if hi < v then hi else v))
          (if v < lo ∨ hi < v then flagNV else if r.2 then flagNX else 0))

/-! ### Branches, jumps, loops, frames, the end of a record -/

/-- R230: each branch compares two registers and goes to PC + 4 × SignExt(off16) or to PC + 4; it writes nothing. -/
def Sys2Proof.Claims.BranchesCompareAndWriteNothing : Prop :=
  ∀ (s : State) (a b : BitVec 5) (o : BitVec 16),
    let A := s.getG a
    let B := s.getG b
    let pc := s.self.pc
    let target := BitVec.ofInt 64 (pc.toInt + 4 * o.toInt)
    GoesTo (.beq a b o) s (if A = B then target else pc + 4) ∧
    GoesTo (.bne a b o) s (if A = B then pc + 4 else target) ∧
    GoesTo (.blt a b o) s (if A.toInt < B.toInt then target else pc + 4) ∧
    GoesTo (.bge a b o) s (if B.toInt ≤ A.toInt then target else pc + 4) ∧
    GoesTo (.bltn a b o) s (if A.toNat < B.toNat then target else pc + 4) ∧
    GoesTo (.bgen a b o) s (if B.toNat ≤ A.toNat then target else pc + 4)

/-- R231: `jal` links in g31 and jumps; it writes no other register. -/
def Sys2Proof.Claims.JalLinksInG31 : Prop :=
  ∀ (s : State) (o : BitVec 26), ∃ t, exec (.jal o) s = .next t ∧ OnlySelf s t ∧
    GetsG s t 31 (s.self.pc + 4) ∧
    t.self = { s.self with g := t.self.g, pc := BitVec.ofInt 64 (s.self.pc.toInt + 4 * o.toInt) }

/-- R232 and R234: `jr` takes all 64 bits of its register; `halt` puts the strand in END and changes nothing else. -/
def Sys2Proof.Claims.JrAndHalt : Prop :=
  ∀ (s : State) (a : BitVec 5),
    GoesTo (.jr a) s (s.getG a) ∧
    ∃ t, exec .halt s = .next t ∧ OnlySelf s t ∧ t.self = { s.self with st := .ended }

/-- R207: `lp.set` skips the body of a zero count, pushes an entry while the stack holds fewer than 6, and takes the
precise loop-overflow fault with XVAL 6 at depth 6. -/
def Sys2Proof.Claims.LoopSetPushesOrOverflows : Prop :=
  ∀ (s : State) (a : BitVec 5) (k : BitVec 16),
    let n := s.getG a
    let pc := s.self.pc
    let e := BitVec.ofInt 64 (pc.toInt + 4 * k.toNat)
    (n = 0 → GoesTo (.lpSet a k) s e) ∧
    (n ≠ 0 → s.self.loops.length < 6 →
      ∃ t, exec (.lpSet a k) s = .next t ∧ OnlySelf s t ∧
        t.self = { s.self with loops := ⟨pc + 4, e, n, 0⟩ :: s.self.loops, pc := pc + 4 }) ∧
    (n ≠ 0 → s.self.loops.length = 6 → exec (.lpSet a k) s = .next (s.takeTrap causeLoop 6 pc))

/-- R209: a break pops the top entry and goes to its end; with an empty stack it is the precise loop-overflow fault with
XVAL 0; a break that does not happen falls through and never faults. -/
def Sys2Proof.Claims.LoopBreakPopsOrFaults : Prop :=
  ∀ (s : State) (a : BitVec 5) (z : Bool),
    let i : Instr := if z then .lpBrkZ a else .lpBrk a
    let breaks : Prop := if z then s.getG a = 0 else s.getG a ≠ 0
    (¬ breaks → GoesTo i s (s.self.pc + 4)) ∧
    (breaks → s.self.loops = [] → exec i s = .next (s.takeTrap causeLoop 0 s.self.pc)) ∧
    (∀ e r, breaks → s.self.loops = e :: r →
      ∃ t, exec i s = .next t ∧ OnlySelf s t ∧ t.self = { s.self with loops := r, pc := e.stop })

namespace Sys2Proof.Claims

/-- A fetch of the innermost loop's end address, made `n` times. -/
def passes (e : Word) : Nat → List LoopEntry → Word × List LoopEntry
  | 0, l => (e, l)
  | n + 1, l =>
    let x := loopBoundary e l
    passes e n x.2.1

end Sys2Proof.Claims

/-- R208: the entry that a count of `n` pushed sends the first `n − 1` fetches of its end back to its start, counting
idx up and rem down, and the `n`-th fetch pops it and compares the address with the entry below. -/
def Sys2Proof.Claims.LoopRunsItsCount : Prop :=
  ∀ (a e : Word) (n : Nat) (below : List LoopEntry), 0 < n → n < 2 ^ 64 → a ≠ e →
    (∀ k, k < n →
      (passes e k (⟨a, e, BitVec.ofNat 64 n, 0⟩ :: below)).2 =
        ⟨a, e, BitVec.ofNat 64 (n - k), BitVec.ofNat 64 k⟩ :: below) ∧
    (∀ k, k + 1 < n →
      (loopBoundary e (passes e k (⟨a, e, BitVec.ofNat 64 n, 0⟩ :: below)).2).1 = a) ∧
    loopBoundary e (passes e (n - 1) (⟨a, e, BitVec.ofNat 64 n, 0⟩ :: below)).2 =
      ((loopBoundary e below).1, (loopBoundary e below).2.1, true) ∧
    (∀ b, b ≠ e → loopBoundary b (⟨a, e, BitVec.ofNat 64 n, 0⟩ :: below) =
      (b, ⟨a, e, BitVec.ofNat 64 n, 0⟩ :: below, false))

namespace Sys2Proof.Claims

/-- Device memory with nothing in the way of an access: no hole, no cast pool, no migration of it, no check-bit error
in its line, no lease granted on the line, and no clean copy of the line that a bank operation has left behind (R394,
R400). -/
def PlainAt (s : State) (pa : Nat) : Prop :=
  isDevMem pa = true ∧ s.inPool pa = false ∧ s.migOf pa = [] ∧ (∀ e ∈ s.errs, e.1 / 4 ≠ pa / 64) ∧
    s.leased (pa / 64) = false ∧
    ∀ e ∈ s.copies, e.1 / 2048 = pa / 64 → ∀ i, i < 64 → lineByte e.2.data i = s.byteAt (pa / 64 * 64 + i)

/-- The little-endian word in the four bytes from `a` (R7, R180). -/
def wordAt (s : State) (a : Nat) : BitVec 32 :=
  s.byteAt (a + 3) ++ s.byteAt (a + 2) ++ s.byteAt (a + 1) ++ s.byteAt a

/-- The strand may fetch the word at `a` in the boot context, and the word is `w`. -/
def Fetches (s : State) (a : Word) (w : BitVec 32) : Prop :=
  s.inBoot s.self.ctxid = true ∧ s.inCode a = true ∧ PlainAt s a.toNat ∧ a.toNat < 2 ^ 48 ∧ wordAt s a.toNat = w

end Sys2Proof.Claims

/-- R212, R213: an `rframe` whose `n` words are in the code range, legal and capturable, with no active loop ending
among them and a count of at most 65,535, begins its replays at replay 0 and word 0 with those words and strides, or
skips the words when the count is 0; a greater count is the illegal-instruction trap with the count in XVAL. -/
def Obligations.RframeCapturesItsWords : Prop :=
  ∀ (s : State) (a : BitVec 5) (n sd sa sb : BitVec 4) (ws : List (BitVec 32)),
    let pc := s.self.pc
    ws.length = n.toNat + 1 →
    (∀ k, (h : k < ws.length) → Fetches s (pc + 4 + BitVec.ofNat 64 (4 * k)) ws[k] ∧ capturable ws[k] = true) →
    pc.toNat + 4 * ws.length < 2 ^ 64 →
    (∀ e ∈ s.self.loops, ¬ ((pc + 4).toNat ≤ e.stop.toNat ∧ e.stop.toNat ≤ pc.toNat + 4 * ws.length)) →
    s.self.resume = none →
    let c := (s.getG a).toNat
    (c = 0 → GoesTo (.rframe a n sd sa sb) s (pc + 4 + BitVec.ofNat 64 (4 * ws.length))) ∧
    (0 < c → c ≤ 65535 → ∃ t, exec (.rframe a n sd sa sb) s = .next t ∧ OnlySelf s t ∧
      t.self = { s.self with inside := some (.frame ws sd sa sb c 0 0) }) ∧
    (65535 < c → exec (.rframe a n sd sa sb) s = .next (s.takeTrap causeIllegal (s.getG a) pc))

/-! ### Traps, modes and system registers (15_interruption.md) -/

namespace Sys2Proof.Claims

/-- What R447 says of the state `t` after a trap that `s` takes. -/
def TrapEntered (s t : State) (code : BitVec 8) (val ret : Word) : Prop :=
  t.self.xpc = ret ∧ t.self.xcause = code ∧ t.self.xval = val ∧
  t.self.ppriv = s.self.cur ∧ t.self.cur = true ∧ t.self.exl = true ∧
  t.self.loops = [] ∧ t.self.xld = s.self.loops.length ∧ t.self.shadowLoops = s.self.loops ∧
  t.self.slink = none ∧ t.self.vlinks = [] ∧
  t.self.pc = (0 : BitVec 16) ++ s.xvec ++ (0 : BitVec 2) ∧ t.self.st = .run ∧
  (∀ r, t.getG r = s.getG r) ∧ t.self.v = s.self.v ∧ t.self.k = s.self.k ∧ t.self.fctl = s.self.fctl ∧
  t.self.vn = s.self.vn ∧ t.self.ctxid = s.self.ctxid ∧ t.self.xscratch = s.self.xscratch ∧
  t.self.cntL = s.self.cntL ∧ t.self.cntS = s.self.cntS ∧ t.self.cntC = s.self.cntC ∧ t.self.cntT = s.self.cntT ∧
  (∀ n, n ≠ s.cur → t.strand n = s.strand n) ∧ SameMemory s t

/-- Of the whole machine a trap changes the running strand alone, and there only what R447 names and what the strand held for
its instruction: with it goes its place in the weir's queue, and a peer's line that was served for it alone (R274, R430). -/
def OnlyTrapped (s t : State) : Prop :=
  t = { s.setSelf t.self with cores := t.cores, peer := t.peer } ∧
  (∀ c, t.core c = { s.core c with queue := if c = s.cur / 8 then (s.core c).queue.filter (fun e => e.slot ≠ s.cur)
                                            else (s.core c).queue }) ∧
  t.peer = s.peer.filter (fun l => l.once ≠ some s.cur) ∧
  ((∀ e ∈ (s.core (s.cur / 8)).queue, e.slot ≠ s.cur) → (∀ l ∈ s.peer, l.once ≠ some s.cur) → OnlySelf s t) ∧
  t.self = { s.self with
    xpc := t.self.xpc, xcause := t.self.xcause, xval := t.self.xval, ppriv := t.self.ppriv, cur := t.self.cur, exl := t.self.exl
    xls := t.self.xls, xld := t.self.xld, loops := t.self.loops, slink := none, vlinks := [], pc := t.self.pc, st := .run
    weirPass := none, parked := none, descRead := none, atsDenied := none, answers := [], placed := [], genRead := none
    idleDone := false, openCast := [], snap := none, joining := none, rowData := [], resumed := false, wrote := false }

/-- An instruction that takes a trap, from a state that may take one. -/
def Traps (i : Instr) (s : State) (code : BitVec 8) (val ret : Word) : Prop :=
  s.self.exl = false → ∃ t, exec i s = .next t ∧ TrapEntered s t code val ret

/-- An instruction that takes a trap and has no other effect. -/
def TrapsAlone (i : Instr) (s : State) (code : BitVec 8) (val ret : Word) : Prop :=
  s.self.exl = false → ∃ t, exec i s = .next t ∧ TrapEntered s t code val ret ∧ OnlyTrapped s t

end Sys2Proof.Claims

namespace Sys2Proof.Claims

/-- A step that a slot of its own takes: `t` is the state while that slot's strand is the running one. -/
def InSlot (i : Instr) (s : State) (n : Nat) (P : State → State → Prop) : Prop :=
  ∃ t, exec i s = .next { t with cur := s.cur } ∧ P { s with cur := n } t

/-- The strand in a slot changes to `u`, and nothing else does. -/
def OnlyStrand (i : Instr) (s : State) (n : Nat) (u : Strand) : Prop :=
  ∃ t, exec i s = .next t ∧ t.strand n = some u ∧ (∀ m, m ≠ n → t.strand m = s.strand m) ∧ t = { s with strands := t.strands }

/-- The quad of a slot's core is enabled in this clk (R293). -/
def Lit (s : State) (n : Nat) : Prop := (s.quad (quadOf (n / 8))).eff.getLsbD (s.clk % 16) = true

/-- The fork children of the running strand that have not joined, theirs, and so on (R275, R448). -/
def generation (s : State) : Nat → List Nat
  | 0 => s.self.children.map (·.slot)
  | n + 1 => (generation s n).flatMap fun k => ((s.strand k).map fun c => c.children.map (·.slot)).getD []

/-- A strand that a double trap has stopped (R448). -/
def Stopped (c u : Strand) (code : BitVec 8) : Prop :=
  u.st = .ended ∧ u.doubled = some code ∧ u.v = [] ∧ u.k = [] ∧ u.vq = [] ∧ u.xpc = c.xpc ∧ u.xcause = c.xcause ∧
  u.xval = c.xval ∧ u.cur = c.cur ∧ u.pc = c.pc ∧ (∀ r, u.getG r = c.getG r) ∧ u.join = c.join ∧ u.parent = c.parent ∧
  u.children = c.children

/-- What a double trap of the running strand does (R448): it and its unjoined children at every depth stop, every other
strand keeps all but what a report wakes and a link on the report's line, the launch takes the strand fault, and a condition
report of `kind` names the strand: in the ring of its basin, or counted as lost where that has no room. -/
def Doubles (s u : State) (code : BitVec 8) (kind : Nat) : Prop :=
  let t := s.self
  let b := s.basin s.myBasin
  let n := 2 ^ b.crLog2n.toNat
  let base := b.crBase.toNat * 4096
  let entry := base + 64 * (b.crTail.toNat % n)
  let fits : Bool := decide (b.crLog2n ≠ 0) && rangeIn s.myBasin base (64 * n) && decide ((b.crTail - b.crHead).toNat ≠ n)
  Stopped t u.self code ∧
  (∀ l ∈ s.annex.launches, ∃ l' ∈ u.annex.launches, l'.id = l.id ∧
    (l.id = t.bind.launch → l'.status = 4 ∧
      (l.status ≠ 4 → l'.detail = s.cur / 8 + 2 ^ 8 * (s.cur % 8) + 2 ^ 16 * code.toNat)) ∧
    (l.id ≠ t.bind.launch → l'.status = l.status ∧ l'.detail = l.detail)) ∧
  (s.cur < 1536 → s.granted = [] → (∀ x, s.migOf x = []) →
    (∀ i k c, i < 8 → k ∈ generation s i → k ≠ s.cur → s.strand k = some c → ∃ w, u.strand k = some w ∧ Stopped c w code) ∧
    (∀ k, k ≠ s.cur → (∀ i, k ∉ generation s i) → u.strand k = (s.strand k).map fun c => { c with
      idleDone := c.idleDone || decide (k / 8 / 16 = s.myBasin ∧ c.st = .wait .event)
      slink := c.slink.filter fun l => !(fits && decide (l = entry / 64))
      vlinks := c.vlinks.filter fun e => !(fits && decide (e.2 = entry / 64)) }) ∧
    (fits = true → (u.basin s.myBasin).crTail = b.crTail + 1 ∧ leRead u.byteAt entry 2 = kind ∧
      u.byteAt (entry + 2) = BitVec.ofNat 8 s.myBasin ∧ u.byteAt (entry + 3) = BitVec.ofNat 8 s.myCore ∧
      u.byteAt (entry + 4) = BitVec.ofNat 8 (s.cur % 8) ∧ leRead u.byteAt (entry + 6) 2 = t.ctxid.toNat ∧
      ∀ x, x < entry ∨ entry + 64 ≤ x → u.byteAt x = s.byteAt x) ∧
    (fits = false → (u.basin s.myBasin).crLost = satInc b.crLost ∧ ∀ x, u.byteAt x = s.byteAt x))

/-- A strand has left its slot, which is FREE, with the locks it held (R285, R362). -/
def SlotFreed (s t : State) (n : Nat) : Prop :=
  t.strand n = none ∧ (∀ m, m ≠ n → t.strand m = s.strand m) ∧ (∀ a, t.byteAt a = s.byteAt a) ∧
    ∀ k, (t.basin k).locks = (s.basin k).locks.filter fun x => x.slot ≠ n

end Sys2Proof.Claims

/-- R447: taking a trap saves the return address, the cause and its value, the mode and the loop stack, drops the links,
enters privileged mode with EXL set, and goes to the handler; FCTL, the g registers, the vector state, the waitc counts
memory and every other unit keep their values. -/
def Sys2Proof.Claims.TakingATrap : Prop :=
  ∀ (s : State) (code : BitVec 8) (val ret : Word), s.self.exl = false →
    TrapEntered s (s.takeTrap code val ret) code val ret ∧ OnlyTrapped s (s.takeTrap code val ret)

/-- R448: a cause that arises while EXL is set, and a dump whose area cannot be written, is a double trap: no trap is taken,
the strand and its unjoined children stop issuing and will end as by `cend`, their vector state is gone, their saved
registers and modes keep their values, the launch reports the strand fault with the core, the slot and the cause, and
condition report 0x0D, or 0x10, is raised. Then a fork child whose parent goes on enters JOIN with zeros in its vector
registers, a child of a strand that ends too leaves its slot FREE, and a record whose `cjoin` fails ends with its counter as it
was. -/
def Sys2Proof.Claims.DoubleTrapEndsTheStrand : Prop :=
  ∀ s : State,
    (∀ (code : BitVec 8) (val ret : Word), s.self.exl = true → Doubles s (s.takeTrap code val ret) code 0x0D) ∧
    (∀ (va : Word) (w : Bool), s.self.exl = true → Doubles s (s.scalarFault 0x08 va w) 0x08 0x0D) ∧
    (∀ (va : Word) (w : Bool), s.self.exl = false → s.self.areaOk (s.xframeOf s.cur) = false →
      Doubles s (s.scalarFault 0x08 va w) 0x08 0x10) ∧
    (∀ t, s.strand s.inp.unit = some t → (∀ o ∈ s.ops, o.slot ≠ s.inp.unit) →
      (t.st = .dumping → Lit s s.inp.unit →
        (t.exl = true → InSlot .vectorFaultDump s s.inp.unit fun v u => Doubles v u 0x20 0x0D) ∧
        (t.exl = false → t.areaOk (s.xframeOf s.inp.unit) = false →
          InSlot .vectorFaultDump s s.inp.unit fun v u => Doubles v u 0x20 0x10)) ∧
      (t.st = .ended → t.doubled.isSome = true →
        (∀ q p, t.parent = some q → s.strand q = some p → p.doubled = none → (∃ c ∈ p.children, c.slot = s.inp.unit) →
          ∃ w, OnlyStrand .strandEnd s s.inp.unit w ∧ w.st = .join ∧ w.v = t.v ∧ w.k = t.k ∧ w.preq = none) ∧
        (∀ q p, t.parent = some q → s.strand q = some p → p.doubled.isSome = true →
          ∃ u, exec .strandEnd s = .next u ∧ SlotFreed s u s.inp.unit ∧ u.annex = s.annex) ∧
        (t.parent = none →
          (t.join = 0 ∨ ∃ c v z, State.joinCounter { s with cur := s.inp.unit } t.join = .trap c v z) →
          ∃ u, exec .strandEnd s = .next u ∧ SlotFreed s u s.inp.unit ∧
            u.annex.launches = s.annex.launches.map fun l => if l.id = t.bind.launch then { l with live := l.live - 1 } else l)))

/-- R442, R449, R450: the return from a trap moves the shadow stack back, restores the mode from PPRIV, clears EXL and
goes on at XPC; after a trap it gives back the mode, the loop stack and the address that the trap saved. -/
def Obligations.TrapThenReturn : Prop :=
  (∀ s : State, s.self.cur = true →
    ∃ t, exec .tret s = .next t ∧ OnlySelf s t ∧
      t.self = { s.self with loops := s.self.shadowLoops, xld := 0, xls := [], cur := s.self.ppriv, exl := false
                             pc := s.self.xpc }) ∧
  (∀ (s : State) (code : BitVec 8) (val ret : Word), s.self.exl = false →
    ∃ t, exec .tret (s.takeTrap code val ret) = .next t ∧ t.self.cur = s.self.cur ∧ t.self.exl = false ∧
      t.self.loops = s.self.loops ∧ t.self.pc = ret ∧ (∀ r, t.getG r = s.getG r) ∧ SameMemory s t)

/-- R450: `svc n` takes the service-call trap in either mode, with n in XVAL and the address after it in XPC; it
has no other effect. -/
def Sys2Proof.Claims.SvcTakesTheServiceTrap : Prop :=
  ∀ (s : State) (n : BitVec 10), TrapsAlone (.svc n) s 0x13 (n.setWidth 64) (s.self.pc + 4)

/-- R201: outside privileged mode `tret`, `idle`, `tlbinv`, `pcal`, `vsave`, `vrestore`, `vfree` and `swr` to a
privileged register take the privilege trap at their own address, with the word in XVAL, and have no effect. -/
def Sys2Proof.Claims.PrivilegedInstructionsTrapInUserMode : Prop :=
  ∀ (s : State) (a b : BitVec 5) (r : BitVec 16), s.self.cur = false → sysPrivileged r = true →
    ∀ i ∈ ([.tret, .idle, .tlbinv a b, .pcal a, .vsave a, .vrestore a, .vfree a, .swr a r] : List Instr),
      TrapsAlone i s 0x02 (s.self.word.setWidth 64) s.self.pc

/-- R450: in privileged mode `idle` waits for one of its events, and goes on once it has been told of one; R454 tells
it of a pre-emption request. -/
def Sys2Proof.Claims.IdleWaitsForItsEvents : Prop :=
  ∀ s : State, s.self.cur = true →
    (s.self.idleDone = false → ∃ t, exec .idle s = .next t ∧ OnlySelf s t ∧ t.self = { s.self with st := .wait .event }) ∧
    (s.self.idleDone = true → ∃ t, exec .idle s = .next t ∧ OnlySelf s t ∧
      t.self = { s.self with idleDone := false, pc := s.self.pc + 4 }) ∧
    (∀ (u : Strand) clk, u.st = .wait .event → u.preq = none → (u.post clk).idleDone = true)

namespace Sys2Proof.Claims

/-- One bit of a word. -/
def bit (b : Bool) : BitVec 1 := BitVec.ofBool b

end Sys2Proof.Claims

/-- R245, R244, R272, R210, R52, R290, R443, R449: `srd` delivers the register's fields at their bits, reserved bits
zero. It waits only where R53 and R387 make a read of FCTL and TILESTAT wait. -/
def Obligations.SrdReadsTheRegisterMaps : Prop :=
  ∀ (s : State) (d : BitVec 5),
    let t := s.self
    let c := s.core s.myCore
    let reads (r : BitVec 16) (v : Word) : Prop := Delivers (.srd d r) s d v
    (∀ r, r ≠ 0x8 → r ≠ 0x91 → reads r (s.sysRead r)) ∧
    (s.busyIn s.cur [5] = false → reads 0x8 ((0 : BitVec 52) ++ bit t.sat ++ t.rm ++ (0 : BitVec 3) ++ t.fflags)) ∧
    (s.busyIn s.cur [6] = false →
      reads 0x91 ((0 : BitVec 40) ++ c.tileNan ++ c.tileRange ++ c.tileOvf)) ∧
    reads 0x4 (BitVec.ofNat 64 t.vn) ∧
    reads 0x5 ((0 : BitVec 53) ++ t.lgc ++ t.slip ++ t.bs ++ t.sw) ∧
    (s.cur < 1536 → reads 0x6 (BitVec.ofNat 64 (s.cur / 8 * 65536 + t.lgbase.toNat * 256 + s.cur % 8))) ∧
    (∀ i, i < 6 → reads (BitVec.ofNat 16 (0x58 + i))
      (if h : i < t.loops.length then (t.loops[t.loops.length - 1 - i]'(by omega)).idx else 0)) ∧
    reads 0x60 ((0 : BitVec 32) ++ c.cap) ∧
    reads 0x61 ((0 : BitVec 32) ++ c.drain) ∧
    reads 0x69 (BitVec.ofNat 64 (if t.ite then 1 else 0)) ∧
    reads 0x80 ((0 : BitVec 16) ++ c.eph) ∧
    reads 0x81 ((0 : BitVec 61) ++ bit t.expp ++ bit t.exps ++ bit t.expte) ∧
    reads 0x90 ((0 : BitVec 16) ++ t.plNext ++ t.plFirst ++ (0 : BitVec 14) ++ bit t.lockerr ++ bit t.margin) ∧
    reads 0xA2 ((0 : BitVec 60) ++ t.aqCause ++ bit t.aqFail) ∧
    reads 0xC0 t.xpc ∧ reads 0xC1 ((0 : BitVec 56) ++ t.xcause) ∧ reads 0xC2 t.xval ∧
    reads 0xC3 ((0 : BitVec 16) ++ s.xvec ++ (0 : BitVec 2)) ∧
    reads 0xC4 ((0 : BitVec 32) ++ t.widx ++ (0 : BitVec 5) ++ t.nrec ++ (0 : BitVec 5) ++ bit t.cur ++ bit t.exl ++ bit t.ppriv) ∧
    reads 0xC5 t.xscratch ∧ reads 0xC6 (c.xframe.get 0 (s.cur % 8)) ∧
    reads 0xC7 (s.krSize ++ s.krBase ++ (0 : BitVec 16)) ∧
    reads 0xC8 ((0 : BitVec 48) ++ t.ctxid) ∧
    reads 0xCB ((0 : BitVec 32) ++ c.looplate) ∧
    reads 0xE0 ((0 : BitVec 55) ++ t.monsel) ∧ reads 0xE7 (BitVec.ofNat 64 t.xld) ∧
    (∀ n, n < 24 → reads (BitVec.ofNat 16 (0xE8 + n)) (if n / 4 < t.xld then t.xls.get 0 n else 0)) ∧
    (∀ j, j < 64 → reads (BitVec.ofNat 16 (0x100 + j)) (t.illmask.extractLsb' (64 * j) 64)) ∧
    (∀ j, j < 64 → reads (BitVec.ofNat 16 (0x140 + j)) (t.expmask.extractLsb' (64 * j) 64))

namespace Sys2Proof.Claims

/-- `swr` completes, and of all the machine only the running strand changes, to `u` at the next address. -/
def WritesSelf (a : BitVec 5) (r : BitVec 16) (s : State) (u : Strand) : Prop :=
  ∃ t, exec (.swr a r) s = .next t ∧ OnlySelf s t ∧ t.self = { u with pc := s.self.pc + 4 }

end Sys2Proof.Claims

/-- R445 with the maps of R52, R244, R443, R449 and of the strand's other registers: what `swr` changes of the strand,
and that it changes nothing else; read-only and reserved bits ignore the write, W1C bits clear. -/
def Sys2Proof.Claims.SwrWritesTheStrandsRegisters : Prop :=
  ∀ (s : State) (a : BitVec 5),
    let t := s.self
    let v := s.getG a
    (s.busyIn s.cur [5] = false →
      WritesSelf a 0x8 s { t with
        sat := v.getLsbD 11, fflags := v.extractLsb' 0 5
        rm := if (v.extractLsb' 8 3).toNat < 5 then v.extractLsb' 8 3 else t.rm }) ∧
    WritesSelf a 0x5 s { t with
      slip := v.extractLsb' 5 3, bs := if (v.extractLsb' 2 3).toNat < 6 then v.extractLsb' 2 3 else t.bs } ∧
    WritesSelf a 0x69 s { t with ite := v.getLsbD 0 } ∧
    WritesSelf a 0x81 s { t with
      expp := t.expp && !v.getLsbD 2, exps := t.exps && !v.getLsbD 1, expte := v.getLsbD 0 } ∧
    WritesSelf a 0x90 s { t with lockerr := t.lockerr && !v.getLsbD 1, margin := t.margin && !v.getLsbD 0 } ∧
    WritesSelf a 0xA2 s { t with aqFail := t.aqFail && !v.getLsbD 0 } ∧
    WritesSelf a 0xE0 s { t with monsel := v.extractLsb' 0 9 } ∧
    (∀ j, j < 64 → ∃ m : KReg, WritesSelf a (BitVec.ofNat 16 (0x100 + j)) s { t with illmask := m } ∧
      ∀ i, m.getLsbD i = (t.illmask.getLsbD i && !(decide (i / 64 = j) && v.getLsbD (i % 64)))) ∧
    (∀ j, j < 64 → ∃ m : KReg, WritesSelf a (BitVec.ofNat 16 (0x140 + j)) s { t with expmask := m } ∧
      ∀ i, m.getLsbD i = (t.expmask.getLsbD i && !(decide (i / 64 = j) && v.getLsbD (i % 64)))) ∧
    (t.cur = true →
      WritesSelf a 0xC0 s { t with xpc := v } ∧
      WritesSelf a 0xC1 s { t with xcause := v.extractLsb' 0 8 } ∧
      WritesSelf a 0xC2 s { t with xval := v } ∧
      WritesSelf a 0xC4 s { t with
        widx := v.extractLsb' 22 10, nrec := v.extractLsb' 8 9, exl := v.getLsbD 1, ppriv := v.getLsbD 0 } ∧
      WritesSelf a 0xC5 s { t with xscratch := v } ∧
      WritesSelf a 0xC8 s { t with ctxid := v.extractLsb' 0 16, slink := none, vlinks := [] } ∧
      WritesSelf a 0xE7 s { t with xld := min 6 (v.toNat % 8) } ∧
      ∀ n, n < 24 → ∃ x, WritesSelf a (BitVec.ofNat 16 (0xE8 + n)) s { t with xls := x } ∧
        x.get 0 n = v ∧ ∀ k, k ≠ n → x.get 0 k = t.xls.get 0 k)

namespace Sys2Proof.Claims

/-- The bits that a write sets in each register of a core, a basin or the device whose RW fields hold every value
(R13, R443 and the maps of each chapter). -/
def writeMask (r : Nat) : Option Word :=
  if r = 0x18 ∨ r = 0x19 ∨ r = 0x41 ∨ r = 0x42 ∨ r = 0xDB then some 0x000FFFFFFFFFF000
  else if r = 0x40 then some 3
  else if r = 0x60 ∨ r = 0x61 ∨ (0x62 ≤ r ∧ r ≤ 0x65) then some 0xFFFFFFFF
  else if r = 0x80 then some 0x0000FFFFFFFFFFFF
  else if r = 0xA0 then some 0x0FFFFFFF
  else if r = 0xA1 then some 0x000FFFFFFFFF8001
  else if r = 0xC3 then some 0x0000FFFFFFFFFFFC
  else if r = 0xC6 then some 0x000FFFFFFFFFFF00
  else if r = 0xC7 then some 0xFFFFFFFFFFFF0000
  else if r = 0xDA then some 0x000FFFFFFFE00001
  else none

end Sys2Proof.Claims

/-- R445: a privileged `swr` to a register of a core, a basin or the device, and a read of it at the next instruction:
the written value under the register's mask. The strand only moves on, no other strand changes, and memory reads as
before. -/
def Sys2Proof.Claims.SwrThenSrdOfSharedRegisters : Prop :=
  (∀ (s : State) (a : BitVec 5) (r : BitVec 16) (m : Word), writeMask r.toNat = some m → s.self.cur = true →
    ∃ t, exec (.swr a r) s = .next t ∧ t.sysRead r = s.getG a &&& m ∧ SameMemory s t ∧
      t.strands = (s.setSelf { s.self with pc := s.self.pc + 4 }).strands) ∧
  (∀ (s : State) (a : BitVec 5), s.self.cur = true →
    let v := s.getG a
    (∃ t, exec (.swr a 0x10) s = .next t ∧ t.ctxtabWritten = true ∧ t.ctxtabBase = v.extractLsb' 12 40 ∧
      t.ctxtabLog2n.toNat = min 16 (v.toNat % 32) ∧ SameMemory s t) ∧
    (∃ t, exec (.swr a 0x68) s = .next t ∧
      (t.quad (quadOf s.myCore)).pat = (if v.toNat % 65536 = 0 then 1 else v.extractLsb' 0 16) ∧
      (t.quad (quadOf s.myCore)).eff = (s.quad (quadOf s.myCore)).eff ∧ SameMemory s t) ∧
    (∃ t, exec (.swr a 0xCB) s = .next t ∧
      (t.core s.myCore).looplate = (s.core s.myCore).looplate &&& ~~~(v.extractLsb' 0 32) ∧ SameMemory s t))

namespace Sys2Proof.Claims

/-- The instruction waits at its place: the strand is in WAIT and nothing else changes. -/
def Waits (i : Instr) (s : State) (w : Await) : Prop :=
  ∃ t, exec i s = .next t ∧ OnlySelf s t ∧ t.self = { s.self with st := .wait w }

/-- An accepted operation of the running strand in one of the named engines has not completed. -/
def Outstanding (s : State) (kinds : List Nat) : Prop :=
  ∃ o ∈ s.ops, o.slot = s.cur ∧ ∃ k ∈ o.work.kinds, k ∈ kinds

end Sys2Proof.Claims

/-- R331: a drain completes when no operation of its own strand is left in its engine, and waits in WAIT until then;
R53 and R387 make FCTL and TILESTAT wait in the same way. -/
def Sys2Proof.Claims.DrainsWaitForTheirEngine : Prop :=
  ∀ s : State,
    ∀ p ∈ ([(.drainPln, [0]), (.drainSpm, [1]), (.drainFold, [2]), (.drainBk, [3]), (.drainAq, [4])] : List (Instr × List Nat)),
      (¬ Outstanding s p.2 → GoesTo p.1 s (s.self.pc + 4)) ∧ (Outstanding s p.2 → Waits p.1 s (.engines p.2)) ∧
      (Outstanding s [5] → ∀ a d, Waits (.swr a 0x8) s (.engines [5]) ∧ Waits (.srd d 0x8) s (.engines [5])) ∧
      (Outstanding s [6] → ∀ d, Waits (.srd d 0x91) s (.engines [6]))

/-- R300: `waitc` completes when each of the four counts is at most its field, a field of 15 never waiting, and waits
until then. -/
def Sys2Proof.Claims.WaitcComparesTheFourCounts : Prop :=
  ∀ (s : State) (l c k m : BitVec 4),
    let holds : Prop := (s.self.cntL ≤ l.toNat ∨ l = 15) ∧ (s.self.cntS ≤ c.toNat ∨ c = 15) ∧
      (s.self.cntC ≤ k.toNat ∨ k = 15) ∧ (s.self.cntT ≤ m.toNat ∨ m = 15)
    (holds → GoesTo (.waitc l c k m) s (s.self.pc + 4)) ∧
    (¬ holds → Waits (.waitc l c k m) s (.counts l.toNat c.toNat k.toNat m.toNat))

/-! ### Scalar memory (10_memory.md, 13_order.md) -/

namespace Sys2Proof.Claims

/-- An address translates, without a fault or a wait and with nothing to fill, to a place at the same offset of its
4 KiB page: by the boot context's identity map, or by a translation that the TLBs hold. -/
def Reaches (s : State) (va : Word) (k : Access) (p : Place) : Prop :=
  s.translate va k = .ok p s ∧ va.toNat < 2 ^ 48

/-- Scalar displacement addressing (R318). -/
def address (s : State) (a : BitVec 5) (disp : BitVec 12) : Word := BitVec.ofInt 64 ((s.getG a).toInt + disp.toInt)

/-- What a load of `n` bytes delivers of the value read (R318). -/
def extended (signed : Bool) (n v : Nat) : Word :=
  BitVec.ofInt 64 (if signed && decide (2 ^ (8 * n - 1) ≤ v) then (v : Int) - 2 ^ (8 * n) else v)

/-- The scalar loads and stores with their sizes and extensions (R317, R318). -/
def loadForms (d a : BitVec 5) (e : BitVec 12) : List (Instr × Nat × Bool) :=
  [(.ldB d a e, 1, true), (.ldBn d a e, 1, false), (.ldH d a e, 2, true), (.ldHn d a e, 2, false),
   (.ldW d a e, 4, true), (.ldWn d a e, 4, false), (.ldD d a e, 8, false)]
def storeForms (d a : BitVec 5) (e : BitVec 12) : List (Instr × Nat) :=
  [(.stB d a e, 1), (.stH d a e, 2), (.stW d a e, 4), (.stD d a e, 8)]

/-- Other strands keep everything, but that links on a line written are broken (R410). -/
def OthersKeep (s t : State) (line : Option Nat) : Prop :=
  ∀ n, n ≠ s.cur → t.strand n = (s.strand n).map fun u =>
    match line with
    | none => u
    | some l => { u with slink := if u.slink = some l then none else u.slink
                         vlinks := u.vlinks.filter fun e => e.2 ≠ l }

/-- Exactly the `n` bytes from `pa` receive the low bytes of `v`, lowest first; every other byte reads as before. -/
def StoresAt (s t : State) (pa n v : Nat) : Prop :=
  ∀ x, t.byteAt x = if pa ≤ x ∧ x < pa + n then BitVec.ofNat 8 (v / 256 ^ (x - pa)) else s.byteAt x

/-- Every byte that its home, a host line or a scratchpad delivers is as before; a line that a cache gave up may have gone to
its home's DRAM. -/
def SameReads (s t : State) : Prop :=
  (∀ a, t.byteAt a = s.byteAt a) ∧ (∀ a, t.hostByte a = s.hostByte a) ∧
    ∀ c o, s.cache.find (spadPa c o / 64) = none → t.spadByte c o = s.spadByte c o

/-- Every bank of every L1D and L2 slice has room for a line (R27). -/
def CachesHaveRoom (s : State) : Prop := ∀ u b, (s.residents u b).length < unitLines u

/-- The lines of peers that are not served for the running strand alone (R430). -/
def keptPeer (s : State) : List PeerLine := s.peer.filter fun l => l.once ≠ some s.cur

/-- The counters of the launches after an access of the running strand to a row of a scratchpad: one whose bank a refresh
takes in this clk waits behind it for a clk (R312, R474). -/
def afterRefresh (s : State) (core row : Nat) : Annex :=
  if s.refreshNow core (row / 1024) then
    { s.annex with launches := s.annex.launches.map fun (l : Launch) =>
        if (s.strand s.cur).any (fun u => l.id = u.bind.launch) then { l with trefr := min (l.trefr + 1) (2 ^ 64 - 1) } else l }
  else s.annex

end Sys2Proof.Claims

/-- R318: a scalar load of device memory delivers the `n` bytes at its address, little-endian and extended, and changes
no byte of memory and nothing else of its strand. -/
def Sys2Proof.Claims.ScalarLoadsReadMemory : Prop :=
  ∀ (s : State) (d a : BitVec 5) (e : BitVec 12) (pa : Nat),
    let va := address s a e
    Reaches s va .read (.dev pa) → pa % 4096 = va.toNat % 4096 → PlainAt s pa → s.self.resumed = false →
    ∀ f ∈ loadForms d a e, va.toNat % f.2.1 = 0 →
      ∃ t, exec f.1 s = .next t ∧ GetsG s t d (extended f.2.2 f.2.1 (leRead s.byteAt pa f.2.1)) ∧
        t.self = { s.self with g := t.self.g, pc := s.self.pc + 4 } ∧
        OthersKeep s t none ∧ SameReads s t ∧
        t = { s with strands := t.strands, copies := t.copies, peer := t.peer, cache := t.cache, mem := t.mem
                     errs := t.errs, freeCtr := t.freeCtr } ∧
        (CachesHaveRoom s → SameMemory s t ∧ t = { s with strands := t.strands, copies := t.copies, peer := keptPeer s })

/-- R318, R408, R410: a scalar store writes the low `n` bytes of its register at its address and nothing else; it breaks
every link on the line and calls back every copy of it that a host holds. -/
def Sys2Proof.Claims.ScalarStoresWriteMemory : Prop :=
  ∀ (s : State) (d a : BitVec 5) (e : BitVec 12) (pa : Nat),
    let va := address s a e
    s.cur < 1536 → Reaches s va .write (.dev pa) → pa % 4096 = va.toNat % 4096 → PlainAt s pa → s.self.resumed = false →
    ∀ f ∈ storeForms d a e, va.toNat % f.2 = 0 →
      ∃ t, exec f.1 s = .next t ∧ StoresAt s t pa f.2 (s.getG d).toNat ∧
        t.self = { s.self with pc := s.self.pc + 4, slink := t.self.slink, vlinks := t.self.vlinks } ∧
        t.self.slink = (if s.self.slink = some (pa / 64) then none else s.self.slink) ∧
        (∀ x, x ∈ t.self.vlinks ↔ x ∈ s.self.vlinks ∧ x.2 ≠ pa / 64) ∧
        OthersKeep s t (some (pa / 64)) ∧
        t.hostCopies = s.hostCopies.filter (fun e => e.2 ≠ pa / 64) ∧
        t.out = (s.hostCopies.filter fun e => e.2 = pa / 64).map
          (fun e => .backInvalidate e.1 s.sender.2 (pa / 64)) ++ s.out ∧
        t = { s with strands := t.strands, cache := t.cache, copies := t.copies, errs := t.errs, rlinks := t.rlinks
                     hostCopies := t.hostCopies, out := t.out, mem := t.mem, peer := t.peer, freeCtr := t.freeCtr } ∧
        (CachesHaveRoom s → t.mem = s.mem ∧ t.peer = s.peer ∧ t.freeCtr = s.freeCtr)

/-- R319: the checks of a scalar access in order. Bits [63:48] give the translation fault, then an address that is no
multiple of the size gives the misalignment fault; both are precise, and the access makes no change. -/
def Sys2Proof.Claims.ScalarAccessChecksItsAddress : Prop :=
  ∀ (s : State) (d a b : BitVec 5) (e : BitVec 12),
    let va := address s a e
    (∀ p ∈ (loadForms d a e).map (fun f => (f.1, f.2.1)) ++ storeForms d a e ++ [(.gl d a e, 8)],
      (va.extractLsb' 48 16 ≠ 0 → Traps p.1 s 0x06 va s.self.pc) ∧
      (va.extractLsb' 48 16 = 0 → va.toNat % p.2 ≠ 0 → Traps p.1 s 0x05 va s.self.pc)) ∧
    ((s.getG a).extractLsb' 48 16 ≠ 0 → Traps (.sc d a b) s 0x06 (s.getG a) s.self.pc) ∧
    ((s.getG a).extractLsb' 48 16 = 0 → (s.getG a).toNat % 8 ≠ 0 → Traps (.sc d a b) s 0x05 (s.getG a) s.self.pc)

/-- R444: in the boot context an address of a hole or of the reservoir takes the access fault, and no store of it
happens. -/
def Sys2Proof.Claims.BootContextHolesFault : Prop :=
  ∀ (s : State) (d a : BitVec 5) (e : BitVec 12),
    let va := address s a e
    s.inBoot s.self.ctxid = true → va.toNat < 2 ^ 48 → isDevMem va.toNat = false → isSpad va.toNat = false →
    ∀ p ∈ (loadForms d a e).map (fun f => (f.1, f.2.1)) ++ storeForms d a e ++ [(.gl d a e, 8)],
      va.toNat % p.2 = 0 → Traps p.1 s 0x07 va s.self.pc

/-- R167, R304, R317, R318: a scalar load of a host page delivers the bytes that the reservoir holds of its line, or that it
fetches, decoded where the line lies in a view (R169); a store takes the line exclusively and writes the `n` bytes there. No
other byte changes. -/
def Sys2Proof.Claims.ScalarHostAccesses : Prop :=
  ∀ (s : State) (d a : BitVec 5) (e : BitVec 12) (hpa : Nat),
    let va := address s a e
    let now (x : Nat) : Byte :=
      match s.resv.find (x / 64), s.viewOf (64 * (x / 64)) with
      | some l, _ => lineByte l.data (x % 64)
      | none, some (base, fmt) => s.viewByte base fmt (x - base)
      | none, none => s.hostRaw x
    hpa % 4096 = va.toNat % 4096 → s.self.resumed = false →
    (Reaches s va .read (.host hpa) → s.hostAway hpa false = false →
      (∀ l, (s.fillResv (hpa / 64)).resv.find (hpa / 64) = some l → l.poisoned = false) →
      ∀ f ∈ loadForms d a e, va.toNat % f.2.1 = 0 →
        ∃ t, exec f.1 s = .next t ∧ GetsG s t d (extended f.2.2 f.2.1 (leRead now hpa f.2.1)) ∧
          t.self = { s.self with g := t.self.g, pc := s.self.pc + 4 } ∧
          (∀ x, t.hostByte x = if x / 64 = hpa / 64 then now x else s.hostByte x) ∧
          t = { s.setSelf t.self with resv := t.resv, peer := keptPeer s }) ∧
    (Reaches s va .write (.host hpa) → s.hostAway hpa true = false → s.leased (hostLine hpa) = false →
      ∀ f ∈ storeForms d a e, va.toNat % f.2 = 0 →
        ∃ t l, exec f.1 s = .next t ∧ t.self.pc = s.self.pc + 4 ∧ OthersKeep s t (some (hostLine hpa)) ∧
          (∀ x, t.hostByte x =
            if hpa ≤ x ∧ x < hpa + f.2 then BitVec.ofNat 8 ((s.getG d).toNat / 256 ^ (x - hpa))
            else if x / 64 = hpa / 64 then now x else s.hostByte x) ∧
          t.resv.find (hpa / 64) = some l ∧ l.dirty = true ∧ l.owned = true ∧
          t = { s with strands := t.strands, resv := t.resv, rlinks := t.rlinks, hostCopies := t.hostCopies, out := t.out })

/-- R173, R174, R417: a scalar load of a vitrine page of this device delivers the bytes below the accession pointer and 0 from
there on, from its home or from the cast that the basin holds; a page that is FREE or of another generation takes the
stale-cast fault. -/
def Sys2Proof.Claims.VitrineLoads : Prop :=
  ∀ (s : State) (d a : BitVec 5) (e : BitVec 12) (pa : Nat) (gen : BitVec 16),
    let va := address s a e
    let fr := s.frame (pa / 65536)
    let away : Prop := s.myBasin ≠ paBasin pa ∧ (s.basin s.myBasin).poolOn = true
    Reaches s va .read (.vitrine pa gen) → pa % 4096 = va.toNat % 4096 → s.self.resumed = false →
    ∀ f ∈ loadForms d a e, va.toNat % f.2.1 = 0 →
      (∀ c, away → s.findCast s.myBasin none (pa / 65536) gen = some c →
        ∃ t, exec f.1 s = .next t ∧ GetsG s t d (extended f.2.2 f.2.1 (leRead (fun x => Table.get 0 c.data x) (pa % 65536) f.2.1)) ∧
          t.self = { s.self with g := t.self.g, pc := s.self.pc + 4 } ∧ t = { s.setSelf t.self with peer := keptPeer s }) ∧
      ((away → s.findCast s.myBasin none (pa / 65536) gen = none) →
        (fr.gen = gen → fr.state ≠ 0 → (∀ x ∈ s.errs, x.1 / 4 ≠ pa / 64) →
          ∃ t, exec f.1 s = .next t ∧
            GetsG s t d (extended f.2.2 f.2.1 (leRead (fun x => if x % 65536 < fr.ptr then s.byteAt x else 0) pa f.2.1)) ∧
            t.self = { s.self with g := t.self.g, pc := s.self.pc + 4 } ∧
            t = { s.setSelf t.self with peer := keptPeer s, casts := t.casts } ∧
            (¬ (away ∧ fr.state = 2) → t.casts = s.casts)) ∧
        (fr.gen ≠ gen ∨ fr.state = 0 → Traps f.1 s 0x09 va s.self.pc))

/-- R305, R405, R406, R432, R436: a scalar load of a peer's page delivers the bytes of the cast, of the leased copy or of the line
served for it that is here, and otherwise asks the owner and waits; a store sends the owner one message with the bytes, waits,
and completes once it is answered, and with it the copies of the line that this device holds go. -/
def Sys2Proof.Claims.ScalarPeerAccesses : Prop :=
  ∀ (s : State) (d a : BitVec 5) (e : BitVec 12) (dv : BitVec 12) (pa : Nat) (pv : Bool) (gen : BitVec 16),
    let va := address s a e
    pa % 4096 = va.toNat % 4096 → s.self.resumed = false →
    (Reaches s va .read (.peer dv pa pv gen) → ∀ f ∈ loadForms d a e, va.toNat % f.2.1 = 0 →
      let gets (w : Nat) : Prop :=
        ∃ t, exec f.1 s = .next t ∧ GetsG s t d (extended f.2.2 f.2.1 w) ∧
          t.self = { s.self with g := t.self.g, pc := s.self.pc + 4 } ∧ t = { s.setSelf t.self with peer := keptPeer s }
      let cast : Option Cast := if pv then s.findCast s.myBasin (some dv) (pa / 65536) gen else none
      (∀ c, cast = some c → gets (leRead (fun x => Table.get 0 c.data x) (pa % 65536) f.2.1)) ∧
      (cast = none → (∀ l, s.findPeer dv (pa / 64) = some l → l.poisoned = false →
          gets (leRead (fun x => lineByte l.data x) (pa % 64) f.2.1)) ∧
        (s.findPeer dv (pa / 64) = none → s.self.answers = [] → (pv = true → (s.basin s.myBasin).poolOn = false) →
          ∃ t, exec f.1 s = .next t ∧
            t.self = { s.self with sentAt := s.clk, st := .wait (.peer s.nextId 1 (s.peerUnit (pa / 64))) } ∧
            t = { s.setSelf t.self with nextId := s.nextId + 1, out := t.out } ∧
            t.out = .aq dv s.sender.1 s.sender.2 (portsOf (s.peerEntry dv) 0)
              (.readLine (BitVec.ofNat 52 (pa / 64 * 64)) (s.aqSync && !pv) [] (if pv then some gen else none) s.nextId) :: s.out))) ∧
    (Reaches s va .write (.peer dv pa pv gen) → s.leased (peerLineKey dv pa) = false →
      ∀ f ∈ storeForms d a e, va.toNat % f.2 = 0 →
        (s.self.answers = [] → ∃ t data mask, exec f.1 s = .next t ∧
          t.self = { s.self with placed := [(va, .peer dv pa pv gen)], sentAt := s.clk, st := .wait (.peer s.nextId 1 0) } ∧
          t = { s.setSelf t.self with nextId := s.nextId + 1, out := t.out } ∧
          t.out = .aq dv s.sender.1 s.sender.2 (portsOf (s.peerEntry dv) 0)
            (.writeLine (BitVec.ofNat 52 (64 * (pa / 64))) data mask s.nextId) :: s.out ∧
          (∀ i, i < 64 → mask.getLsbD i = decide (pa % 64 ≤ i ∧ i < pa % 64 + f.2)) ∧
          ∀ i, i < f.2 → lineByte data (pa % 64 + i) = BitVec.ofNat 8 ((s.getG d).toNat / 256 ^ i)) ∧
        (s.self.answers ≠ [] → ∃ t, exec f.1 s = .next t ∧
          t.self = { s.self with answers := [], placed := [], pc := s.self.pc + 4 } ∧
          t = { s.setSelf t.self with peer := s.peer.filter fun l => !(l.dev = dv && l.line = pa / 64) }))

/-- R314, R315, R474: a scalar load of a scratchpad row delivers its bytes; of an expired row it delivers 0 and sets EXPS, or
under EXPTE takes the precise expired-read trap with EXPS set and its register unchanged. An access that meets the bank's
refresh waits behind it, and its launch counts the clk. -/
def Sys2Proof.Claims.ScratchpadLoads : Prop :=
  ∀ (s : State) (d a : BitVec 5) (e : BitVec 12) (core off : Nat),
    let va := address s a e
    let row := off / 64
    Reaches s va .read (.spad core off) → s.self.resumed = false → s.vec = false →
    ∀ f ∈ loadForms d a e, va.toNat % f.2.1 = 0 →
      let loads (v : Word) (exps : Bool) : Prop :=
        ∃ t, exec f.1 s = .next t ∧ GetsG s t d v ∧ SameMemory s t ∧
          t.self = { s.self with g := t.self.g, pc := s.self.pc + 4, exps := exps } ∧
          t = { s.setSelf t.self with peer := keptPeer s, annex := afterRefresh s core row }
      (s.expired core row = false → loads (extended f.2.2 f.2.1 (leRead (s.spadByte core) off f.2.1)) s.self.exps) ∧
      (s.expired core row = true → s.self.expte = false → loads 0 true) ∧
      (s.expired core row = true → s.self.expte = true → s.self.exl = false →
        ∃ t, exec f.1 s = .next t ∧ TrapEntered s t 0x0B va s.self.pc ∧ t.self.exps = true)

/-- R311, R314: a scalar store to a scratchpad window writes its bytes and no others, but that the rest of an expired row becomes
0 first; the row counts as written now, and every link on its line breaks (R410). -/
def Sys2Proof.Claims.ScratchpadStores : Prop :=
  ∀ (s : State) (d a : BitVec 5) (e : BitVec 12) (core off : Nat),
    let va := address s a e
    let row := off / 64
    let pa := 2 ^ 40 + core * 2 ^ 32 + off
    Reaches s va .write (.spad core off) → s.leased (pa / 64) = false → s.self.resumed = false → s.vec = false →
    ∀ f ∈ storeForms d a e, va.toNat % f.2 = 0 →
      ∃ t, exec f.1 s = .next t ∧
        (∀ x, t.rawByte x =
          if pa ≤ x ∧ x < pa + f.2 then BitVec.ofNat 8 ((s.getG d).toNat / 256 ^ (x - pa))
          else if x / 64 = pa / 64 ∧ s.expired core row = true then 0 else s.rawByte x) ∧
        (t.core core).rowClk.find row = some s.clk ∧ (t.core core).rowDead.get false row = false ∧
        (t.core core).rowReported.get false row = false ∧
        t.core core = { s.core core with rowClk := (t.core core).rowClk, rowDead := (t.core core).rowDead
                                         rowReported := (t.core core).rowReported, rowDue := (t.core core).rowDue } ∧
        (∀ r, r ≠ row → (t.core core).rowClk.find r = (s.core core).rowClk.find r ∧
          (t.core core).rowDead.get false r = (s.core core).rowDead.get false r) ∧
        (∀ c, c ≠ core → t.core c = s.core c) ∧ OthersKeep s t (some (pa / 64)) ∧
        t.self = { s.self with pc := s.self.pc + 4, slink := t.self.slink, vlinks := t.self.vlinks } ∧
        t = { s with strands := t.strands, mem := t.mem, cores := t.cores, rlinks := t.rlinks, hostCopies := t.hostCopies
                     out := t.out, annex := afterRefresh s core row }

/-- R412, R413: `gl` loads a dword and links its line; `sc` stores and answers 1 exactly when the link is intact and
names the line of its address, answers 0 with no write otherwise, and leaves no link. -/
def Obligations.LoadLinkedStoreConditional : Prop :=
  ∀ (s : State) (d a b : BitVec 5) (e : BitVec 12) (pa : Nat), pa % 8 = 0 → PlainAt s pa → s.self.resumed = false →
    (let va := address s a e
     Reaches s va (.link false) (.dev pa) → va.toNat % 8 = 0 →
      ∃ t, exec (.gl d a e) s = .next t ∧ GetsG s t d (extended false 8 (leRead s.byteAt pa 8)) ∧
        t.self = { s.self with g := t.self.g, pc := s.self.pc + 4, slink := some (pa / 64) } ∧
        OthersKeep s t none ∧ SameReads s t ∧ (CachesHaveRoom s → SameMemory s t)) ∧
    (Reaches s (s.getG a) (.link true) (.dev pa) → (s.getG a).toNat % 8 = 0 →
      (s.self.slink = some (pa / 64) →
        ∃ t, exec (.sc d a b) s = .next t ∧ GetsG s t d 1 ∧ StoresAt s t pa 8 (s.getG b).toNat ∧
          t.self.slink = none ∧ t.self.pc = s.self.pc + 4 ∧ OthersKeep s t (some (pa / 64))) ∧
      (s.self.slink ≠ some (pa / 64) →
        ∃ t, exec (.sc d a b) s = .next t ∧ OnlySelf s t ∧ GetsG s t d 0 ∧
          t.self = { s.self with g := t.self.g, pc := s.self.pc + 4, slink := none }))

/-- R418: `apnd` at an OPEN page zeroes up to the aligned pointer, writes the register's bytes there, moves the pointer
behind them and delivers the offset; it delivers all ones and writes nothing when they do not fit, and takes the
write-after-seal or the stale-cast fault. -/
def Sys2Proof.Claims.VitrineAppend : Prop :=
  ∀ (s : State) (d a b : BitVec 5) (z : BitVec 2) (pa : Nat) (gen : BitVec 16),
    let va := s.getG a
    let f := pa / 65536
    let fr := s.frame f
    let n := 2 ^ z.toNat
    let at_ := (fr.ptr + n - 1) / n * n
    Reaches s va .append (.vitrine pa gen) → s.self.resumed = false →
    (fr.gen ≠ gen ∨ fr.state = 0 → Traps (.apnd d a b z) s 0x09 va s.self.pc) ∧
    (fr.gen = gen → fr.state = 2 → Traps (.apnd d a b z) s 0x0A (va &&& ~~~(0xFFFF : Word)) s.self.pc) ∧
    (fr.gen = gen → fr.state = 1 → 65536 < at_ + n → Delivers (.apnd d a b z) s d (BitVec.allOnes 64)) ∧
    (fr.gen = gen → fr.state = 1 → at_ + n ≤ 65536 → (∀ x, s.migOf x = []) →
      ∃ t, exec (.apnd d a b z) s = .next t ∧ GetsG s t d (BitVec.ofNat 64 at_) ∧ t.self.pc = s.self.pc + 4 ∧
        t.frame f = { fr with ptr := at_ + n } ∧ (∀ g, g ≠ f → t.frame g = s.frame g) ∧
        ∀ x, t.byteAt x =
          if f * 65536 + fr.ptr ≤ x ∧ x < f * 65536 + at_ then 0
          else if f * 65536 + at_ ≤ x ∧ x < f * 65536 + at_ + n then
            BitVec.ofNat 8 ((s.getG b).toNat / 256 ^ (x - (f * 65536 + at_)))
          else s.byteAt x)

/-- R420, R421: `seal` makes the frame SEALED and changes no byte; `sealq` delivers whether it is sealed and its
accession pointer. -/
def Sys2Proof.Claims.VitrineSealAndQuery : Prop :=
  ∀ (s : State) (d a : BitVec 5) (pa : Nat) (gen : BitVec 16),
    let va := s.getG a
    let f := pa / 65536
    let fr := s.frame f
    fr.gen = gen → fr.state ≠ 0 → s.self.resumed = false →
    (Reaches s va .append (.vitrine pa gen) →
      ∃ t, exec (.seal a) s = .next t ∧ t.frame f = { fr with state := 2 } ∧ (∀ g, g ≠ f → t.frame g = s.frame g) ∧
        t = { s with frames := t.frames, strands := (s.setSelf { s.self with pc := s.self.pc + 4 }).strands }) ∧
    (Reaches s va .query (.vitrine pa gen) → s.castFor (.vitrine pa gen) = none →
      Delivers (.sealq d a) s d (BitVec.ofNat 64 ((if fr.state = 2 then 2 ^ 63 else 0) + fr.ptr % 2 ^ 17)))

/-! ### Fences, caches and translations -/

namespace Sys2Proof.Claims

/-- The weir lets an instruction of this charge pass now (R292): it has admitted it already, or the strand runs, the queue
is empty, the governor does not hold the core's weir, and the cistern has room. -/
def WeirOpen (s : State) (ch : Charge) : Prop :=
  s.self.weirPass.isSome = true ∨
    s.self.st ≠ .wait .weir ∧ (s.core s.myCore).queue = [] ∧ s.held s.myBasin = false ∧
      (((s.core s.myCore).settle s.clk).inForce s.clk).admits
        ((((s.core s.myCore).settle s.clk).inForce s.clk).cost ch) = true

/-- The machine when the weir has let the instruction pass: a charge admitted now has raised the cistern. -/
def afterWeir (s : State) (ch : Charge) : State :=
  if s.self.weirPass.isSome then s else s.letThrough s.cur ch

/-- What a strand held for an instruction that waited is gone when the instruction completes. -/
def settled (t : Strand) : Strand :=
  { t with weirPass := none, parked := none, descRead := none, answers := [], placed := [], openCast := [], faultElem := 0
           rowData := [], resumed := false, wrote := false }

end Sys2Proof.Claims

/-- R401, R402: the fences complete; `fence.sys` leaves no dirty line in the reservoir, with every dirty line in host
memory, and while the link to a host that a line must reach is down it waits (R111). No byte that a read returns
changes. -/
def Sys2Proof.Claims.FencesComplete : Prop :=
  ∀ s : State, WeirOpen s [] →
    (∀ i ∈ ([.fenceSv, .fenceVs, .fenceVv] : List Instr),
      ∃ t, exec i s = .next t ∧ t = (afterWeir s []).setSelf { settled s.self with pc := s.self.pc + 4 }) ∧
    (∀ p, s.awayPort (fun _ => true) = some p → exec .fenceSys s =
      .next ((afterWeir s []).setSelf { (afterWeir s []).self with st := .wait (.writeBack p) })) ∧
    (s.awayPort (fun _ => true) = none →
    ∃ t, exec .fenceSys s = .next t ∧ t.self = { settled s.self with pc := s.self.pc + 4 } ∧ SameMemory s t ∧
      ∀ hl l, s.resv.find hl = some l →
        t.resv.find hl = some { l with dirty := false } ∧
        (l.dirty = true → ∀ i, i < 64 → t.hostRaw (64 * hl + i) = l.data.extractLsb' (8 * i) 8))

/-- R328: in the boot context `cclean` brings every dirty line of the range to the home's DRAM, and `cinval` also drops
every copy of it; what the home delivers does not change. A count of 0 does nothing, and a range beyond 2^48 is a precise
translation fault before any line is touched. -/
def Sys2Proof.Claims.CacheMaintenanceReachesTheHome : Prop :=
  ∀ (s : State) (a b : BitVec 5) (inval : Bool),
    let i : Instr := if inval then .cinval a b else .cclean a b
    let lo := (s.getG a).toNat
    let n := (s.getG b).toNat
    (n = 0 → GoesTo i s (s.self.pc + 4)) ∧
    (n ≠ 0 → (2 ^ 48 ≤ lo ∨ 2 ^ 48 < lo + n) → Traps i s 0x06 (s.getG a) s.self.pc) ∧
    (n ≠ 0 → lo + n ≤ 2 ^ 48 → s.inBoot s.self.ctxid = true →
      (∀ x, lo ≤ x → x < lo + n → isDevMem x = true ∧ s.inPool x = false) → (∀ x, s.migOf x = []) →
      ∃ t, exec i s = .next t ∧ t.self = { s.self with pc := s.self.pc + 4 } ∧ (∀ x, t.byteAt x = s.byteAt x) ∧
        (∀ x, lo / 64 ≤ x / 64 → x / 64 ≤ (lo + n - 1) / 64 → t.rawByte x = s.byteAt x) ∧
        (∀ l, lo / 64 ≤ l → l ≤ (lo + n - 1) / 64 → t.cache.find l = none) ∧
        (inval = true → ∀ e ∈ t.copies, ¬ (lo / 64 ≤ e.1 / 2048 ∧ e.1 / 2048 ≤ (lo + n - 1) / 64)))

namespace Sys2Proof.Claims

/-- A strand waits for a peer, or for its accesses in the FIFOs of banks: an access of it is begun and not performed. -/
def WaitsForPeer (t : Strand) : Prop :=
  (∃ tok n u, t.st = .wait (.peer tok n u)) ∨ (∃ dv f g pa tok, t.st = .wait (.cast dv f g pa tok)) ∨
    ∃ tok n, t.st = .wait (.bank tok n)

end Sys2Proof.Claims

/-- R330: `tlbinv` drops, of every context and of the whole device, exactly the translations that its selector names, and
completes at once when no access begun before it is pending, neither an engine command nor an access at a peer or in a bank; a
selector with a reserved bit set drops all. Another strand changes at most in that a walk that it waits for ends, and that it
translates anew what it had not begun to access. -/
def Sys2Proof.Claims.TlbinvDropsWhatItNames : Prop :=
  ∀ (s : State) (a b : BitVec 5), s.self.cur = true → s.self.st = .run → s.ops = [] →
    (∀ e ∈ s.strands, ¬ WaitsForPeer e.2) →
    let sel := s.getG a
    let va := (s.getG b).toNat
    let ctx : BitVec 16 := sel.extractLsb' 16 16
    let scope := if sel.extractLsb' 32 32 ≠ 0 ∨ sel.extractLsb' 2 14 ≠ 0 then 0 else sel.toNat % 4
    let named (ectx : BitVec 16) (glob : Bool) (base size : Nat) : Prop :=
      scope = 0 ∨ (scope = 1 ∧ glob = false ∧ ectx = ctx) ∨
        (scope = 2 ∧ base ≤ va ∧ va < base + size ∧ (glob = true ∨ ectx = ctx)) ∨
        (scope = 3 ∧ base ≤ va ∧ va < base + size)
    ∃ t, exec (.tlbinv a b) s = .next t ∧
      t.self = { s.self with pc := s.self.pc + 4, snap := none, genRead := none
                             placed := if s.self.answers.isEmpty && !s.self.resumed then [] else s.self.placed } ∧
      SameMemory s t ∧
      (∀ e, e ∈ t.tlb ↔ e ∈ s.tlb ∧ ¬ named e.ctx e.glob e.vbase e.size) ∧
      (∀ e, e ∈ t.ats ↔ e ∈ s.ats ∧ ¬ named e.ctx false e.vbase e.size) ∧
      t = { s with strands := t.strands, tlb := t.tlb, ats := t.ats } ∧
      ∀ n u, n ≠ s.cur → s.strand n = some u → ∃ p, (u.answers = [] → u.resumed = false → p = []) ∧ (p = [] ∨ p = u.placed) ∧
        let walk : Prop := ∃ page, ((∃ x w, u.st = .wait (.ats x page w)) ∨ ∃ x, u.st = .wait (.fill x page)) ∧
          named u.ctxid false (page * 4096) 4096
        (walk → u.yields = false → t.strand n = some { u with st := .run, placed := p, genRead := none }) ∧
        (¬ walk ∨ u.yields = true → t.strand n = some { u with placed := p, genRead := none })

/-- R458: `vfree` frees an OPEN or SEALED frame, advances its generation and clears its pointer, and does not change a
FREE one; a misaligned address is the precise misalignment trap, and one outside device memory or in an enabled cast
pool the precise access trap. Data are not cleared. -/
def Sys2Proof.Claims.VfreeAdvancesTheGeneration : Prop :=
  ∀ (s : State) (a : BitVec 5), s.self.cur = true →
    let pa := (s.getG a).toNat
    let f := pa / 65536
    (pa % 65536 ≠ 0 → Traps (.vfree a) s 0x05 (s.getG a) s.self.pc) ∧
    (pa % 65536 = 0 → (isDevMem pa = false ∨ s.inPool pa = true) → Traps (.vfree a) s 0x07 (s.getG a) s.self.pc) ∧
    (pa % 65536 = 0 → isDevMem pa = true → s.inPool pa = false →
      ∃ t, exec (.vfree a) s = .next t ∧ t.self = { s.self with pc := s.self.pc + 4 } ∧ SameMemory s t ∧
        t.frame f = (if (s.frame f).state = 0 then s.frame f else ⟨0, 0, (s.frame f).gen + 1⟩) ∧
        ∀ g, g ≠ f → t.frame g = s.frame g)

/-! ### Vector instructions (08_vector.md) -/

namespace Sys2Proof.Claims

/-- Element `i` is active under a mask field (R247). -/
def isActive (s : State) (k : BitVec 3) (i : Nat) : Bool :=
  decide (i < s.self.vn) && (decide (k = 0) || (Table.get 0 s.self.k k.toNat).getLsbD i)

/-- A mask register read as a source (R247): k0 is 1 below VN. -/
def maskBit (s : State) (k : BitVec 3) (i : Nat) : Bool :=
  if k = 0 then decide (i < s.self.vn) else (Table.get 0 s.self.k k.toNat).getLsbD i

/-- How many elements are active: the units of a charge (R291). -/
def actives (s : State) (k : BitVec 3) : Nat := (List.range s.self.vn).countP fun i => isActive s k i

/-- A vector instruction passes: its weir is open for its charge, and VN × wmax is within VLEN (R248), for a strand that
owns at most eight lane groups and 4,096 elements (R241, R245). -/
def VReady (s : State) (ch : Charge) (wmax : Nat) : Prop :=
  WeirOpen s ch ∧ s.self.vn * wmax ≤ s.self.vlen ∧ s.self.lgc.toNat ≤ 3 ∧ s.self.vn ≤ 4096

/-- The instruction completes: the fetch goes on behind it, of the machine only its strand changes, to `u`, and the
cistern by its charge; no byte of memory changes. -/
def VDone (i : Instr) (s : State) (ch : Charge) (P : Strand → Prop) : Prop :=
  ∃ u t, exec i s = .next t ∧ t = (afterWeir s ch).setSelf { settled u with pc := s.self.pc + 4 } ∧ SameMemory s t ∧ P u

/-- The elements of `vd` that `written` names receive an integer's low `w` bits; every other element, every bit above
VN × w, every other register and everything else of the strand keep their values, but for the flags of the written
elements, which FCTL collects (R44, R51, R247). -/
def Elements (s : State) (d : BitVec 5) (w : Nat) (written : Nat → Bool) (res : Nat → Int) (fl : Nat → FFlags)
    (sat : Nat → Bool) (u : Strand) : Prop :=
  u = { s.self with v := u.v, fflags := u.fflags, sat := u.sat } ∧
  (∀ i, i < s.self.vn → elem (u.getV d) w i =
    if written i then (res i % (2 : Int) ^ w).toNat else elem (s.self.getV d) w i) ∧
  (u.getV d).toNat / 2 ^ (w * s.self.vn) = (s.self.getV d).toNat / 2 ^ (w * s.self.vn) ∧
  (∀ r, r ≠ d → u.getV r = s.self.getV r) ∧
  (∀ n, u.fflags.getLsbD n =
    (s.self.fflags.getLsbD n || (List.range s.self.vn).any fun i => written i && (fl i).getLsbD n)) ∧
  u.sat = (s.self.sat || (List.range s.self.vn).any fun i => written i && sat i)

/-- A mask destination: bit `i` is `bits i` below VN and 0 from VN up; k0 is no destination; other masks and everything
else of the strand keep their values, but for float flags (R247). -/
def MaskBits (s : State) (d : BitVec 3) (bits : Nat → Bool) (fl : Nat → FFlags) (u : Strand) : Prop :=
  u = { s.self with k := u.k, fflags := u.fflags } ∧
  (∀ i, i < 4096 → d ≠ 0 → (Table.get 0 u.k d.toNat).getLsbD i = (decide (i < s.self.vn) && bits i)) ∧
  (∀ j, j ≠ d.toNat ∨ d = 0 → Table.get 0 u.k j = Table.get 0 s.self.k j) ∧
  (∀ n, u.fflags.getLsbD n = (s.self.fflags.getLsbD n || (List.range s.self.vn).any fun i => (fl i).getLsbD n))

/-- A general register written from the vector stream. -/
def Register (s : State) (d : BitVec 5) (v : Word) (u : Strand) : Prop :=
  u = { s.self with g := u.g } ∧ u.getG d = (if d = 0 then 0 else v) ∧ ∀ r, r ≠ d → u.getG r = s.getG r

def noFlags : Nat → FFlags := fun _ => 0
def noSat : Nat → Bool := fun _ => false

/-- N(v) and S(v) of a w-bit pattern. -/
def sOf (w n : Nat) : Int := if 2 * n < 2 ^ w then n else (n : Int) - 2 ^ w

/-- The value of a pattern under an integer type code (R42). -/
def valueOf (t : BitVec 3) (w n : Nat) : Int := if t.getLsbD 2 then (n : Int) else sOf w n

/-- The width of an integer type code (R42). -/
def widthOf (t : BitVec 3) : Nat := 8 * 2 ^ (t.toNat % 4)

/-- The bounds of an integer type (R41). -/
def lowest (t : BitVec 3) : Int := if t.getLsbD 2 then 0 else -(2 : Int) ^ (widthOf t - 1)
def highest (t : BitVec 3) : Int := if t.getLsbD 2 then (2 : Int) ^ widthOf t - 1 else (2 : Int) ^ (widthOf t - 1) - 1

/-- Sat(x, w) of a type (R43). -/
def clamp (t : BitVec 3) (x : Int) : Int := max (lowest t) (min (highest t) x)

end Sys2Proof.Claims

/-- R256, R247: the integer forms of majors 0x22 and 0x23 on every active element, at every width and signedness code;
inactive and tail elements, the bits above VN × w, the masks, FCTL and every other register keep their values. -/
def Obligations.VectorIntegerForms : Prop :=
  ∀ (s : State) (d a b : BitVec 5) (k t : BitVec 3),
    let w := widthOf t
    let A (i : Nat) : Nat := elem (s.self.getV a) w i
    let B (i : Nat) : Nat := elem (s.self.getV b) w i
    let D (i : Nat) : Nat := elem (s.self.getV d) w i
    let does (x : Instr) (cls : Nat) (f : Nat → Int) : Prop :=
      VReady s [(cls, actives s k)] w → VDone x s [(cls, actives s k)]
        (Elements s d w (isActive s k) f noFlags noSat)
    does (.vadd d a b k t) 0 (fun i => (A i : Int) + B i) ∧
    does (.vsub d a b k t) 0 (fun i => (A i : Int) - B i) ∧
    does (.vrsub d a b k t) 0 (fun i => (B i : Int) - A i) ∧
    does (.vmul d a b k t) 1 (fun i => sOf w (A i) * sOf w (B i)) ∧
    does (.vmulh d a b k t) 1 (fun i => sOf w (A i) * sOf w (B i) / (2 : Int) ^ w) ∧
    does (.vmulhn d a b k t) 1 (fun i => (A i : Int) * B i / (2 : Int) ^ w) ∧
    does (.vmadd d a b k t) 1 (fun i => sOf w (A i) * sOf w (B i) + sOf w (D i)) ∧
    does (.vmin d a b k t) 0 (fun i => min (sOf w (A i)) (sOf w (B i))) ∧
    does (.vmax d a b k t) 0 (fun i => max (sOf w (A i)) (sOf w (B i))) ∧
    does (.vminn d a b k t) 0 (fun i => min (A i : Int) (B i)) ∧
    does (.vmaxn d a b k t) 0 (fun i => max (A i : Int) (B i)) ∧
    does (.vand d a b k t) 0 (fun i => ((A i &&& B i : Nat) : Int)) ∧
    does (.vor d a b k t) 0 (fun i => ((A i ||| B i : Nat) : Int)) ∧
    does (.vxor d a b k t) 0 (fun i => ((A i ^^^ B i : Nat) : Int)) ∧
    does (.vsll d a b k t) 0 (fun i => (A i : Int) * (2 : Int) ^ (B i % w)) ∧
    does (.vsrl d a b k t) 0 (fun i => (A i : Int) / (2 : Int) ^ (B i % w)) ∧
    does (.vsra d a b k t) 0 (fun i => sOf w (A i) / (2 : Int) ^ (B i % w)) ∧
    does (.vmov d a k t) 0 (fun i => (A i : Int)) ∧
    does (.vclz d a k t) 0 (fun i => if A i = 0 then (w : Int) else (w : Int) - 1 - Nat.log2 (A i)) ∧
    does (.vpopc d a k t) 0 (fun i => (((List.range w).countP fun j => (A i).testBit j : Nat) : Int)) ∧
    ∀ n : BitVec 5, n.toNat < w →
      does (.vsllImm d a n k t) 0 (fun i => (A i : Int) * (2 : Int) ^ n.toNat) ∧
      does (.vsrlImm d a n k t) 0 (fun i => (A i : Int) / (2 : Int) ^ n.toNat) ∧
      does (.vsraImm d a n k t) 0 (fun i => sOf w (A i) / (2 : Int) ^ n.toNat)

/-- R257, R44: the saturating forms clamp the exact sum or difference to the type, and set FCTL.SAT when an active
element was clamped. -/
def Sys2Proof.Claims.VectorSaturation : Prop :=
  ∀ (s : State) (d a b : BitVec 5) (k t : BitVec 3),
    let w := widthOf t
    let A (i : Nat) : Int := valueOf t w (elem (s.self.getV a) w i)
    let B (i : Nat) : Int := valueOf t w (elem (s.self.getV b) w i)
    VReady s [(0, actives s k)] w →
      VDone (.vsadd d a b k t) s [(0, actives s k)] (Elements s d w (isActive s k) (fun i => clamp t (A i + B i)) noFlags
        fun i => decide (clamp t (A i + B i) ≠ A i + B i)) ∧
      VDone (.vssub d a b k t) s [(0, actives s k)] (Elements s d w (isActive s k) (fun i => clamp t (A i - B i)) noFlags
        fun i => decide (clamp t (A i - B i) ≠ A i - B i))

/-- R258: `vadc` and `vsbc` process every element below VN with the carry mask, write the carry or borrow of each
element back into it, and clear it from VN up. -/
def Sys2Proof.Claims.VectorCarryChains : Prop :=
  ∀ (s : State) (d a b : BitVec 5) (k t : BitVec 3) (sub : Bool), k ≠ 0 →
    let w := widthOf t
    let c (i : Nat) : Int := if (Table.get 0 s.self.k k.toNat).getLsbD i then 1 else 0
    let x (i : Nat) : Int :=
      if sub then (elem (s.self.getV a) w i : Int) - elem (s.self.getV b) w i - c i
      else (elem (s.self.getV a) w i : Int) + elem (s.self.getV b) w i + c i
    VReady s [(0, s.self.vn)] w →
      VDone (if sub then .vsbc d a b k t else .vadc d a b k t) s [(0, s.self.vn)] fun u =>
        u = { s.self with v := u.v, k := u.k } ∧
        (∀ i, i < s.self.vn → elem (u.getV d) w i = (x i % (2 : Int) ^ w).toNat) ∧
        (u.getV d).toNat / 2 ^ (w * s.self.vn) = (s.self.getV d).toNat / 2 ^ (w * s.self.vn) ∧
        (∀ r, r ≠ d → u.getV r = s.self.getV r) ∧
        (∀ i, i < 4096 → (Table.get 0 u.k k.toNat).getLsbD i =
          (decide (i < s.self.vn) && (decide ((2 : Int) ^ w ≤ x i) || decide (x i < 0)))) ∧
        ∀ j, j ≠ k.toNat → Table.get 0 u.k j = Table.get 0 s.self.k j

/-- R260, R261: merge, the extensions and the narrowings; R249's conditions on their widths hold. -/
def Sys2Proof.Claims.VectorMergeExtendNarrow : Prop :=
  ∀ (s : State) (d a b : BitVec 5) (c k t : BitVec 3),
    let w := widthOf t
    let wc := widthOf c
    let A (i : Nat) : Nat := elem (s.self.getV a) w i
    let B (i : Nat) : Nat := elem (s.self.getV b) w i
    let C (i : Nat) : Nat := elem (s.self.getV a) wc i
    let ch : Charge := [(0, actives s k)]
    (VReady s ch w → VDone (.vmerge d a b k t) s ch
      (Elements s d w (fun i => decide (i < s.self.vn)) (fun i => ((if maskBit s k i then B i else A i : Nat) : Int))
        noFlags noSat)) ∧
    (wc < w → VReady s ch w →
      VDone (.vsext d a c k t) s ch (Elements s d w (isActive s k) (fun i => sOf wc (C i)) noFlags noSat) ∧
      VDone (.vzext d a c k t) s ch (Elements s d w (isActive s k) (fun i => (C i : Int)) noFlags noSat)) ∧
    (w < wc → VReady s ch wc →
      VDone (.vnarrowWrap d a c k t) s ch
        (Elements s d w (isActive s k) (fun i => valueOf c wc (C i)) noFlags noSat) ∧
      VDone (.vnarrowSat d a c k t) s ch
        (Elements s d w (isActive s k) (fun i => clamp t (valueOf c wc (C i))) noFlags
          fun i => decide (clamp t (valueOf c wc (C i)) ≠ valueOf c wc (C i))))

/-- R249: the static conditions of major 0x23, of `vsext`, `vzext`, `vnarrow`, `vfexp2`, `vfrsqrt` and `vdeq` make an
instruction that breaks them the precise illegal-instruction trap. -/
def Sys2Proof.Claims.StaticConditionsTrap : Prop :=
  ∀ (s : State) (d a b n : BitVec 5) (c k t : BitVec 3),
    let w := widthOf t
    let wc := widthOf c
    let illegal (i : Instr) : Prop := Traps i s 0x01 (s.self.word.setWidth 64) s.self.pc
    (w ≤ n.toNat → illegal (.vsllImm d a n k t) ∧ illegal (.vsrlImm d a n k t) ∧ illegal (.vsraImm d a n k t)) ∧
    (w ≤ wc → illegal (.vsext d a c k t) ∧ illegal (.vzext d a c k t)) ∧
    (wc ≤ w → illegal (.vnarrowWrap d a c k t) ∧ illegal (.vnarrowSat d a c k t)) ∧
    illegal (.vfexp2 d a k 3) ∧ illegal (.vfrsqrt d a k 3) ∧
    ∀ x ∈ ([1, 3] : List (BitVec 3)), illegal (.vdeqNq4 d a b k x) ∧ illegal (.vdeqE2m1 d a b k x) ∧ illegal (.vdeqTern d a b k x)

namespace Sys2Proof.Claims

/-- The vector instructions whose vector operands are all of one integer type (R248). -/
def oneWidthForms (d a b n : BitVec 5) (k m t : BitVec 3) : List Instr :=
  [.vadd d a b k t, .vsub d a b k t, .vrsub d a b k t, .vmul d a b k t, .vmulh d a b k t, .vmulhn d a b k t,
   .vmadd d a b k t, .vmin d a b k t, .vmax d a b k t, .vminn d a b k t, .vmaxn d a b k t, .vand d a b k t,
   .vor d a b k t, .vxor d a b k t, .vsll d a b k t, .vsrl d a b k t, .vsra d a b k t, .vsadd d a b k t,
   .vssub d a b k t, .vadc d a b k t, .vsbc d a b k t, .vmerge d a b k t, .vmov d a k t, .vclz d a k t,
   .vpopc d a k t, .vsllImm d a n k t, .vsrlImm d a n k t, .vsraImm d a n k t, .vcmpEq m a b k t, .vcmpNe m a b k t,
   .vcmpLt m a b k t, .vcmpLe m a b k t, .vcmpLtn m a b k t, .vcmpLen m a b k t, .vredsumWrap d a b k t,
   .vredsumSat d a b k t, .vredmin d a b k t, .vredmax d a b k t, .vslideup d a b k t, .vslidedn d a b k t,
   .vperm d a b k t, .vcomp d a k t, .vexpand d a k t, .vbcast d a k t, .vext d a b t, .vins d a b t, .vld d a k t,
   .vst d a k t, .vlds d a b k t, .vsts d a b k t, .vapnd d a b k t, .vldp d a b k t, .vstp d a b k t, .vldsp d a k t,
   .vstsp d a k t]

/-- The same of one float format. -/
def oneFormatForms (d a b : BitVec 5) (k m t pw : BitVec 3) : List Instr :=
  [.vfadd d a b k t, .vfsub d a b k t, .vfmul d a b k t, .vfdiv d a b k t, .vfma d a b k t, .vfnma d a b k t,
   .vfmin d a b k t, .vfmax d a b k t, .vfsqrt d a k t, .vfexp2 d a k t, .vfrsqrt d a k t, .vfcmpEq m a b k t,
   .vfcmpNe m a b k t, .vfcmpLt m a b k t, .vfcmpLe m a b k t, .vfcmpUn m a b k t, .vfredsum d a b k t,
   .vfredmax d a b k t, .vquantI8 d a b k t, .vquantI4 d a b k t, .vquantTern d a b k t, .vquantPi d a b k t pw,
   .vdeqNq4 d a b k t, .vdeqE2m1 d a b k t, .vdeqTern d a b k t]

/-- The others, with the width of their widest vector operand: an index is 32 bits wide (R248, R321, R386). -/
def mixedForms (d a b : BitVec 5) (k m t c : BitVec 3) (y : BitVec 2) (z : BitVec 1) : List (Instr × Nat) :=
  [(.vsext d a c k t, max (widthOf c) (widthOf t)), (.vzext d a c k t, max (widthOf c) (widthOf t)),
   (.vnarrowWrap d a c k t, max (widthOf c) (widthOf t)), (.vnarrowSat d a c k t, max (widthOf c) (widthOf t)),
   (.vfcvt d a y k t, max (FFmt.ofCode y.toNat).width (FFmt.ofCode t.toNat).width),
   (.vfcvtIntToFloat d a c k t, max (widthOf c) (FFmt.ofCode t.toNat).width),
   (.vfcvtFloatToInt d a y k t, max (FFmt.ofCode y.toNat).width (widthOf t)), (.vldx d a b k t, max 32 (widthOf t)),
   (.vstx d a b k t, max 32 (widthOf t)), (.vgl d a b k t, max 32 (widthOf t)), (.vsc d a b k t, max 32 (widthOf t)),
   (.fread d a b y z m, if y = 1 then 64 else 32), (.vissue a k, 32)]

/-- A length fault (R248, R451): no register, mask, flag or byte changes; the instruction is in the vector queue with the record
of the fault, and the strand has stopped for its dump. -/
def LengthFault (s : State) (i : Instr) : Prop :=
  ∃ u, exec i s = .next u ∧
    u.self.g = s.self.g ∧ u.self.v = s.self.v ∧ u.self.k = s.self.k ∧ u.self.fctl = s.self.fctl ∧ SameMemory s u ∧
    u.self.st = .dumping ∧ (∃ q, u.self.vq = s.self.vq ++ [q] ∧ q.word = s.self.word ∧ q.pc = s.self.pc) ∧
    (∀ n, n ≠ s.cur → u.strand n = s.strand n) ∧
    ∃ r, u.self.faults = [r] ∧ r.cause = 0x0C ∧ r.word = s.self.word ∧ r.pc = s.self.pc

end Sys2Proof.Claims

/-- R248, R451: every vector instruction with vector operands whose VN × wmax exceeds VLEN, wmax being the width of its widest
vector operand, changes no register, mask or flag; it returns to the vector queue with a length-fault record that names its
word and its address, and the strand stops for the dump. (A word with a static condition of R249 traps at decode instead.) -/
def Sys2Proof.Claims.LengthFaultChangesNothing : Prop :=
  ∀ (s : State) (d a b n : BitVec 5) (k m t c pw : BitVec 3) (y : BitVec 2) (z : BitVec 1),
    (∀ i ∈ oneWidthForms d a b n k m t, s.self.vlen < s.self.vn * widthOf t → staticOk i = true → LengthFault s i) ∧
    (∀ i ∈ oneFormatForms d a b k m t pw, s.self.vlen < s.self.vn * (FFmt.ofCode t.toNat).width → staticOk i = true →
      LengthFault s i) ∧
    ∀ p ∈ mixedForms d a b k m t c y z, s.self.vlen < s.self.vn * p.2 → staticOk p.1 = true → LengthFault s p.1

/-- R254: the mask instructions act on positions 0 to VN − 1 of their sources and clear a mask destination from VN up;
`kpop` and `kfirst` write a general register and no mask. -/
def Sys2Proof.Claims.MaskInstructions : Prop :=
  ∀ (s : State) (d a b : BitVec 3) (g n : BitVec 5), VReady s [(4, 1)] 0 →
    let x (i : Nat) : Bool := maskBit s a i
    let y (i : Nat) : Bool := maskBit s b i
    let sets (i : Instr) (f : Nat → Bool) : Prop := VDone i s [(4, 1)] (MaskBits s d f noFlags)
    sets (.kand d a b) (fun i => x i && y i) ∧
    sets (.kor d a b) (fun i => x i || y i) ∧
    sets (.kxor d a b) (fun i => x i != y i) ∧
    sets (.kandn d a b) (fun i => x i && !y i) ∧
    sets (.knot d a) (fun i => !x i) ∧
    sets (.kmov d a) x ∧
    sets (.kset d g) (fun i => decide (i < (s.getG g).toNat)) ∧
    sets (.kshl d a n) (fun i => decide (n.toNat ≤ i) && x (i - n.toNat)) ∧
    sets (.kshr d a n) (fun i => decide (i + n.toNat < s.self.vn) && x (i + n.toNat)) ∧
    VDone (.kpop g a) s [(4, 1)] (Register s g (BitVec.ofNat 64 ((List.range s.self.vn).countP fun i => x i))) ∧
    ((∀ i, i < s.self.vn → x i = false) → VDone (.kfirst g a) s [(4, 1)] (Register s g (BitVec.allOnes 64))) ∧
    ∀ i, i < s.self.vn → x i = true → (∀ j, j < i → x j = false) →
      VDone (.kfirst g a) s [(4, 1)] (Register s g (BitVec.ofNat 64 i))

/-- R259, R263: the comparisons write 1 at each active position where the condition holds and 0 elsewhere; the float
ones collect the flags of their active elements. -/
def Sys2Proof.Claims.VectorComparisons : Prop :=
  ∀ (s : State) (d : BitVec 3) (a b : BitVec 5) (k t : BitVec 3),
    let w := widthOf t
    let A (i : Nat) : Nat := elem (s.self.getV a) w i
    let B (i : Nat) : Nat := elem (s.self.getV b) w i
    let ints (x : Instr) (f : Nat → Bool) : Prop :=
      VReady s [(0, actives s k)] w →
        VDone x s [(0, actives s k)] (MaskBits s d (fun i => isActive s k i && f i) noFlags)
    let fm := FFmt.ofCode t.toNat
    let x (i : Nat) : FVal := fm.read (elem (s.self.getV a) fm.width i)
    let y (i : Nat) : FVal := fm.read (elem (s.self.getV b) fm.width i)
    let nan (i : Nat) : Bool := (x i).isNan || (y i).isNan
    let nv (quiet : Bool) (i : Nat) : FFlags :=
      if isActive s k i && ((quiet && nan i) || (x i).snan || (y i).snan) then flagNV else 0
    let floats (z : Instr) (f : Nat → Bool) (quiet : Bool) : Prop :=
      VReady s [(2, actives s k)] fm.width →
        VDone z s [(2, actives s k)] (MaskBits s d (fun i => isActive s k i && f i) (nv quiet))
    ints (.vcmpEq d a b k t) (fun i => decide (A i = B i)) ∧
    ints (.vcmpNe d a b k t) (fun i => decide (A i ≠ B i)) ∧
    ints (.vcmpLt d a b k t) (fun i => decide (sOf w (A i) < sOf w (B i))) ∧
    ints (.vcmpLe d a b k t) (fun i => decide (sOf w (A i) ≤ sOf w (B i))) ∧
    ints (.vcmpLtn d a b k t) (fun i => decide (A i < B i)) ∧
    ints (.vcmpLen d a b k t) (fun i => decide (A i ≤ B i)) ∧
    floats (.vfcmpEq d a b k t) (fun i => !nan i && decide ((x i).cmp (y i) = .eq)) false ∧
    floats (.vfcmpNe d a b k t) (fun i => nan i || decide ((x i).cmp (y i) ≠ .eq)) false ∧
    floats (.vfcmpLt d a b k t) (fun i => !nan i && decide ((x i).cmp (y i) = .lt)) true ∧
    floats (.vfcmpLe d a b k t) (fun i => !nan i && decide ((x i).cmp (y i) ≠ .gt)) true ∧
    floats (.vfcmpUn d a b k t) nan false

/-- R262 to R265, R246, R51: the float forms and conversions on every active element, under FCTL.RM as captured
(`vfexp2` and `vfrsqrt` under RNE), with the flags of the active elements. -/
def Sys2Proof.Claims.VectorFloatForms : Prop :=
  ∀ (s : State) (d a b : BitVec 5) (c2 : BitVec 2) (c3 k t : BitVec 3),
    let f := FFmt.ofCode t.toNat
    let w := f.width
    let rm := s.self.rm.toNat
    let A (i : Nat) : Nat := elem (s.self.getV a) w i
    let B (i : Nat) : Nat := elem (s.self.getV b) w i
    let x (i : Nat) : FVal := f.read (A i)
    let y (i : Nat) : FVal := f.read (B i)
    let z (i : Nat) : FVal := f.read (elem (s.self.getV d) w i)
    let does (j : Instr) (cls wmax wd : Nat) (r : Nat → Nat × FFlags) : Prop :=
      VReady s [(cls, actives s k)] wmax → VDone j s [(cls, actives s k)]
        (Elements s d wd (isActive s k) (fun i => ((r i).1 : Int)) (fun i => (r i).2) noSat)
    does (.vfadd d a b k t) 2 w w (fun i => f.add rm (x i) (y i)) ∧
    does (.vfsub d a b k t) 2 w w (fun i => f.sub rm (x i) (y i)) ∧
    does (.vfmul d a b k t) 2 w w (fun i => f.mul rm (x i) (y i)) ∧
    does (.vfdiv d a b k t) 3 w w (fun i => f.div rm (x i) (y i)) ∧
    does (.vfsqrt d a k t) 3 w w (fun i => f.sqrt rm (x i)) ∧
    does (.vfma d a b k t) 2 w w (fun i => f.fma rm (x i) (y i) (z i)) ∧
    does (.vfnma d a b k t) 2 w w (fun i => f.fma rm (x i).negate (y i) (z i)) ∧
    does (.vfmin d a b k t) 2 w w (fun i => f.minMax false (A i) (B i)) ∧
    does (.vfmax d a b k t) 2 w w (fun i => f.minMax true (A i) (B i)) ∧
    (t ≠ 3 → does (.vfexp2 d a k t) 3 w w (fun i => f.exp2 (x i)) ∧
      does (.vfrsqrt d a k t) 3 w w (fun i => f.rsqrt (x i))) ∧
    (let g := FFmt.ofCode c2.toNat
     does (.vfcvt d a c2 k t) 2 (max g.width w) w
       (fun i => f.deliver rm (g.read (elem (s.self.getV a) g.width i)))) ∧
    does (.vfcvtIntToFloat d a c3 k t) 2 (max (widthOf c3) w) w
      (fun i =>
        let n := valueOf c3 (widthOf c3) (elem (s.self.getV a) (widthOf c3) i)
        f.round rm (n < 0) n.natAbs 0) ∧
    (let g := FFmt.ofCode c2.toNat
     VReady s [(2, actives s k)] (max g.width (widthOf t)) →
      VDone (.vfcvtFloatToInt d a c2 k t) s [(2, actives s k)]
        (Elements s d (widthOf t) (isActive s k)
          (fun i => (floatToInt rm (t.getLsbD 2) (widthOf t) (g.read (elem (s.self.getV a) g.width i))).1)
          (fun i => (floatToInt rm (t.getLsbD 2) (widthOf t) (g.read (elem (s.self.getV a) g.width i))).2) noSat))

/-- R264, R49: the special operands of `vfexp2` and `vfrsqrt`, and exact results at the powers of two; every other `vfrsqrt`
is the exact number rounded once to nearest, and so is `vfexp2` of an integer; `vfexp2` of any other number is a number within a
part in 2^300 of the exact one, rounded once (log entry 11). -/
def Sys2Proof.Claims.ExpAndRsqrtSpecialOperands : Prop :=
  ∀ c, c < 3 →
    let f := FFmt.ofCode c
    (∀ s, f.exp2 (.nan s) = (f.nan, if s then flagNV else 0) ∧ f.rsqrt (.nan s) = (f.nan, if s then flagNV else 0)) ∧
    f.exp2 (.inf false) = (f.inf false, 0) ∧ f.exp2 (.inf true) = (f.zero false, 0) ∧
    f.rsqrt (.inf false) = (f.zero false, 0) ∧ f.rsqrt (.inf true) = (f.nan, flagNV) ∧
    (∀ n e, f.exp2 (.fin n 0 e) = f.round 0 false 1 0 ∧ f.rsqrt (.fin n 0 e) = (f.inf n, flagDZ)) ∧
    (∀ m e, 0 < m → f.rsqrt (.fin true m e) = (f.nan, flagNV)) ∧
    (∀ e : Int, f.rsqrt (.fin false 1 (2 * e)) = f.round 0 false 1 (-e)) ∧
    (∀ m : Nat, 0 < m → m < 2 ^ 12 →
      f.exp2 (.fin false m 0) = f.round 0 false 1 m ∧ f.exp2 (.fin true m 0) = f.round 0 false 1 (-(m : Int))) ∧
    (∀ (m : Nat) (e : Int), 0 < m →
      Rounds f 0 (1 / Real.sqrt ((ratOf (.fin false m e) : ℚ) : ℝ)) (f.rsqrt (.fin false m e))) ∧
    ∀ (n : Bool) (m : Nat) (e : Int),
      let X : ℝ := (2 : ℝ) ^ ((ratOf (.fin n m e) : ℚ) : ℝ)
      ((∃ z : ℤ, ratOf (.fin n m e) = (z : ℚ)) → Rounds f 0 X (f.exp2 (.fin n m e))) ∧
      (-200 ≤ e → ∃ Y : ℝ, |Y - X| ≤ X / 2 ^ 300 ∧ Rounds f 0 Y (f.exp2 (.fin n m e)))

namespace Sys2Proof.Claims

/-- The active elements' values, in ascending index. -/
def activeList (s : State) (k : BitVec 3) (f : Nat → Int) : List Int :=
  ((List.range s.self.vn).filter fun i => isActive s k i).map f

/-- An integer result of type `t` in a general register (R266): its low `w` bits, extended. -/
def typedWord (t : BitVec 3) (x : Int) : Word :=
  BitVec.ofInt 64 (valueOf t (widthOf t) (x % (2 : Int) ^ widthOf t).toNat)

end Sys2Proof.Claims

/-- R266, R70 to R73: the wrapping sum is the sum of the active elements and of the start value, modulo 2^w; the minimum
and the maximum are those of the active elements, of the identity when there is none, and of the start value. -/
def Sys2Proof.Claims.IntegerReductions : Prop :=
  ∀ (s : State) (d a g : BitVec 5) (k t : BitVec 3), VReady s [(5, s.self.vn)] (widthOf t) →
    let w := widthOf t
    let xs := activeList s k fun i => valueOf t w (elem (s.self.getV a) w i)
    let start := valueOf t w ((s.getG g).toNat % 2 ^ w)
    VDone (.vredsumWrap d a g k t) s [(5, s.self.vn)]
      (Register s d (typedWord t (xs.sum + if g = 0 then 0 else start))) ∧
    VDone (.vredmin d a g k t) s [(5, s.self.vn)]
      (Register s d (typedWord t ((if g = 0 then xs else start :: xs).foldl min (highest t)))) ∧
    VDone (.vredmax d a g k t) s [(5, s.self.vn)]
      (Register s d (typedWord t ((if g = 0 then xs else start :: xs).foldl max (lowest t))))

namespace Sys2Proof.Claims

/-- One level of the tree of R70 by positions: node `i` of the next level combines nodes 2i and 2i + 1. -/
def combine (step : Elem → Elem → Elem) (a b : Option Elem) : Option Elem :=
  match a, b with
  | none, y => y
  | x, none => x
  | some x, some y => some (step x y)

/-- Node `i` of level `n` of the tree of R70 over leaves given by position. -/
def node (step : Elem → Elem → Elem) (leaf : Nat → Option Elem) : Nat → Nat → Option Elem
  | 0, i => leaf i
  | n + 1, i => combine step (node step leaf n (2 * i)) (node step leaf n (2 * i + 1))

/-- What a reduction leaves: the root of the tree of `p` levels over the active elements, the identity when there is none
(R72), and a start value in one further step, as the left operand (R73). -/
def reduced (s : State) (k : BitVec 3) (leaf : Nat → Nat) (step : Elem → Elem → Elem) (identity : Nat)
    (start : Option Nat) (p : Nat) : Elem :=
  let root := (node step (fun i => if isActive s k i then some ⟨leaf i, 0, false⟩ else none) p 0).getD ⟨identity, 0, false⟩
  match start with
  | some x => step ⟨x, 0, false⟩ root
  | none => root

/-- The step of a saturating sum (R43, R71), which notes whether it clamps. -/
def satStep (t : BitVec 3) (a b : Elem) : Elem :=
  let x := valueOf t (widthOf t) a.val + valueOf t (widthOf t) b.val
  ⟨(clamp t x % (2 : Int) ^ widthOf t).toNat, 0, a.sat || b.sat || decide (clamp t x ≠ x)⟩

/-- The steps of the float reductions (R71, R266), with their flags. -/
def sumStep (f : FFmt) (rm : Nat) (a b : Elem) : Elem :=
  let r := f.add rm (f.read a.val) (f.read b.val)
  ⟨r.1, a.fl ||| b.fl ||| r.2, false⟩
def maxStep (f : FFmt) (a b : Elem) : Elem :=
  let r := f.minMax true a.val b.val
  ⟨r.1, a.fl ||| b.fl ||| r.2, false⟩

/-- A float that a reduction delivers: a NaN as the canonical one, a signalling one with NV (R50), a zero, which a b16
pattern of exponent field 0 is, as the zero of its sign (R49). -/
def asDelivered (f : FFmt) (n : Nat) : Nat × FFlags :=
  match f.read n with
  | .nan sig => (f.nan, if sig then flagNV else 0)
  | .fin neg 0 _ => (f.zero neg, 0)
  | _ => (n % 2 ^ f.width, 0)

end Sys2Proof.Claims

/-- R266, R70 to R73, R49, R50: the saturating sum and the float sum and maximum combine the active elements in the pairwise
tree, with the start value in one further step; FCTL collects SAT of the clamping steps and the flags of the float steps,
and a float result that no step has computed is delivered as an operation delivers it. -/
def Sys2Proof.Claims.OrderedReductions : Prop :=
  ∀ (s : State) (d a g : BitVec 5) (k t : BitVec 3) (p : Nat), s.self.vn ≤ 2 ^ p →
    let f := FFmt.ofCode t.toNat
    let ch : Charge := [(5, s.self.vn)]
    let start (w : Nat) : Option Nat := if g = 0 then none else some ((s.getG g).toNat % 2 ^ w)
    let leaf (w i : Nat) : Nat := elem (s.self.getV a) w i
    let gets (u : Strand) (v : Word) : Prop := u.getG d = (if d = 0 then 0 else v) ∧ ∀ r, r ≠ d → u.getG r = s.getG r
    let floats (i : Instr) (r : Elem) : Prop :=
      VDone i s ch fun u => u = { s.self with g := u.g, fflags := s.self.fflags ||| r.fl ||| (asDelivered f r.val).2 } ∧
        gets u (BitVec.ofNat 64 (asDelivered f r.val).1)
    (VReady s ch (widthOf t) →
      let r := reduced s k (leaf (widthOf t)) (satStep t) 0 (start (widthOf t)) p
      VDone (.vredsumSat d a g k t) s ch fun u => u = { s.self with g := u.g, sat := s.self.sat || r.sat } ∧
        gets u (BitVec.ofInt 64 (valueOf t (widthOf t) r.val))) ∧
    (VReady s ch f.width →
      floats (.vfredsum d a g k t)
        (reduced s k (leaf f.width) (sumStep f s.self.rm.toNat) (f.zero false) (start f.width) p) ∧
      floats (.vfredmax d a g k t) (reduced s k (leaf f.width) (maxStep f) (f.inf true) (start f.width) p))

/-- R70: the tree that every reduction uses is the pairwise tree over positions: the root of `p` levels over the leaves,
positions from the list's length up being absent, for every `p` whose 2^p leaves hold the list. -/
def Obligations.ReductionTreeIsThePairwiseTree : Prop :=
  ∀ (step : Elem → Elem → Elem) (l : List (Option Elem)) (p : Nat), l.length ≤ 2 ^ p →
    treeReduce step l = node step (fun i => (l[i]?).join) p 0

/-- R267: the permutations, with sources read whole before any element is written. -/
def Obligations.VectorPermutations : Prop :=
  ∀ (s : State) (d a b : BitVec 5) (k t : BitVec 3), VReady s [(5, s.self.vn)] (widthOf t) →
    let w := widthOf t
    let vn := s.self.vn
    let A (i : Nat) : Nat := elem (s.self.getV a) w i
    let D (i : Nat) : Nat := elem (s.self.getV d) w i
    let n := (s.getG b).toNat
    let act := isActive s k
    let idx := (List.range vn).filter act
    let puts (x : Instr) (written : Nat → Bool) (f : Nat → Nat) : Prop :=
      VDone x s [(5, vn)] (Elements s d w written (fun i => (f i : Int)) noFlags noSat)
    puts (.vslideup d a b k t) act (fun i => if n ≤ i then A (i - n) else D i) ∧
    puts (.vslidedn d a b k t) act (fun i => if i + n < vn then A (i + n) else 0) ∧
    puts (.vperm d a b k t) act (fun i =>
      if elem (s.self.getV b) w i < vn then A (elem (s.self.getV b) w i) else 0) ∧
    puts (.vcomp d a k t) (fun i => decide (i < idx.length)) (fun i => A (idx.getD i 0)) ∧
    puts (.vexpand d a k t) act (fun i => A ((List.range i).countP act)) ∧
    puts (.vbcast d a k t) act (fun _ => (s.getG a).toNat) ∧
    VDone (.vext d a b t) s [(5, vn)] (Register s d (if n < vn then BitVec.ofInt 64 (valueOf t w (A n)) else 0)) ∧
    puts (.vins d a b t) (fun i => decide (i = n)) (fun _ => (s.getG a).toNat)

/-- R268 to R270: quantise and dequantise, with the scale element i div BS: `vquant` writes the code of the product
rounded to an integer and clamped to the output range (0 with NV for a NaN), `vdeq` the code's value times its scale,
rounded once. -/
def Obligations.QuantiseAndDequantise : Prop :=
  ∀ (s : State) (d a b : BitVec 5) (k t : BitVec 3) (pw : BitVec 3),
    let f := FFmt.ofCode t.toNat
    let w := f.width
    let bs := [0, 16, 32, 64, 128, 256, 0, 0].getD s.self.bs.toNat 0
    let scale (i : Nat) : FVal := f.read (elem (s.self.getV b) w (if bs = 0 then 0 else i / bs))
    let X (i : Nat) : FVal := f.read (elem (s.self.getV a) w i)
    let ch : Charge := [(2, actives s k)]
    let quant (j : Instr) (wq : Nat) (lo hi : Int) (code : Int → Nat) : Prop :=
      VDone j s ch (Elements s d wq (isActive s k)
        (fun i => ((quantElem lo hi code (X i) (scale i)).val : Int))
        (fun i => (quantElem lo hi code (X i) (scale i)).fl) (fun i => (quantElem lo hi code (X i) (scale i)).sat))
    let deq (j : Instr) (wc : Nat) (value : Nat → Int) (e : Int) (nanBlock : Bool) : Prop :=
      let r (i : Nat) : Nat × FFlags :=
        let v := value (elem (s.self.getV a) wc i)
        if nanBlock && (scale i).isNan then (f.nan, flagNV) else f.mul 0 (.fin (v < 0) v.natAbs e) (scale i)
      VDone j s ch (Elements s d w (isActive s k) (fun i => ((r i).1 : Int)) (fun i => (r i).2) noSat)
    VReady s ch w →
      quant (.vquantI8 d a b k t) 8 (-128) 127 (fun q => (q % 256).toNat) ∧
      quant (.vquantI4 d a b k t) 4 (-8) 7 (fun q => (q % 16).toNat) ∧
      quant (.vquantTern d a b k t) 2 (-1) 1 (fun q => if q = 1 then 1 else if q = -1 then 2 else 0) ∧
      quant (.vquantPi d a b k t pw) 8 (-(2 : Int) ^ pw.toNat) ((2 : Int) ^ pw.toNat - 1) (fun q => (q % 256).toNat) ∧
      (t = 0 ∨ t = 2 →
        deq (.vdeqNq4 d a b k t) 4 nq4Level 0 false ∧ deq (.vdeqE2m1 d a b k t) 4 e2m1Twice (-1) true ∧
        deq (.vdeqTern d a b k t) 2 ternValue 0 false)

/-- R269: what `vquant` does to one element: a product that is a number becomes the nearest integer, ties to even, clamped to the
range, with SAT exactly when it was outside; a NaN, and an infinity times zero, becomes 0 with NV; any other infinite product
becomes the end of the range on its side, with SAT. -/
def Obligations.QuantisedElementIsNearest : Prop :=
  ∀ (lo hi : Int) (n1 n2 : Bool) (m1 m2 : Nat) (e1 e2 : Int), lo ≤ 0 → 0 ≤ hi →
    let x := ratOf (.fin n1 m1 e1) * ratOf (.fin n2 m2 e2)
    let infinite (code : Int → Nat) : Elem := ⟨code (if n1 = n2 then hi else lo), 0, true⟩
    (∃ q : Int, |x - q| ≤ 1 / 2 ∧ (|x - q| = 1 / 2 → q % 2 = 0) ∧
      ∀ code, quantElem lo hi code (.fin n1 m1 e1) (.fin n2 m2 e2) =
        ⟨code (max lo (min hi q)), 0, decide (q < lo ∨ hi < q)⟩) ∧
    ∀ code,
      (∀ v b, quantElem lo hi code (.nan b) v = ⟨code 0, flagNV, false⟩ ∧ quantElem lo hi code v (.nan b) = ⟨code 0, flagNV, false⟩) ∧
      quantElem lo hi code (.inf n1) (.fin n2 0 e2) = ⟨code 0, flagNV, false⟩ ∧
      quantElem lo hi code (.fin n1 0 e1) (.inf n2) = ⟨code 0, flagNV, false⟩ ∧
      quantElem lo hi code (.inf n1) (.inf n2) = infinite code ∧
      (0 < m1 → quantElem lo hi code (.fin n1 m1 e1) (.inf n2) = infinite code) ∧
      (0 < m2 → quantElem lo hi code (.inf n1) (.fin n2 m2 e2) = infinite code)

/-! ### The shape of the vector unit, forks, continuations, barriers, vissue (08_vector.md, 09_issue.md, 13_order.md) -/

namespace Sys2Proof.Claims

/-- A `vsetn` completes: the fetch goes on behind it, its strand becomes `u`, the cistern takes its charge, and no byte that
a home delivers changes. When the core comes to lend more banks of its L1D, the newly lent ones hold no line; otherwise the
caches are as before (R243). -/
def Configures (i : Instr) (s : State) (P : Strand → Prop) : Prop :=
  ∃ u t, exec i s = .next t ∧
    t = { (afterWeir s [(4, 1)]).setSelf { settled u with pc := s.self.pc + 4 } with
          mem := t.mem, errs := t.errs, cache := t.cache, copies := t.copies, peer := t.peer } ∧
    (∀ a, t.byteAt a = s.byteAt a) ∧ (∀ a, t.hostByte a = s.hostByte a) ∧
    (∀ c o, s.cache.find (spadPa c o / 64) = none → t.spadByte c o = s.spadByte c o) ∧ P u ∧
    (t.lent s.myCore ≤ s.lent s.myCore → SameMemory s t ∧ t.cache = s.cache ∧ t.copies = s.copies ∧ t.peer = s.peer) ∧
    (s.lent s.myCore < t.lent s.myCore →
      (∀ e ∈ t.cache, e.2.holder = 9 * s.myCore → e.2.bank < 16 - t.lent s.myCore) ∧
      (∀ e ∈ t.copies, e.1 % 2048 = 9 * s.myCore → e.2.bank < 16 - t.lent s.myCore) ∧
      t.peer = s.peer.filter fun p => !(p.once = none && p.holder = 9 * s.myCore && 16 - t.lent s.myCore ≤ p.bank))

end Sys2Proof.Claims

/-- R251, R252, R253, R249, R243: `vsetn` sets VN to the lesser of its operand and VLEN / w at the slice width it names, and
a change of slice width zeroes v0 to v31 and k1 to k7; a wider slice takes banks of its core's L1D, which go empty; a width
outside the launch's range is the illegal-instruction trap. `vgetn` reads VN and `vslip` writes SLIP. -/
def Obligations.VectorConfiguration : Prop :=
  ∀ (s : State) (d a n : BitVec 5) (sw : BitVec 2) (ty : BitVec 3),
    let t := s.self
    let go (i : Instr) (w : Nat) : Prop :=
      (t.bind.swMin ≤ sw → sw ≤ t.bind.swMax → (t.children = [] ∧ t.parent = none ∨ sw = t.sw) → WeirOpen s [(4, 1)] →
        Configures i s fun u =>
          let vn := min (s.getG a).toNat (2 ^ t.lgc.toNat * (512 * 2 ^ sw.toNat) / w)
          u = { t with g := u.g, sw := sw, vn := vn, maskW := w, v := u.v, k := u.k, vlinks := u.vlinks } ∧
          u.getG d = (if d = 0 then 0 else BitVec.ofNat 64 vn) ∧ (∀ r, r ≠ d → u.getG r = s.getG r) ∧
          (∀ r, u.getV r = if sw = t.sw then t.getV r else 0) ∧
          (∀ j, Table.get 0 u.k j = if sw = t.sw then Table.get 0 t.k j else 0) ∧
          u.vlinks = if sw = t.sw then t.vlinks else []) ∧
      (sw < t.bind.swMin ∨ t.bind.swMax < sw → Traps i s 0x01 (t.word.setWidth 64) t.pc)
    go (.vsetn d a sw ty) (widthOf ty) ∧ go (.vsetnFloat d a sw ty) (FFmt.ofCode ty.toNat).width ∧
    (WeirOpen s [(4, 1)] →
      VDone (.vgetn d) s [(4, 1)] (Register s d (BitVec.ofNat 64 t.vn)) ∧
      VDone (.vslip n) s [(4, 1)] fun u => u = { t with slip := BitVec.ofNat 3 n.toNat })

/-- R276, R277: the pieces of an image go to the halves of a fork by their lane group, and the join puts them back; a
mask's bits do the same by the elements of the last `vsetn`. -/
def Obligations.SplitThenJoinIsTheIdentity : Prop :=
  (∀ (g rows : Nat) (x : VReg), 1 ≤ g → g ≤ 3 → rows ≤ 8 → x.toNat < 2 ^ (512 * 2 ^ g * rows) →
    (∀ n, n < 2 ^ g * rows → elem x 512 n =
      if n % 2 ^ g < 2 ^ g / 2 then
        elem (splitImage (2 ^ g) rows false x) 512 (n / 2 ^ g * (2 ^ g / 2) + n % 2 ^ g)
      else elem (splitImage (2 ^ g) rows true x) 512 (n / 2 ^ g * (2 ^ g / 2) + (n % 2 ^ g - 2 ^ g / 2))) ∧
    joinImage (2 ^ g) rows (splitImage (2 ^ g) rows false x) (splitImage (2 ^ g) rows true x) = x) ∧
  (∀ (g w n : Nat) (m : KReg), 1 ≤ g → g ≤ 3 → w ∈ [8, 16, 32, 64] → n ≤ 4096 → m.toNat < 2 ^ n →
    joinMask (2 ^ g) w n (splitMask (2 ^ g) w false m) (splitMask (2 ^ g) w true m) = m)

/-- R275, R276: `lfork` answers −2 at one lane group and −1 when no slot of its core is FREE; otherwise the child starts
behind it in the lowest FREE slot with half the lane groups and elements, the parent gets the slot number plus 1 and the
child 0, and no other strand changes. -/
def Sys2Proof.Claims.LforkSplitsTheStrand : Prop :=
  ∀ (s : State) (d : BitVec 5), WeirOpen s [] →
    let t := s.self
    (t.lgc = 0 → VDone (.lfork d) s [] (Register s d (BitVec.ofInt 64 (-2)))) ∧
    (t.lgc ≠ 0 → (∀ n, n < 8 → (s.strand (8 * (s.cur / 8) + n)).isSome = true) →
      VDone (.lfork d) s [] (Register s d (BitVec.ofInt 64 (-1)))) ∧
    ∀ n, n < 8 → t.lgc ≠ 0 → s.strand (8 * (s.cur / 8) + n) = none →
      (∀ m, m < n → (s.strand (8 * (s.cur / 8) + m)).isSome = true) → (s.strand s.cur).isSome = true →
      let c := 8 * (s.cur / 8) + n
      ∃ u child, exec (.lfork d) s = .next u ∧ u.strand c = some child ∧
        (∀ m, m ≠ c → m ≠ s.cur → u.strand m = s.strand m) ∧ SameMemory s u ∧
        u.getG d = (if d = 0 then 0 else BitVec.ofNat 64 (n + 1)) ∧ (∀ r, r ≠ d → u.getG r = s.getG r) ∧
        u.self.pc = t.pc + 4 ∧ u.self.lgc = t.lgc - 1 ∧ u.self.children = ⟨c, t.vn, t.maskW⟩ :: t.children ∧
        (∀ r, r ≠ d → r ≠ 2 → r ≠ 3 → child.getG r = s.getG r) ∧ child.getG d = 0 ∧
        child.pc = t.pc + 4 ∧ child.lgc = t.lgc - 1 ∧ child.parent = some s.cur ∧ child.st = .run ∧
        child.loops = t.loops ∧ child.fctl = t.fctl ∧ child.slink = none ∧ child.vlinks = [] ∧ child.cntL = 0 ∧
        child.cntS = 0 ∧ child.cntC = 0 ∧ child.cntT = 0 ∧ u.self.vn + child.vn = t.vn ∧
        ∀ r, u.self.getV r = splitImage (2 ^ t.lgc.toNat) (2 ^ t.sw.toNat) false (t.getV r) ∧
          child.getV r = splitImage (2 ^ t.lgc.toNat) (2 ^ t.sw.toNat) true (t.getV r)

/-- R277: `ljoin` of 0 puts a fork child without children into JOIN; `ljoin` of the most recent child's number waits for
it, and then recombines the registers, gives back VN and the lane groups, and frees the child's slot. -/
def Sys2Proof.Claims.LjoinRecombines : Prop :=
  ∀ (s : State) (a : BitVec 5), WeirOpen s [] →
    let t := s.self
    (s.getG a = 0 → t.parent.isSome = true → t.children = [] →
      ∃ u, exec (.ljoin a) s = .next u ∧ u.self.st = .join ∧ u.self.v = t.v ∧ u.self.k = t.k ∧ SameMemory s u ∧
        ∀ n, n ≠ s.cur → u.strand n = s.strand n) ∧
    (s.getG a = 0 → t.parent = none → Traps (.ljoin a) s 0x01 (t.word.setWidth 64) t.pc) ∧
    ∀ (r : Child) (rest : List Child), t.children = r :: rest → s.getG a ≠ 0 →
      ((s.getG a).toNat ≠ r.slot % 8 + 1 → Traps (.ljoin a) s 0x01 (t.word.setWidth 64) t.pc) ∧
      ((s.getG a).toNat = r.slot % 8 + 1 → ∀ c, s.strand r.slot = some c → r.slot ≠ s.cur →
        (c.st ≠ .join → ∃ u, exec (.ljoin a) s = .next u ∧ u.self.st = .wait (.child r.slot) ∧ u.strand r.slot = some c) ∧
        (c.st = .join → (∀ o ∈ s.ops, o.slot ≠ r.slot) →
          ∃ u, exec (.ljoin a) s = .next u ∧ u.strand r.slot = none ∧ u.self.pc = t.pc + 4 ∧ u.self.lgc = t.lgc + 1 ∧
            u.self.vn = r.vn ∧ u.self.children = rest ∧ (∀ x, u.getG x = s.getG x) ∧ SameMemory s u ∧
            ∀ x, u.self.getV x =
              joinImage (2 ^ (t.lgc.toNat + 1)) (2 ^ t.sw.toNat) (t.getV x) (c.getV x)))

namespace Sys2Proof.Claims

/-- The 32 bytes of a continuation record at an address, as a number. -/
def recordAt (s : State) (pa : Nat) : Nat := leRead s.byteAt pa 32

/-- The queue of the strand's basin that a record names. -/
def ringOf (s : State) (v : Nat) : ContQueue := (s.basin s.myBasin).cq.get {} (v / 256 ^ 0x19 % 256)

/-- The basin's queue that a record names is enabled and has room, beside the entries that strands hold for records which they
are about to push (R280, R283, R284). -/
def RingHasRoom (s : State) (v : Nat) : Prop :=
  s.ringOk s.myBasin (ringOf s v) = true ∧
    ((ringOf s v).tail - (ringOf s v).head).toNat + s.ringHeld s.myBasin (v / 256 ^ 0x19 % 256) < 2 ^ (ringOf s v).log2n.toNat

/-- The entry of a queue that the next push writes (R280). -/
def entryOf (q : ContQueue) : Nat := q.base.toNat * 4096 + 64 * (q.tail.toNat % 2 ^ q.log2n.toNat)

/-- Every bank of every L1D and L2 slice has room for the lines that a continuation touches (R27). -/
def CachesHaveSpace (s : State) : Prop := ∀ u b, (s.residents u b).length + 3 ≤ unitLines u

/-- An instruction that read device memory and wrote lines of it completes, `u` being the machine that ran it: its strand goes
on, the links on those lines break and hosts' copies of them are called back, a host or scratchpad byte is as before, and of the
machine nothing changes but memory, the caches, and what the arguments name. -/
def CompletesWriting (u t : State) (lines : Nat → Bool) (woken : Nat → Strand → Bool) : Prop :=
  t = { u with strands := t.strands, basins := t.basins, annex := t.annex, mem := t.mem, errs := t.errs, cache := t.cache
               copies := t.copies, peer := t.peer, freeCtr := t.freeCtr, rlinks := t.rlinks, hostCopies := t.hostCopies
               out := t.out } ∧
  t.self = { settled u.self with
    pc := u.self.pc + 4, slink := u.self.slink.filter (fun l => !lines l)
    vlinks := u.self.vlinks.filter (fun e => !lines e.2) } ∧
  (∀ n, n ≠ u.cur → t.strand n = (u.strand n).map fun c => { c with
    idleDone := c.idleDone || woken n c, slink := c.slink.filter (fun l => !lines l)
    vlinks := c.vlinks.filter (fun e => !lines e.2) }) ∧
  t.rlinks = u.rlinks.filter (fun e => !lines e.2.2) ∧ t.hostCopies = u.hostCopies.filter (fun e => !lines e.2) ∧
  (∃ l, t.out = l ++ u.out ∧ ∀ m ∈ l, ∃ e ∈ u.hostCopies, lines e.2 = true ∧ m = .backInvalidate e.1 u.sender.2 e.2) ∧
  (∀ a, t.hostByte a = u.hostByte a) ∧
  (∀ c o, u.cache.find (spadPa c o / 64) = none → t.spadByte c o = u.spadByte c o) ∧
  (∀ l ∈ t.peer, l ∈ keptPeer u) ∧ (CachesHaveSpace u → t.peer = keptPeer u ∧ t.freeCtr = u.freeCtr)

/-- A record of 32 bytes is pushed (R283): the tail of its queue goes on, and nothing else of a basin; its launch counts one more
record, and the basin's strands in `idle` are woken. -/
def Pushes (u t : State) (v : Nat) : Prop :=
  let p := v / 256 ^ 0x19 % 256
  let b := t.basin u.myBasin
  b = { u.basin u.myBasin with cq := b.cq } ∧ b.cq.get {} p = { ringOf u v with tail := (ringOf u v).tail + 1 } ∧
  (∀ j, j ≠ p → b.cq.get {} j = (u.basin u.myBasin).cq.get {} j) ∧ (∀ k, k ≠ u.myBasin → t.basin k = u.basin k) ∧
  t.annex = { u.annex with launches := u.annex.launches.map fun l =>
    if l.id = u.self.bind.launch then { l with live := l.live + 1 } else l }

/-- The strands that a push wakes (R450). -/
def idleIn (basin : Nat) (n : Nat) (c : Strand) : Bool := decide (n / 8 / 16 = basin ∧ c.st = .wait .event)

/-- An address that a strand reads in device memory, with nothing in the way. -/
def Readable (s : State) (va : Word) (pa : Nat) : Prop :=
  Reaches s va .read (.dev pa) ∧ pa % 4096 = va.toNat % 4096 ∧ PlainAt s pa

end Sys2Proof.Claims

/-- R283: `cspawn` of a record that keeps the limits of R279, with room in its queue, pushes the record's 32 bytes to the
ring and advances the tail; the launch counts one more record, and nothing else changes. A record address that is no
multiple of 32, or a record that breaks the limits, is the precise continuation-record fault, and a full or disabled ring
the ring fault. -/
def Sys2Proof.Claims.CspawnPushesARecord : Prop :=
  ∀ (s : State) (a : BitVec 5) (pa : Nat), WeirOpen s [] → s.self.resumed = false → s.self.st = .run →
    let u := afterWeir s []
    let va := s.getG a
    let v := recordAt s pa
    let e := entryOf (ringOf u v)
    (va.toNat % 32 ≠ 0 → Traps (.cspawn a) s 0x0F va s.self.pc) ∧
    (va.toNat % 32 = 0 → Readable u va pa →
      (CachesHaveSpace u → recordOk v = false → Traps (.cspawn a) s 0x0F va s.self.pc) ∧
      (CachesHaveSpace u → recordOk v = true → ¬ RingHasRoom u v → Traps (.cspawn a) s 0x10 va s.self.pc) ∧
      (recordOk v = true → RingHasRoom u v → (∀ x, u.migOf x = []) → u.leased (e / 64) = false →
        ∃ t, exec (.cspawn a) s = .next t ∧
          CompletesWriting u t (fun l => decide (l = e / 64)) (idleIn u.myBasin) ∧ Pushes u t v ∧
          (∀ i, i < 32 → t.byteAt (e + i) = s.byteAt (pa + i)) ∧
          ∀ x, x < e ∨ e + 64 ≤ x → t.byteAt x = s.byteAt x))

/-- R284, R285: `cjoin` decrements the 32-bit counter at an address that is a multiple of 8 and, while it does not fall
to 0, does nothing else. From 1 it falls to 0 and the record at the address in the doubleword behind it is pushed; if that
record cannot be pushed the fault names its address, and the counter stays 1. Another address is the precise access fault.
At a peer the owner decrements: the strand asks and waits, and goes on with its answer. `cend` puts the strand in END, and
nothing else changes. -/
def Sys2Proof.Claims.CjoinDecrementsAndCendEnds : Prop :=
  ∀ (s : State) (a : BitVec 5) (pa : Nat), WeirOpen s [] →
    let u := afterWeir s []
    let va := s.getG a
    let counter := leRead s.byteAt pa 4
    (va.toNat % 8 ≠ 0 → Traps (.cjoin a) s 0x07 va s.self.pc) ∧
    (va.toNat % 8 = 0 → s.cur < 1536 → s.self.resumed = false → s.self.st = .run → Reaches u va .write (.dev pa) →
      Readable u va pa →
      (counter ≠ 1 → ∃ t, exec (.cjoin a) s = .next t ∧ StoresAt s t pa 4 (counter + 2 ^ 32 - 1) ∧
        CompletesWriting u t (fun l => decide (l = pa / 64)) (fun _ _ => false) ∧ t.basins = u.basins ∧ t.annex = u.annex) ∧
      ∀ pb pr, counter = 1 → Readable u (va + 8) pb →
        let ra : Word := BitVec.ofNat 64 (leRead s.byteAt pb 8)
        let v := recordAt s pr
        let e := entryOf (ringOf u v)
        (CachesHaveSpace u → ra.toNat % 32 ≠ 0 → Traps (.cjoin a) s 0x0F ra s.self.pc) ∧
        (ra.toNat % 32 = 0 → Readable u ra pr →
          (CachesHaveSpace u → recordOk v = false → Traps (.cjoin a) s 0x0F ra s.self.pc) ∧
          (CachesHaveSpace u → recordOk v = true → ¬ RingHasRoom u v → Traps (.cjoin a) s 0x10 ra s.self.pc) ∧
          (recordOk v = true → RingHasRoom u v → (∀ x, u.migOf x = []) → u.leased (e / 64) = false →
            ∃ t, exec (.cjoin a) s = .next t ∧
              CompletesWriting u t (fun l => decide (l = pa / 64 ∨ l = e / 64)) (idleIn u.myBasin) ∧ Pushes u t v ∧
              (∀ i, i < 32 → t.byteAt (e + i) = s.byteAt (pr + i)) ∧
              ∀ x, x < e ∨ e + 64 ≤ x → t.byteAt x = if pa ≤ x ∧ x < pa + 4 then 0 else s.byteAt x))) ∧
    (∀ dv pv gen, va.toNat % 8 = 0 → Reaches u va .write (.peer dv pa pv gen) → Reaches u va .read (.peer dv pa pv gen) →
      s.self.joining = none →
      (s.self.answers = [] → ∃ t, exec (.cjoin a) s = .next t ∧
        t = { u.setSelf { u.self with placed := [(va, .peer dv pa pv gen)], sentAt := u.clk, st := .wait (.peer u.nextId 1 0) } with
              nextId := u.nextId + 1
              out := .aq dv u.sender.1 u.sender.2 (portsOf (u.peerEntry dv) 0)
                (.homeCommand (BitVec.ofNat 52 pa) 0 6 4 [] 0 u.nextId) :: u.out }) ∧
      (∀ x, s.self.answers = [(0, (x, 0))] → x ≠ 1 → s.self.resumed = false →
        ∃ t, exec (.cjoin a) s = .next t ∧ t = { u.setSelf t.self with peer := keptPeer u } ∧
          t.self = { settled u.self with pc := s.self.pc + 4 })) ∧
    ∃ t, exec .cend s = .next t ∧ t = u.setSelf { s.self with st := .ended, weirPass := none }

/-- R423 to R425: `bar.arrive` of a member counts its core and, with the last arrival, begins a new generation;
`bar.wait` waits while the generation it arrived in runs, and completes when it has passed; a strand of another context
or on no member core takes the precise barrier fault with the group number. -/
def Sys2Proof.Claims.BarriersArriveAndWait : Prop :=
  ∀ (s : State) (n : BitVec 16), WeirOpen s [] → n.toNat < 80 →
    let k := groupKey s.myCore n.toNat
    let g := s.group k
    let core := s.myCore
    let fault (i : Instr) : Prop := Traps i s 0x11 (BitVec.ofNat 64 n.toNat) s.self.pc
    let room : Prop := g.counts.get 0 core < arrivals g.members
    let g1 : BarGroup := { g with counts := g.counts.set 0 core (g.counts.get 0 core + 1) }
    (g.owner ≠ some s.self.ctxid ∨ isMember g.members core = false → fault (.barArrive n)) ∧
    (g.owner = some s.self.ctxid → isMember g.members core = true → ¬ room →
      ∃ t, exec (.barArrive n) s = .next t ∧ t.self.st = .wait (.boundary k g.gen) ∧ t.groups = s.groups) ∧
    (g.owner = some s.self.ctxid → isMember g.members core = true → room →
      ∃ t, exec (.barArrive n) s = .next t ∧ t.self.pc = s.self.pc + 4 ∧ t.self.barRec.find n.toNat = some g.gen ∧
        (∀ j, j ≠ k → t.group j = s.group j) ∧ SameMemory s t ∧
        ((∀ c, c < 192 → isMember g.members c = true → g1.counts.get 0 c = arrivals g.members) →
          (t.group k).gen = g.gen + 1 ∧ (t.group k).counts = [] ∧ (t.group k).pending = none ∧
          (t.group k).members = g.pending.getD g.members) ∧
        ((∃ c, c < 192 ∧ isMember g.members c = true ∧ g1.counts.get 0 c ≠ arrivals g.members) → t.group k = g1)) ∧
    (∀ r, s.self.barRec.find n.toNat = some r → r ≠ g.gen →
      VDone (.barWait n) s [] fun u => u = s.self) ∧
    (∀ r, s.self.barRec.find n.toNat = some r → r = g.gen → g.owner = some s.self.ctxid →
      ∃ t, exec (.barWait n) s = .next t ∧ t.self.st = .wait (.barrier k g.gen) ∧ t.self.pc = s.self.pc ∧ t.groups = s.groups) ∧
    (s.self.barRec.find n.toNat = none → g.owner = some s.self.ctxid → VDone (.barWait n) s [] fun u => u = s.self) ∧
    (s.self.barRec.find n.toNat = none → g.owner ≠ some s.self.ctxid → fault (.barWait n))

/-- R423, R424: `bar.set` by an allowed strand gives a group its members in a new generation, at once while the group is
unowned or nobody has arrived, and at the next boundary otherwise; privileged software frees a group with bit 16. -/
def Sys2Proof.Claims.BarSetTakesEffect : Prop :=
  ∀ (s : State) (a : BitVec 5) (n : BitVec 16), WeirOpen s [] →
    let m := s.getG a
    let k := groupKey s.myCore n.toNat
    let g := s.group k
    let sets (g' : BarGroup) : Prop :=
      ∃ t, exec (.barSet a n) s = .next t ∧ t.group k = g' ∧ (∀ j, j ≠ k → t.group j = s.group j) ∧
        t.self = { settled s.self with pc := s.self.pc + 4 } ∧ SameMemory s t
    (memberBits m = false → Traps (.barSet a n) s 0x11 (BitVec.ofNat 64 n.toNat) s.self.pc) ∧
    (memberBits m = true → s.self.cur = false → memberLimits m s.self.bind s.myCore n.toNat = false →
      Traps (.barSet a n) s 0x11 (BitVec.ofNat 64 n.toNat) s.self.pc) ∧
    (memberBits m = true → s.self.cur = true ∨ memberLimits m s.self.bind s.myCore n.toNat = true →
      (s.self.cur = true → m.getLsbD 16 = true → sets { gen := g.gen + 1 }) ∧
      (m.getLsbD 16 = false → g.owner = none → sets { g with members := m, pending := none, gen := g.gen + 1, owner := some s.self.ctxid }) ∧
      (m.getLsbD 16 = false → g.owner = some s.self.ctxid → g.counts = [] →
        sets { g with members := m, pending := none, gen := g.gen + 1, owner := some s.self.ctxid }) ∧
      (m.getLsbD 16 = false → g.owner = some s.self.ctxid → g.counts ≠ [] → sets { g with pending := some m }))

/-- R295: `vissue` reads its active elements as words, forms a group of each distinct word, and begins to issue them in
ascending order of their least element; with no active element it completes. -/
def Sys2Proof.Claims.VissueGroupsItsWords : Prop :=
  ∀ (s : State) (a : BitVec 5) (k : BitVec 3), VReady s [(15, actives s k)] 32 →
    let w (i : Nat) : BitVec 32 := BitVec.ofNat 32 (elem (s.self.getV a) 32 i)
    let idx := (List.range s.self.vn).filter fun i => isActive s k i
    (idx = [] → VDone (.vissue a k) s [(15, actives s k)] fun u => u = s.self) ∧
    (idx ≠ [] → ∃ t words, exec (.vissue a k) s = .next t ∧ SameMemory s t ∧
      t.self = { settled s.self with inside := some (.issue ⟨words, [], s.self.capture, s.self.word, false, false⟩) } ∧
      (words.map (·.1)).Nodup ∧ (∀ i ∈ idx, w i ∈ words.map (·.1)) ∧
      (∀ e ∈ words, ∃ i ∈ idx, w i = e.1 ∧ (∀ j ∈ idx, w j = e.1 → i ≤ j)) ∧
      (∀ e ∈ words, ∀ i, i < 4096 → (e.2.getLsbD i = true ↔ i ∈ idx ∧ w i = e.1)) ∧
      words.Pairwise fun e f => ∃ i ∈ idx, w i = e.1 ∧ ∀ j ∈ idx, w j = f.1 → i < j)

/-- R296, R298: a word of a `vissue` that is not permitted marks its group in ILLMASK and the next word is taken; when
the last word is done the strand goes on behind the `vissue`, or under ISSCTL.ITE takes the issue-word fault if it
marked an element. -/
def Sys2Proof.Claims.VissueMarksIllegalWords : Prop :=
  ∀ (s : State) (i : Issue) (w : BitVec 32) (g : KReg) (r : List (BitVec 32 × KReg)),
    (i.inner = [] → i.todo = (w, g) :: r → issueWordOf w 1 = none → i.admitted = false →
      OnlySelf s (s.stepIssue i) ∧
      (s.stepIssue i).self = { s.self with illmask := s.self.illmask ||| g, inside := some (.issue { i with todo := r, marked := true }) }) ∧
    (i.inner = [] → i.todo = [] → (i.marked && s.self.ite) = false →
      OnlySelf s (s.stepIssue i) ∧ (s.stepIssue i).self = { s.self with inside := none, pc := s.self.pc + 4 }) ∧
    (i.inner = [] → i.todo = [] → i.marked = true → s.self.ite = true →
      (s.stepIssue i).self.st = .dumping ∧
        ∃ x, (s.stepIssue i).self.faults = [x] ∧ x.cause = 0x0E ∧ x.word = i.word ∧ x.pc = s.self.pc)

/-! ### Vector memory (10_memory.md, 13_order.md) -/

namespace Sys2Proof.Claims

/-- The element addresses of R320: unit, strided by g[gb] bytes, or indexed by 32-bit elements of vi. -/
inductive Pattern where
  | unit
  | stride (b : BitVec 5)
  | index (v : BitVec 5)

def elementAt (s : State) (a : BitVec 5) (t : BitVec 3) (p : Pattern) (i : Nat) : Word :=
  BitVec.ofInt 64 ((s.getG a).toInt +
    match p with
    | .unit => ((i * (widthOf t / 8) : Nat) : Int)
    | .stride b => (i : Int) * (s.getG b).toInt
    | .index v => valueOf t 32 (elem (s.self.getV v) 32 i))

/-- The largest operand width (R248, R320) and the class (R291) of an access. -/
def Pattern.wmax (t : BitVec 3) : Pattern → Nat
  | .index _ => max 32 (widthOf t)
  | _ => widthOf t
def Pattern.cls (direct : Nat) : Pattern → Nat
  | .index _ => 8
  | _ => direct

/-- The machine in an access of the vector stream, which the L2 slices and the TLB slices of its lane groups serve (R303,
R306). -/
def streaming (s : State) : State := { s with vec := true }

/-- Every active element lies in device memory that this device may access at once, aligned. -/
def ElementsAt (s : State) (k t : BitVec 3) (acc : Access) (f : Nat → Word) (pa : Nat → Nat) : Prop :=
  ∀ i, isActive s k i = true →
    Reaches (streaming s) (f i) acc (.dev (pa i)) ∧ pa i % 4096 = (f i).toNat % 4096 ∧ PlainAt s (pa i) ∧
      (f i).toNat % (widthOf t / 8) = 0

/-- A strand whose links on certain lines are broken (R410). -/
def unlinked (lines : Nat → Bool) (t : Strand) : Strand :=
  { t with slink := t.slink.filter fun l => !lines l, vlinks := t.vlinks.filter fun e => !lines e.2 }

/-- Other strands keep everything but links on certain lines (R410). -/
def OthersUnlinked (s t : State) (lines : Nat → Bool) : Prop :=
  ∀ n, n ≠ s.cur → t.strand n = (s.strand n).map (unlinked lines)

/-- Every L2 slice has room for a line of each element (R27). -/
def SlicesHaveRoom (s : State) : Prop := ∀ u b, u % 9 ≠ 0 → (s.residents u b).length + s.self.vn ≤ unitLines u

/-- The active elements that `go` names store their low `w` bits at their addresses, and on overlap the highest one
stays (R321); every other byte of memory reads as before; links on the lines written break. -/
def Scatters (s t : State) (w : Nat) (go : Nat → Bool) (pa : Nat → Nat) (val : Nat → Nat) : Prop :=
  (∀ x, t.byteAt x =
    match (List.range s.self.vn).reverse.find? fun i => go i && decide (pa i ≤ x) && decide (x < pa i + w / 8) with
    | some i => BitVec.ofNat 8 (val i / 256 ^ (x - pa i))
    | none => s.byteAt x) ∧
  ∀ n, n ≠ s.cur → t.strand n = (s.strand n).map
    (unlinked fun l => (List.range s.self.vn).any fun i => go i && decide (pa i / 64 = l))

/-- What stores to lines of device memory may change of the machine beside their bytes: the caches, which take the lines and may
give up others, and what a write undoes. No host or scratchpad byte changes. -/
def WritesLines (s u n : State) : Prop :=
  n = { u with strands := n.strands, cache := n.cache, copies := n.copies, rlinks := n.rlinks, hostCopies := n.hostCopies
               out := n.out, mem := n.mem, errs := n.errs, peer := n.peer, freeCtr := n.freeCtr } ∧
  (∀ a, n.hostByte a = s.hostByte a) ∧
  (∀ c o, s.cache.find (spadPa c o / 64) = none → n.spadByte c o = s.spadByte c o) ∧
  (SlicesHaveRoom u → n.mem = s.mem ∧ n.peer = s.peer ∧ n.freeCtr = s.freeCtr)

/-- A byte of a host page as the reservoir holds it, or as it comes in: decoded where the line lies in a view (R169, R304). -/
def hostNow (s : State) (x : Nat) : Byte :=
  match s.resv.find (x / 64), s.viewOf (64 * (x / 64)) with
  | some l, _ => lineByte l.data (x % 64)
  | none, some (base, fmt) => s.viewByte base fmt (x - base)
  | none, none => s.hostRaw x

/-- What a read of `n` bytes at a place outside this device's ordinary pages delivers, where it need not wait: a line of the
reservoir that is not poisoned, or that the host's link brings; a vitrine page of this device, 0 from its pointer on, from its
home or from the basin's cast; a peer's cast or line that is here (R174, R304, R305, R405, R417). -/
def Serves (s : State) (p : Place) (n v : Nat) : Prop :=
  match p with
  | .host h => s.hostAway h false = false ∧ (∀ l, (s.fillResv (h / 64)).resv.find (h / 64) = some l → l.poisoned = false) ∧
      v = leRead (hostNow s) h n
  | .vitrine pa gen =>
      let fr := s.frame (pa / 65536)
      let away : Prop := s.myBasin ≠ paBasin pa ∧ (s.basin s.myBasin).poolOn = true
      (∃ c, away ∧ s.findCast s.myBasin none (pa / 65536) gen = some c ∧
        v = leRead (fun x => Table.get 0 c.data x) (pa % 65536) n) ∨
      ((away → s.findCast s.myBasin none (pa / 65536) gen = none ∧ fr.state = 1) ∧ fr.gen = gen ∧ fr.state ≠ 0 ∧
        (∀ x ∈ s.errs, x.1 / 4 ≠ pa / 64) ∧ v = leRead (fun x => if x % 65536 < fr.ptr then s.byteAt x else 0) pa n)
  | .peer dv pa pv gen =>
      (∃ c, pv = true ∧ s.findCast s.myBasin (some dv) (pa / 65536) gen = some c ∧
        v = leRead (fun x => Table.get 0 c.data x) (pa % 65536) n) ∨
      ((pv = true → s.findCast s.myBasin (some dv) (pa / 65536) gen = none) ∧
        ∃ l, s.findPeer dv (pa / 64) = some l ∧ l.poisoned = false ∧ v = leRead (fun x => lineByte l.data x) (pa % 64) n)
  | _ => False

/-- The offset of a place in its page. -/
def pageOffset : Place → Nat
  | .dev pa => pa % 4096
  | .plane pa => pa % 4096
  | .spad _ off => off % 4096
  | .vitrine pa _ => pa % 4096
  | .host h => h % 4096
  | .peer _ pa _ _ => pa % 4096

/-- The forms of a vector load and of a vector store that an addressing pattern names (R320). -/
def loadOf (d a : BitVec 5) (k t : BitVec 3) : Pattern → Instr
  | .unit => .vld d a k t
  | .stride b => .vlds d a b k t
  | .index v => .vldx d a v k t
def storeOf (d a : BitVec 5) (k t : BitVec 3) : Pattern → Instr
  | .unit => .vst d a k t
  | .stride b => .vsts d a b k t
  | .index v => .vstx d a v k t

end Sys2Proof.Claims

/-- R174, R304, R305, R321, R405: a vector load delivers the bytes of host pages, of vitrine pages of this device and of peers'
casts and lines that are here, in any mix; it brings the host's lines into the reservoir and changes nothing else. -/
def Sys2Proof.Claims.VectorLoadsElsewhere : Prop :=
  ∀ (s : State) (d a : BitVec 5) (k t : BitVec 3) (p : Pattern) (at_ : Nat → Place) (val : Nat → Nat),
    let w := widthOf t
    let f := elementAt s a t p
    let ch : Charge := [(p.cls 6, actives s k)]
    let u := afterWeir s ch
    let taken (x : Nat) : Prop := ∃ i h, isActive s k i = true ∧ at_ i = .host h ∧ h / 64 = x / 64
    VReady s ch (p.wmax t) →
    (∀ i, isActive s k i = true → Reaches (streaming u) (f i) .read (at_ i) ∧ pageOffset (at_ i) = (f i).toNat % 4096 ∧
      (f i).toNat % (w / 8) = 0 ∧ Serves (streaming u) (at_ i) (w / 8) (val i)) →
    ∃ r n, exec (loadOf d a k t p) s = .next n ∧
      Elements s d w (isActive s k) (fun i => (val i : Int)) noFlags noSat r ∧
      n = { u.setSelf { settled r with pc := s.self.pc + 4 } with peer := keptPeer s, resv := n.resv } ∧
      (∀ x, taken x → n.hostByte x = hostNow s x) ∧ ∀ x, ¬ taken x → n.hostByte x = s.hostByte x

/-- R304, R321, R406, R410: a vector store to host pages writes its active elements there and no other byte, in lines that the
reservoir then owns; one to peers' pages sends each owner a message, waits, and completes once all have answered, when the
copies of the lines that this device holds go. -/
def Sys2Proof.Claims.VectorStoresElsewhere : Prop :=
  ∀ (s : State) (d a : BitVec 5) (k t : BitVec 3) (p : Pattern) (h : Nat → Nat) (dv : Nat → BitVec 12) (pv : Nat → Bool)
      (gen : Nat → BitVec 16),
    let w := widthOf t
    let f := elementAt s a t p
    let ch : Charge := [(p.cls 7, actives s k)]
    let u := afterWeir s ch
    let i : Instr := storeOf d a k t p
    let act := isActive s k
    VReady s ch (p.wmax t) → s.self.resumed = false → s.granted = [] →
    (∀ i, act i = true → (f i).toNat % (w / 8) = 0 ∧ h i % 4096 = (f i).toNat % 4096) →
    (let hit (l : Nat) : Bool := (List.range s.self.vn).any fun i => act i && decide (hostLine (h i) = l)
     (∀ i, act i = true → Reaches (streaming u) (f i) .write (.host (h i)) ∧ (streaming u).hostAway (h i) true = false) →
      ∃ n, exec i s = .next n ∧
        (∀ x, n.hostByte x =
          match (List.range s.self.vn).reverse.find? fun i => act i && decide (h i ≤ x) && decide (x < h i + w / 8) with
          | some i => BitVec.ofNat 8 (elem (s.self.getV d) w i / 256 ^ (x - h i))
          | none => if (List.range s.self.vn).any (fun i => act i && decide (h i / 64 = x / 64)) then hostNow s x
              else s.hostByte x) ∧
        (∀ i, act i = true → ∃ l, n.resv.find (h i / 64) = some l ∧ l.dirty = true ∧ l.owned = true) ∧
        n.self = unlinked hit { settled s.self with pc := s.self.pc + 4 } ∧ OthersUnlinked s n hit ∧
        n = { u with strands := n.strands, resv := n.resv, rlinks := n.rlinks, hostCopies := n.hostCopies, out := n.out }) ∧
    ((∀ i, act i = true → Reaches (streaming u) (f i) .write (.peer (dv i) (h i) (pv i) (gen i))) →
      (∃ i, act i = true) →
      (s.self.answers ≠ [] → ∃ n, exec i s = .next n ∧
        n = { u.setSelf { settled s.self with pc := s.self.pc + 4 } with
          peer := s.peer.filter fun l => !((List.range s.self.vn).any fun i =>
            act i && decide (l.dev = dv i ∧ l.line = h i / 64)) }) ∧
      (s.self.answers = [] → ∃ n c l, exec i s = .next n ∧ 0 < c ∧ n.self.st = .wait (.peer u.nextId c 0) ∧
        n.self.pc = s.self.pc ∧ n.self.v = s.self.v ∧ n.nextId = u.nextId + c ∧ n.out = l ++ u.out ∧ l.length = c ∧
        (∀ i, act i = true → ∃ ports body, Out.aq (dv i) u.sender.1 u.sender.2 ports body ∈ l) ∧
        n = { u.setSelf n.self with nextId := n.nextId, out := n.out }))

/-- R320, R321: `vld`, `vlds` and `vldx` deliver the bytes at each active element's address, little-endian, in one
snapshot; `vgl` also sets the link of each active element to its line and of every other element to none (R414). No
byte of memory changes, and nothing else of the strand. -/
def Sys2Proof.Claims.VectorLoadsReadTheirElements : Prop :=
  ∀ (s : State) (d a : BitVec 5) (k t : BitVec 3) (pa : Nat → Nat) (p : Pattern) (linked : Bool),
    let w := widthOf t
    let f := elementAt s a t p
    let ch : Charge := [(p.cls 6, actives s k)]
    let u := afterWeir s ch
    let i : Instr := match p with
      | .unit => .vld d a k t
      | .stride b => .vlds d a b k t
      | .index v => if linked then .vgl d a v k t else .vldx d a v k t
    (linked = true → ∃ v, p = .index v) →
    VReady s ch (p.wmax t) → ElementsAt u k t (if linked then .link false else .read) f pa →
      ∃ r n, exec i s = .next n ∧ SameReads s n ∧ OthersKeep s n none ∧
        Elements s d w (isActive s k) (fun i => (leRead s.byteAt (pa i) (w / 8) : Int)) noFlags noSat r ∧
        n.self = { settled r with
          pc := s.self.pc + 4
          vlinks := if linked then ((List.range s.self.vn).filter (isActive s k)).map fun i => (i, pa i / 64)
            else s.self.vlinks } ∧
        n = { u with strands := n.strands, copies := n.copies, peer := n.peer, cache := n.cache, mem := n.mem, errs := n.errs
                     freeCtr := n.freeCtr } ∧
        (s.cur < 1536 → SlicesHaveRoom u → SameMemory s n ∧ n.peer = keptPeer s ∧
          n = { u with strands := n.strands, copies := n.copies, peer := n.peer })

/-- R320, R321, R410, R408: `vst`, `vsts` and `vstx` store the low w bits of every active element at its address and
nothing else; the copies of the lines that hosts hold are called back. -/
def Sys2Proof.Claims.VectorStoresWriteTheirElements : Prop :=
  ∀ (s : State) (d a : BitVec 5) (k t : BitVec 3) (pa : Nat → Nat) (p : Pattern),
    let w := widthOf t
    let f := elementAt s a t p
    let ch : Charge := [(p.cls 7, actives s k)]
    let u := afterWeir s ch
    let i : Instr := match p with
      | .unit => .vst d a k t
      | .stride b => .vsts d a b k t
      | .index v => .vstx d a v k t
    let hit (l : Nat) : Bool := (List.range s.self.vn).any fun i => isActive s k i && decide (pa i / 64 = l)
    s.cur < 1536 → s.self.resumed = false → VReady s ch (p.wmax t) → ElementsAt u k t .write f pa →
      ∃ n, exec i s = .next n ∧ Scatters s n w (isActive s k) pa (elem (s.self.getV d) w) ∧
        n.self = unlinked hit { settled s.self with pc := s.self.pc + 4 } ∧
        n.hostCopies = s.hostCopies.filter (fun e => !hit e.2) ∧ WritesLines s u n

/-- R415: `vsc` stores the tried elements whose link is intact on the line of their address, of several at one address
the highest; its mask holds exactly those elements afterwards, no vector link is left, and nothing else of memory
changes. -/
def Sys2Proof.Claims.VectorStoreConditional : Prop :=
  ∀ (s : State) (d a v : BitVec 5) (k t : BitVec 3) (pa : Nat → Nat), k ≠ 0 →
    let w := widthOf t
    let f := elementAt s a t (.index v)
    let ch : Charge := [(8, actives s k)]
    let u := afterWeir s ch
    let intact (i : Nat) : Bool := isActive s k i && decide (s.self.vlinks.find i = some (pa i / 64))
    let wins (i : Nat) : Bool :=
      intact i && !((List.range s.self.vn).any fun j => decide (i < j) && intact j && decide (f i = f j))
    let hit (l : Nat) : Bool := (List.range s.self.vn).any fun i => wins i && decide (pa i / 64 = l)
    s.cur < 1536 → VReady s ch (max 32 w) → ElementsAt u k t (.link true) f pa →
      ∃ n, exec (.vsc d a v k t) s = .next n ∧ Scatters s n w wins pa (elem (s.self.getV d) w) ∧
        n.self = { unlinked hit (settled s.self) with pc := s.self.pc + 4, k := n.self.k, vlinks := [] } ∧
        (∀ i, i < 4096 → (Table.get 0 n.self.k k.toNat).getLsbD i = (decide (i < s.self.vn) && wins i)) ∧
        (∀ j, j ≠ k.toNat → Table.get 0 n.self.k j = Table.get 0 s.self.k j) ∧
        n.hostCopies = s.hostCopies.filter (fun e => !hit e.2) ∧ WritesLines s u n

namespace Sys2Proof.Claims

/-- The spans that the refresh controllers of a core have ended lie in the past, each under a deadline (R312). -/
def SpansPast (s : State) (core : Nat) : Prop :=
  0 < s.deadline core ∧ ∀ b, ∀ x ∈ (s.core core).spPast.get [] b, x.stop ≤ s.clk ∧ 0 < x.limit

/-- The launches after an access of the running strand to rows of a scratchpad: each row whose bank a refresh takes in this clk
waits behind it for a clk (R312, R474). -/
def afterRefreshes (s : State) (core : Nat) (rows : List Nat) : Annex :=
  let n := (rows.eraseDups.filter fun r => s.refreshNow core (r / 1024)).length
  if n = 0 then s.annex
  else { s.annex with launches := s.annex.launches.map fun l =>
    if (s.strand s.cur).any (fun u => l.id = u.bind.launch) then { l with trefr := min (l.trefr + n) (2 ^ 64 - 1) } else l }

end Sys2Proof.Claims

/-- R326, R314, R312: `vldsp` delivers the bytes at each active element's offset of its core's scratchpad, 0 of an expired
row, whose elements EXPMASK collects; `vstsp` writes each active element at its offset and nothing else, and the rows
it writes are not expired afterwards. A row behind a refresh waits for it, which its launch counts. -/
def Sys2Proof.Claims.ScratchpadTransfers : Prop :=
  ∀ (s : State) (d a : BitVec 5) (k t : BitVec 3),
    let w := widthOf t
    let n := w / 8
    let off (i : Nat) : Nat := (s.getG a).toNat + i * n
    let exp (i : Nat) : Bool := s.expired s.myCore (off i / 64)
    let rows := ((List.range s.self.vn).filter (isActive s k)).map fun i => off i / 64
    let hit (l : Nat) : Bool := (List.range s.self.vn).any fun i => isActive s k i && decide (spadPa s.myCore (off i) / 64 = l)
    (∀ i, isActive s k i = true → off i % n = 0 ∧ off i + n ≤ 3145728) →
    (VReady s [(6, actives s k)] w → (s.self.expte = false ∨ ∀ i, isActive s k i = true → exp i = false) →
      ∃ r x, exec (.vldsp d a k t) s = .next x ∧ SameMemory s x ∧
        Elements s d w (isActive s k)
          (fun i => (if exp i then 0 else leRead (fun o => s.rawByte (2 ^ 40 + s.myCore * 2 ^ 32 + o)) (off i) n : Nat))
          noFlags noSat r ∧
        x.self = { settled r with pc := s.self.pc + 4, expmask := x.self.expmask } ∧
        (∀ i, i < 4096 → x.self.expmask.getLsbD i = (s.self.expmask.getLsbD i || (isActive s k i && exp i))) ∧
        x = { (afterWeir s [(6, actives s k)]).setSelf x.self with
          peer := keptPeer s, annex := afterRefreshes (afterWeir s [(6, actives s k)]) s.myCore rows }) ∧
    (VReady s [(7, actives s k)] w → s.self.resumed = false → SpansPast s s.myCore → s.granted = [] →
      ∃ x, exec (.vstsp d a k t) s = .next x ∧
        (∀ i, isActive s k i = true → ∀ j, j < n →
          x.spadByte s.myCore (off i + j) = BitVec.ofNat 8 (elem (s.self.getV d) w i / 256 ^ j) ∧
          x.expired s.myCore ((off i + j) / 64) = false) ∧
        (∀ o, o < 2 ^ 32 → (∀ i, isActive s k i = true → ¬ (off i ≤ o ∧ o < off i + n)) →
          x.spadByte s.myCore o = s.spadByte s.myCore o) ∧
        (∀ q, q / 2 ^ 32 ≠ 2 ^ 8 + s.myCore → x.rawByte q = s.rawByte q) ∧ 
        x.self = unlinked hit { settled s.self with pc := s.self.pc + 4 } ∧ OthersUnlinked s x hit ∧
        x = { afterWeir s [(7, actives s k)] with
          strands := x.strands, mem := x.mem, cores := x.cores, rlinks := x.rlinks
          hostCopies := x.hostCopies, out := x.out
          annex := afterRefreshes (afterWeir s [(7, actives s k)]) s.myCore rows })

namespace Sys2Proof.Claims

/-- What the read of a plane descriptor may take in: copies of lines, and translations (R301, R306). -/
def taking (s z : State) : State := { s with copies := z.copies, tlb := z.tlb, ats := z.ats }

/-- A plane descriptor is read by the vector stream and passes its checks (R162, R163); `z` is the machine after the read. -/
def Describes (s : State) (va : Word) (k : Access) (d : Desc) (z : State) : Prop :=
  (streaming s).readDesc va k = .ok d z ∧ z = taking (streaming s) z

/-- Bit `p` of element `e` of a region, in the cells (R164, R57). -/
def planeBit (s : State) (r : Desc) (e p : Nat) : Bool :=
  (s.rawByte (rowPa (r.place e).1 ((r.place e).2.1 + p) + (r.place e).2.2 / 8)).getLsbD ((r.place e).2.2 % 8)

/-- The integer that the planes of an element hold (R57, R327). -/
def planeInt (s : State) (r : Desc) (e : Nat) : Int :=
  if r.kind = 2 then (if planeBit s r e 0 then 1 else 0) - (if planeBit s r e 1 then 1 else 0)
  else
    let n : Nat := (List.range r.width).foldl (fun a p => a + (if planeBit s r e p then 2 ^ p else 0)) 0
    if r.kind = 1 then (n : Int) else sOf r.width n

/-- Bit `p` that `vstp` writes of an integer (R327). -/
def storedBit (r : Desc) (x : Int) (p : Nat) : Bool :=
  if r.kind = 2 then (if p = 0 then decide (0 < x) else decide (x < 0))
  else (x % (2 : Int) ^ r.width).toNat.testBit p

end Sys2Proof.Claims

/-- R327: `vldp` delivers the integers that the planes of its elements hold, modulo 2^w, and `vstp` writes the planes of
its active elements and no other cell; an element at or beyond ELEMS is a vector-stream access fault, before
any charge, that changes no register and no cell. -/
def Sys2Proof.Claims.PlaneTransfers : Prop :=
  ∀ (s : State) (d a b : BitVec 5) (k t : BitVec 3) (r : Desc) (z : State),
    let w := widthOf t
    let base := (s.getG b).toNat
    let loads : Charge := [(6, actives s k)]
    let stores : Charge := [(7, actives s k)]
    let cell (i p : Nat) : Nat := rowPa (r.place (base + i)).1 ((r.place (base + i)).2.1 + p) + (r.place (base + i)).2.2 / 8
    let free (i : Nat) : Prop := ∀ p, p < r.width →
      (s.banks.get {} (cell i p / 2 ^ 27)).fifo = [] ∧
        ∀ o ∈ s.ops, ∀ g ∈ o.groups, g.bank = cell i p / 2 ^ 27 → g.opened = false
    let hit (l : Nat) : Bool := (List.range s.self.vn).any fun i => isActive s k i &&
      (List.range r.width).any fun p => decide (cell i p / 64 = l)
    s.self.descRead = none → s.self.resumed = false →
    (VReady s loads w → Describes s (s.getG a) .read r z →
      (∀ i, isActive s k i = true → base + i < r.elems ∧ free i ∧ ∀ p, p < r.width → s.checkOf (cell i p) 1 = 0) →
      ∃ u n, exec (.vldp d a b k t) s = .next n ∧ SameMemory s n ∧
        Elements s d w (isActive s k) (fun i => planeInt s r (base + i)) noFlags noSat u ∧
        n = (taking (afterWeir s loads) z).setSelf { settled u with pc := s.self.pc + 4 }) ∧
    (VReady s stores w → Describes s (s.getG a) .write r z → r.subs.Nodup → (∀ x, s.migOf x = []) → s.granted = [] →
      (∀ i, isActive s k i = true → base + i < r.elems ∧ free i) →
      ∃ n, exec (.vstp d a b k t) s = .next n ∧
        (∀ i, isActive s k i = true → ∀ p, p < r.width →
          planeBit n r (base + i) p = storedBit r (valueOf t w (elem (s.self.getV d) w i)) p) ∧
        (∀ x c, (∀ i, isActive s k i = true → ∀ p, p < r.width →
            ¬ (x = cell i p ∧ c = (r.place (base + i)).2.2 % 8)) →
          (n.rawByte x).getLsbD c = (s.rawByte x).getLsbD c) ∧
        n.self = unlinked hit { settled s.self with pc := s.self.pc + 4 } ∧ OthersUnlinked s n hit ∧ n = { taking (afterWeir s stores) z with
          strands := n.strands, mem := n.mem, errs := n.errs, rlinks := n.rlinks
          hostCopies := n.hostCopies, out := n.out }) ∧
    ∀ i acc, (i, acc) ∈ [(Instr.vldp d a b k t, Access.read), (Instr.vstp d a b k t, Access.write)] →
      s.self.vn * w ≤ s.self.vlen → s.self.vn ≤ 4096 → Describes s (s.getG a) acc r z →
      (∃ j, isActive s k j = true ∧ r.elems ≤ base + j) →
      ∃ n, exec i s = .next n ∧ SameMemory s n ∧ n.self.v = s.self.v ∧ n.self.k = s.self.k ∧
        n.self.g = s.self.g ∧ n.self.st = .dumping ∧ (n.self.faults.map fun f => (f.cause, f.va)) = [(0x07, s.getG a)] ∧
        ((s.core s.myCore).queue = [] → n.cores = s.cores)

/-- R419: `vapnd` appends the active elements, ascending, as one record at the aligned accession pointer of an OPEN
local page, moves the pointer behind it and delivers the offset; what does not fit delivers all ones and writes
nothing, and with no active element nothing is appended. -/
def Sys2Proof.Claims.VectorAppend : Prop :=
  ∀ (s : State) (v a d : BitVec 5) (k t : BitVec 3) (pa : Nat) (gen : BitVec 16),
    let w := widthOf t
    let ch : Charge := [(7, actives s k)]
    let u := afterWeir s ch
    let i : Instr := .vapnd v a d k t
    let f := pa / 65536
    let fr := s.frame f
    let n := w / 8
    let at_ := (fr.ptr + n - 1) / n * n
    let acts := (List.range s.self.vn).filter (isActive s k)
    let stop := at_ + n * acts.length
    let hit (l : Nat) : Bool := decide ((f * 65536 + fr.ptr) / 64 ≤ l ∧ l ≤ (f * 65536 + stop - 1) / 64)
    let quiet : Prop := ∃ x, exec i s = .next x ∧ SameMemory s x ∧ GetsG s x d (BitVec.allOnes 64) ∧
      x = u.setSelf { settled s.self with g := x.self.g, pc := s.self.pc + 4 }
    VReady s ch w →
    (acts = [] → quiet) ∧
    (acts ≠ [] → Reaches (streaming u) (s.getG a) .append (.vitrine pa gen) → fr.gen = gen → fr.state = 1 →
      (65536 < stop → quiet) ∧
      (stop ≤ 65536 → (∀ x, s.migOf x = []) →
        ∃ x, exec i s = .next x ∧ GetsG s x d (BitVec.ofNat 64 at_) ∧
          x.self = unlinked hit { settled s.self with g := x.self.g, pc := s.self.pc + 4 } ∧
          OthersUnlinked s x hit ∧ x.frame f = { fr with ptr := stop } ∧ (∀ g, g ≠ f → x.frame g = s.frame g) ∧
          ∀ y, x.byteAt y =
            if f * 65536 + fr.ptr ≤ y ∧ y < f * 65536 + at_ then 0
            else if f * 65536 + at_ ≤ y ∧ y < f * 65536 + stop then
              let o := y - (f * 65536 + at_)
              BitVec.ofNat 8 (elem (s.self.getV v) w (acts.getD (o / n) 0) / 256 ^ (o % n))
            else s.byteAt y))

/-! ### Engine commands (11_planes.md, 12_fold.md, 14_aqueduct.md) -/

namespace Sys2Proof.Claims

/-- A vector-stream instruction that hands engine commands over: nothing is parked for it, and the weir lets their charge
pass (R162, R291). -/
def EngineReady (s z : State) (ws : List Work) : Prop := s.self.parked = none ∧ WeirOpen z (ws.flatMap Work.charge)

/-- What issue may take in: copies of lines and translations, and the element that it has come to. -/
def Quiet (s z : State) : Prop :=
  z = taking s z ∨ z = (taking s z).setSelf { s.self with faultElem := z.self.faultElem }

/-- Command `j` of an instruction as its engine receives it, under the next numbers; a tagged one takes the strand's next
PLSTAT tag (R333), and a second one is chained to the first (R373). -/
def received (s : State) (w : Work) (j : Nat) : EngineOp :=
  { id := s.nextId + j, slot := s.cur, work := w, groups := w.groups, tag := if w.tagged then s.self.plNext else 0
    after := if j = 0 then none else some s.nextId }

/-- The fountain does not accept the command yet (R332, R360): another strand's lock stands on its subarrays or a lock is
asked for, or a command of the strand before it waits there (log entry 97). -/
def standsBack (s : State) (ws : List Work) (j : Nat) : Bool :=
  (ws.zipIdx.take (j + 1)).any fun e => s.mustWait s.ops (received s e.1 e.2)

/-- The engines receive the commands in order; each is counted in its waitc class (R300); the fetch goes on behind the
instruction and the `n` words that it governs, and nothing else changes. -/
def Accepts (i : Instr) (s z : State) (ws : List Work) (n : Nat := 0) : Prop :=
  EngineReady s z ws → ∃ t, exec i s = .next t ∧ SameMemory s t ∧
    t.ops = s.ops ++ ws.zipIdx.map (fun e => { received s e.1 e.2 with held := standsBack s ws e.2 }) ∧
    t.self = { settled s.self with
      pc := s.self.pc + BitVec.ofNat 64 (4 + 4 * n)
      plNext := s.self.plNext + BitVec.ofNat 16 (ws.countP Work.tagged)
      cntC := s.self.cntC + ws.countP fun w => w.cls = 3
      cntT := s.self.cntT + ws.countP fun w => w.cls = 4 } ∧
    t = { (afterWeir z (ws.flatMap Work.charge)).setSelf t.self with
      ops := t.ops, nextId := s.nextId + ws.length, vec := s.vec }

/-- Two regions of one shape (R340). -/
def SameShape (a b : Desc) : Prop :=
  a.vbase = b.vbase ∧ a.npage = b.npage ∧ a.stack = b.stack ∧ a.order = b.order ∧ a.xseg = b.xseg

/-- Words that a fetch reads in the code range. -/
def Reads (s : State) (a : Word) (w : BitVec 32) : Prop := s.inCode a = true ∧ s.fetchWord a = .ok w s

/-- The row of a row code in a block with base row `b` (R198). -/
def rowOf (b : Nat) (c : BitVec 5) : Nat := if c.toNat < 24 then b + c.toNat else 1024 + (c.toNat - 24)

/-- The row codes that a row micro-op names. -/
def codesNamed : Instr → List (BitVec 5)
  | .rowcp d r => [d, r]
  | .rownot d r => [d, r]
  | .rowmaj x y z => [x, y, z]
  | .rowshl d r _ => [d, r]
  | .rowshr d r _ => [d, r]
  | _ => []

/-- A vector-stream fault (R451): nothing that a register, a mask, the memory or the engines hold changes; the instruction
returns to the vector queue with its record, and the strand stops for the dump. -/
def VectorFault (i : Instr) (s : State) (code : BitVec 8) (va : Word) : Prop :=
  ∃ t, exec i s = .next t ∧ SameMemory s t ∧ OthersKeep s t none ∧ t.ops = s.ops ∧
    t.self.g = s.self.g ∧ t.self.v = s.self.v ∧ t.self.k = s.self.k ∧ t.self.fctl = s.self.fctl ∧ t.self.st = .dumping ∧
    (t.self.faults.map fun f => (f.cause, f.va, f.pc, f.word)) = [(code, va, s.self.pc, s.self.word)] ∧
    ∃ q, t.self.vq = s.self.vq ++ [q] ∧ q.word = s.self.word ∧ q.pc = s.self.pc

end Sys2Proof.Claims

/-- R340 to R342, R332: a plane instruction whose descriptors pass their checks, name regions of one shape, sources of
an allowed kind and a destination of enough planes (A's and n for `pmul`), is accepted with those descriptors; where a
region differs in shape, a source is of another kind, the selector has not one plane, or the destination has too few,
each form is a vector-stream descriptor fault that hands nothing over. -/
def Sys2Proof.Claims.PlaneInstructionsAreAccepted : Prop :=
  ∀ (s z1 z2 z3 z4 : State) (d a b w : BitVec 5) (D A B S : Desc),
    let n := w.toNat + 1
    let gb := s.getG b
    Describes s (s.getG d) .write D z1 →
    let faults (is : List Instr) : Prop := s.self.parked = none → ∀ i ∈ is, VectorFault i s 0x0D (s.getG d)
    (n ≤ D.width → Accepts (.pfill d b w) s z1 [.plane .fill n D D D D gb]) ∧
    (D.width < n → faults [.pfill d b w]) ∧
    (Describes z1 (s.getG a) .read A z2 →
      (SameShape D A → n ≤ D.width →
        Accepts (.pnot d a w) s z2 [.plane .not n D A D D 0] ∧ Accepts (.pcopy d a w) s z2 [.plane .copy n D A D D 0] ∧
        (A.kind ≠ 2 → Accepts (.pshl d a b w) s z2 [.plane .shl n D A D D gb] ∧
          Accepts (.pshr d a b w) s z2 [.plane .shr n D A D D gb])) ∧
      (¬ SameShape D A ∨ D.width < n → faults [.pnot d a w, .pcopy d a w, .pshl d a b w, .pshr d a b w]) ∧
      (A.kind = 2 → faults [.pshl d a b w, .pshr d a b w]) ∧
      (Describes z2 gb .read B z3 →
        (SameShape D A → SameShape D B → n ≤ D.width →
          Accepts (.pand d a b w) s z3 [.plane .and n D A B D gb] ∧ Accepts (.por d a b w) s z3 [.plane .or n D A B D gb] ∧
          Accepts (.pxor d a b w) s z3 [.plane .xor n D A B D gb] ∧
          (A.kind ≠ 2 → B.kind ≠ 2 →
            Accepts (.padd d a b w) s z3 [.plane .add n D A B D gb] ∧
            Accepts (.psub d a b w) s z3 [.plane .sub n D A B D gb] ∧
            Accepts (.pcmp d a b w) s z3 [.plane .cmp n D A B D gb]) ∧
          (A.kind = 1 → B.kind = 1 → A.width + n ≤ D.width →
            Accepts (.pmul d a b w) s z3 [.plane .mul n D A B D gb]) ∧
          (Describes z3 (gb + 64) .read S z4 → SameShape D S → S.width = 1 →
            Accepts (.psel d a b w) s z4 [.plane .sel n D A B S gb])) ∧
        (¬ SameShape D A ∨ ¬ SameShape D B ∨ D.width < n →
          faults [.padd d a b w, .psub d a b w, .pcmp d a b w, .pmul d a b w, .pand d a b w, .por d a b w, .pxor d a b w]) ∧
        (A.kind = 2 ∨ B.kind = 2 → faults [.padd d a b w, .psub d a b w, .pcmp d a b w]) ∧
        (A.kind ≠ 1 ∨ B.kind ≠ 1 ∨ D.width < A.width + n → faults [.pmul d a b w]) ∧
        (Describes z3 (gb + 64) .read S z4 →
          ¬ SameShape D A ∨ ¬ SameShape D B ∨ ¬ SameShape D S ∨ D.width < n ∨ S.width ≠ 1 → faults [.psel d a b w])))

/-- R360, R361, R366, R354: `plock`, `punlock` and `pcal` are accepted with the region of their descriptor, and `pprog` with
its governed words when each is a legal row micro-op whose rows lie in the subarray; a block that would pass row 1,023
is a vector-stream descriptor fault. -/
def Sys2Proof.Claims.LocksCalibrationAndBlocksAreAccepted : Prop :=
  ∀ (s z : State) (d a : BitVec 5) (n : BitVec 10) (ws : List (BitVec 32)) (D : Desc), s.vec = false →
    (Describes s (s.getG d) .read D z →
      Accepts (.plock d) s z [.plock D] ∧ Accepts (.punlock d) s z [.punlock D]) ∧
    (Describes s (s.getG d) .write D z → s.self.cur = true → Accepts (.pcal d) s z [.pcal D]) ∧
    (Describes s (s.getG d) .write D z → ws.length = n.toNat + 1 →
      (∀ k, (h : k < ws.length) → Reads s (s.self.pc + 4 + BitVec.ofNat 64 (4 * k)) ws[k] ∧ governable ws[k] = true) →
      (∀ e ∈ s.self.loops,
        ¬ ((s.self.pc + 4).toNat ≤ e.stop.toNat ∧ e.stop.toNat ≤ s.self.pc.toNat + 4 * ws.length)) →
      let base := (s.getG a).toNat
      let fits : Prop := base ≤ 1023 ∧ ∀ w ∈ ws, ∀ i, decodeWord w = some i → ∀ c ∈ codesNamed i, c.toNat < 24 →
        base + c.toNat ≤ 1023
      (fits → Accepts (.pprog d a n) s z [.pprog D base ws] ws.length) ∧
      (s.self.parked = none → ¬ fits → ∃ t, exec (.pprog d a n) s = .next t ∧ SameMemory s t ∧ t.ops = s.ops ∧
        t.self.st = .dumping ∧ (t.self.faults.map fun f => (f.cause, f.va)) = [(0x0D, s.getG d)]))

/-- R336, R337, R354, R197: a row micro-op that its block runs on an open group acts on every column of its destination
that the destination's kind and XSEG let it write, in every subarray of the group, and changes no other row; as a word
of the program it is the precise illegal-instruction trap. -/
def Obligations.RowOperations : Prop :=
  ∀ (s : State) (d r x y c : BitVec 5),
    let named : List (Instr × List (BitVec 5) × ((BitVec 5 → Row) → Row)) :=
      [(.rowcp d r, [d], fun R => R r), (.rownot d r, [d], fun R => ~~~ R r),
       (.rowmaj d x y, [d, x, y], fun R => (R d &&& R x) ||| (R d &&& R y) ||| (R x &&& R y)),
       (.rowshl d r c, [d], fun R => R r <<< c.toNat), (.rowshr d r c, [d], fun R => R r >>> c.toNat)]
    (s.rowCtx = none → ∀ f ∈ named, Traps f.1 s 0x01 (s.self.word.setWidth 64) s.self.pc) ∧
    ∀ (o : EngineOp) (g : Group), s.rowCtx.isSome = true → s.rowGroup = some (o, g) → o.margins = [] →
      s.inp.amounts = [] → (∀ x, s.migOf x = []) → g.subs.Nodup → (∀ m ∈ g.subs, (s.comp.get {} m).rows.length = 6) →
      let base := o.work.rowBase
      ∀ f ∈ named, rowLegal f.1 = true → (∀ e ∈ codesNamed f.1, e.toNat < 24 → base + e.toNat ≤ 1023) →
        ∃ t, exec f.1 s = .next t ∧
          (∀ m ∈ g.subs, ∀ q, q < 1030 → ∀ j, j < 8192 →
            (t.rowVal m q).getLsbD j =
              if (f.2.1.map (rowOf base)).contains q && (decide (1024 ≤ q) || !o.work.xseg.getLsbD (j / 64))
              then (f.2.2 fun e => s.rowVal m (rowOf base e)).getLsbD j else (s.rowVal m q).getLsbD j) ∧
          (∀ m, m ∉ g.subs → ∀ q, q < 1030 → t.rowVal m q = s.rowVal m q) ∧
          (∀ p, p / 2 ^ 20 ∉ g.subs → t.rawByte p = s.rawByte p) ∧
          (let hit (l : Nat) : Bool := g.subs.contains (l / 2 ^ 14) && (f.2.1.map (rowOf base)).contains (l / 16 % 2 ^ 10)
           t.self = unlinked hit s.self ∧ OthersUnlinked s t hit) ∧
          (∃ o' g', t.rowGroup = some (o', g') ∧ g'.pos = g.pos + 1 ∧ g'.subs = g.subs ∧ o'.work = o.work) ∧
          t = { s with
            strands := t.strands, ops := t.ops, mem := t.mem, comp := t.comp, unchecked := t.unchecked
            rlinks := t.rlinks, hostCopies := t.hostCopies, out := t.out }

namespace Sys2Proof.Claims

/-- The operand of a `plant` (R370, R372): a 64-byte header at a multiple of 64 of the core's scratchpad, in a row that
is not expired, with its fields in range and the planes that follow it in the scratchpad. -/
def PlantBlock (s : State) (off : Word) (N npage : Nat) (h : Nat) : Prop :=
  let o := off.toNat
  o % 64 = 0 ∧ s.expired s.myCore (o / 64) = false ∧ h = leRead (s.spadByte s.myCore) o 64 ∧ headerOk h = true ∧
    o + 64 + 1024 * N * (if fieldAt h 0 1 / 2 % 2 = 1 then 1 else 2 * npage) ≤ 3145728

/-- The command of a `plant` with that header. -/
def plantOf (D : Desc) (off : Word) (N h : Nat) : Work :=
  .plant D off.toNat N (fieldAt h 0 1 / 2 % 2 = 1) (fieldAt h 0 1 % 2 = 1) (fieldAt h 1 1) (fieldAt h 2 1)

/-- A fold on a region of the strand's basin, with its element row and its accumulators in range (R376), and its scale
bytes read for nq4 and e2m1 (R378). -/
def FoldFits (s z : State) (D : Desc) (mode : BitVec 2) (row abase : Nat) (scales : List Byte) : Prop :=
  D.basin = s.myBasin ∧ row < D.stack ∧ abase + foldSpan D mode ≤ 4096 ∧
    if D.kind = 3 ∨ D.kind = 4 then s.readScales D row = .ok scales z ∧ Quiet s z else scales = [] ∧ z = s

/-- The weight at which a fold is charged, which its completion gives back at (R382). -/
def foldWeight (s : State) : Nat :=
  s.self.weirPass.getD ((((s.core s.myCore).settle s.clk).inForce s.clk).wts.get 1 12).toNat

end Sys2Proof.Claims

/-- R372 to R376: `plant`, the chained `plant` and `fold` are accepted with their region, their planes and header, and
their tile, element row, accumulators and scale bytes; a fold outside the strand's basin or whose element row or
accumulators are out of range is a vector-stream descriptor fault. -/
def Sys2Proof.Claims.PlantsAndFoldsAreAccepted : Prop :=
  ∀ (s z y : State) (d m : BitVec 3) (a b : BitVec 5) (mode : BitVec 2) (D : Desc) (h : Nat) (scales : List Byte),
    let N := m.toNat + 1
    let off := s.getG a
    let opnd := (s.getG b).toNat
    let foldOf (row abase : Nat) : Work := .fold D d.toNat mode row abase scales (foldWeight s)
    (s.strand s.cur).isSome = true →
    (Describes s (s.getG b) .read D z → D.basin = s.myBasin → PlantBlock z off N D.npage h →
      Accepts (.plant a b m) s z [plantOf D off N h] ∧
      (FoldFits z y D mode (fieldAt h 4 2) (fieldAt h 6 2) scales →
        Accepts (.plantChained d a b m mode) s y [plantOf D off N h, foldOf (fieldAt h 4 2) (fieldAt h 6 2)])) ∧
    (Describes s off .read D z →
      (opnd < 2 ^ 28 → FoldFits z y D mode (opnd % 2 ^ 16) (opnd / 2 ^ 16) scales →
        Accepts (.fold d a b mode) s y [foldOf (opnd % 2 ^ 16) (opnd / 2 ^ 16)]) ∧
      (s.self.parked = none → (2 ^ 28 ≤ opnd ∨ D.basin ≠ s.myBasin ∨ D.stack ≤ opnd % 2 ^ 16 ∨
          4096 < opnd / 2 ^ 16 % 2 ^ 12 + foldSpan D mode) → VectorFault (.fold d a b mode) s 0x0D off))

namespace Sys2Proof.Claims

/-- What `fread` makes of an accumulator (R388): a 32-bit or 64-bit integer, saturated on demand, or a scaled f32; a
poisoned one reads as 0, or as the NaN, with NV. -/
def readOut (y : BitVec 2) (sat : Bool) (scale : Nat) (acc : Int) (poisoned : Bool) : Int × FFlags × Bool :=
  if y = 2 then
    if poisoned then (FFmt.f32.nan, flagNV, false)
    else
      let r := FFmt.f32.mul 0 (.fin (acc < 0) acc.natAbs 0) (FFmt.f32.read scale)
      (r.1, r.2, false)
  else if poisoned then (0, flagNV, false)
  else if y = 0 ∧ sat = true then (clamp 2 acc, 0, clamp 2 acc ≠ acc) else (acc, 0, false)

/-- Accumulator `k` of a tile of a core, and whether it is poisoned (R68). -/
def accOf (s : State) (core tile k : Nat) : Int := ((s.core core).acc.get 0 (4096 * tile + k)).toInt
def poisonOf (s : State) (core tile k : Nat) : Bool := (s.core core).poison.get false (4096 * tile + k)

end Sys2Proof.Claims

/-- R386, R388, R389: once no fold of the strand is left, `fread` delivers VN accumulators of its tile from index g[ga] on
to every element below VN, or is a length fault when they pass 4,096; `fclr` clears its tile's accumulators, poison and
flags and no other tile's. -/
def Sys2Proof.Claims.AccumulatorsAreReadAndCleared : Prop :=
  ∀ (s : State) (d a b : BitVec 5) (y : BitVec 2) (f : BitVec 1) (m : BitVec 3), s.busyIn s.cur [6] = false → y ≠ 3 →
    let w := if y = 1 then 64 else 32
    let i0 := (s.getG a).toNat
    let val (i : Nat) : Int × FFlags × Bool := readOut y (f = 1) ((s.getG b).toNat % 2 ^ 32)
      (accOf s s.myCore m.toNat (i0 + i)) (poisonOf s s.myCore m.toNat (i0 + i))
    (VReady s [(12, s.self.vn)] w →
      (i0 + s.self.vn ≤ 4096 → VDone (.fread d a b y f m) s [(12, s.self.vn)]
        (Elements s d w (fun i => decide (i < s.self.vn)) (fun i => (val i).1) (fun i => (val i).2.1)
          fun i => (val i).2.2)) ∧
      (4096 < i0 + s.self.vn → VectorFault (.fread d a b y f m) s 0x0C 0)) ∧
    (VReady s [(12, 1)] 0 → ∃ t, exec (.fclr m) s = .next t ∧ SameMemory s t ∧
      t.self = { settled s.self with pc := s.self.pc + 4 } ∧
      (∀ k, k < 4096 → accOf t s.myCore m.toNat k = 0 ∧ poisonOf t s.myCore m.toNat k = false) ∧
      (∀ c j k, k < 4096 → c ≠ s.myCore ∨ j ≠ m.toNat →
        accOf t c j k = accOf s c j k ∧ poisonOf t c j k = poisonOf s c j k) ∧
      (let c := s.core s.myCore
       let c' := t.core s.myCore
       ∀ j, j < 8 → c'.tileNan.getLsbD j = (c.tileNan.getLsbD j && decide (j ≠ m.toNat)) ∧
         c'.tileRange.getLsbD j = (c.tileRange.getLsbD j && decide (j ≠ m.toNat)) ∧
         c'.tileOvf.getLsbD j = (c.tileOvf.getLsbD j && decide (j ≠ m.toNat))) ∧
      t = { (afterWeir s [(12, 1)]).setSelf t.self with cores := t.cores })

namespace Sys2Proof.Claims

/-- An element of a bank operation lies in device memory at `pa`, aligned, readable, writable if it is written, and on no
page under migration (R391). -/
def BankElement (s : State) (va : Word) (w : Nat) (write : Bool) (pa : Nat) : Prop :=
  Reaches (streaming s) va .read (.dev pa) ∧ (write = true → Reaches (streaming s) va .write (.dev pa)) ∧ va.toNat % (w / 8) = 0 ∧
    s.migrating pa = false

end Sys2Proof.Claims

/-- R390, R391: a bank operation whose elements lie pairwise in one bank of device memory is accepted with their
addresses and its factor; with a count of 0 nothing is handed over. -/
def Sys2Proof.Claims.BankOperationsAreAccepted : Prop :=
  ∀ (s : State) (d a b : BitVec 5) (t : BitVec 3) (f : BitVec 1) (pd px : Nat → Nat) (op : BankOp),
    let ft : Bool := op = .sax || f = 1
    let w := if ft then (FFmt.ofCode t.toNat).width else widthOf t
    let n := (s.getG b).toNat % 2 ^ 32
    let k : BitVec 32 := (s.getG b).extractLsb' 32 32
    let i : Instr := match op with
      | .add => .bkadd d a b t f
      | .red => .bkred d a b t f
      | .cx => .bkcx d a b t f
      | .sax => .bksax d a b t
    let dests := if op = .red then 1 else n
    (∀ j, j < dests → BankElement s (s.getG d + BitVec.ofNat 64 (j * (w / 8))) w true (pd j)) →
    (∀ j, j < n → BankElement s (s.getG a + BitVec.ofNat 64 (j * (w / 8))) w false (px j) ∧
      pd (if op = .red then 0 else j) / 2 ^ 27 = px j / 2 ^ 27) →
    Accepts i s s (if n = 0 then [] else [.bank op t ft ((List.range dests).map pd) ((List.range n).map px) k])

/-- R431 to R433: `aq.put`, `aq.get` and `aq.sig` whose operands pass their checks are accepted, a transfer with the lines
of its remote and its local range in order; a misaligned address or count is a vector-stream misalignment fault. -/
def Sys2Proof.Claims.AqueductCommandsAreAccepted : Prop :=
  ∀ (s : State) (d a b : BitVec 5) (dv : BitVec 12) (far : List (BitVec 12 × Nat)) (near : AqRange),
    let y := streaming s
    let cnt := (s.getG b).toNat
    let lines (remote : Word) : List AqLine := (List.range (cnt / 64)).map fun j =>
      ⟨BitVec.ofNat 52 (remotePa (remote.toNat % 4096) far (64 * j)), near.pa (64 * j), false, false⟩
    let sized (x y : Word) : Prop := x.toNat % 64 = 0 ∧ y.toNat % 64 = 0 ∧ cnt % 64 = 0 ∧ 64 ≤ cnt ∧ cnt ≤ 2 ^ 24
    (sized (s.getG d) (s.getG a) → (∀ e ∈ far, e.1 = dv) →
      (y.localRange (s.getG a) cnt .read = .ok near y → y.remoteRange (s.getG d) cnt .write = .ok far y →
        Accepts (.aqPut d a b) s s [.put dv (lines (s.getG d))]) ∧
      (y.localRange (s.getG d) cnt .write = .ok near y → y.remoteRange (s.getG a) cnt .read = .ok far y →
        Accepts (.aqGet d a b) s s [.get dv (lines (s.getG a))])) ∧
    (s.self.parked = none → (s.getG d).toNat % 64 ≠ 0 → VectorFault (.aqPut d a b) s 0x05 (s.getG d)) ∧
    (s.self.parked = none → (s.getG a).toNat % 64 ≠ 0 → VectorFault (.aqGet d a b) s 0x05 (s.getG a)) ∧
    ((s.getG a).toNat % 8 = 0 → y.remoteRange (s.getG a) 8 .write = .ok far y →
      Accepts (.aqSig a b) s s
        [.sig (far.headD (0, 0)).1 (BitVec.ofNat 52 (remotePa ((s.getG a).toNat % 4096) far 0)) (s.getG b) false])

namespace Sys2Proof.Claims

/-- A collective descriptor within the limits of R437; the selector of a reduction is 0 where nothing is reduced (log entry
32). -/
def CollDescOk (v : Nat) : Prop :=
  let f := fieldAt v
  let red := f 1 1
  f 0 1 ≤ 2 ∧ f 2 1 ≤ 2 ∧ (if f 0 1 = 1 then f 3 1 < f 4 2 else f 3 1 = 0) ∧ 2 ≤ f 4 2 ∧ f 4 2 ≤ 256 ∧ f 6 2 < f 4 2 ∧
    1 ≤ f 8 4 ∧ 1 ≤ f 12 4 ∧ f 12 4 ≤ 1000000 ∧ f 0x30 8 % 64 = 0 ∧ f 0x38 8 = 0 ∧ red < 64 ∧
    (red / 8 % 2 = 1 → red % 8 ≤ 3 ∧ red / 16 ≠ 1) ∧ (f 0 1 ≠ 0 → red < 16)

/-- Two ranges of addresses have a byte in common. -/
def Overlap (a n b m : Nat) : Prop := ∃ x, a ≤ x ∧ x < a + n ∧ b ≤ x ∧ x < b + m

end Sys2Proof.Claims

/-- R437, R431: `aq.coll` is accepted, before its first step and with the peers and ranges that its descriptor and its group
table name, when the descriptor is within its limits, WORK overlaps neither SEND nor RECV, every other rank's WORK lies on
writable pages of the peer that its entry names, ALG 2 meets SWR = 1 in every entry, and the local ranges may be read and
written; a misaligned descriptor, one out of its limits, such an overlap, a reserved bit of the group table and a peer
without the switch are vector-stream descriptor faults that send nothing. -/
def Sys2Proof.Claims.CollectivesAreAccepted : Prop :=
  ∀ (s z0 z : State) (a b : BitVec 5) (v : Nat) (group : List (Word × Word)) (far : Nat → List (BitVec 12 × Nat))
    (send recv work status : AqRange),
    let f := fieldAt v
    let n := f 4 2
    let rank := f 6 2
    let ft : Bool := decide (f 1 1 / 8 % 2 = 1)
    let ty := BitVec.ofNat 3 (f 1 1)
    let w := (if ft then (FFmt.ofCode ty.toNat).width else widthOf ty) / 8
    let inBytes := f 8 4 * w
    let workBytes := n * inBytes
    let outBytes := if f 0 1 = 2 then workBytes else inBytes
    let word (o : Nat) : Word := BitVec.ofNat 64 (f o 8)
    let dev (r : Nat) : BitVec 12 := (group.getD r (0, 0)).1.extractLsb' 0 12
    let others (P : Nat → Prop) : Prop := ∀ r, r < n → r ≠ rank → P r
    let faults : Prop := VectorFault (.aqColl a b) s 0x0D (s.getG a)
    let meets : Prop := Overlap (f 0x20 8) workBytes (f 0x10 8) inBytes ∨ Overlap (f 0x20 8) workBytes (f 0x18 8) outBytes
    s.self.parked = none →
    ((s.getG a).toNat % 64 ≠ 0 → faults) ∧
    ((s.getG a).toNat % 64 = 0 → (streaming s).localRead (s.getG a) 64 = .ok v z0 → Quiet (streaming s) z0 →
      (¬ CollDescOk v → faults) ∧ (CollDescOk v → meets → faults) ∧
      (CollDescOk v → ¬ meets → z0.readGroup (f 0x28 8) n = .ok group z → Quiet (streaming s) z →
        ((∃ e ∈ group, e.1.toNat / 2 ^ 12 ≠ 0) → faults) ∧
        ((∀ e ∈ group, e.1.toNat / 2 ^ 12 = 0) →
          others (fun r => z.remoteRange (group.getD r (0, 0)).2 workBytes .write = .ok (far r) z ∧
            ∀ e ∈ far r, e.1 = dev r) →
          (f 2 1 = 2 → ¬ others (fun r => (s.peerEntry (dev r)).getLsbD 62 = true) → faults) ∧
          ((f 2 1 = 2 → others fun r => (s.peerEntry (dev r)).getLsbD 62 = true) →
            z.localRange (word 0x10) inBytes .read = .ok send z → z.localRange (word 0x18) outBytes .write = .ok recv z →
            z.localRange (word 0x20) workBytes .write = .ok work z →
            z.localRange (word 0x30) (16 + 4 * n) .write = .ok status z →
            Accepts (.aqColl a b) s z
              [.coll {
                op := f 0 1, ty := ty, ft := ft, red := f 1 1 / 16, alg := f 2 1, root := f 3 1, n := n, rank := rank
                count := f 8 4, tmo := f 12 4, seq := s.getG b, send := send, recv := recv, work := work, status := status
                devs := (List.range n).map dev
                works := (List.range n).map fun r =>
                  if r = rank then ⟨0, []⟩ else ⟨(group.getD r (0, 0)).2.toNat % 4096, (far r).map (·.2)⟩
                contrib := if f 0 1 = 1 ∧ rank ≠ f 3 1 then [] else [rank], incs := [], step := 0, sentStep := 0
                since := s.clk, got := [] }]))))

/-- R435: `aq.lease` drops the leased copies of the peers' lines that its range touches, sends one release to each owner,
and delivers how many lines it dropped; with a count of 0 it drops nothing and delivers 0. -/
def Sys2Proof.Claims.LeasedCopiesAreReleased : Prop :=
  ∀ (s : State) (d a b : BitVec 5) (far : List (BitVec 12 × Nat)),
    let cnt := (s.getG b).toNat
    let off := (s.getG a).toNat % 4096
    let gone (p : PeerLine) : Bool := decide (p.once = none) && (List.range cnt).any fun i =>
      decide ((far.getD ((off + i) / 4096) (0, 0)).1 = p.dev) && decide (remotePa off far i / 64 = p.line)
    let u := afterWeir s [(14, 1)]
    VReady s [(14, 1)] 0 →
    (cnt ≠ 0 → (streaming u).remoteRange (s.getG a) cnt .read = .ok far (streaming u)) →
      ∃ (t : State) (lines : List (BitVec 12 × Nat)), exec (.aqLease d a b) s = .next t ∧ SameMemory s t ∧
        lines.Nodup ∧ (∀ e, e ∈ lines ↔ ∃ p ∈ s.peer, gone p = true ∧ (p.dev, p.line) = e) ∧
        GetsG s t d (BitVec.ofNat 64 lines.length) ∧ t.peer = s.peer.filter (fun p => !gone p) ∧
        t.out = ((lines.map (·.1)).eraseDups.map fun dv =>
          Out.aq dv s.sender.1 s.sender.2 (portsOf (s.peerEntry dv) 0)
            (.releaseLease ((lines.filter fun e => e.1 = dv).map (·.2)))).reverse ++ s.out ∧
        t.self = { settled s.self with g := t.self.g, pc := s.self.pc + 4 } ∧
        t = { u.setSelf t.self with peer := t.peer, out := t.out }

/-! ### Saving and restoring the vector state (R452, R453) -/

/-- R452, R453: in privileged mode `vsave` writes the dump area and leaves the start values, and `vrestore` of that area,
made next while the strand's context descriptor can be read (R152), gives back the vector registers, the masks, VN, FCTL, the counts, the shadow loop stack and the rest of the
vector state and clears the area's valid bit. No byte outside the area changes, and of the other strands only their links on its lines. -/
def Obligations.VsaveThenVrestore : Prop :=
  ∀ (s : State) (a : BitVec 5),
    let base := (s.getG a).toNat
    let x := s.self
    let hit (l : Nat) : Bool := decide (base < 64 * l + 64) && decide (64 * l < base + x.areaSize)
    x.cur = true → x.areaOk base = true → s.busyIn s.cur [0, 1, 2, 3, 4] = false → x.lgc.toNat ≤ 3 →
    (∀ p, s.migOf p = []) → s.granted = [] →
    ∃ t, exec (.vsave a) s = .next t ∧
      t.self = { x with
        v := [], k := [], vn := 0, xld := 0, xls := [], cntL := 0, cntS := 0, cntC := 0, cntT := 0, vq := []
        slink := none, vlinks := [], faults := [], resume := none, pc := x.pc + 4 } ∧
      OthersUnlinked s t hit ∧
      t = { s with
        strands := t.strands, mem := t.mem, cache := t.cache, copies := t.copies, errs := t.errs, rlinks := t.rlinks
        hostCopies := t.hostCopies, out := t.out, basins := t.basins, saved := t.saved, nextId := s.nextId + 1 } ∧
      (∀ p, p < base ∨ base + x.areaSize ≤ p → t.byteAt p = s.byteAt p) ∧
      (let rd (o n : Nat) : Nat := leRead t.byteAt (base + o) n
       rd 0 4 = 1 ∧ rd 4 1 = s.cur / 8 % 256 ∧ rd 5 1 = x.lgc.toNat ∧ rd 6 1 = x.sw.toNat ∧ rd 7 1 % 2 = 1 ∧
       rd 8 2 = x.ctxid.toNat ∧ rd 10 2 = 0 ∧ rd 16 8 = x.xpc.toNat ∧ rd 24 8 = 0xC00124100 ∧
       (∀ k, 1 ≤ k → k < 8 → rd (0x2100 + 512 * k) 512 = (Table.get 0 x.k k).toNat) ∧
       ∀ r : BitVec 5, rd (0x3100 + x.vlen / 8 * r.toNat) (x.vlen / 8) = (x.getV r).toNat % 2 ^ x.vlen) ∧
      (s.cur / 8 < 256 → (t.inBoot x.ctxid = true ∨ (t.ctxDesc x.ctxid).isSome = true) → ∃ u, exec (.vrestore a) t = .next u ∧
        (∀ r, (u.self.getV r).toNat = (x.getV r).toNat % 2 ^ x.vlen) ∧
        (∀ k, 1 ≤ k → k < 8 → Table.get 0 u.self.k k = Table.get 0 x.k k) ∧
        u.self = { x with
          v := u.self.v, k := u.self.k, xls := u.self.xls, xld := u.self.xld, slink := none, vlinks := [], faults := []
          pc := x.pc + 4 + 4 } ∧
        u.self.shadowLoops = x.shadowLoops ∧ leRead u.byteAt (base + 7) 1 % 2 = 0 ∧
        (∀ p, p < base ∨ base + x.areaSize ≤ p → u.byteAt p = s.byteAt p))

/-! ### Bring-up, attestation, the links and the host lease (01_device.md) -/

namespace Sys2Proof.Claims

/-- A host's message reaches the device: the link of its port is up, and it carries the port's incarnation (R124). -/
def FromHost (s : State) : Prop :=
  s.annex.linkUp.contains s.inp.port = true ∧ s.inp.inc = (if s.inp.port = 0 then s.annex.inc0 else s.annex.inc1)

/-- The lease is live, and port `p` holds it (R121, R122). -/
def Holds (s : State) (p : BitVec 1) : Prop :=
  s.annex.active ≠ 0 ∧ s.us < s.annex.expiry ∧ p = (if s.annex.active = 2 then 1 else 0)

/-- ACTIVE of a written HLEASE names the port, and EXPIRY lies at most 100 ms ahead (R122). -/
def Admissible (s : State) (p : BitVec 1) (v : Word) : Prop :=
  v.extractLsb' 62 2 = (if p = 0 then 1 else 2 : BitVec 2) ∧ s.us.toNat < v.toNat % 2 ^ 48 ∧
    v.toNat % 2 ^ 48 ≤ s.us.toNat + 100000

/-- The annex changes and nothing else does. -/
def OnlyAnnex (s t : State) : Prop := t = { s with annex := t.annex }

/-- `n` bytes of the mailbox from an offset. -/
def mailAt (s : State) (off n : Nat) : Nat := leRead (fun i => Table.get 0 s.annex.mailbox i) off n

/-- A mailbox command that is begun (R120): its dword holds it, and nothing else of the mailbox changes. -/
def Begins (i : Instr) (s : State) (cmd piece : Nat) : Prop :=
  ∃ t, exec i s = .next t ∧ OnlyAnnex s t ∧ mailAt t 0xF8 8 = cmd ∧ t.annex.piece = piece ∧
    ∀ k, k < 0xF8 → Table.get 0 t.annex.mailbox k = Table.get 0 s.annex.mailbox k

/-- A lease that ends (R124, R126, R308, R457): ACTIVE clear, the next incarnation of its port, its host translations and
pending page requests gone, and the lease vector on the other port when its link is up. -/
def LeaseEnds (s t : State) (p : BitVec 1) : Prop :=
  t.annex.active = 0 ∧ t.annex.inc0 = (if p = 0 then s.annex.inc0 + 1 else s.annex.inc0) ∧
    t.annex.inc1 = (if p = 0 then s.annex.inc1 else s.annex.inc1 + 1) ∧
    (∀ e, e ∈ t.ats ↔ e ∈ s.ats ∧ e.port ≠ p) ∧
    (∀ r, r ∈ t.pageReqs ↔ r ∈ s.pageReqs ∧ r.port ≠ p) ∧
    ∃ back, t.out = (if s.annex.linkUp.contains (p ^^^ 1) then [Out.msix (p ^^^ 1) s.sender.2 0] else []) ++
        back ++ s.out ∧
      ∀ o ∈ back, ∃ q i l, o = .backInvalidate q i l

/-- Byte `i` of the image that VERIFY takes: of the one in the recovery window at 0x100000, or of the one in flash (R115). -/
def imageAt (s : State) (i : Nat) : Byte :=
  if s.annex.fromWindow then (s.annex.recovery.get 0 ((0x100000 + i) / 8)).extractLsb' (8 * (i % 8)) 8
  else (s.annex.flash.get 0 (i / 8)).extractLsb' (8 * (i % 8)) 8

/-- The checks of R116 on that image, in the order of their causes: the signature over the header and the body under the fused key, the
digest of the body, the security version in the low half of the version, and the size of the window. The hash, the signature
scheme and the header's layout are left open (log entry 10). -/
def checkPasses (s : State) (k : Nat) : Prop :=
  let h := Config.headerSize (imageAt s)
  let b := Config.bodySize (imageAt s)
  let bytes (i n : Nat) : List Byte := (List.range n).map fun j => imageAt s (i + j)
  match k with
  | 0 => Config.sm2Verify s.annex.fusedKey (Config.sm3 (bytes 0 (h + b))) (bytes (h + b) 64) = true
  | 1 => Config.sm3 (bytes h b) = Config.imageDigest (imageAt s)
  | 2 => s.annex.rollback.toNat ≤ (Config.imageVersion (imageAt s)).toNat % 2 ^ 32
  | _ => h + b + 64 ≤ 15 * 2 ^ 20

end Sys2Proof.Claims

/-- R115 to R119: device reset, its release, the verification of the firmware, INIT and the recovery command take the
bring-up from state to state, with the image in flash or in the recovery window; INIT clears memory. Which failed check
CAUSE names is left open. -/
def Sys2Proof.Claims.BringUpSteps : Prop :=
  ∀ s : State,
    (∃ t, exec .deviceReset s = .next t ∧ t.annex.bootState = 0 ∧ t.strands = [] ∧ t.annex.launches = [] ∧
      t = { State.reset with
        agenda := s.agenda, freeCtr := s.freeCtr, nextId := s.nextId, mem := s.mem, errs := s.errs
        unchecked := s.unchecked, hostMem := s.hostMem, hostPoison := s.hostPoison, out := s.out
        annex := { State.reset.annex with
          rollback := s.annex.rollback, fusedKey := s.annex.fusedKey, flash := s.annex.flash } }) ∧
    (s.annex.bootState = 0 →
      exec .resetReleased s = .next { s with annex := { s.annex with bootState := 1, fromWindow := false } }) ∧
    (s.annex.bootState = 1 → (∀ k, k < 4 → checkPasses s k) →
      exec .verify s = .next { s with annex := { s.annex with
        bootState := 2, bootCause := 0, fwver := Config.imageVersion (imageAt s), digest := Config.imageDigest (imageAt s) } }) ∧
    (s.annex.bootState = 1 → (∃ k, k < 4 ∧ ¬ checkPasses s k) →
      ∃ t, exec .verify s = .next t ∧ t.annex.bootState = 4 ∧
        (∃ k, k < 4 ∧ ¬ checkPasses s k ∧ t.annex.bootCause.toNat = k + 1) ∧
        t = { s with freeCtr := s.freeCtr + 1, annex := { s.annex with bootState := 4, bootCause := t.annex.bootCause } }) ∧
    (s.annex.bootState = 2 → s.inp.amounts = [] → ∃ t, exec .init s = .next t ∧ t.annex.bootState = 3 ∧
      (∀ x, t.byteAt x = 0 ∧ t.rawByte x = 0) ∧ (∀ f, t.frame f = {}) ∧ t.errs = [] ∧
      (∀ c, t.core c = { s.core c with rowClk := [], rowDead := [], rowReported := [] }) ∧
      t = { s with
        mem := [], errs := [], unchecked := [], cache := [], copies := [], resv := [], casts := [], frames := []
        latches := [], comp := [], spInit := s.clk, sense := [], cores := t.cores
        annex := { s.annex with bootState := 3 } }) ∧
    (s.annex.bootState = 4 → FromHost s → s.inp.value = 1 →
      exec .bootcmd s = .next { s with annex := { s.annex with bootState := 1, fromWindow := true } })

/-- R120, R111: the mailbox's commands begin while none is in progress, and the device answers the quote, with its
version, identity, firmware version, digest, nonce and time, or the certificate's piece, and then writes 2; a port
whose link trains at x8 and 32 GT/s or better is up, with a report below x16 or 64 GT/s. -/
def Sys2Proof.Claims.AttestationAndLinks : Prop :=
  ∀ s : State,
    (FromHost s → mailAt s 0xF8 8 ∉ ([1, 3, 4] : List Nat) →
      Begins .attestationQuote s 1 0 ∧ Begins .certificatePieceFirst s 3 0 ∧
      (0 < s.annex.piece → s.annex.piece * 192 < Config.certLength →
        Begins .certificatePieceNext s 4 s.annex.piece)) ∧
    (mailAt s 0xF8 8 = 1 → ∃ t, exec .attestationCommandDone s = .next t ∧ mailAt t 0xF8 8 = 2 ∧
      mailAt t 0x20 4 = 1 ∧ mailAt t 0x24 4 = 0x00124100 ∧ mailAt t 0x28 8 = s.annex.fwver.toNat ∧
      mailAt t 0x30 32 = s.annex.digest.toNat ∧ mailAt t 0x50 32 = mailAt s 0 32 ∧ mailAt t 0x70 8 = s.us.toNat ∧
      t = { s with freeCtr := s.freeCtr + 1, annex := { s.annex with mailbox := t.annex.mailbox } }) ∧
    (mailAt s 0xF8 8 = 3 ∨ mailAt s 0xF8 8 = 4 → ∃ t, exec .attestationCommandDone s = .next t ∧
      mailAt t 0xF8 8 = 2 ∧ t.annex.piece = s.annex.piece + 1 ∧
      (∀ i, i < 192 → mailAt t (0x20 + i) 1 = if 192 * s.annex.piece + i < Config.certLength then
        (Config.certByte (192 * s.annex.piece + i)).toNat else 0) ∧
      mailAt t 0xE0 4 = Config.certLength % 2 ^ 32 ∧ mailAt t 0xE4 2 = s.annex.piece % 2 ^ 16 ∧ OnlyAnnex s t) ∧
    (8 ≤ s.inp.code → 32 ≤ s.inp.len → s.annex.linkUp.contains s.inp.port = false →
      let u := State.sendHeld { s with annex := { s.annex with linkUp := s.inp.port :: s.annex.linkUp } } s.inp.port
      exec .linkTraining s = .next
        (if s.inp.code < 16 ∨ s.inp.len < 64 then u.report 0 { kind := 9, index := s.inp.port.toNat } else u)) ∧
    (∃ t, exec .portLinkDown s = .next t ∧ t.annex.linkUp = s.annex.linkUp.filter (· ≠ s.inp.port) ∧
      (∀ e ∈ t.hostCopies, e ∈ s.hostCopies ∧ e.1 ≠ s.inp.port) ∧
      (¬ Holds s s.inp.port → t = { s with annex := t.annex, hostCopies := t.hostCopies }) ∧
      (Holds s s.inp.port → (∀ r, r ∈ t.pageReqs ↔ r ∈ s.pageReqs ∧ r.port ≠ s.inp.port) ∧
        ((∀ x, s.migOf x = []) → s.granted = [] → ∀ x, t.byteAt x =
          if s.pageReqs.any (fun r => decide (r.port = s.inp.port) && decide (r.record + 1 = x)) then 5
          else s.byteAt x)))

/-- R122 to R126: the live port renews its lease, a port claims a lease that is not live, ended first where its ACTIVE still
stands, and receives the pending interrupts, the live port releases its lease, and a lease whose time has come lapses; a
write that meets no case is rejected and counted: of the live port with neither an admissible renewal nor ACTIVE 0, of the
other port while the lease is live, and an inadmissible claim. -/
def Sys2Proof.Claims.HostLeaseChangesHands : Prop :=
  ∀ s : State,
    let v := s.inp.value
    let p := s.inp.port
    (FromHost s → s.annex.bootState = 3 →
      (Holds s p → Admissible s p v →
        exec .renewal s = .next { s with annex := { s.annex with expiry := v.extractLsb' 0 48 } }) ∧
      (let taken (u : State) : State := { u with
         annex := { u.annex with active := v.extractLsb' 62 2, expiry := v.extractLsb' 0 48, msixPending := [] }
         out := (s.annex.msixPending.map (Out.msix p s.sender.2)).reverse ++ u.out }
       Admissible s p v → s.agenda = [] →
        (s.annex.active = 0 → exec .claim s = .next (taken s)) ∧
        (s.annex.active ≠ 0 → s.annex.expiry ≤ s.us →
          ∃ u, LeaseEnds s u (if s.annex.active = 2 then 1 else 0) ∧ exec .claim s = .next (taken u))) ∧
      (Holds s p → v.extractLsb' 62 2 = 0 →
        ∃ t, exec .release s = .next t ∧ LeaseEnds s t p ∧ t.annex.expiry = 0) ∧
      (∀ i ∈ ([.renewal, .claim, .release] : List Instr),
        ((Holds s p ∧ ¬ Admissible s p v ∧ v.extractLsb' 62 2 ≠ 0) ∨ Holds s (p ^^^ 1) ∨
            (¬ Holds s p ∧ ¬ Holds s (p ^^^ 1) ∧ ¬ Admissible s p v) →
          exec i s = .next { s with annex := { s.annex with rej := satInc s.annex.rej } }))) ∧
    (s.annex.active ≠ 0 → s.annex.expiry ≤ s.us →
      ∃ t, exec .leaseLapse s = .next t ∧ LeaseEnds s t (if s.annex.active = 2 then 1 else 0))

namespace Sys2Proof.Claims

/-- A write by the port that holds the live lease reaches a register (R115, R125). -/
def OwnerWrites (s : State) : Prop := FromHost s ∧ s.annex.bootState = 3 ∧ Holds s s.inp.port

/-- A launch queue takes new registers. -/
def Queued (s t : State) (q : Nat) (x : LaunchQueue) : Prop :=
  t.annex.queues.get {} q = x ∧ (∀ k, k ≠ q → t.annex.queues.get {} k = s.annex.queues.get {} k)

end Sys2Proof.Claims

/-- R127 to R130, R133, R13, R112, R114, R152: a doorbell sets TAIL; enabling a queue latches its fields and starts it, disabling it drops
its waiting heads, a reset while disabled clears HEAD and TAIL, and a queue whose pending records exceed its ring, or whose
context descriptor cannot be read, stops with ERR and its vector. A host's write or read of an annex register and a
strand's write of a system register act as the register's rule says, an access that is no aligned dword reads all ones
or has no effect, and the two HDM windows never expose more than 256 GiB together. -/
def Sys2Proof.Claims.QueuesAndRegisterWrites : Prop :=
  ∀ s : State,
    let v := s.inp.value
    let q := s.inp.queue.toNat
    let x := s.annex.queues.get {} q
    let lat : LaunchQueue := { x with
      vec := if (v.extractLsb' 16 6 : BitVec 6) < 2 then 2 else v.extractLsb' 16 6
      ctx := v.extractLsb' 48 16
      log2 := if (v.extractLsb' 8 4 : BitVec 4) < 4 then 4 else v.extractLsb' 8 4
      err := x.err && !v.getLsbD 2
      head := if v.getLsbD 1 then 0 else x.head
      tail := if v.getLsbD 1 then 0 else x.tail
      en := v.getLsbD 0 }
    let readable : Bool := s.inBoot lat.ctx || (s.ctxDesc lat.ctx).isSome
    let host (i : Instr) (off : Nat) (read : Bool) : Prop :=
      i = .registerWrite ∧ s.inp.part = 0 ∧ s.inp.canRead = read ∧ s.inp.size = 8 ∧ s.inp.off.toNat = off ∧ FromHost s
    (OwnerWrites s →
      (let y : LaunchQueue := { x with tail := v.extractLsb' 0 32 }
       let full : Bool := x.en && decide (2 ^ x.log2.toNat < (y.tail - x.head).toNat)
       ∃ t, exec .doorbell s = .next t ∧ Queued s t q { y with err := x.err || full } ∧
         t = { s with annex := { s.annex with queues := t.annex.queues }
                      out := (if full then [Out.msix s.inp.port s.sender.2 x.vec.toNat] else []) ++ s.out }) ∧
      (x.en = false → v.getLsbD 0 = true →
        let stops : Bool := decide (2 ^ lat.log2.toNat < (lat.tail - lat.head).toNat) || !readable
        ∃ t, exec .queueEnable s = .next t ∧ Queued s t q { lat with err := lat.err || stops } ∧
          t = { s with annex := { s.annex with queues := t.annex.queues }
                       out := (if stops then [Out.msix s.inp.port s.sender.2 lat.vec.toNat] else []) ++ s.out }) ∧
      (x.en = false → v.getLsbD 1 = true → v.getLsbD 0 = false ∨ readable = true →
        ∃ t, exec .queueReset s = .next t ∧ Queued s t q lat ∧ lat.head = 0 ∧ lat.tail = 0 ∧ OnlyAnnex s t) ∧
      (x.en = true → v.getLsbD 0 = false →
        ∃ t, exec .queueDisable s = .next t ∧ (t.annex.queues.get {} q).en = false ∧
          (∀ l, l ∈ t.annex.launches ↔ l ∈ s.annex.launches ∧
            ¬ (l.queue = q ∧ l.slots = [])))) ∧
    (∀ i, host i 0x40 false → OwnerWrites s →
      exec i s = .next { s with annex := { s.annex with suspTime := v } }) ∧
    (∀ i, host i 0x58 false → OwnerWrites s →
      exec i s = .next { s with annex := { s.annex with
        cap := if 1 ≤ v.toNat % 2 ^ 16 ∧ v.toNat % 2 ^ 16 ≤ 199 then 200 else v.extractLsb' 0 16 } }) ∧
    (∀ i, host i 0x28 false →
      exec i s = .next { s with annex := { s.annex with
        stale := s.annex.stale &&& ~~~(v.extractLsb' 16 16), rej := s.annex.rej &&& ~~~(v.extractLsb' 0 16) } }) ∧
    (∀ i, host i 0x30 true →
      exec i s = .next { s with
        out := .mmioRead s.inp.port s.sender.2 (s.us.setWidth 64) :: s.out }) ∧
    (s.inp.part = 0 → FromHost s → s.inp.size ≠ 8 ∨ s.inp.off.toNat % 8 ≠ 0 →
      exec .registerWrite s = .next (if s.inp.canRead then
        { s with out := .mmioRead s.inp.port s.sender.2 (BitVec.allOnes 64) :: s.out } else s)) ∧
    (s.inp.part = 2 → FromHost s →
      let other := s.annex.hdmGib.get 128 (if s.inp.port = 0 then 1 else 0)
      exec .registerWrite s = .next (if v.toNat + other ≤ 256 then
        { s with annex := { s.annex with hdmGib := s.annex.hdmGib.set 128 s.inp.port.toNat v.toNat } } else s)) ∧
    (∀ u : Strand, s.inp.part = 1 → s.strand s.inp.unit = some u → u.cur = true → s.inp.code = 0xC5 →
      ∃ t, exec .registerWrite s = .next t ∧ t.strand s.inp.unit = some { u with xscratch := v } ∧
        (∀ n, n ≠ s.inp.unit → t.strand n = s.strand n) ∧ t = { s with strands := t.strands })

/-! ### Launches, continuations and completion (04_launch.md, 09_issue.md, 16_retirement.md) -/

namespace Sys2Proof.Claims

/-- What the annex does in a context for a queue or a launch is done now, and leaves `z` (R127; log entry 39). -/
def AnnexDoes {α : Type} (s : State) (id q : Nat) (ctx : BitVec 16) (f : State → Res α) (a : α) (z : State) : Prop :=
  s.asAnnex (annexSlot id q) ctx f = .ok a z

/-- The launches of the annex with launch `l.id` replaced. -/
def withLaunch (ls : List Launch) (l : Launch) : List Launch := ls.map fun x => if x.id = l.id then l else x

/-- The root strand of a launch on the core at place `i` of its rectangle (R143, R144). -/
def Root (l : Launch) (i slot : Nat) (u : Strand) : Prop :=
  let b := l.bind
  let a := l.areas.getD i (0, 0)
  u.st = .run ∧ u.pc = l.entry ∧ u.getG 1 = l.arg ∧
    u.getG 2 = a.1 + BitVec.ofNat 64 ((slot % 8 + 1) * b.frameSz) ∧ u.getG 3 = a.2 + BitVec.ofNat 64 (slot % 8 * b.spillSz) ∧
    u.getG 4 = BitVec.ofNat 64 i ∧
    u.getG 5 = BitVec.ofNat 64 (i % b.w + 256 * (i / b.w) + 65536 * b.w + 16777216 * b.h) ∧
    (∀ r : BitVec 5, 5 < r.toNat → u.getG r = 0) ∧ u.v = [] ∧ u.k = [] ∧ u.vn = 0 ∧ u.lgc = 3 ∧ u.sw = b.sw ∧
    u.ctxid = l.ctx ∧ u.cur = decide (l.ctx = 0) ∧ u.exl = false ∧ u.loops = [] ∧ u.bind = b

/-- The descriptor of a context is read without a fault, as when a strand starts (R152). -/
def ContextRead (s : State) (ctx : BitVec 16) : Prop := s.inBoot ctx = true ∨ (s.ctxDesc ctx).isSome = true

/-- Every core of the rectangle has its root strand in slot 0, and no other slot changes. -/
def RootsStart (l : Launch) (slots : List Nat) (s t : State) : Prop :=
  (∀ i, (h : i < slots.length) → ∃ u, t.strand slots[i] = some u ∧ Root l i slots[i] u) ∧
    ∀ n, n ∉ slots → t.strand n = s.strand n

/-- Device memory that is read and written at once, in the boot context (R444): no pool, no migration, no lease granted, no
check-bit error and no engine command. -/
def Calm (s : State) : Prop :=
  s.ctxtabWritten = false ∧ s.granted = [] ∧ s.errs = [] ∧ s.ops = [] ∧ (∀ x, s.migOf x = []) ∧ ∀ x, s.inPool x = false

end Sys2Proof.Claims

namespace Sys2Proof.Claims

/-- A record that the annex holds is checked in state `y` and no refusal code applies (R139): with no signal present it is
runnable, with the areas and the copies that the check found. -/
def BecomesRunnable (s y w : State) (l m : Launch) (areas : List (Word × Word)) (copies : List CopyDesc) : Prop :=
  AnnexDoes y l.id l.queue l.ctx (fun s => s.examine l.raw l.bind) (0, areas, copies) w → w.launchOf l.id = some m →
    m.sigs = [] → w.strand (annexSlot m.id m.queue) = none →
    ∃ t, exec .launchRecordHead s = .next t ∧
      t.launchOf l.id = some { m with phase := .runnable none, areas := areas, copies := copies }

/-- A code applies: the launch is refused with it, and stays only while its completion record waits (R139). -/
def IsRefused (s y w : State) (l : Launch) (code : Nat) (areas : List (Word × Word)) (copies : List CopyDesc) : Prop :=
  AnnexDoes y l.id l.queue l.ctx (fun s => s.examine l.raw l.bind) (code, areas, copies) w → code ≠ 0 →
    ∃ t, exec .launchRecordHead s = .next t ∧
      ∀ k, t.launchOf l.id = some k → k.phase = .retired ∧ k.status = 2 ∧ k.reason = code

end Sys2Proof.Claims

/-- R131, R138, R139: the record at a queue's head is read once, kept while its check waits, and checked: it is refused
with the code that applies, or is runnable once every present signal matches in one round of reads; a head that cannot
be read stops its queue, with condition report 0x11 in basin 0's ring (R477; what it holds of the record is log entry 95). -/
def Sys2Proof.Claims.RecordsBecomeRunnable : Prop :=
  ∀ (s z w : State) (m : Launch) (code : Nat) (areas : List (Word × Word)) (copies : List CopyDesc),
    let q := s.inp.queue.toNat
    let x := s.annex.queues.get {} q
    (s.annex.bootState = 3 → x.en = true → x.err = false → x.head ≠ x.tail →
      (∀ y ∈ s.annex.launches, y.queue = q → y.slots ≠ [] ∧ y.phase ≠ .reading) →
      (∀ v, AnnexDoes s 0 q x.ctx (fun s => s.readSlot x) v z →
        let l : Launch := { parseLaunch z.nextId q x.head x.ctx v with phase := .reading, raw := v }
        let y : State := { z with nextId := z.nextId + 1, annex := { z.annex with launches := z.annex.launches ++ [l] } }
        BecomesRunnable s y w l m areas copies ∧ IsRefused s y w l code areas copies) ∧
      (∀ c v, s.asAnnex (annexSlot 0 q) x.ctx (fun s => s.readSlot x) = .trap c v z →
        ∃ u : State, exec .launchRecordHead s = .next (u.report 0
            { kind := 0x11, lq := q, ctx := x.ctx.toNat, lrec := x.head.toNat, data := 2 + 2 ^ 40 * c.toNat }) ∧
          (u.annex.queues.get {} q) = { z.annex.queues.get {} q with err := true } ∧
          (∀ k, k ≠ q → u.annex.queues.get {} k = z.annex.queues.get {} k) ∧
          u = { z with annex := { z.annex with queues := u.annex.queues, msixPending := u.annex.msixPending }, out := u.out })) ∧
    (∀ l, s.headIn q .reading = some l →
      BecomesRunnable s s w l m areas copies ∧ IsRefused s s w l code areas copies) ∧
    (∀ l b, s.headIn q .waiting = some l → AnnexDoes s l.id l.queue l.ctx (fun s => s.readSignals l.sigs) b z →
      ∀ i ∈ ([.signalReread, .signalPoll] : List Instr), exec i s = .next (if b then
        { z with annex := { z.annex with launches := z.annex.launches.map fun y =>
          if y.id = l.id then { y with phase := .runnable none } else y } }
        else z)) ∧
    (∀ (a : Word) (ge : Bool) (u : Word) (v : Nat), s.readWide a 8 = .ok v z →
      s.readSignals [(a, ge, u)] = .ok (if ge then decide (u.toNat ≤ v) else decide (v = u.toNat)) z) ∧
    (∀ l ∈ s.annex.launches, l.queue = q → l.phase = .waiting → x.en = true → x.err = false →
      (s.headIn q .waiting).isSome = true)

namespace Sys2Proof.Claims

/-- A field of a launch record breaks a limit of R134 to R138 that refusal code `c` names, for codes 1 to 8 (R139). -/
def Breaks (v : Nat) (c : Nat) : Prop :=
  let f := fieldAt v
  let sig (k : Nat) : Nat := f (0x40 + 16 * k) 8
  match c with
  | 1 => f 0 1 ≠ 1
  | 2 => 23 < f 4 1 ∨ 7 < f 5 1 ∨ ¬ (1 ≤ f 6 1 ∧ f 6 1 ≤ 24) ∨ ¬ (1 ≤ f 7 1 ∧ f 7 1 ≤ 8) ∨ 24 < f 4 1 + f 6 1 ∨ 8 < f 5 1 + f 7 1
  | 3 => f 2 1 % 2 = 1 ∧ ∃ o ∈ ([4, 5, 6, 7] : List Nat), f o 1 % 2 = 1
  | 4 => ¬ (f 3 1 / 4 % 4 ≤ f 3 1 % 4 ∧ f 3 1 % 4 ≤ f 3 1 / 16 % 4)
  | 5 => f 8 8 % 65536 ≠ 0 ∨ ¬ (4 ≤ f 0x10 4 ∧ f 0x10 4 ≤ 67108864) ∨ f 0x10 4 % 4 ≠ 0 ∨ f 0x14 4 % 4 ≠ 0 ∨ f 0x10 4 ≤ f 0x14 4
  | 6 => f 0x18 8 % 8 ≠ 0 ∨ f 0x28 8 % 16 ≠ 0 ∨ f 0x30 8 % 128 ≠ 0 ∨ f 0x38 8 % 32 ≠ 0
  | 7 => 4 ≤ f 1 1 ∨ 4 ≤ f 2 1 ∨ 64 ≤ f 3 1 ∨ ∃ k, k < 4 ∧ sig k ≠ 0 ∧ (2 ^ 48 ≤ sig k ∨ sig k / 2 % 4 ≠ 0)
  | 8 => f 0x20 4 % 64 ≠ 0 ∨ f 0x24 4 % 64 ≠ 0 ∨ 268435456 < f 0x20 4 + f 0x24 4
  | _ => False

/-- The machine in an access of the annex for a launch, which acts as a strand of the launch's context (R127). -/
def annexView (s : State) (l : Launch) : State :=
  { s.setStrand (annexSlot l.id l.queue) { ctxid := l.ctx, cur := decide (l.ctx = 0) } with cur := annexSlot l.id l.queue }

/-- `n` bytes read as a number without changing anything, or their read is a fault. -/
def ReadsOr (s : State) (va : Word) (n : Nat) : Option Nat → Prop
  | some v => s.readWide va n = .ok v s
  | none => ∃ c w, s.readWide va n = .trap c w s

/-- A copy descriptor with a reserved bit or a LEN of 0 (R147), and one that a further one follows. -/
def BadCopy (v : Nat) : Prop := fieldAt v 0x10 4 = 0 ∨ 4 ≤ fieldAt v 0x14 4 ∨ fieldAt v 0x18 8 ≠ 0
def Continues (o : Option Nat) : Prop := ∃ v, o = some v ∧ ¬ BadCopy v ∧ fieldAt v 0x14 4 / 2 % 2 = 0

/-- Refusal code `c` applies to a record with these area entries and copy descriptors (R135, R139, R147, R149). -/
def CodeApplies (v n : Nat) (area chain : Nat → Option Nat) (c : Nat) : Prop :=
  let reached (j : Nat) : Prop := fieldAt v 0x38 8 ≠ 0 ∧ j < 256 ∧ ∀ i, i < j → Continues (chain i)
  Breaks v c ∨
  (c = 6 ∧ ∃ i a, i < n ∧ area i = some a ∧ (a % 2 ^ 64 % 64 ≠ 0 ∨ a / 2 ^ 64 % 64 ≠ 0)) ∨
  (c = 7 ∧ ((∃ j d, reached j ∧ chain j = some d ∧ BadCopy d) ∨ (reached 255 ∧ Continues (chain 255)))) ∨
  (c = 9 ∧ ((∃ i, i < n ∧ area i = none) ∨ ∃ j, reached j ∧ chain j = none))

/-- The launch is refused with a code: it keeps its place until its completion record can be written (R111, R139, R472). -/
def RefusedWith (i : Instr) (s : State) (l : Launch) (c : Nat) : Prop :=
  ∃ t, exec i s = .next t ∧ t.launchOf l.id = some { l with phase := .retired, status := 2, reason := c, start := s.aqtime }

end Sys2Proof.Claims

/-- R139, R135, R138, R149: of the codes that apply to a record the lowest refuses the launch: of its fields, of every entry of its
area table and of the walk of its copy chain; a signal whose read faults refuses it with code 9; a record to which no
code applies is kept with its areas, runnable if it has no signal. -/
def Sys2Proof.Claims.RefusalCodesApply : Prop :=
  ∀ (s : State) (l : Launch) (area chain : Nat → Option Nat),
    let y := annexView s l
    let n := l.bind.w * l.bind.h
    let f (o : Nat) : Word := BitVec.ofNat 64 (fieldAt l.raw o 8)
    let code := CodeApplies l.raw n area chain
    s.launchOf l.id = some l → s.strand (annexSlot l.id l.queue) = none → (s.awayPort fun _ => true).isSome = true →
    (s.headIn s.inp.queue.toNat .reading = some l →
      ((∀ c, 1 ≤ c → c ≤ 6 → ¬ Breaks l.raw c) →
        (∀ i, i < n → ReadsOr y (f 0x28 + BitVec.ofNat 64 (16 * i)) 16 (area i)) ∧
        (f 0x38 ≠ 0 → ∀ j, j < 256 → (∀ i, i < j → Continues (chain i)) →
          ReadsOr y (f 0x38 + BitVec.ofNat 64 (32 * j)) 32 (chain j))) →
      (∀ c, code c → (∀ k, k < c → ¬ code k) → RefusedWith .launchRecordHead s l c) ∧
      ((∀ c, ¬ code c) → l.sigs = [] → ∃ t m, exec .launchRecordHead s = .next t ∧ t.launchOf l.id = some m ∧
        m.phase = .runnable none ∧ m.areas = (List.range n).map fun i =>
          (BitVec.ofNat 64 ((area i).getD 0), BitVec.ofNat 64 ((area i).getD 0 / 2 ^ 64)))) ∧
    (s.headIn s.inp.queue.toNat .waiting = some l → (∀ e ∈ l.sigs, ∃ o, ReadsOr y e.1 8 o) →
      (∃ e ∈ l.sigs, ReadsOr y e.1 8 none) →
      ∀ i ∈ ([.signalReread, .signalPoll] : List Instr), RefusedWith i s l 9)

namespace Sys2Proof.Claims

/-- The launches after the heads `pre` have been considered and not admitted: each has a reservation from then on (R141). -/
def reserving (s : State) (pre : List Launch) : List Launch :=
  s.annex.launches.map fun y =>
    match ((pre.filter fun x => x.place.isNone).map (·.id)).idxOf? y.id with
    | some i => { y with phase := .runnable (some (s.nextId + i)) }
    | none => y

/-- The order in which heads are considered (R132): by priority, and within one round-robin from the queue behind the one last
admitted at it; where none has been, from queue 0 (log entry 21). -/
def GoesFirst (s : State) (a b : Launch) : Prop :=
  let turn (l : Launch) : Nat := (l.queue + 127 - s.annex.rrobin.get 63 l.bind.prio) % 64
  b.bind.prio < a.bind.prio ∨ (a.bind.prio = b.bind.prio ∧ turn a ≤ turn b)

end Sys2Proof.Claims

/-- R132, R140 to R144: the runnable heads of the queues that are served are considered in their order. The first whose rectangle is
free and avoids the reservations placed before its own, those of the heads considered before it among them, is admitted whole: HEAD advances, the
quads of a FUSE launch are fused, and its root strands start in one clk, or wait for its early copies; a head that
cannot be admitted reserves its cores. Slot 0 of each core is the model's choice of the reserved slot (log entry 66), as is
what an earlier reservation blocks (log entry 82). -/
def Sys2Proof.Claims.AdmissionStartsTheRoots : Prop :=
  ∀ (s : State) (l : Launch) (pre rest : List Launch),
    let slots := l.bind.cores.map (8 * ·)
    let x := s.annex.queues.get {} l.queue
    let L := reserving s pre
    (s.runnables.Pairwise (GoesFirst s) ∧ ∀ y, y ∈ s.runnables ↔ y ∈ s.annex.launches ∧ y.isRunnable = true ∧
      (s.annex.queues.get {} y.queue).en = true ∧ (s.annex.queues.get {} y.queue).err = false) ∧
    (s.annex.bootState = 3 → s.annex.suspState < 2 → (s.annex.launches.map (·.id)).Nodup → s.runnables = pre ++ l :: rest →
    (∀ y ∈ pre, s.fits y = false) → (∀ j, l.place = some j → j < s.nextId) → s.reservedFrom l = false →
    (l.place = none → ∀ y ∈ pre, ∀ c ∈ y.bind.cores, c ∉ l.bind.cores) →
    (s.fits l = true → l.bind.cores.Nodup →
      ∃ t, exec .admission s = .next t ∧ (t.annex.queues.get {} l.queue) = { x with head := x.head + 1 } ∧
        (∀ a, t.byteAt a = s.byteAt a) ∧
        (l.bind.fuse = true → ∀ c ∈ l.bind.cores, (t.quad (quadOf c)).fused = some l.id) ∧
        ((∀ d ∈ l.copies, d.late = true) → ContextRead s l.ctx → RootsStart l slots s t ∧
          t.annex.launches = withLaunch L
            { l with phase := .running, start := s.aqtime, slots := slots, live := slots.length }) ∧
        ((∃ d ∈ l.copies, d.late = false) → t.strands = s.strands ∧
          t.annex.launches = withLaunch L { l with phase := .copying, start := s.aqtime, slots := slots })) ∧
    (s.fits l = false → rest = [] → ∃ t, exec .admission s = .next t ∧ t.strands = s.strands ∧
      t.annex.launches = reserving s (pre ++ [l]))) ∧
    (s.annex.bootState = 3 → s.annex.suspState < 2 → s.runnables = [l] → s.reservedFrom l = true →
      ∃ t, exec .admission s = .next t ∧ t.strands = s.strands ∧ t.annex.launches = reserving s [l])

/-- R143, R146, R148: a descriptor of the running phase is copied byte for byte and the engine goes on with the next; with
the last one of phase 0 the root strands start, and with the last one of phase 1 only the completion record is left. A
launch whose strands and records have all ended goes on to its phase-1 copies. -/
def Sys2Proof.Claims.CopiesMoveTheirBytes : Prop :=
  ∀ (s : State) (l : Launch) (d : CopyDesc) (rest : List CopyDesc),
    s.launchOf s.inp.unit = some l → l.id = s.inp.unit →
    (l.copies.drop l.next = d :: rest → l.phase = (if d.late then .leaving else .copying) → l.copied = 0 →
      let src := d.src.toNat
      let dst := d.dst.toNat
      let more := rest.any fun e => e.late = d.late
      l.ctx = 0 → Calm s → s.strand (annexSlot l.id l.queue) = none → (src + d.len ≤ dst ∨ dst + d.len ≤ src) →
      (∀ i, i < d.len → isDevMem (src + i) = true ∧ isDevMem (dst + i) = true) → l.slots.Nodup →
      (∀ n ∈ l.slots, n < 1536) →
      ∃ t, exec .copyDescriptorComplete s = .next t ∧
        (∀ y, t.byteAt y = if dst ≤ y ∧ y < dst + d.len then s.byteAt (src + (y - dst)) else s.byteAt y) ∧
        t.launchOf l.id = some { l with
          next := l.next + 1, copied := 0
          phase := if more then l.phase else if d.late then .retired else .running
          live := if more ∨ d.late = true then l.live else l.slots.length } ∧
        (more = false → d.late = false → ∀ i, (h : i < l.slots.length) →
          ∃ u, t.strand l.slots[i] = some u ∧ Root l i l.slots[i] u)) ∧
    (l.phase = .running → l.live = 0 → (∀ e ∈ s.strands, e.1 < 1536 → e.2.bind.launch ≠ l.id) →
      exec .launchRetirement s = .next { s with annex := { s.annex with
        launches := s.annex.launches.map fun y => if y.id = l.id then { y with
          next := 0, copied := 0, phase := if y.copies.any (·.late) then .leaving else .retired } else y } })

/-- R281, R282, R285, R142: a basin pops the record at the head of the queue it chooses and gives it a strand with its
entry, argument, join counter, lane groups and VN; a strand that has ended, with no child, no parent and no counter,
frees its slot and leaves its launch. -/
def Sys2Proof.Claims.RecordsStartAndStrandsEnd : Prop :=
  ∀ (s : State) (p slot g : Nat) (l : Launch) (u : Strand),
    let n := s.inp.unit
    let q := (s.basin n).cq.get {} p
    let at_ := q.base.toNat * 4096 + 64 * (q.head.toNat % 2 ^ q.log2n.toNat)
    let v := s.readCo at_ 32
    let b := bindingOf (s.readCo (at_ + 32) 32) l
    (n < 12 → s.annex.suspState < 2 → s.popQueue n = some p → s.launchOf b.launch = some l →
      s.placeFor n b (fieldAt v 0x18 1 % 4) = some (slot, g) → ContextRead s b.ctx →
      ∃ t w, exec .continuationPop s = .next t ∧ t.strand slot = some w ∧ w.st = .run ∧ w.pc = BitVec.ofNat 64 (fieldAt v 0 8) ∧
        w.getG 1 = BitVec.ofNat 64 (fieldAt v 8 8) ∧ w.join = BitVec.ofNat 64 (fieldAt v 0x10 8) ∧
        w.lgc = BitVec.ofNat 3 (fieldAt v 0x18 1 % 4) ∧ w.lgbase = BitVec.ofNat 3 g ∧ w.ctxid = b.ctx ∧
        w.vn = min (fieldAt v 0x1C 4) (w.vlen / 8) ∧ w.loops = [] ∧ w.exl = false ∧
        (∀ m, m ≠ slot → t.strand m = s.strand m) ∧ (∀ a, t.byteAt a = s.byteAt a) ∧
        ((t.basin n).cq.get {} p).head = q.head + 1) ∧
    (s.strand n = some u → u.st = .ended → u.doubled = none → u.children = [] → u.parent = none → u.join = 0 →
      (∀ o ∈ s.ops, o.slot ≠ n) →
      ∃ t, exec .strandEnd s = .next t ∧ t.strand n = none ∧ (∀ m, m ≠ n → t.strand m = s.strand m) ∧
        (∀ a, t.byteAt a = s.byteAt a) ∧
        (∀ k, (t.basin k).locks = (s.basin k).locks.filter fun x => x.slot ≠ n) ∧
        t.annex.launches = s.annex.launches.map fun x => if x.id = u.bind.launch then { x with live := x.live - 1 } else x)

/-- R285, R284: a record that ends with a JOIN counter makes its `cjoin` first: the counter falls by one, the slot is FREE and the
launch has one strand less; from 1 it falls to 0 and the record behind it is pushed; a failing one is a precise trap at the
`halt` or `cend`, with the counter as it was. -/
def Sys2Proof.Claims.StrandsEndWithTheirCounter : Prop :=
  ∀ (s : State) (u : Strand) (pa : Nat),
    let n := s.inp.unit
    let w : State := { s with cur := n }
    let va := u.join
    let counter := leRead s.byteAt pa 4
    let traps (code : BitVec 8) (val : Word) : Prop :=
      u.exl = false → InSlot .strandEnd s n fun v t => TrapEntered v t code val u.pc
    let others (t : State) (lines : Nat → Bool) (woken : Nat → Strand → Bool) : Prop :=
      t.strand n = none ∧ (∀ m, m ≠ n → t.strand m = (s.strand m).map fun c => { c with
        idleDone := c.idleDone || woken m c, slink := c.slink.filter (fun l => !lines l)
        vlinks := c.vlinks.filter (fun e => !lines e.2) }) ∧
      ∀ k, (t.basin k).locks = (s.basin k).locks.filter fun x => x.slot ≠ n
    let leaves (t : State) (more : Nat) : Prop := t.annex.launches = s.annex.launches.map fun x =>
      if x.id = u.bind.launch then { x with live := x.live + more - 1 } else x
    s.strand n = some u → u.st = .ended → u.doubled = none → u.children = [] → u.parent = none → u.join ≠ 0 →
    (∀ o ∈ s.ops, o.slot ≠ n) → n < 1536 → u.resumed = false →
    (va.toNat % 8 ≠ 0 → traps 0x07 va) ∧
    (va.toNat % 8 = 0 → Reaches w va .write (.dev pa) → Readable w va pa →
      (counter ≠ 1 → ∃ t, exec .strandEnd s = .next t ∧ StoresAt s t pa 4 (counter + 2 ^ 32 - 1) ∧
        others t (fun l => decide (l = pa / 64)) (fun _ _ => false) ∧ leaves t 0) ∧
      ∀ pb pr, counter = 1 → Readable w (va + 8) pb →
        let ra : Word := BitVec.ofNat 64 (leRead s.byteAt pb 8)
        let v := recordAt s pr
        let e := entryOf (ringOf w v)
        (CachesHaveSpace w → ra.toNat % 32 ≠ 0 → traps 0x0F ra) ∧
        (ra.toNat % 32 = 0 → Readable w ra pr →
          (CachesHaveSpace w → recordOk v = false → traps 0x0F ra) ∧
          (CachesHaveSpace w → recordOk v = true → ¬ RingHasRoom w v → traps 0x10 ra) ∧
          (recordOk v = true → RingHasRoom w v → (∀ x, s.migOf x = []) → s.leased (e / 64) = false →
            ∃ t, exec .strandEnd s = .next t ∧ leaves t 1 ∧
              others t (fun l => decide (l = pa / 64 ∨ l = e / 64)) (idleIn w.myBasin) ∧
              ((t.basin w.myBasin).cq.get {} (v / 256 ^ 0x19 % 256)) = { ringOf w v with tail := (ringOf w v).tail + 1 } ∧
              (∀ i, i < 32 → t.byteAt (e + i) = s.byteAt (pr + i)) ∧
              ∀ x, x < e ∨ e + 64 ≤ x → t.byteAt x = if pa ≤ x ∧ x < pa + 4 then 0 else s.byteAt x)))

/-- R471, R473: the completion record of a retired launch is written at COMPL, with the mean clock rate of its busy time in
MHz, once the links that its write-backs need are up and the last energy interval has ended (R475); the launch leaves
the annex and its vector is raised if it asks for it; no other byte of device memory changes. -/
def Sys2Proof.Claims.CompletionRecordIsWritten : Prop :=
  ∀ (s : State) (l : Launch), s.launchOf s.inp.unit = some l → l.phase = .retired → l.ctx = 0 → Calm s →
    s.strand (annexSlot l.id l.queue) = none → l.slots ≠ [] → l.charged = 0 → s.awayPort (fun _ => true) = none →
    let a := l.compl.toNat
    a % 128 = 0 → isDevMem a = true → a < 2 ^ 48 → (∀ e ∈ s.hostCopies, e.2 ≠ a / 64 ∧ e.2 ≠ a / 64 + 1) →
    ∃ t, exec .completionRecord s = .next t ∧ (∀ y, y < a ∨ a + 128 ≤ y → t.byteAt y = s.byteAt y) ∧
      (let rd (o n : Nat) : Nat := leRead t.byteAt (a + o) n
       rd 0 4 = l.status % 2 ^ 32 ∧ rd 4 1 = l.reason % 2 ^ 8 ∧ rd 6 2 = l.queue % 2 ^ 16 ∧ rd 8 4 = l.recno.toNat ∧
       rd 12 4 = l.reports % 2 ^ 32 ∧ rd 16 8 = l.start.toNat ∧
       rd 24 8 = (if l.status = 2 then l.start else s.aqtime).toNat ∧ rd 32 8 = l.energy / 1000 % 2 ^ 64 ∧
       rd 40 4 = (if l.busy = 0 then 0 else 1100 * (l.busy - l.tpat - l.ttherm) / l.busy) % 2 ^ 32 ∧ rd 44 4 = 0 ∧ rd 48 8 = l.busy % 2 ^ 64 ∧
       rd 56 8 = l.tweir % 2 ^ 64 ∧ rd 64 8 = l.ttherm % 2 ^ 64 ∧ rd 72 8 = l.tcurr % 2 ^ 64 ∧
       rd 80 8 = l.thost % 2 ^ 64 ∧ rd 88 8 = l.tpat % 2 ^ 64 ∧ rd 96 8 = l.trefr % 2 ^ 64 ∧
       rd 104 8 = l.detail % 2 ^ 64) ∧
      t.annex.launches = s.annex.launches.filter (fun x => x.id ≠ l.id) ∧
      (l.irq = true → Holds s s.leasePort → s.annex.linkUp.contains s.leasePort = true →
        t.out = .msix s.leasePort s.sender.2 (s.annex.queues.get {} l.queue).vec.toNat :: s.out) ∧
      (l.irq = false → t.out = s.out)

/-! ### Waits, pre-emption, the faults of a fetch, the weir and the registers with a step of their own -/

namespace Sys2Proof.Claims

/-- A request posted to a strand (R454, R450): a slot holds one at a time. -/
def requested (clk : Nat) (u : Strand) : Strand :=
  if u.preq.isSome then u
  else { u with preq := some clk, preqLate := false, idleDone := u.idleDone || decide (u.st = .wait .event) }

/-- A strand waits for its accesses in the FIFOs of banks. -/
def atBanks : Await → Bool
  | .bank _ _ => true
  | _ => false

/-- What a request needs wherever it is honoured (R274, R454). -/
def Asked (u : Strand) : Prop :=
  u.preq.isSome = true ∧ u.exl = false ∧ u.inside = none ∧ u.doubled = none ∧ ∀ q ∈ u.vq, q.isVissue = false

/-- The front end of the slot's core takes its strand in this clk: the next one in RUN in the round-robin, if the quad is
enabled and no strand has been taken in the clk (R273, R293). -/
def FrontTakes (s : State) (n : Nat) : Prop :=
  let c := s.core (n / 8)
  Lit s n ∧ c.turnEnd ≤ s.clk ∧ s.runsAt n = true ∧
    ∃ k, k < 8 ∧ n % 8 = (c.lastSlot + 1 + k) % 8 ∧
      ∀ j, j < k → s.runsAt (n / 8 * 8 + (c.lastSlot + 1 + j) % 8) = false

end Sys2Proof.Claims

/-- R271, R274, R300, R331, R450, R454: a strand in WAIT goes to RUN when its condition holds, but that one which honours a
request there stays for it, and it stays as it is otherwise. -/
def Sys2Proof.Claims.AwaitedConditionsWakeTheirStrand : Prop :=
  ∀ (s : State) (u : Strand) (w : Await), s.strand s.inp.unit = some u → u.st = .wait w →
    let wakes : Prop := OnlyStrand .awaitedCondition s s.inp.unit
      (if u.yields then u else { u with st := .run, resumed := u.resumed || atBanks w })
    let stays : Prop := exec .awaitedCondition s = .next s
    (u.yields = true ↔ Asked u ∧ ¬ WaitsForPeer u ∧ u.answers = []) ∧
    (∀ p, w = .writeBack p → (s.annex.linkUp.contains p = true → wakes) ∧ (s.annex.linkUp.contains p = false → stays)) ∧
    (∀ kinds, w = .engines kinds →
      ((∀ o ∈ s.ops, o.slot = s.inp.unit → ∀ k ∈ o.work.kinds, k ∉ kinds) → wakes) ∧
      (∀ o ∈ s.ops, o.slot = s.inp.unit → ∀ k ∈ o.work.kinds, k ∈ kinds → stays)) ∧
    (∀ l c k m, w = .counts l c k m →
      let holds : Prop := (u.cntL ≤ l ∨ l = 15) ∧ (u.cntS ≤ c ∨ c = 15) ∧ (u.cntC ≤ k ∨ k = 15) ∧ (u.cntT ≤ m ∨ m = 15)
      (holds → wakes) ∧ (¬ holds → stays)) ∧
    (w = .event → (u.idleDone = true → wakes) ∧ (u.idleDone = false → stays)) ∧
    (∀ k g, w = .barrier k g ∨ w = .boundary k g → ((s.group k).gen ≠ g → wakes) ∧ ((s.group k).gen = g → stays)) ∧
    (w = .weir → (u.weirPass.isSome = true → wakes) ∧ (u.weirPass = none → stays)) ∧
    (∀ c, w = .child c →
      let ready : Prop := (∀ x, s.strand c = some x → x.st = .join) ∧ ∀ o ∈ s.ops, o.slot ≠ c
      (ready → wakes) ∧ (¬ ready → stays)) ∧
    (∀ l, w = .lease l → (s.leased l = false → wakes) ∧ (s.leased l = true → stays)) ∧
    (∀ tok k x, w = .peer tok k x →
      ((∀ i, i < k → (u.answers.find i).isSome = true) → wakes) ∧
      ((∃ i, i < k ∧ u.answers.find i = none) → stays)) ∧
    (s.awaitHolds s.inp.unit u w = true → wakes) ∧ (s.awaitHolds s.inp.unit u w = false → stays)

/-- R274, R293, R454, R455: a write of PREQ posts a request to each named slot; in an enabled cycle a strand that waits, but
for a peer's answer or its accesses in a bank, or that stands outside every loop or at an iteration boundary, honours it by
trap 0x14 at its instruction, with the request gone; inside a loop body, an `rframe` or a `vissue`, in a handler, with an
instruction begun or in a cycle that is not enabled it does not; a request unhonoured for 2^20 clk counts once. -/
def Sys2Proof.Claims.PreemptionRequestsAreHonoured : Prop :=
  ∀ s : State,
    (let c := s.inp.value.toNat / 2 ^ 16 % 2 ^ 8
     c < 192 → ∃ t, exec .preemptionRequest s = .next t ∧ t = { s with strands := t.strands } ∧
      (∀ n, t.strand n = (s.strand n).map fun u =>
        if n / 8 = c ∧ s.inp.value.getLsbD (n % 8) = true then requested s.clk u else u)) ∧
    (∀ u, s.strand s.inp.unit = some u →
      let x := loopBoundary u.pc u.loops
      let ready : Prop := Asked u ∧ Lit s s.inp.unit
      (ready → (∃ w, u.st = .wait w) → ¬ WaitsForPeer u → u.answers = [] →
        InSlot .preemption s s.inp.unit fun v t => TrapEntered v t 0x14 0 u.pc ∧ t.self.preq = none) ∧
      (ready → u.st = .run → u.midway = false → u.loops = [] ∨ x.2.2 = true →
        InSlot .preemption s s.inp.unit fun v t => TrapEntered v.fetchPoint t 0x14 0 x.1 ∧ t.self.preq = none) ∧
      (¬ ready ∨ (u.st = .run ∧ (u.midway = true ∨ u.loops ≠ [] ∧ x.2.2 = false)) ∨ WaitsForPeer u ∨
          (u.st ≠ .run ∧ ∀ w, u.st ≠ .wait w) → exec .preemption s = .next s)) ∧
    (∀ u c, s.strand s.inp.unit = some u → u.preq = some c → c + 2 ^ 20 ≤ s.clk → u.preqLate = false →
      ∃ t, exec .looplateCount s = .next t ∧ t.strand s.inp.unit = some { u with preqLate := true } ∧
        (t.core (s.inp.unit / 8)).looplate = satInc (s.core (s.inp.unit / 8)).looplate ∧
        (∀ m, m ≠ s.inp.unit → t.strand m = s.strand m) ∧ t = { s with strands := t.strands, cores := t.cores })

/-- R202 to R205, R208, R273: at its fetch, when the front end takes the strand, behind the loop boundary rule, a word that no instruction has is the
illegal-instruction trap with the word in XVAL; an address outside the code range is the code-end fault with the address in
XPC and the last instruction's in XVAL; and an address in the range that the boot context does not map is the access fault,
one beyond 2^48 the translation fault. -/
def Sys2Proof.Claims.FetchFaultsAreTaken : Prop :=
  ∀ (s : State) (u : Strand) (w : BitVec 32),
    let v : State := { s with cur := s.inp.unit }
    let a := (loopBoundary u.pc u.loops).1
    let takes (i : Instr) (code : BitVec 8) (val : Word) : Prop :=
      InSlot i s s.inp.unit fun v t => TrapEntered v.fetchPoint t code val a
    s.strand s.inp.unit = some u → FrontTakes s s.inp.unit → u.inside = none → u.answers = [] → u.resumed = false →
    u.exl = false →
    (Fetches v a w → decodeWord w = none → takes .illegalInstruction 0x01 (w.setWidth 64)) ∧
    (v.inCode a = false → takes .codeEndFault 0x03 u.lastPc) ∧
    (v.inCode a = true → a.extractLsb' 48 16 ≠ 0 → takes .codeEndFault 0x06 a) ∧
    (v.inCode a = true → a.toNat < 2 ^ 48 → v.inBoot u.ctxid = true → isDevMem a.toNat = false →
      takes .codeEndFault 0x07 a)

/-- R447, R451, R452: once a faulting strand's commands have completed, its dump area at XFRAME receives its records, the
vector queue is empty, NREC counts the records, and trap 0x20 is taken at the next instruction's address, behind the loop
boundary rule, with the area's address in XVAL; no byte outside the area changes, and the registers and masks keep their
values. While a command is pending, and in a cycle that is not enabled, nothing happens. -/
def Sys2Proof.Claims.VectorFaultsAreDumped : Prop :=
  ∀ (s : State) (u : Strand),
    let n := s.inp.unit
    let base := ((s.core (n / 8)).xframe.get 0 (n % 8)).toNat
    let x := loopBoundary u.pc u.loops
    ((∃ o ∈ s.ops, o.slot = n) → exec .vectorFaultDump s = .next s) ∧
    (¬ Lit s n → exec .vectorFaultDump s = .next s) ∧
    (s.strand n = some u → u.st = .dumping → (∀ o ∈ s.ops, o.slot ≠ n) → Lit s n → u.exl = false → u.areaOk base = true →
    (∀ f ∈ u.faults, f.cause ≠ 0x08) → u.faults.length ≤ 256 → (∀ x, s.migOf x = []) → s.granted = [] →
    InSlot .vectorFaultDump s n fun _ t =>
      t.self.xcause = 0x20 ∧ t.self.xval = BitVec.ofNat 64 base ∧ t.self.xpc = x.1 ∧ t.self.ppriv = u.cur ∧
      t.self.cur = true ∧ t.self.exl = true ∧ t.self.st = .run ∧ t.self.vq = [] ∧ t.self.faults = [] ∧
      t.self.nrec = BitVec.ofNat 9 u.faults.length ∧ t.self.v = u.v ∧ t.self.k = u.k ∧ t.self.g = u.g ∧
      t.self.shadowLoops = x.2.1 ∧ t.self.pc = (0 : BitVec 16) ++ s.xvec ++ (0 : BitVec 2) ∧
      (∀ p, p < base ∨ base + u.areaSize ≤ p → t.byteAt p = s.byteAt p) ∧
      leRead t.byteAt (base + 10) 2 = u.faults.length ∧
      ∀ i, (h : i < u.faults.length) →
        let rd (o k : Nat) : Nat := leRead t.byteAt (base + 0x100 + 32 * i + o) k
        rd 0 1 = u.faults[i].cause.toNat ∧ rd 3 1 = u.faults[i].depth.toNat ∧ rd 8 8 = u.faults[i].va.toNat ∧
        rd 16 8 = u.faults[i].pc.toNat ∧ rd 24 2 = u.faults[i].elem.toNat ∧ rd 28 4 = u.faults[i].word.toNat)

namespace Sys2Proof.Claims

/-- No lease and no synchronisation ends in the next `n` clk, and no write of the device's own waits for a lease. -/
def NoLapse (s : State) (n : Nat) : Prop :=
  (s.annex.active = 0 ∨ (s.clk + n) / 1100 < s.annex.expiry.toNat) ∧ s.deferred = [] ∧
    (s.aqSync = false ∨ s.clk + n < s.aqLast + 8800000)

/-- The strands of a launch for which `p` holds. -/
def strandsOf (s : State) (l : Launch) (p : Nat → Strand → Bool) : Nat :=
  s.strands.countP fun e => decide (e.2.bind.launch = l.id) && p e.1 e.2

/-- What a clk counts for a launch (R474), while no counter is near its end and no suspend has stopped the machine. -/
def Counted (s : State) (l m : Launch) : Prop :=
  let quad (n : Nat) : Quad := s.quad (quadOf (n / 8))
  let lit (x : BitVec 16) : Bool := x.getLsbD (s.clk % 16)
  let curr (n : Nat) : Bool := decide (s.clk < (s.basin (n / 8 / 16)).holdEnd)
  let host : Bool := decide (s.clk % 16 < s.annex.h.toNat)
  let weir (u : Strand) : Bool := decide (u.st = .wait .weir)
  m.busy = l.busy + strandsOf s l (fun _ _ => true) ∧
  m.tpat = l.tpat + strandsOf s l (fun n _ => !lit (quad n).latched) ∧
  m.ttherm = l.ttherm + strandsOf s l (fun n _ => lit (quad n).latched && !lit (quad n).eff) ∧
  m.tcurr = l.tcurr + strandsOf s l (fun n u => weir u && curr n) ∧
  m.thost = l.thost + strandsOf s l (fun n u => weir u && !curr n && host) ∧
  m.tweir = l.tweir + strandsOf s l (fun n u => weir u && !curr n && !host)

end Sys2Proof.Claims

/-- R292 to R294, R474, R454: a clk passes; in it the weir admits the head of its queue when the cistern has room for its cost,
is empty or is asked for nothing, and no hold is on; the level rises by the cost and the strand goes on, but one that honours a
request where it waits leaves the queue without a charge. A launch counts the clk
for each of its strands. At a frame boundary every quad latches PAT and clears the highest set bits of EFF until its slot
limit is kept. -/
def Sys2Proof.Claims.WeirsAdmitAndFramesLatch : Prop :=
  ∀ s : State,
    (∀ (e : WeirEntry) (k : Nat) (u : Strand),
      let c := s.core k
      let now := s.clk + 1
      let level := c.level - c.drain.toNat * (now - c.levelClk)
      let cost := (e.charge.map fun x => min (x.2 * (c.wts.get 1 x.1).toNat) (2 ^ 32 - 1)).sum
      let hold : Prop := now < (s.basin (k / 16)).holdEnd ∨ now % 16 < s.annex.h.toNat
      let room : Prop := ¬ hold ∧ (cost = 0 ∨ level + 256 * cost ≤ 256 * c.cap.toNat ∨ level = 0)
      c.queue = [e] → e.slot / 8 = k → s.strand e.slot = some u → (∀ j, j ≠ k → (s.core j).queue = []) →
      (c.weirWas.map (·.1)) ≠ some now → NoLapse s 1 →
      ∃ t, exec .weirClk s = .next t ∧ t.clk = now ∧ (∀ a, t.byteAt a = s.byteAt a) ∧
        (∀ m, m ≠ e.slot → t.strand m = s.strand m) ∧ (∀ j, j ≠ k → t.core j = s.core j) ∧
        (room → ¬ (u.st = .wait .weir ∧ u.yields = true) →
          (t.core k).queue = [] ∧ (t.core k).level = level + 256 * cost ∧ (t.core k).levelClk = now ∧
          t.strand e.slot = some { u with
            weirPass := some (c.wts.get 1 12).toNat, st := if u.st = .wait .weir then .run else u.st }) ∧
        (room → u.st = .wait .weir → u.yields = true →
          (t.core k).queue = [] ∧ (t.core k).level = level ∧ t.strand e.slot = some u) ∧
        (¬ room → t.core k = c ∧ t.strand e.slot = some u)) ∧
    ((∀ j, (s.core j).queue = []) → NoLapse s 1 → s.annex.suspState < 3 →
      ∃ t, exec .weirClk s = .next t ∧ t.clk = s.clk + 1 ∧ t.strands = s.strands ∧ t.cores = s.cores ∧
        ∀ k (h : k < s.annex.launches.length),
          let l := s.annex.launches[k]
          (∀ x ∈ [l.busy, l.tpat, l.ttherm, l.tcurr, l.thost, l.tweir], x + s.strands.length < 2 ^ 64) →
          ∃ m, t.annex.launches[k]? = some m ∧ m.id = l.id ∧ Counted s l m) ∧
    ((∀ j, (s.core j).queue = []) → NoLapse s 16 → (s.quads.map (·.1)).Nodup →
      let ones16 (x : BitVec 16) : Nat := (List.range 16).countP fun i => x.getLsbD i
      ∃ t, exec .pulseFrame s = .next t ∧ t.clk = s.clk / 16 * 16 + 16 ∧ t.strands = s.strands ∧ t.cores = s.cores ∧
        ∀ k,
          let q := s.quad k
          let r := t.quad k
          r = { q with latched := q.pat, eff := r.eff } ∧ ones16 r.eff = min (ones16 q.pat) q.limit ∧
          (∀ i, i < 16 → r.eff.getLsbD i = true → q.pat.getLsbD i = true) ∧
          ∀ i j, i < j → r.eff.getLsbD j = true → q.pat.getLsbD i = true → r.eff.getLsbD i = true)

/-- R53, R111, R151, R168 to R170, R173, R177, R178, R443, R444: the register writes that change more than their own fields, made
for a strand in privileged mode; one of FCTL waits for the strand's earlier vector instructions, and one of a decoded view for
the link that a dirty line of it needs. -/
def Sys2Proof.Claims.RegisterWritesWithEffects : Prop :=
  ∀ (s : State) (u : Strand),
    let v := s.inp.value
    let n := s.inp.unit
    (s.strand n = some u → u.cur = true →
      exec .ctxtabWrite s = .next { s with
        ctxtabBase := v.extractLsb' 12 40, ctxtabLog2n := if 16 < v.toNat % 32 then 16 else v.extractLsb' 0 5
        ctxtabWritten := true } ∧
      OnlyStrand .ctxidWrite s n { u with ctxid := v.extractLsb' 0 16, slink := none, vlinks := [] } ∧
      (∃ t, exec .hdmtWrite s = .next t ∧ t = { s with hdmt := t.hdmt, hdmtWritten := t.hdmtWritten } ∧
        ∀ p, t.hdmt.get 0 p = (if p = s.inp.port.toNat then v.extractLsb' 12 40 else s.hdmt.get 0 p) ∧
          t.hdmtWritten.get false p = (decide (p = s.inp.port.toNat) || s.hdmtWritten.get false p)) ∧
      (∀ k, k < 16 → s.inp.code = 0x20 + 2 * k ∨ s.inp.code = 0x21 + 2 * k →
        (∀ e ∈ s.resv, e.2.dirty = true → s.annex.linkUp.contains e.2.port = true) →
        ∃ t, exec .arfWrite s = .next t ∧ t.strands = s.strands ∧ t.mem = s.mem ∧
          (s.inp.code = 0x20 + 2 * k → t.arfb.get 0 k = v.extractLsb' 21 31) ∧
          (s.inp.code = 0x21 + 2 * k → t.arfcLimit.get 0 k = v.extractLsb' 21 31 ∧
            t.arfcFmt.get 0 k = v.extractLsb' 1 3 ∧ t.arfcEn.get false k = v.getLsbD 0) ∧
          ∀ x ∈ [s, t], ∀ hl, (x.arfb.get 0 k).toNat * 2 ^ 21 ≤ 64 * hl → 64 * hl < (x.arfcLimit.get 0 k).toNat * 2 ^ 21 →
            t.resv.find hl = none) ∧
      (let j := n / 8 / 16
       let b := s.basin j
       ∃ t, exec .castpoolWrite s = .next t ∧ t = { s with basins := t.basins, casts := t.casts } ∧
         t.basin j = { b with
           poolDie := if 11 < (v.extractLsb' 12 4 : BitVec 4) then 11 else v.extractLsb' 12 4
           poolSub := if 64 < (v.extractLsb' 1 7 : BitVec 7) then 64 else v.extractLsb' 1 7
           poolEn := v.getLsbD 0 } ∧
         (∀ k, k ≠ j → t.basin k = s.basin k) ∧
         (v.getLsbD 0 = false → ∀ c, c ∈ t.casts ↔ c ∈ s.casts ∧ c.basin ≠ j))) ∧
    (s.strand n = some u → s.busyIn n [5] = false → u.vq = [] → u.inside = none → u.midway = false →
      OnlyStrand .fctlWrite s n { u with
        sat := v.getLsbD 11, fflags := v.extractLsb' 0 5
        rm := if (v.extractLsb' 8 3).toNat < 5 then v.extractLsb' 8 3 else u.rm }) ∧
    (s.strand n = some u → u.vq ≠ [] ∨ u.inside ≠ none → exec .fctlWrite s = .next s) ∧
    (n < 12 → s.inp.part < 4 →
      let m := (s.basin n).mig.get {} s.inp.part
      let becomes (i : Instr) (m' : Migration) : Prop :=
        ∃ t, exec i s = .next t ∧ (t.basin n).mig.get {} s.inp.part = m' ∧
          (∀ k j, k ≠ n ∨ j ≠ s.inp.part → (t.basin k).mig.get {} j = (s.basin k).mig.get {} j) ∧
          t = { s with basins := t.basins }
      becomes .migrationIdle { m with state := 0 } ∧
      (s.migStarts n s.inp.part m = true → becomes .migrationCopy { m with state := 1, prog := 0 }) ∧
      (s.migStarts n s.inp.part m = false → becomes .migrationCopy { m with state := 3 }) ∧
      (m.size = 3 → s.migStarts n s.inp.part m = false) ∧
      (let old := m.old.toNat * 4096 + m.prog
       let new := m.new.toNat * 4096 + m.prog
       m.state = 1 → m.prog % 64 = 0 → s.leased (new / 64) = false → s.migOf new = [] → (∀ e ∈ s.errs, e.1 / 4 ≠ old / 64) → ∃ t, exec .migrationLineCopy s = .next t ∧
         (∀ x, t.byteAt x = if new ≤ x ∧ x < new + 64 then s.byteAt (old + (x - new)) else s.byteAt x) ∧
         (t.basin n).mig.get {} s.inp.part = { m with
           prog := m.prog + 64
           state := if m.prog + 64 = (if m.size = 0 then 4096 else if m.size = 1 then 65536 else if m.size = 2 then 2097152
             else 0) then 2 else 1 }))

/-! ### Steps of the memory system (02_memory.md, 12_memory_model.md) -/

namespace Sys2Proof.Claims

/-- The page-table entry of an address at a level, in a table (R153). -/
def entryAt (s : State) (table va level : Nat) : BitVec 64 :=
  BitVec.ofNat 64 (s.readCo (table + 8 * (va / 2 ^ (39 - 9 * level) % 512)) 8)

/-- The address that an entry's FRAME holds (R154). -/
def frameOf (p : BitVec 64) : Nat := (p.extractLsb' 12 40).toNat * 4096

/-- A walk of ordinary memory (R153, R154, R156, R157): the tables lie in device memory, each entry above level `k` points
to the next table with every other bit clear, and the entry at level `k` is a leaf of class 0 of a size that the class
may map, aligned to it. -/
def WalksTo (s : State) (root va k : Nat) (p : BitVec 64) (size : Nat) : Prop :=
  s.errs = [] ∧ ∃ table : Nat → Nat, table 0 = root ∧ (∀ j, j ≤ k → s.isTableMem (table j) = true) ∧
    (∀ j, j < k → entryAt s (table j) va j =
        ((0 : BitVec 12) ++ (entryAt s (table j) va j).extractLsb' 12 40 ++ (1 : BitVec 12) : BitVec 64) ∧
      table (j + 1) = frameOf (entryAt s (table j) va j)) ∧
    p = entryAt s (table k) va k ∧ p.getLsbD 0 = true ∧ p.getLsbD 1 = true ∧ p.extractLsb' 9 3 = 0 ∧
    p.getLsbD 7 = false ∧ p.extractLsb' 52 12 = 0 ∧
    ((k = 2 ∧ p.getLsbD 8 = false ∧ size = 2097152) ∨ (k = 3 ∧ size = if p.getLsbD 8 then 65536 else 4096)) ∧
    frameOf p % size = 0

/-- The range of a local leaf of class 0 may be accessed (R157): device memory outside every cast pool at both ends, and no
64 KiB frame of it is a vitrine page. -/
def OrdinaryRange (s : State) (base size : Nat) : Prop :=
  isDevMem base = true ∧ s.inPool base = false ∧ isDevMem (base + size - 1) = true ∧ s.inPool (base + size - 1) = false ∧
    ∀ e ∈ s.frames, base / 65536 ≤ e.1 → e.1 ≤ (base + size - 1) / 65536 → e.2.state = 0

/-- The translations that a TLB holds, of pages and of host pages (R306). -/
def heldIn (s : State) (unit : Nat) : Nat := (s.tlb.countP fun e => e.unit = unit) + s.ats.countP fun e => e.unit = unit

/-- A TLB takes a further translation (R306): one with room keeps all that it held, a full one loses one of them, and no
other TLB changes. -/
def MakesRoom (s : State) (unit : Nat) (tlb : List TlbEntry) (ats : List AtsEntry) : Prop :=
  (heldIn s unit < (if unit % 9 = 0 then 128 else 256) → tlb = s.tlb ∧ ats = s.ats) ∧
  ((if unit % 9 = 0 then 128 else 256) ≤ heldIn s unit → heldIn { s with tlb := tlb, ats := ats } unit + 1 = heldIn s unit) ∧
  tlb.Sublist s.tlb ∧ ats.Sublist s.ats ∧
  (∀ e ∈ s.tlb, e.unit ≠ unit → e ∈ tlb) ∧ ∀ e ∈ s.ats, e.unit ≠ unit → e ∈ ats

/-- R153 to R157, R306: a walk that finds a leaf of class 0 fills one translation in the scalar TLB of the strand's core, or
in the slice of the address for the vector stream, and changes nothing else; a walk that faults fills none. -/
def WalksFillTranslations : Prop :=
  ∀ (s : State) (u : Strand) (c : CtxDesc) (k : Nat) (p : BitVec 64) (size : Nat),
    let va := s.inp.addr.toNat
    let n := s.inp.unit
    let v : State := { s with cur := n }
    let unit := if s.vec then 9 * (n / 8) + 1 + va / 64 % 8 else 9 * (n / 8)
    s.strand n = some u → u.st = .run → n < 1536 → va < 2 ^ 48 → (u.ctxid = 0 → s.ctxtabWritten = true) →
    v.findTlb u.ctxid va = none → s.errs = [] →
    (s.ctxDesc u.ctxid = some c → WalksTo s c.root va k p size → OrdinaryRange s (frameOf p) size →
      ∃ tlb ats, MakesRoom s unit tlb ats ∧ exec .pageWalk s = .next { s with
        tlb := ⟨unit, u.ctxid, p.getLsbD 6, va / size * size, size, p, 0, none⟩ :: tlb, ats := ats }) ∧
    (s.ctxDesc u.ctxid = some c → s.isTableMem c.root = true → (entryAt s c.root va 0).getLsbD 0 = false →
      exec .pageWalk s = .next s)

/-- A strand whose wait is over goes on, unless it honours a request where it stands (R274). -/
def goesOn (u : Strand) : Strand := if u.yields then u else { u with st := .run }

/-- A strand shares the request of the strand `u` in slot `n` for a page (R307): it waits in the same basin for the same page of the
same context, and does not write where no write permission was asked for. -/
def Shares (n : Nat) (u : Strand) (page : Nat) (w : Bool) (m : Nat) (c : Strand) (units : List Nat) (w' : Bool) : Prop :=
  m / 128 = n / 128 ∧ c.ctxid = u.ctxid ∧ c.st = .wait (.ats units page w') ∧ (w = true ∨ w' = false)

/-- R306 to R308, R310: the host's answer to the strand that waits for it is held when it grants the access, at no greater
size than that of the leaf, and noted as refused otherwise; the strand goes on, and so do those that share its request. An
invalidation removes the translations of its port and PASID that overlap its range, and the places that waiting accesses
had found, and its completion is sent once no access to a host page that was translated before is left and the link is up; a 33rd
that stands in a port's queue is no host's (log entry 92). -/
def HostTranslationsComeAndGo : Prop :=
  ∀ (s : State) (u : Strand) (units : List Nat) (unit page size : Nat) (w : Bool),
    let i := s.inp
    let covers (e : TlbEntry) : Prop :=
      (e.glob = true ∨ e.ctx = u.ctxid) ∧ e.vbase ≤ page * 4096 ∧ page * 4096 < e.vbase + e.size
    (FromHost s → Holds s i.port → (∀ e ∈ s.strands, s.strand e.1 = some e.2) → s.strand i.unit = some u → u.st = .wait (.ats units page w) →
      i.addr.toNat / 4096 = page → (∀ e ∈ s.tlb, covers e → e.size = size) →
      ((∃ e ∈ s.tlb, covers e) ∨ size = 4096) →
      let n := max 4096 (min (2 ^ i.len) size)
      let granted (w : Bool) : Bool := if w then i.canWrite else i.canRead
      (∃ t, exec .atsTranslationCompletion s = .next t ∧ t = { s with strands := t.strands, tlb := t.tlb, ats := t.ats } ∧
        (∀ m c us w', s.strand m = some c → Shares i.unit u page w m c us w' →
          t.strand m = some (if granted w' then goesOn c else { goesOn c with atsDenied := some page }) ∧
          (granted w' = true → ∀ x ∈ us, ∃ e ∈ t.ats, e.unit = x ∧ e.port = i.port ∧ e.pasid = i.pasid ∧ e.ctx = u.ctxid ∧
            e.vbase ≤ page * 4096 ∧ page * 4096 < e.vbase + e.size ∧ e.size ≤ n ∧ e.canRead = i.canRead ∧
            e.canWrite = i.canWrite)) ∧
        ∀ m, (∀ c us w', s.strand m = some c → ¬ Shares i.unit u page w m c us w') → t.strand m = s.strand m) ∧
      ((∀ m c us w', s.strand m = some c → Shares i.unit u page w m c us w' → m = i.unit) → units = [unit] →
      u.yields = false →
      (granted w = true →
        ∃ t tlb ats, MakesRoom s unit tlb ats ∧ exec .atsTranslationCompletion s = .next t ∧
          t = { s with strands := t.strands, tlb := tlb, ats :=
            ⟨unit, i.port, i.pasid, u.ctxid, page * 4096 / n * n, n, i.target.toNat / n * n, i.canRead, i.canWrite⟩ :: ats } ∧
          t.strand i.unit = some { u with st := .run } ∧ ∀ m, m ≠ i.unit → t.strand m = s.strand m) ∧
      (granted w = false →
        OnlyStrand .atsTranslationCompletion s i.unit { u with st := .run, atsDenied := some page }))) ∧
    (FromHost s →
      let lo := i.addr.toNat / 2 ^ i.len * 2 ^ i.len
      (32 ≤ (s.atsInvs.filter fun e => e.1 = i.port).length → exec .atsInvalidationRequest s = .next s) ∧
      ((s.atsInvs.filter fun e => e.1 = i.port).length < 32 → ∃ t, exec .atsInvalidationRequest s = .next t ∧
        t = { s with strands := t.strands, ats := t.ats, atsInvs := s.atsInvs ++ [(i.port, i.tag)] } ∧
        (∀ m, t.strand m = (s.strand m).map Strand.forgetPlaces) ∧
        ∀ x, x ∈ t.ats ↔ x ∈ s.ats ∧
          ¬ (x.port = i.port ∧ x.pasid = i.pasid ∧ x.vbase < lo + 2 ^ i.len ∧ lo < x.vbase + x.size))) ∧
    (∀ (p : BitVec 1) (tag : BitVec 32) (r : List (BitVec 1 × BitVec 32)), s.atsInvs = (p, tag) :: r →
      (s.annex.linkUp.contains p = false ∨ (∃ e ∈ s.strands, ∃ va hpa, (va, Place.host hpa) ∈ e.2.placed) →
        exec .invalidationCompletion s = .next s) ∧
      (s.annex.linkUp.contains p = true → (∀ e ∈ s.strands, ∀ va hpa, (va, Place.host hpa) ∉ e.2.placed) →
      exec .invalidationCompletion s = .next { s with atsInvs := r, out := .atsInvDone p s.sender.2 tag :: s.out }))

/-- R457, R466: the answer to a page request becomes RESP of the record that its tag names, or is held while the device is
suspended. -/
def PageAnswersArePosted : Prop :=
  ∀ (s : State) (r : PageReq), FromHost s → r ∈ s.pageReqs → (∀ x ∈ s.pageReqs, x.tag = r.tag → x = r) →
    s.inp.tag = r.tag → s.inp.ctx = r.ctx → s.inp.inc = r.inc → s.inp.port = r.port → 2 ≤ s.inp.code → s.inp.code ≤ 4 →
    (∀ x, s.migOf x = []) → s.granted = [] → s.pageHeld = [] →
    let held : Prop := s.annex.suspState = 4 ∨ s.annex.suspState = 5
    ∃ t, exec .pageRequestGroupResponse s = .next t ∧
      (¬ held → (∀ x, t.byteAt x = if x = r.record + 1 then BitVec.ofNat 8 s.inp.code else s.byteAt x) ∧
        t.pageReqs = s.pageReqs.filter (fun x => x.tag ≠ r.tag)) ∧
      (held → OnlyAnnex s t ∧ t.annex.heldReplies = s.annex.heldReplies ++
        [(r.tag, if 256 ≤ s.annex.heldReplies.length then 5 else BitVec.ofNat 8 s.inp.code)])

/-- The state after a line of host memory has left the reservoir (R169, R304, R328): dirty data reach host memory. -/
def ReservoirLineGone (s t : State) (hl : Nat) : Prop :=
  t.resv.find hl = none ∧ t.mem = s.mem ∧ t.cache = s.cache ∧
    ∀ x, t.hostRaw x = match s.resv.find hl with
      | some l => if l.dirty ∧ x / 64 = hl then lineByte l.data (x % 64) else s.hostRaw x
      | none => s.hostRaw x

/-- R169, R304, R408: a snoop for a host's write takes the line from the reservoir, answers with its dirty data and breaks
the links on it; the write then is in host memory. A snoop for a host's read leaves the line there, clean and shared. -/
def SnoopsAreAnswered : Prop :=
  ∀ s : State,
    let hl := s.inp.addr.toNat / 64
    let dirty := (s.resv.find hl).bind fun l => if l.dirty then some l.data else none
    let reply : Out := .snoopReply s.inp.port s.sender.2 hl dirty
    FromHost s → s.annex.bootState = 3 → (∀ e ∈ s.hostCopies, e.2 ≠ 2 ^ 60 + hl) →
    (s.inp.code ≠ 2 → ∃ t z, exec .hostSnoop s = .next t ∧ ReservoirLineGone s z hl ∧ t.out = reply :: s.out ∧
      t.resv = z.resv ∧ t.mem = s.mem ∧ t.cache = s.cache ∧
      (∀ x, t.hostRaw x = match s.inp.line with
        | some d => if x / 64 = hl then lineByte d (x % 64) else z.hostRaw x
        | none => z.hostRaw x) ∧
      (s.inp.line.isSome = true → (hl ∈ t.hostPoison ↔ s.inp.code = 1)) ∧
      ∀ n u, t.strand n = some u → u.slink ≠ some (2 ^ 60 + hl) ∧ ∀ e ∈ u.vlinks, e.2 ≠ 2 ^ 60 + hl) ∧
    (s.inp.code = 2 → ∃ t, exec .hostSnoop s = .next t ∧ t.out = reply :: s.out ∧ t.strands = s.strands ∧
      t.mem = s.mem ∧ t.cache = s.cache ∧ (∀ x, t.hostByte x = s.hostByte x) ∧
      (∀ x, t.hostRaw x = if x / 64 = hl ∧ dirty.isSome = true then s.hostByte x else s.hostRaw x) ∧
      t.resv.find hl = (s.resv.find hl).map fun l => { l with dirty := false, owned := false })

/-- R110, R112, R170, R408, R409: a host reads and writes device memory through its HDM window, directly or through the
window's table: a read hands it a copy, which a write of the line calls back. A granule that the table does not give is
reported and read as poison; an access of an earlier incarnation is dropped, counted and read as poison; beyond the window
nothing is decoded. -/
def WindowsReachMemory : Prop :=
  ∀ (s : State) (pa : Nat), s.annex.linkUp.contains s.inp.port = true →
    let port := s.inp.port
    let p := port.toNat
    let off := s.inp.addr.toNat / 64 * 64
    let base := pa / 2 ^ 21 * 2 ^ 21
    let a := (s.hdmt.get 0 p).toNat * 4096 + 8 * (off / 2 ^ 21)
    let e := s.readCo a 8
    let window := s.annex.hdmGib.get 128 p * 2 ^ 30
    let fresh : Prop := s.inp.inc = s.incOf port
    let old : State := { s with annex := { s.annex with stale := satInc s.annex.stale } }
    let poison : Out := .hostData port s.sender.2 (off / 64) 0 true
    (window ≤ off → exec .hdmAccess s = .next s) ∧
    (off < window → ¬ fresh → exec .hdmAccess s = .next
      (if s.inp.line.isSome then old else { old with out := poison :: s.out })) ∧
    (off < window → fresh → s.annex.bootState = 3 → s.annex.suspState ≠ 4 → s.annex.suspState ≠ 5 →
      s.errs = [] → (∀ x, s.migOf x = []) →
      (isDevMem base = true ∧ isDevMem (base + 2 ^ 20) = true ∧
        ((s.hdmtWritten.get false p = false ∧ pa = off) ∨
         (s.hdmtWritten.get false p = true ∧ isDevMem a = true ∧ e % 2 ^ 21 = 1 ∧ e < 2 ^ 52 ∧ pa = e - 1 + off % 2 ^ 21 ∧
          s.inPool base = false ∧ s.inPool (base + 2 ^ 20) = false)) →
        (s.inp.line = none → ∃ t d, exec .hdmAccess s = .next t ∧ (port, pa / 64) ∈ t.hostCopies ∧
          (∀ c, c ∈ t.hostCopies ↔ c = (port, pa / 64) ∨ c ∈ s.hostCopies) ∧
          t = { s with hostCopies := t.hostCopies, out := .hostData port s.sender.2 (off / 64) d false :: s.out } ∧
          ∀ i, i < 64 → lineByte d i = s.byteAt (pa + i)) ∧
        (∀ d, s.inp.line = some d → s.leased (pa / 64) = false → ∃ t, exec .hdmAccess s = .next t ∧
          (∀ x, t.byteAt x = if pa ≤ x ∧ x < pa + 64 ∧ s.inp.value.getLsbD (x - pa) = true then lineByte d (x - pa)
            else s.byteAt x) ∧
          (s.inp.value ≠ 0 → ∀ c, c ∈ t.hostCopies ↔ c ∈ s.hostCopies ∧ c.2 ≠ pa / 64))) ∧
      (s.hdmtWritten.get false p = true → isDevMem a = true → e % 2 = 0 → s.inp.line = none →
        ∃ t, exec .hdmAccess s = .next t ∧
          t = { s.report 0 { kind := 0x0A, index := p, addr := off } with out := t.out } ∧
          t.out.head? = some poison))

/-- R174, R301, R304, R400: an eviction takes a line out of one L1D or L2 slice, a dirty one first reaching the DRAM, or a
reservoir line, which stays while the link that its data need is down, a cast or a leased copy out of its cache; the end of a logical lease takes a clean copy of a line or a cast
of this device. -/
def CopiesLeaveTheCaches : Prop :=
  ∀ s : State,
    let line := s.inp.addr.toNat / 64
    let unit := s.inp.part
    let key := 2048 * line + unit
    (∀ c, s.inp.code = 0 → s.cache.find line = some c → c.holder = unit →
      ∃ t, exec .cacheEviction s = .next t ∧ t.cache.find line = none ∧ (∀ k, k ≠ line → t.cache.find k = s.cache.find k) ∧
        (∀ x, t.rawByte x = if x / 64 = line then lineByte c.data (x % 64) else s.rawByte x) ∧
        (∀ x, t.byteAt x = s.byteAt x) ∧ ∀ k, t.copies.find k = if k = key then none else s.copies.find k) ∧
    (s.inp.code = 0 → (∀ c, s.cache.find line = some c → c.holder ≠ unit) →
      exec .cacheEviction s = .next { s with copies := s.copies.drop key }) ∧
    (s.inp.code = 1 → (s.awayPort fun l => l = line) = none → ∃ t, exec .cacheEviction s = .next t ∧ ReservoirLineGone s t line) ∧
    (s.inp.code = 1 → (s.awayPort fun l => l = line).isSome = true → exec .cacheEviction s = .next s) ∧
    (s.inp.code = 2 → exec .cacheEviction s = .next { s with casts := s.casts.eraseIdx s.inp.part }) ∧
    (∀ p, s.inp.code = 3 → s.peer[s.inp.part]? = some p → p.once = none →
      exec .cacheEviction s = .next { s with peer := s.peer.eraseIdx s.inp.part }) ∧
    (s.inp.code = 0 → unit < 1728 → exec .logicalLeaseExpiry s = .next { s with copies := s.copies.drop key }) ∧
    (∀ c, s.inp.code = 1 → s.casts[s.inp.part]? = some c → c.dev = none →
      exec .logicalLeaseExpiry s = .next { s with casts := s.casts.eraseIdx s.inp.part })

end Sys2Proof.Claims

/-- R153 to R157, R306, R308, R310, R457: what walks, the host's translations, its invalidations and its answers to page requests
change. -/
def Obligations.TranslationsArriveAndLeave : Prop :=
  Sys2Proof.Claims.WalksFillTranslations ∧ Sys2Proof.Claims.HostTranslationsComeAndGo ∧ Sys2Proof.Claims.PageAnswersArePosted

/-- R110, R112, R169, R170, R174, R301, R304, R400, R408, R409: the host's own accesses, evictions and the end of logical leases. -/
def Obligations.HostAccessesAndEvictions : Prop :=
  Sys2Proof.Claims.SnoopsAreAnswered ∧ Sys2Proof.Claims.WindowsReachMemory ∧ Sys2Proof.Claims.CopiesLeaveTheCaches

/-! ### Banks, locks, the engines' completions, scratchpad refresh and temperature (11_planes.md, 12_fold.md, 08_control.md) -/

namespace Sys2Proof.Claims

/-- A row op as the rows it writes and what it writes there (R336). -/
def rowEffect : RowOp → List Nat × ((Nat → Row) → Row)
  | .cp d r => ([d], fun R => R r)
  | .inv d r => ([d], fun R => ~~~ R r)
  | .maj x y z => ([x, y, z], fun R => (R x &&& R y) ||| (R x &&& R z) ||| (R y &&& R z))
  | .shl d r c => ([d], fun R => R r <<< c)
  | .shr d r c => ([d], fun R => R r >>> c)
  | _ => ([], fun _ => 0)

/-- The weight of plane `p` of a region (R57), and that of a latched plane (R377). -/
def weightOf (d : Desc) (p : Nat) : Int :=
  if d.kind = 1 then (2 : Int) ^ p
  else if d.kind = 2 then (if p = 0 then 1 else -1)
  else if p + 1 = d.width then -(2 : Int) ^ p else (2 : Int) ^ p
def latchedWeight (l : Latch) (q : Nat) : Int :=
  if l.signed = true ∧ q = l.n - 1 then -(2 : Int) ^ (q + l.psh) else (2 : Int) ^ (q + l.psh)

/-- The count of R377 for plane `p` of one segment: over the latched planes, the columns in which the weight row and the
latched plane both hold a 1. -/
def segmentCount (s : State) (d : Desc) (m row p seg : Nat) : Int :=
  let l := s.latches.get {} m
  let w := s.rawRow m (d.rowbase + d.width * row + p)
  ((List.range 8).map fun q => weightOf d p * latchedWeight l q *
    (((List.range 64).countP fun j => w.getLsbD (64 * seg + j) && (l.planes.getD q 0).getLsbD (64 * seg + j) : Nat) : Int)).sum

/-- What multiplies the count of a segment (R378): the scale byte of nq4, a power of two for e2m1, 1 for the other kinds. -/
def multiplier (d : Desc) (l : Latch) (b : Byte) : Int :=
  if d.kind = 3 then b.toNat
  else if d.kind = 4 then
    (if b ≠ 0xFF ∧ l.ebase ≤ b.toNat ∧ b.toNat ≤ l.ebase + 7 then (2 : Int) ^ (b.toNat - l.ebase) else 0)
  else 1

/-- The accumulator that segment number `g` of the `i`-th subarray reaches (R379): one for each segment, subarray or
page. -/
def reaches (d : Desc) (mode : BitVec 2) (abase i g : Nat) : Nat :=
  abase + if mode = 1 then i * (keptSegs d.xseg).length + g else if mode = 0 then i else i / 2

/-- The demand access waits for the end of another strand's locked operation that has its subarray open (R360). -/
def LockedOut (z : State) (basin : Nat) (d : Demand) : Prop :=
  ∃ l ∈ (z.basin basin).locks, d.slot ≠ none ∧ d.slot ≠ some l.slot ∧ d.line / 2 ^ 14 ∈ l.subs ∧
    ∃ o ∈ z.ops, o.slot = l.slot ∧ ∃ g ∈ o.groups, g.opened = true ∧ d.line / 2 ^ 14 ∈ g.subs

/-- The demand access at the head of a bank's FIFO takes the next slot (R355): it has seen 8 slots of group work, or no group
is open. -/
def DemandGoes (z : State) (basin k : Nat) (d : Demand) : Prop :=
  (z.banks.get {} k).fifo.head? = some d ∧ ¬ LockedOut z basin d ∧
    (8 ≤ (z.banks.get {} k).begun ∨ ∀ o g, z.bankHead k = some (o, g) → g.opened = false)

/-- The machine in which a slot of a bank is taken: the commands that the fountain may accept are accepted, and `len` demand
accesses of other units have arrived. -/
def atSlot (s : State) : State := s.admitWaiting.otherDemands (512 * s.inp.unit + s.inp.part) s.inp.len

/-- The bank after one slot of group work: an access in its FIFO has seen one more (R355). -/
def seen (b : Bank) : Bank := if b.fifo = [] then b else { b with begun := b.begun + 1 }

/-- A slot of this bank is taken now, and no refresh and no demand access takes it (R355). -/
def GroupSlot (s : State) : Prop :=
  s.inp.unit < 12 ∧ s.inp.part < 384 ∧ s.annex.bootState = 3 ∧
    ((atSlot s).banks.get {} (512 * s.inp.unit + s.inp.part)).due = 0 ∧
    ∀ d, ¬ DemandGoes (atSlot s) s.inp.unit (512 * s.inp.unit + s.inp.part) d

/-- R355, R356, R474: a bank is idle before READY; a refresh that is due takes the slot before everything else, and the launch
whose row op waits behind it gets 35 clk of TREFR. The demand access at the head goes once it has seen 8 slots of group work,
or if no group is open; a read takes the row's line as it is in this slot, and a write writes the bits that it names. -/
def BankSlotsServeRefreshesAndDemands : Prop :=
  ∀ s : State, s.inp.unit < 12 → s.inp.part < 384 →
    let k := 512 * s.inp.unit + s.inp.part
    let z := atSlot s
    let b := z.banks.get {} k
    let old := s.banks.get {} k
    let others (t : State) : Prop := ∀ j, j ≠ k → t.banks.get {} j = z.banks.get {} j
    (s.annex.bootState ≠ 3 → exec .bankSlot s = .next s) ∧
    (s.annex.bootState = 3 →
      (z = { s with ops := s.admitWaiting.ops, nextId := s.nextId + s.inp.len, banks := z.banks } ∧
        b = { old with fifo := old.fifo ++ (List.range s.inp.len).map fun i => ⟨s.nextId + i, none, 2 ^ 21 * k, 0, none⟩
                       begun := if old.fifo = [] ∧ s.inp.len ≠ 0 then 0 else old.begun } ∧
        ∀ j, j ≠ k → z.banks.get {} j = s.banks.get {} j) ∧
      (b.due ≠ 0 → ∃ t, ∃ waiter : Option Nat, exec .bankSlot s = .next t ∧
        t.banks.get {} k = { b with due := b.due - 1, slot := b.slot + 1 } ∧ others t ∧
        (∀ o g, z.bankHead k = some (o, g) → g.opened = true → waiter = (s.strand o.slot).map fun u => u.bind.launch) ∧
        (z.bankHead k = none → waiter = none) ∧
        t = { z with banks := t.banks, annex := { z.annex with launches := z.annex.launches.map fun (l : Launch) =>
          { l with trefr := if waiter = some l.id then min (l.trefr + 35) (2 ^ 64 - 1) else l.trefr } } }) ∧
      (b.due = 0 → z.bankHead k = none → b.fifo = [] → exec .bankSlot s = .next z) ∧
      (b.due = 0 → ∀ d, DemandGoes z s.inp.unit k d → ∃ t, exec .bankSlot s = .next t ∧
        t.banks.get {} k = { b with fifo := b.fifo.tail, begun := 0 } ∧ others t ∧
        (d.write = none → (∀ n u, d.slot = some n → s.strand n = some u →
            ∀ tok c, u.st = .wait (.bank tok c) → ¬ (tok ≤ d.id ∧ d.id < tok + c)) → t = { z with banks := t.banks }) ∧
        (∀ n u tok c, d.write = none → d.slot = some n → s.strand n = some u → u.st = .wait (.bank tok c) → tok ≤ d.id →
          d.id < tok + c → s.errs = [] →
          t = { z with banks := t.banks, strands := t.strands } ∧ (∀ m, m ≠ n → t.strand m = s.strand m) ∧
          t.strand n = some { u with rowData := u.rowData.put d.line (BitVec.ofNat 512 (leRead s.rawByte (64 * d.line) 64), 0) }) ∧
        (∀ v, d.write = some v → (∀ x, s.migOf x = []) →
          (∀ x, t.rawByte x = if x / 64 = d.line then
            (s.rawByte x &&& ~~~(lineByte d.mask (x % 64))) ||| (lineByte v (x % 64) &&& lineByte d.mask (x % 64))
            else s.rawByte x) ∧
          ∀ n, t.strand n = (s.strand n).map (unlinked fun l => l == d.line))))

/-- R334 to R337, R355, R360, R373: a slot that neither a refresh nor a demand access takes goes to the next row op of the
open group, in every subarray of the group, else to the opening of the group at the head of the bank's FIFO; after its last
row op the group is done. A `plant` at the head, or a command chained to one that is not done, keeps the bank from opening. -/
def BankSlotsRunRowOps : Prop :=
  ∀ (s : State) (o : EngineOp) (g : Group),
    let k := 512 * s.inp.unit + s.inp.part
    let z := atSlot s
    let b := z.banks.get {} k
    GroupSlot s → z.bankHead k = some (o, g) →
    (g.opened = false →
      ((∃ d off n bc sg psh eb, o.work = .plant d off n bc sg psh eb) ∨ ∃ i, o.after = some i ∧ (z.op i).isSome = true) →
      exec .bankSlot s = .next z) ∧
    ∀ (op : PlaneOp) (w : Nat) (d a c e : Desc) (v : Word), o.work = .plane op w d a c e v → g.pos < o.work.program.length →
      (g.opened = false → o.after = none → ∃ t o', exec .bankSlot s = .next t ∧ t.banks = z.banks ∧
        t.op o.id = some o' ∧ o'.work = o.work ∧
        (g.pos + 1 < o.work.program.length → ∃ g' ∈ o'.groups, g'.subs = g.subs ∧ g'.opened = true ∧ g'.pos = g.pos + 1)) ∧
      (g.opened = true → o.margins = [] → s.inp.amounts = [] → (∀ x, s.migOf x = []) → g.subs.Nodup →
        (∀ m ∈ g.subs, (s.comp.get {} m).rows.length = 6) →
        let f := rowEffect (o.work.program.getD g.pos .pass)
        let hit (l : Nat) : Bool := g.subs.contains (l / 2 ^ 14) && f.1.contains (l / 16 % 2 ^ 10)
        ∃ t o', exec .bankSlot s = .next t ∧ t.banks.get {} k = seen b ∧ (∀ j, j ≠ k → t.banks.get {} j = z.banks.get {} j) ∧
          (∀ m ∈ g.subs, ∀ q, q < 1030 → ∀ j, j < 8192 → (t.rowVal m q).getLsbD j =
            if f.1.contains q && (decide (1024 ≤ q) || !d.xseg.getLsbD (j / 64)) then (f.2 (s.rowVal m)).getLsbD j
            else (s.rowVal m q).getLsbD j) ∧
          (∀ m, m ∉ g.subs → ∀ q, q < 1030 → t.rowVal m q = s.rowVal m q) ∧
          (∀ p, p / 2 ^ 20 ∉ g.subs → t.rawByte p = s.rawByte p) ∧ t.cache = s.cache ∧
          (∀ n, t.strand n = (s.strand n).map (unlinked hit)) ∧
          t.op o.id = some o' ∧ o'.work = o.work ∧
          (g.pos + 1 < o.work.program.length → ∃ g' ∈ o'.groups, g'.subs = g.subs ∧ g'.pos = g.pos + 1) ∧
          (g.pos + 1 = o.work.program.length → o'.groups = o.groups.filter fun x => x.subs ≠ g.subs))

/-- R377 to R381: a slot of an open group of a fold reads one weight row of each subarray whose latches hold a plane that is
not zero, and adds the counts of its segments, each times its scale, to the accumulators that the segments reach, at every
place that the region gives the subarray; it writes no row. -/
def FoldSlotsReadTheirRows : Prop :=
  ∀ (s : State) (o : EngineOp) (g : Group) (d : Desc) (tile : Nat) (mode : BitVec 2) (row abase : Nat) (scales : List Byte)
      (wt : Nat),
    let k := 512 * s.inp.unit + s.inp.part
    let z := atSlot s
    GroupSlot s → z.bankHead k = some (o, g) → g.opened = true →
    o.work = .fold d tile mode row abase scales wt → o.margins = [] → s.inp.amounts = [] → g.pos < d.width →
    let segs := keptSegs d.xseg
    let adds (m n : Nat) : Int :=
      if ((s.latches.get {} m).planes.all fun x => x = 0) then 0
      else (((List.range d.subs.length).filter fun i => d.subs[i]? = some m).map fun i => (segs.zipIdx.map fun e =>
        if reaches d mode abase i e.2 = n then
          segmentCount s d m row g.pos e.1 * multiplier d (s.latches.get {} m) (scales.getD (i * segs.length + e.2) 0)
        else 0).sum).sum
    ∃ t o', exec .bankSlot s = .next t ∧ t.op o.id = some o' ∧ o'.work = o.work ∧
      (∀ n, o'.adds.get 0 n = o.adds.get 0 n + (g.subs.map fun m => adds m n).sum) ∧
      t.banks.get {} k = seen (z.banks.get {} k) ∧ (∀ j, j ≠ k → t.banks.get {} j = z.banks.get {} j) ∧
      t = { z with ops := t.ops, banks := t.banks }

/-- R356: a refresh deadline that has come is noted for its bank, and the next one lies a 12,288th of its die's interval
later; deadlines are kept in clk × 12,288. Before READY a bank is idle (R115). -/
def RefreshDeadlinesComeDue : Prop :=
  ∀ s : State, s.inp.unit < 12 → s.inp.part < 384 →
    let k := 512 * s.inp.unit + s.inp.part
    let b := s.banks.get {} k
    (s.annex.bootState ≠ 3 → exec .refreshDeadline s = .next s) ∧
    (s.annex.bootState = 3 → b.nextAt ≤ s.clk * 12288 →
      ∃ t, exec .refreshDeadline s = .next t ∧ t = { s with banks := t.banks } ∧
        (∀ j, j ≠ k → t.banks.get {} j = s.banks.get {} j) ∧
        t.banks.get {} k = { b with
          due := b.due + 1, nextAt := b.nextAt + (s.basin s.inp.unit).interval.get 32 (s.inp.part / 32) * 1100000 }) ∧
    (s.clk * 12288 < b.nextAt → exec .refreshDeadline s = .next s)

/-- R312, R314, R316: at its refresh slot a scratchpad bank makes its next row young, leaves an expired row expired and
reports it once, and passes over the rows of an ephemeral bank. Whether the row was expired is asked of the slot's clk:
while the bank has run under one EPH bit and one deadline D, it was if its last write or refresh lay D clk back. A row that
was found expired, and that has been written or whose span has ended since, is reported all the same. Before READY nothing
is refreshed (R115). -/
def ScratchpadRowsAreRefreshed : Prop :=
  ∀ s : State, s.inp.unit < 192 → s.inp.part < 48 →
    let c := s.core s.inp.unit
    let k := s.inp.part
    let n := c.spRow.get 0 k
    let row := 1024 * k + n
    let now := c.spNext.get 0 k
    let limit := (s.basin (s.inp.unit / 16)).retention
    let last := if c.rowDead.get false row then none else s.rowLast s.inp.unit row now
    let moved (c' : Core) : Prop := c'.spRow.get 0 k = (n + 1) % 1024 ∧ c'.spNext.get 0 k = now + limit / 2048 ∧
      ∀ j, j ≠ k → c'.spRow.get 0 j = c.spRow.get 0 j ∧ c'.spNext.get 0 j = c.spNext.get 0 j
    (s.clk < now ∨ s.annex.bootState ≠ 3 → exec .scratchpadRefresh s = .next s) ∧
    (now ≤ s.clk → s.annex.bootState = 3 → c.eph.getLsbD k = true → ∀ r, c.rowDue = [r] → r / 1024 = k →
      ∃ t, exec .scratchpadRefresh s = .next t ∧ moved (t.core s.inp.unit) ∧ (t.core s.inp.unit).rowDue = [] ∧
        t = { s with cores := t.cores }.report (s.inp.unit / 16) { kind := 6, core := s.inp.unit, bank := k, index := r % 1024 }) ∧
    (n < 1024 → 0 < limit → c.eph.getLsbD k = false → c.spPast.get [] k = [] →
      let w := (c.rowClk.find row).getD s.spInit
      (now < w + limit → s.rowLast s.inp.unit row now = some (max w now)) ∧
      (w + limit ≤ now → s.rowLast s.inp.unit row now = none)) ∧
    (now ≤ s.clk → s.annex.bootState = 3 → (∀ r ∈ c.rowDue, r / 1024 ≠ k) → ∃ t, exec .scratchpadRefresh s = .next t ∧ moved (t.core s.inp.unit) ∧
      (∀ j, j ≠ s.inp.unit → t.core j = s.core j) ∧
      (let c' := t.core s.inp.unit
       c' = { c with spRow := c'.spRow, spNext := c'.spNext, rowClk := c'.rowClk, rowDead := c'.rowDead
                     rowReported := c'.rowReported } ∧
       (c.eph.getLsbD k = true → c'.rowClk = c.rowClk ∧ c'.rowDead = c.rowDead ∧ t = { s with cores := t.cores }) ∧
       (∀ w, c.eph.getLsbD k = false → last = some w →
         c'.rowClk.find row = some w ∧ (∀ r, r ≠ row → c'.rowClk.find r = c.rowClk.find r) ∧ c'.rowDead = c.rowDead ∧
         t = { s with cores := t.cores }) ∧
       (c.eph.getLsbD k = false → last = none → c'.rowClk = c.rowClk ∧ c'.rowDead.get false row = true ∧
         c'.rowReported.get false row = true ∧
         (c.rowReported.get false row = true → t = { s with cores := t.cores }) ∧
         (c.rowReported.get false row = false →
           t = { s with cores := t.cores }.report (s.inp.unit / 16) { kind := 6, core := s.inp.unit, bank := k, index := n }))))

/-- R36, R37, R462, R463: once every 1 ms a sample of the 28 sensors of a basin is taken in; a sensor that reports a fault
or a reading out of range has failed from then on; the refresh intervals of the array dies, the retention deadline of
the scratchpads and the slot limits of the quads follow the readings, and a sensor found failed counts as hot from the next
sample on. -/
def TemperaturesSetIntervalsAndLimits : Prop :=
  ∀ s : State, s.inp.unit < 12 →
    let b := s.basin s.inp.unit
    (s.annex.bootState ≠ 3 ∨ s.clk < b.nextSample → exec .thermalSample s = .next s) ∧
    (s.annex.bootState = 3 → b.nextSample ≤ s.clk → s.inp.samples.length = 28 →
    ∃ t, exec .thermalSample s = .next t ∧
      (let z := t.basin s.inp.unit
       let x (n : Nat) : Sensor := z.sensors.get {} n
       let above (l : List Nat) (y : Int) : Prop :=
         ∃ n ∈ l, (b.sensors.get {} n).failed = true ∨ y < (x n).temp.toInt
       z.nextSample = s.clk + 1100000 ∧
       (∀ n, (h : n < s.inp.samples.length) →
         let p := s.inp.samples[n]
         (x n).temp = p.temp ∧ (x n).recent = (p.temp :: (b.sensors.get {} n).recent).take 10000 ∧
         ((b.sensors.get {} n).failed = true ∨ p.fault = true ∨ p.temp.toInt < -640 ∨ 2400 < p.temp.toInt →
           (x n).failed = true) ∧
         ((b.sensors.get {} n).failed = false → p.fault = false → -640 ≤ p.temp.toInt → p.temp.toInt ≤ 2400 →
           (b.sensors.get {} n).recent.length < 9999 → (x n).failed = false)) ∧
       (∀ d, d < 12 → (above [2 * d, 2 * d + 1] 1360 → z.interval.get 32 d = 16) ∧
         (¬ above [2 * d, 2 * d + 1] 1360 → z.interval.get 32 d = 32)) ∧
       (above [24, 25, 26, 27] 1360 → z.retention = 11000) ∧
       (¬ above [24, 25, 26, 27] 1360 → above [24, 25, 26, 27] 880 → z.retention = 22000) ∧
       (¬ above [24, 25, 26, 27] 880 → z.retention = 44000) ∧
       ∀ i, i < 4 →
         let q := s.quad (4 * s.inp.unit + i)
         let q' := t.quad (4 * s.inp.unit + i)
         let own := x (24 + i)
         let arrays : List Sensor := ((List.range 24).map x).filter fun y => !y.failed
         let lost : Prop := own.failed = true ∨ arrays = []
         let hot : Prop := 1600 ≤ own.temp.toInt ∨ ∃ y ∈ arrays, 1472 ≤ y.temp.toInt
         let cool : Prop := own.temp.toInt < 1520 ∧ ∀ y ∈ arrays, y.temp.toInt < 1408
         (lost ∨ hot → q' = { q with limit := max 1 (q.limit - 2), cool := 0 }) ∧
         (¬ lost → ¬ hot → cool → q' = if q.cool = 9 then { q with limit := min 16 (q.limit + 1), cool := 0 }
           else { q with cool := q.cool + 1 }) ∧
         (¬ lost → ¬ hot → ¬ cool → q' = { q with cool := 0 })) ∧
      (∀ k, k ≠ s.inp.unit → t.basin k = s.basin k) ∧ (∀ k, k / 4 ≠ s.inp.unit → t.quad k = s.quad k) ∧
      ∀ n, n / 16 ≠ s.inp.unit → t.core n = s.core n)

/-- A strand with one outstanding operation less in a waitc class (R300). -/
def uncounted (cls : Nat) (u : Strand) : Strand :=
  { u with
    cntL := if cls = 1 then u.cntL - 1 else u.cntL, cntS := if cls = 2 then u.cntS - 1 else u.cntS
    cntC := if cls = 3 then u.cntC - 1 else u.cntC, cntT := if cls = 4 then u.cntT - 1 else u.cntT }

/-- A command leaves the engines, and its strand changes as told (R300). -/
def Leaves (s t : State) (o : EngineOp) (f : Strand → Strand) : Prop :=
  t.ops = s.ops.filter (fun x => x.id ≠ o.id) ∧ t.strand o.slot = (s.strand o.slot).map f ∧
    ∀ n, n ≠ o.slot → t.strand n = s.strand n

/-- R360, R361: a `plock` is granted once no command accepted earlier works on its subarrays and no demand access that came
earlier waits on one, no other strand's lock covers one of them and its fountain holds fewer than 64 locks (and, the model's
choice of log entry 97, no accepted command of another strand works on them); a `punlock` gives back the most recent lock of its strand on the
same subarrays once the strand's earlier commands on them have completed, and with none sets LOCKERR. -/
def LocksAreGrantedAndReleased : Prop :=
  ∀ (s : State) (o : EngineOp) (d : Desc),
    let z := s.admitWaiting
    let locks := (s.basin d.basin).locks
    let same (l : Lock) : Prop := l.slot = o.slot ∧ ∀ x, x ∈ l.subs ↔ x ∈ d.subs
    let touches (p : EngineOp) : Prop := ∃ l, p.work.fountain = some l ∧ ∃ x ∈ l, x ∈ d.subs
    let becomes (i : Instr) (y : State) (l : List Lock) (f : Strand → Strand) : Prop :=
      ∃ t, exec i s = .next t ∧ Leaves y t o f ∧ (t.basin d.basin).locks = l ∧
        (∀ k, k ≠ d.basin → t.basin k = s.basin k) ∧ t = { y with basins := t.basins, ops := t.ops, strands := t.strands }
    (z.op s.inp.unit = some o → o.work = .plock d →
      let free : Prop := o.held = false ∧
        (∀ p ∈ z.acceptedBefore o, p.work.isLock = true ∨ p.work.isUnlock = true ∨ ¬ touches p) ∧
        (∀ e ∈ z.banks, ∀ a ∈ e.2.fifo, a.slot = none ∨ o.id ≤ a.id ∨ a.line / 2 ^ 14 ∉ d.subs) ∧
        (∀ p ∈ z.ops, p.held = true ∨ p.slot = o.slot ∨ p.work.isLock = true ∨ p.work.isUnlock = true ∨ ¬ touches p) ∧
        (∀ l ∈ locks, l.slot ≠ o.slot → ∀ x ∈ d.subs, x ∉ l.subs) ∧ locks.length < 64
      (free → becomes .lockGrant z (⟨o.slot, o.id, d.subs⟩ :: locks) (uncounted 4)) ∧
      (¬ free → exec .lockGrant s = .next z)) ∧
    (s.op s.inp.unit = some o → o.work = .punlock d →
      let waits : Prop := ∃ p ∈ s.ops, p.id < o.id ∧ p.slot = o.slot ∧ touches p
      (waits → exec .lockRelease s = .next s) ∧
      (¬ waits →
        (∀ l1 l l2, locks = l1 ++ l :: l2 → same l → (∀ x ∈ l1, ¬ same x) → becomes .lockRelease s (l1 ++ l2) id) ∧
        ((∀ l ∈ locks, ¬ same l) → becomes .lockRelease s locks fun u => { u with lockerr := true })))

/-- R365, R380, R382: the completions of plane commands and of `fold`: a plane command notes its margin errors in PLSTAT; a
fold, after the earlier folds of its core on its tile, adds what it found to the tile exactly, modulo 2^40, with its flags
and poison, and gives its unused charge back. -/
def EngineCommandsComplete : Prop :=
  ∀ (s : State) (o : EngineOp), s.op s.inp.unit = some o →
    ((match o.work with
      | .plane _ _ _ _ _ _ _ => True
      | .pprog _ _ _ => True
      | .pcal _ => True
      | _ => False) →
      (o.groups = [] → ∃ t, exec .planeInstructionComplete s = .next t ∧ t = { s with ops := t.ops, strands := t.strands } ∧
        Leaves s t o fun u => { uncounted 4 u with
          margin := u.margin || !o.margins.isEmpty
          plFirst := if o.margins.isEmpty = false ∧ u.margin = false then o.tag else u.plFirst }) ∧
      (o.groups ≠ [] → exec .planeInstructionComplete s = .next s)) ∧
    (∀ (d : Desc) (tile : Nat) (mode : BitVec 2) (row abase : Nat) (scales : List Byte) (wt : Nat),
      o.work = .fold d tile mode row abase scales wt → o.groups = [] → o.margins = [] → tile < 8 →
      (∀ p ∈ s.acceptedBefore o, p.slot / 8 = o.slot / 8 → p.work.tile ≠ some tile) →
      (o.adds.map (·.1)).Nodup → (∀ e ∈ o.adds, e.1 < 4096) → (∀ k ∈ o.poisons, k < 4096) →
      let n := o.slot / 8
      let c := s.core n
      ∃ t, exec .foldComplete s = .next t ∧ Leaves s t o (uncounted 4) ∧
        (∀ j, j ≠ n → t.core j = s.core j) ∧ t = { s with ops := t.ops, strands := t.strands, cores := t.cores } ∧
        (∀ j k, k < 4096 →
          accOf t n j k = (if j = tile then (BitVec.ofInt 40 (accOf s n j k + (Table.find k o.adds).getD 0)).toInt else accOf s n j k) ∧
          poisonOf t n j k = (poisonOf s n j k || decide (j = tile) && o.poisons.contains k)) ∧
        (let c' := t.core n
         (∀ j, j < 8 →
           c'.tileOvf.getLsbD j = (c.tileOvf.getLsbD j || decide (j = tile) && o.adds.any fun e =>
             decide (accOf s n tile e.1 + e.2 < -2 ^ 39) || decide (2 ^ 39 ≤ accOf s n tile e.1 + e.2)) ∧
           c'.tileNan.getLsbD j = (c.tileNan.getLsbD j || decide (j = tile) && !o.poisons.isEmpty) ∧
           c'.tileRange.getLsbD j = (c.tileRange.getLsbD j || decide (j = tile) && o.range)) ∧
         c'.level = c.level - c.drain.toNat * (s.clk - c.levelClk) -
           256 * min ((d.width * 2 * d.npage - o.used) * wt) (2 ^ 32 - 1) ∧ c'.levelClk = s.clk ∧
         c'.queue = c.queue ∧ c'.eph = c.eph ∧ c'.xframe = c.xframe))

/-- R370, R372, R374: rows of a `plant` land in the latches of the group at the head of a bank's FIFO, one scratchpad row at
a time, 16 to a plane; the group's first row sets the parameters and clears the latches. A subarray that the region names
more than once takes the block of its last place (R372's loop). With all the rows the latches
hold the planes of the scratchpad and zeros above them, and the group is done. -/
def PlantRowsLand : Prop :=
  ∀ (s : State) (o : EngineOp) (d : Desc) (off n : Nat) (bc sg : Bool) (psh eb : Nat) (g : Group),
    let z := s.admitWaiting
    z.op s.inp.unit = some o → o.work = .plant d off n bc sg psh eb → z.bankHead s.inp.part = some (o, g) →
    1 ≤ n → n ≤ 8 → g.subs.Nodup →
    let total := if bc then 16 * n else 16 * n * g.subs.length
    let rest := o.groups.filter fun x => x.subs ≠ g.subs
    let byte (a : Nat) : Byte := s.spadByte (o.slot / 8) a
    let place (x : Nat) : Nat := ((List.range d.subs.length).filter fun i => d.subs[i]? = some x).getLastD 0
    let latched (t : State) (x : Nat) : Latch := t.latches.get {} x
    let done (t : State) : Prop :=
      (rest = [] → t.ops = z.ops.filter fun x => x.id ≠ o.id) ∧ (rest ≠ [] → t.op o.id = some { o with groups := rest }) ∧
        ∀ u, s.strand o.slot = some u → ∃ u', t.strand o.slot = some u' ∧
          u' = { u with expp := u'.expp, cntC := if rest = [] then u.cntC - 1 else u.cntC }
    (g.pos = 0 → s.inp.code = 0 → ∃ t, exec .plantLatchLoadComplete s = .next t ∧ done t ∧ t.mem = s.mem ∧
      (∀ x ∈ g.subs, (latched t x).signed = sg ∧ (latched t x).n = n ∧ (latched t x).psh = psh ∧ (latched t x).ebase = eb ∧
        (latched t x).planes.length = 8 ∧
        ∀ q, q < 8 → (latched t x).planes.getD q 0 = if q < n then
            BitVec.ofNat 8192 (leRead byte (off + 64 + 1024 * (if bc then q else place x * n + q)) 1024)
          else 0) ∧
      ∀ x, x ∉ g.subs → latched t x = latched s x) ∧
    (g.pos < total → s.inp.code = 1 →
      let q := g.pos % (16 * n) / 16
      let c := g.pos % 16
      let into : List Nat := if bc then g.subs else (g.subs[g.pos / (16 * n)]?).toList
      let base := off + 64 + 1024 * (if bc then q else place (into.headD 0) * n + q) + 64 * c
      ∃ t, exec .plantLatchLoadComplete s = .next t ∧ t.mem = s.mem ∧
        (∀ x ∈ into,
          let l := if g.pos % (16 * n) = 0 then { signed := sg, n := n, psh := psh, ebase := eb } else latched s x
          let row : Row := BitVec.ofNat 8192 (leRead byte base 64) <<< (512 * c)
          latched t x = { l with planes := l.planes.set q (l.planes.getD q 0 ||| row) }) ∧
        (∀ x, x ∉ into → latched t x = latched s x) ∧
        (g.pos + 1 < total → t.op o.id = some (o.putGroup { g with pos := g.pos + 1 })) ∧
        (g.pos + 1 = total → done t))

/-- An element of the DRAM (R394). -/
def dramElem (s : State) (pa n : Nat) : Nat := leRead s.rawByte pa n

/-- R390, R392 to R394: a bank operation on elements apart from each other, once no earlier one is left and no lease runs on
a line it writes: `bkadd` adds, `bksax` adds the scaled source, `bkcx` puts the lesser into the destination, `bkred`
sums; integers modulo their width, floats in the pairwise tree. No other cell of memory and no cached copy changes. -/
def BankOperationsComplete : Prop :=
  ∀ (s : State) (o : EngineOp) (op : BankOp) (ty : BitVec 3) (ft : Bool) (ds xs : List Nat) (k : BitVec 32) (u : Strand),
    s.op s.inp.unit = some o → o.work = .bank op ty ft ds xs k → s.errs = [] → s.strand o.slot = some u →
    (∀ x, s.migOf x = []) → (∀ p ∈ s.ops, p.id < o.id → p.work.bankCells = []) →
    let stores : List Nat := if op = .cx then ds ++ xs else ds
    ((∃ a ∈ stores, s.leased (a / 64) = true) → exec .bankOperationComplete s = .next s) ∧
    ((∀ a ∈ stores, s.leased (a / 64) = false) →
    let fm := FFmt.ofCode ty.toNat
    let w := if ft then fm.width else widthOf ty
    let n := w / 8
    let apart (l : List Nat) : Prop := l.Pairwise fun a b => a + n ≤ b ∨ b + n ≤ a
    let D (i : Nat) : Nat := dramElem s (ds.getD i 0) n
    let X (i : Nat) : Nat := dramElem s (xs.getD i 0) n
    let sum (i : Nat) : Nat × FFlags :=
      if ft then (if op = .sax then fm.fma 0 (FFmt.f32.read k.toNat) (fm.read (X i)) (fm.read (D i))
        else fm.add 0 (fm.read (D i)) (fm.read (X i)))
      else (D i + X i, 0)
    let less (i : Nat) : Prop := if ft then floatLess fm (X i) (D i) = true else valueOf ty w (X i) < valueOf ty w (D i)
    let writes (dst : List Nat) (fl : FFlags) (P : State → Prop) : Prop :=
      ∃ t u', exec .bankOperationComplete s = .next t ∧ P t ∧ t.ops = s.ops.filter (fun x => x.id ≠ o.id) ∧
        (∀ x, (∀ a ∈ dst, x < a ∨ a + n ≤ x) → t.rawByte x = s.rawByte x) ∧ t.cache = s.cache ∧
        t.strand o.slot = some u' ∧
        u' = { uncounted 4 u with fflags := u.fflags ||| fl, slink := u'.slink, vlinks := u'.vlinks }
    (op = .add ∨ (op = .sax ∧ ft = true) → ds.length = xs.length → apart (ds ++ xs) →
      writes ds ((List.range ds.length).foldl (fun f i => f ||| (sum i).2) 0) fun t =>
        ∀ i, i < ds.length → dramElem t (ds.getD i 0) n = (sum i).1 % 2 ^ w) ∧
    (op = .cx → ds.length = xs.length → apart (ds ++ xs) →
      writes (ds ++ xs) 0 fun t => ∀ i, i < ds.length →
        (less i → dramElem t (ds.getD i 0) n = X i ∧ dramElem t (xs.getD i 0) n = D i) ∧
        (¬ less i → dramElem t (ds.getD i 0) n = D i ∧ dramElem t (xs.getD i 0) n = X i)) ∧
    (op = .red → ft = false → ∀ a, ds = [a] →
      writes ds 0 fun t => dramElem t a n = ((List.range xs.length).map X).sum % 2 ^ w) ∧
    (op = .red → ft = true → ∀ a p, ds = [a] → xs ≠ [] → xs.length ≤ 2 ^ p →
      let r := (node (sumStep fm 0) (fun i => if i < xs.length then some ⟨X i, 0, false⟩ else none) p 0).getD ⟨0, 0, false⟩
      writes ds (r.fl ||| (asDelivered fm r.val).2) fun t => dramElem t a n = (asDelivered fm r.val).1))

end Sys2Proof.Claims

/-- R312 to R316, R334 to R337, R355, R356, R377 to R381: the slots of the banks and the refresh of both memories. -/
def Obligations.BankSlotsAndRefresh : Prop :=
  Sys2Proof.Claims.BankSlotsServeRefreshesAndDemands ∧ Sys2Proof.Claims.BankSlotsRunRowOps ∧
    Sys2Proof.Claims.FoldSlotsReadTheirRows ∧ Sys2Proof.Claims.RefreshDeadlinesComeDue ∧
    Sys2Proof.Claims.ScratchpadRowsAreRefreshed

/-- R360 to R394: locks, and the completions of plane commands, plants, folds and bank operations. -/
def Obligations.LocksAndEngineCompletions : Prop :=
  Sys2Proof.Claims.LocksAreGrantedAndReleased ∧ Sys2Proof.Claims.EngineCommandsComplete ∧ Sys2Proof.Claims.PlantRowsLand ∧
    Sys2Proof.Claims.BankOperationsComplete

namespace Sys2Proof.Claims

/-- The integer that the planes of a source hold in one column of a subarray at an element row (R57, R341). -/
def columnInt (s : State) (d : Desc) (m r j : Nat) : Int :=
  let n : Nat := ((List.range d.width).map fun p => if (s.rowVal m (d.rowbase + d.width * r + p)).getLsbD j then 2 ^ p else 0).sum
  if d.kind = 1 then (n : Int) else sOf d.width n

/-- The number that `w` planes from a row on hold in one column. -/
def columnNat (s : State) (m row w j : Nat) : Nat :=
  ((List.range w).map fun p => if (s.rowVal m (row + p)).getLsbD j then 2 ^ p else 0).sum

end Sys2Proof.Claims

/-- R342, R345, R346: the row ops of `padd` and `psub`, run in one subarray on regions whose rows lie apart, leave in the `w`
result planes of every column that XSEG keeps the sum and the difference of the two sources modulo 2^w, whatever the
compute rows held. -/
def Obligations.PlaneAdditionAndSubtractionAreExact : Prop :=
  ∀ (s : State) (m r w : Nat) (d a b : Desc), (s.comp.get {} m).rows.length = 6 → w ≤ d.width →
    1 ≤ a.width → 1 ≤ b.width → a.kind ∈ ([0, 1, 3, 4] : List (BitVec 3)) → b.kind ∈ ([0, 1, 3, 4] : List (BitVec 3)) →
    let row (x : Desc) : Nat := x.rowbase + x.width * r
    row d + d.width ≤ 1024 → row a + a.width ≤ 1024 → row b + b.width ≤ 1024 →
    (row a + a.width ≤ row d ∨ row d + d.width ≤ row a) → (row b + b.width ≤ row d ∨ row d + d.width ≤ row b) →
    let run (op : PlaneOp) : State := (op.prog w d a b d 0 r).foldl (fun z x => z.rowOp m d.xseg false x) s
    ∀ j, j < 8192 → d.xseg.getLsbD (j / 64) = false →
      (Sys2Proof.Claims.columnNat (run .add) m (row d) w j : Int) =
        (Sys2Proof.Claims.columnInt s a m r j + Sys2Proof.Claims.columnInt s b m r j) % 2 ^ w ∧
      (Sys2Proof.Claims.columnNat (run .sub) m (row d) w j : Int) =
        (Sys2Proof.Claims.columnInt s a m r j - Sys2Proof.Claims.columnInt s b m r j) % 2 ^ w

/-! ### The Aqueduct (13_aqueduct.md): messages, transfers, collectives and time -/

namespace Sys2Proof.Claims

/-- A message is not dropped (R429): the peer table is enabled, its entry of the sender is valid with its reserved fields
clear, and holds the sender's incarnation. -/
def Admitted (s : State) (m : AqMsg) : Prop :=
  let e := s.peerEntry m.dev
  s.ptabEn = true ∧ e.getLsbD 63 = true ∧ e.extractLsb' 40 22 = 0 ∧ e.extractLsb' 16 8 = 0 ∧ e.extractLsb' 0 16 = m.inc

/-- A line of ordinary device memory that a peer may reach, with nothing in its way (R434). -/
def OpenLine (s : State) (a : Nat) : Prop :=
  isDevMem a = true ∧ s.inPool a = false ∧ (s.frame (a / 65536)).state = 0 ∧ s.errs = [] ∧ ∀ x, s.migOf x = []

/-- The Aqueduct takes messages: the device is READY, and not suspended (R115, R466). -/
def FabricOn (s : State) : Prop := s.annex.bootState = 3 ∧ s.annex.suspState ≠ 4 ∧ s.annex.suspState ≠ 5

/-- A message that this device sends (R427, R428): to a device, with this device's identifier and incarnation, by the ports
of the peer's entry from the `start`-th on. -/
def sends (s : State) (dv : BitVec 12) (start : Nat) (b : AqBody) : Out :=
  .aq dv s.sender.1 s.sender.2 (portsOf (s.peerEntry dv) start) b

/-- The answer to a message is the newest thing sent. -/
def answered (s : State) (m : AqMsg) (b : AqBody) : List Out := sends s m.dev 0 b :: s.out

/-- The answer with a line's data leaves by the peer's ports in turn: from the one after that of the last such answer (R428). -/
def answeredWith (s : State) (m : AqMsg) (b : AqBody) : List Out := sends s m.dev (s.aqTurn.get 0 m.dev.toNat) b :: s.out

/-- The ports' turn after `n` lines of data to a peer (R428). -/
def turned (s : State) (m : AqMsg) (n : Nat) : Table Nat := s.aqTurn.set 0 m.dev.toNat (s.aqTurn.get 0 m.dev.toNat + n)

/-- The line of an address in the message of a write. -/
def lineAt (pa : BitVec 52) : Nat := pa.toNat / 64

/-- R174, R284, R398, R399, R405, R411, R417, R428, R429, R432 to R436: what a message of a peer does at the owner of the memory that it names: a read of a
line is answered with its bytes, and with a lease of at most 50 µs if it was asked for and the time is synchronised; a
vitrine page is served up to its pointer to readers of its generation; a write, an add or a conditional store is performed
and acknowledged, or waits for a lease on its line; lines that are read or written together are at one point, and a counter is taken down, or
from 1 to 0, in one command; an address that no peer may name is refused with cause 4; a release
gives leases back. -/
def OwnersServe : Prop :=
  ∀ (s : State) (m : AqMsg), s.inp.msg = some m →
    let done (t : State) : Prop := exec .aqueductMessage s = .next t
    let refused (tok : Nat) : Prop := done { s with out := answered s m (.nack tok 4) }
    let answers (t : State) (b : AqBody) : Prop := t.out.head? = some (sends t m.dev 0 b)
    let foreign (a : Nat) : Prop := s.isTableMem a = false ∧ isSpad a = false
    (¬ FabricOn s → done s) ∧
    (FabricOn s → ¬ Admitted s m → done { s with aqStale := satInc s.aqStale }) ∧
    (FabricOn s → Admitted s m →
      (∀ (pa : BitVec 52) (lease : Bool) (links : List Nat) (gen : Option (BitVec 16)) (tok : Nat),
        m.body = .readLine pa lease links gen tok →
        let a := pa.toNat / 64 * 64
        let f := s.frame (a / 65536)
        let linked : List (BitVec 12 × Nat × Nat) := s.rlinks.filter (fun e => !(e.1 = m.dev && links.contains e.2.1)) ++
            links.map fun n => (m.dev, n, a / 64)
        (OpenLine s a → gen = none → ∃ (t : State) (d : BitVec 512) (l : Option Nat), done t ∧
          t.out = answeredWith s m (.lineData tok d l false) ∧ t.aqTurn = turned s m 1 ∧
          (∀ i, i < 64 → lineByte d i = s.byteAt (a + i)) ∧ t.rlinks = linked ∧
          (lease = true → s.aqSync = true → ∃ e, l = some e ∧ s.aqNow ≤ e ∧ e ≤ s.aqNow + 50000 ∧
            t.granted = ⟨m.dev, a / 64, e, s.clk⟩ :: s.granted) ∧
          (lease = false ∨ s.aqSync = false → l = none ∧ t.granted = s.granted) ∧
          t = { s with out := t.out, rlinks := t.rlinks, granted := t.granted, freeCtr := t.freeCtr, aqTurn := t.aqTurn }) ∧
        (s.isTableMem a = true → f.state ≠ 0 → gen = none ∨ gen = some f.gen → s.errs = [] → (∀ x, s.migOf x = []) →
          ∃ d, done { s with out := answeredWith s m (.lineData tok d none false), rlinks := linked, aqTurn := turned s m 1 } ∧
            ∀ i, i < 64 → lineByte d i = if f.ptr ≤ (a + i) % 65536 then 0 else s.byteAt (a + i)) ∧
        (∀ g, s.isTableMem a = true → gen = some g → f.state = 0 ∨ f.gen ≠ g →
          done { s with out := answered s m (.homeResult tok 0 0x09) }) ∧
        (foreign a → refused tok)) ∧
      (∀ (pa : BitVec 52) (d : BitVec 512) (bytes : BitVec 64) (tok : Nat), m.body = .writeLine pa d bytes tok →
        let a := pa.toNat / 64 * 64
        (OpenLine s a → s.leased (a / 64) = true → done s) ∧
        (OpenLine s a → s.leased (a / 64) = false → ∃ t, done t ∧ answers t (.ack tok) ∧
          ∀ x, t.byteAt x = if a ≤ x ∧ x < a + 64 ∧ bytes.getLsbD (x - a) = true then lineByte d (x - a) else s.byteAt x) ∧
        (foreign a → refused tok)) ∧
      (∀ (l : List (BitVec 52 × BitVec 512 × BitVec 64)) (tok : Nat), m.body = .writeLines l tok →
        ((∀ e ∈ l, OpenLine s (lineAt e.1 * 64)) → (∃ e ∈ l, s.leased (lineAt e.1) = true) → done s) ∧
        ((∀ e ∈ l, OpenLine s (lineAt e.1 * 64)) → (∀ e ∈ l, s.leased (lineAt e.1) = false) →
          (l.map fun e => lineAt e.1).Nodup → ∃ t, done t ∧ answers t (.ack tok) ∧
            (∀ e ∈ l, ∀ i, i < 64 → t.byteAt (lineAt e.1 * 64 + i) =
              if e.2.2.getLsbD i then lineByte e.2.1 i else s.byteAt (lineAt e.1 * 64 + i)) ∧
            ∀ x, (∀ e ∈ l, x / 64 ≠ lineAt e.1) → t.byteAt x = s.byteAt x) ∧
        ((∃ e ∈ l, foreign (lineAt e.1 * 64)) → refused tok)) ∧
      (∀ (l : List (BitVec 52 × List Nat × Option (BitVec 16))) (tok : Nat), m.body = .readLines l tok →
        (l ≠ [] → (∀ e ∈ l, OpenLine s (lineAt e.1 * 64) ∧ e.2.2 = none) → ∃ t data, done t ∧ data.length = l.length ∧
          t.out = answeredWith s m (.linesData tok data) ∧ t.aqTurn = turned s m l.length ∧
          (∀ (k : Nat) (e : BitVec 52 × List Nat × Option (BitVec 16)), l[k]? = some e → ∃ d, data[k]? = some (d, false) ∧ ∀ i, i < 64 → lineByte d i = s.byteAt (lineAt e.1 * 64 + i)) ∧
          (((l.map fun e => e.2.1).flatten).Nodup → ∀ e ∈ l, ∀ x ∈ e.2.1, (m.dev, x, lineAt e.1) ∈ t.rlinks) ∧
          t = { s with out := t.out, rlinks := t.rlinks, aqTurn := t.aqTurn }) ∧
        ((∃ e ∈ l, foreign (lineAt e.1 * 64)) → refused tok)) ∧
      (∀ (l : List (BitVec 52 × BitVec 512 × BitVec 64 × Nat)) (tok : Nat), m.body = .storeLines l tok →
        let held (e : BitVec 52 × BitVec 512 × BitVec 64 × Nat) : Bool := s.rlinks.contains (m.dev, e.2.2.2, lineAt e.1)
        ((∀ e ∈ l, OpenLine s (lineAt e.1 * 64)) → (∃ e ∈ l, held e = true ∧ s.leased (lineAt e.1) = true) → done s) ∧
        ((∀ e ∈ l, OpenLine s (lineAt e.1 * 64)) → (∀ e ∈ l, s.leased (lineAt e.1) = false) →
          (l.map fun e => lineAt e.1).Nodup → ∃ t, done t ∧ answers t (.storeResults tok (l.map held)) ∧
            (∀ e ∈ l, ∀ i, i < 64 → t.byteAt (lineAt e.1 * 64 + i) =
              if held e && e.2.2.1.getLsbD i then lineByte e.2.1 i else s.byteAt (lineAt e.1 * 64 + i)) ∧
            ∀ x, (∀ e ∈ l, x / 64 ≠ lineAt e.1) → t.byteAt x = s.byteAt x) ∧
        ((∃ e ∈ l, foreign (lineAt e.1 * 64)) → refused tok)) ∧
      (∀ (pa : BitVec 52) (addend : Word) (tok : Nat), m.body = .addDword pa addend tok →
        let a := pa.toNat / 8 * 8
        (OpenLine s a → s.leased (a / 64) = true → done s) ∧
        (OpenLine s a → s.leased (a / 64) = false → ∃ t, done t ∧ answers t (.ack tok) ∧
          leRead t.byteAt a 8 = (leRead s.byteAt a 8 + addend.toNat) % 2 ^ 64 ∧
          ∀ x, x < a ∨ a + 8 ≤ x → t.byteAt x = s.byteAt x) ∧
        (foreign a → refused tok)) ∧
      (∀ (pa : BitVec 52) (gen : BitVec 16) (op n : Nat) (data : List Byte) (link tok : Nat),
        m.body = .homeCommand pa gen op n data link tok →
        (op = 3 → s.isTableMem pa.toNat = true →
          done { s with out := answered s m (.homeResult tok ((s.frame (pa.toNat / 65536)).gen.setWidth 64) 0) }) ∧
        (op = 6 ∨ op = 7 → OpenLine s (pa.toNat / 8 * 8) →
          let a := pa.toNat / 8 * 8
          let v := leRead s.byteAt a 4
          let after := if op = 6 ∧ v ≠ 1 then (v + 2 ^ 32 - 1) % 2 ^ 32 else if op = 7 ∧ v = 1 then 0 else v
          (s.leased (a / 64) = true → done s) ∧
          (s.leased (a / 64) = false → ∃ t, done t ∧ answers t (.homeResult tok (BitVec.ofNat 64 v) 0) ∧
            leRead t.byteAt a 4 = after ∧ ∀ x, x < a ∨ a + 4 ≤ x → t.byteAt x = s.byteAt x)) ∧
        (op = 4 → OpenLine s pa.toNat → pa.toNat % 64 = 0 → data.length = 72 →
          let held : Prop := (m.dev, link, pa.toNat / 64) ∈ s.rlinks
          (¬ held → done { s with out := answered s m (.homeResult tok 0 0) }) ∧
          (held → s.leased (pa.toNat / 64) = true → done s) ∧
          (held → s.leased (pa.toNat / 64) = false → ∃ t, done t ∧ answers t (.homeResult tok 1 0) ∧
            ((∃ i, i < 64 ∧ (data.getD (64 + i / 8) 0).getLsbD (i % 8) = true) → (m.dev, link, pa.toNat / 64) ∉ t.rlinks) ∧
            (∀ i, i < 64 → t.byteAt (pa.toNat + i) =
              if (data.getD (64 + i / 8) 0).getLsbD (i % 8) then data.getD i 0 else s.byteAt (pa.toNat + i)) ∧
            ∀ x, x / 64 ≠ pa.toNat / 64 → t.byteAt x = s.byteAt x)) ∧
        (op = 5 → s.isTableMem pa.toNat = true →
          let k := pa.toNat / 65536
          let f := s.frame k
          (f.state ≠ 2 ∨ f.gen ≠ gen →
            done { s with out := answered s m (.castData tok (.notSealed f.gen (decide (f.state = 1)))) }) ∧
          (f.state = 2 → f.gen = gen → s.errs = [] →
            done { s with out := answered s m (.castData tok
              (.sealed gen f.ptr ((List.range f.ptr).map fun i => s.byteAt (65536 * k + i)))) })) ∧
        (op ≤ 5 → foreign pa.toNat → refused tok) ∧
        (op = 6 ∨ op = 7 → foreign (pa.toNat / 8 * 8) → refused tok)) ∧
      (∀ lines, m.body = .releaseLease lines →
        ∃ t, done t ∧ t = { s with granted := t.granted } ∧
          ∀ l, l ∈ t.granted ↔ l ∈ s.granted ∧ ¬ (l.dev = m.dev ∧ l.line ∈ lines)))

/-- R175, R398, R405, R406, R415, R429, R430, R434: what a peer's answer does for the strand that waits for it: a result is
noted, of a walk the generation or that there is none; a line comes in as a copy of the unit that asked while its lease
runs, or for this access alone; and a refusal is an access fault with its cause in AQSTAT. -/
def AnswersReachTheirStrand : Prop :=
  ∀ (s : State) (m : AqMsg) (tok n i : Nat) (u : Strand), s.inp.msg = some m → FabricOn s → Admitted s m →
    s.asker tok = some (n, u, i) → s.strand n = some u → tok < 2 ^ 64 →
    let failed (c : BitVec 3) (f : Strand → Strand) : Prop := ∃ t u', exec .aqueductMessage s = .next t ∧
      t.strand n = some u' ∧ u'.aqFail = true ∧ u'.aqCause = c ∧ u'.answers = (f u).answers ∧ u'.genRead = (f u).genRead ∧
      u'.st = u.st ∧ u'.g = u.g
    (∀ c : BitVec 3, m.body = .nack tok c → c ≠ 3 → c ≠ 4 → exec .aqueductMessage s = .next s) ∧
    (∀ k0 page, u.st = .wait (.fill k0 page) →
      (∀ (v : Word) (c : BitVec 8), m.body = .homeResult tok v c → OnlyStrand .aqueductMessage s n
        { u with genRead := some (page, if c = 0 then some (v.extractLsb' 0 16) else none) }) ∧
      (∀ c : BitVec 3, m.body = .nack tok c → c = 3 ∨ c = 4 → s.tokSpan tok = 1 →
        (∀ e ∈ s.strands, e.2.waitsCast m.dev tok = false) → failed c fun u => { u with genRead := some (page, none) })) ∧
    (∀ k0 k unit, u.st = .wait (.peer k0 k unit) →
      (∀ (v : Word) (c : BitVec 8), m.body = .homeResult tok v c →
        OnlyStrand .aqueductMessage s n { u with answers := u.answers.put i (v, c) }) ∧
      (m.body = .ack tok → OnlyStrand .aqueductMessage s n { u with answers := u.answers.put i (0, 0) }) ∧
      (∀ b c, k = 2 → k0 = tok → s.asker (tok + 1) = some (n, u, 1) → m.body = .storeResults tok [b, c] → OnlyStrand .aqueductMessage s n
        { u with answers := (u.answers.put 0 (if b then 1 else 0, 0)).put 1 (if c then 1 else 0, 0) }) ∧
      (∀ c : BitVec 3, m.body = .nack tok c → c = 3 ∨ c = 4 → s.tokSpan tok = 1 →
        (∀ e ∈ s.strands, e.2.waitsCast m.dev tok = false) → failed c fun u => { u with answers := u.answers.put i (0, 0x07) }) ∧
      (∀ (d : BitVec 512) (lease : Option Nat) (poisoned : Bool) (line : Nat),
        m.body = .lineData tok d lease poisoned → s.askedLine tok = some line →
        (s.residents unit (s.bankFor unit line)).length < unitLines unit →
        let copy : PeerLine := match (if s.aqSync then lease else none) with
          | some x => ⟨m.dev, line, d, poisoned, none, unit, x, s.bankFor unit line⟩
          | none => ⟨m.dev, line, d, poisoned, some n, unit, 0, 0⟩
        ∃ t, exec .aqueductMessage s = .next t ∧ t.strand n = some { u with st := .run } ∧
          (∀ k, k ≠ n → t.strand k = s.strand k) ∧ t = { s with peer := t.peer, strands := t.strands } ∧
          ∀ p, p ∈ t.peer ↔ p = copy ∨ p ∈ s.peer ∧
            ¬ (p.dev = copy.dev ∧ p.line = copy.line ∧ p.once = copy.once ∧ p.holder = copy.holder)) ∧
      (∀ (l : List (BitVec 512 × Bool)), m.body = .linesData tok l → (s.askedLines tok).length = l.length →
        (s.askedLines tok).Nodup →
        ∃ t, exec .aqueductMessage s = .next t ∧ t.strand n = some { u with answers := u.answers.put i (0, 0) } ∧
          (∀ k, k ≠ n → t.strand k = s.strand k) ∧ t = { s with peer := t.peer, strands := t.strands } ∧
          ∀ p, p ∈ t.peer ↔ (∃ (k line : Nat) (e : BitVec 512 × Bool), (s.askedLines tok)[k]? = some line ∧ l[k]? = some e ∧
              p = ⟨m.dev, line, e.1, e.2, some n, 0, 0, 0⟩) ∨
            p ∈ s.peer ∧ ¬ (p.dev = m.dev ∧ p.line ∈ s.askedLines tok ∧ p.once = some n ∧ p.holder = 0)))

/-- R428, R432, R433: the lines of a put and of a get are sent, by the peer's ports in turn, with the source's bytes at that
time and without a copy of the destination left here, and marked; the line that a get asked for is written once no lease
runs on it; a signal is sent once no earlier put or signal of its strand to the same device is left; a transfer with
every line done, or a signal that is acknowledged, completes. -/
def TransfersProceed : Prop :=
  ∀ (s : State) (o : EngineOp), s.op s.inp.unit = some o →
    (∀ (put : Bool) (dv : BitVec 12) (l : List AqLine), o.work = (if put then .put dv l else .get dv l) →
      let w (l : List AqLine) : Work := if put then .put dv l else .get dv l
      ((∀ x ∈ l, x.done = true) → ∃ t, exec .operationCompletion s = .next t ∧ Leaves s t o (uncounted 3) ∧
        t = { s with ops := t.ops, strands := t.strands }) ∧
      (∀ x, l[s.inp.part]? = some x → x.sent = false → (∃ y ∈ l, y.done = false) → s.errs = [] →
        ∃ t, exec .operationCompletion s = .next t ∧
          t.op o.id = some { o with work := w (l.set s.inp.part { x with sent := true }), sentAt := s.clk } ∧
          (put = true → ∃ d, t.out = sends s dv s.inp.part
              (.writeLine x.remote d (BitVec.allOnes 64) (2 ^ 64 * (o.id + 1) + s.inp.part)) :: s.out ∧
            (∀ i, i < 64 → lineByte d i = s.localByte (x.here + i)) ∧
            ∀ p, p ∈ t.peer ↔ p ∈ s.peer ∧ ¬ (p.dev = dv ∧ ∃ y ∈ l, p.line = y.remote.toNat / 64)) ∧
          (put = false → t.peer = s.peer ∧ t.out = sends s dv s.inp.part
            (.readLine x.remote false [] none (2 ^ 64 * (o.id + 1) + s.inp.part)) :: s.out) ∧
          (x.here < 2 ^ 40 → t.annex = s.annex) ∧
          t = { s with ops := t.ops, out := t.out, peer := t.peer, annex := { s.annex with launches := t.annex.launches } }) ∧
      (∀ (m : AqMsg) (i : Nat) (x : AqLine), s.inp.msg = some m → FabricOn s → Admitted s m → i < 2 ^ 64 →
        l[i]? = some x →
        let l' := l.set i { x with done := true }
        let goesOn (t : State) : Prop :=
          ((∀ y ∈ l', y.done = true) → t.ops = s.ops.filter (fun p => p.id ≠ o.id) ∧
            ∀ u, s.strand o.slot = some u → ∃ u', t.strand o.slot = some u' ∧
              u' = { u with cntC := u.cntC - 1, slink := u'.slink, vlinks := u'.vlinks }) ∧
          ((∃ y ∈ l', y.done = false) → t.op o.id = some { o with work := w l' })
        (put = true → m.body = .ack (2 ^ 64 * (o.id + 1) + i) → ∃ t, exec .aqueductMessage s = .next t ∧ goesOn t ∧
          t = { s with ops := t.ops, strands := t.strands }) ∧
        (∀ d lease, put = false → m.body = .lineData (2 ^ 64 * (o.id + 1) + i) d lease false → x.here < 2 ^ 40 →
          (∀ y, s.migOf y = []) →
          (s.leased (x.here / 64) = true → exec .aqueductMessage s = .next s) ∧
          (s.leased (x.here / 64) = false → ∃ t, exec .aqueductMessage s = .next t ∧ goesOn t ∧
            ∀ y, t.byteAt y = if x.here ≤ y ∧ y < x.here + 64 then lineByte d (y - x.here) else s.byteAt y)))) ∧
    (∀ (dv : BitVec 12) (pa : BitVec 52) (a : Word), o.work = .sig dv pa a false →
      let blocked : Prop := ∃ p ∈ s.ops, p.slot = o.slot ∧ p.id < o.id ∧
        ((∃ l, p.work = .put dv l) ∨ ∃ x y z, p.work = .sig dv x y z)
      (¬ blocked → ∃ t, exec .operationCompletion s = .next t ∧
        t.op o.id = some { o with work := .sig dv pa a true, sentAt := s.clk } ∧
        t.out = sends s dv 0 (.addDword pa a (2 ^ 64 * (o.id + 1))) :: s.out ∧ t = { s with ops := t.ops, out := t.out }) ∧
      (blocked → exec .operationCompletion s = .next s)) ∧
    (∀ (dv : BitVec 12) (pa : BitVec 52) (a : Word) (m : AqMsg), o.work = .sig dv pa a true → s.inp.msg = some m →
      FabricOn s → Admitted s m → m.body = .ack (2 ^ 64 * (o.id + 1)) →
      ∃ t, exec .aqueductMessage s = .next t ∧ Leaves s t o (uncounted 3) ∧ t = { s with ops := t.ops, strands := t.strands })

/-- A transfer may fail with a cause (R434): 1 once all of it has been sent and 10 ms have passed since, the others once
something that is not acknowledged has been sent; of a collective, what its present step exchanges with a rank. -/
def MayFail (s : State) (o : EngineOp) (cause rank : Nat) : Prop :=
  let late : Prop := o.sentAt + 11000000 ≤ s.clk
  let lines (l : List AqLine) : Prop :=
    (∃ x ∈ l, x.sent = true ∧ x.done = false) ∧ (cause = 1 → (∀ x ∈ l, x.sent = true) ∧ late)
  match o.work with
  | .put _ l => lines l
  | .get _ l => lines l
  | .sig _ _ _ sent => sent = true ∧ (cause = 1 → late)
  | .coll c => ((c.gives c.sentStep).map (·.rank) = some rank ∨
      c.sentStep = c.step + 1 ∧ (c.takes (c.step + 1)).map (·.rank) = some rank) ∧ (cause = 1 → late) ∧ s.granted = []
  | _ => False

/-- A step brings the owner's answer to a cast fetch, as a message, to every strand that shares the fetch (R174, R175, R436): a
sealed page of the leaf's generation is held, an open page of it is noted, and anything else is a stale cast. -/
def CastReaches (i : Instr) (s : State) (dv : BitVec 12) (tok : Nat) (a : CastAnswer) : Prop :=
  Table.sorted s.strands = true → ∃ t, exec i s = .next t ∧ t = { s with strands := t.strands, casts := t.casts } ∧
    (∀ n u, s.strand n = some u → (∀ frame gen pa, u.st ≠ .wait (.cast dv frame gen pa tok)) → t.strand n = some u) ∧
    ∀ (n : Nat) (u : Strand) (frame : Nat) (gen : BitVec 16) (pa : Nat), s.strand n = some u →
      u.st = .wait (.cast dv frame gen pa tok) →
      (∀ ptr data, a = .sealed gen ptr data → t.strand n = some { u with st := .run } ∧
        ∃ c ∈ t.casts, c.basin = n / 8 / 16 ∧ c.dev = some dv ∧ c.frame = frame ∧ c.gen = gen ∧ c.ptr = ptr ∧
          c.clk = s.clk ∧ ∀ k, Table.get 0 c.data k = if k < ptr then data.getD k 0 else 0) ∧
      (a = .notSealed gen true → t.strand n = some { u with st := .run, openCast := (dv, frame) :: u.openCast }) ∧
      ((∀ ptr data, a ≠ .sealed gen ptr data) → a ≠ .notSealed gen true →
        t.strand n = some { u with st := .run, answers := u.answers.put 0 (0, 0x09) })

/-- R405, R407, R434, R436: a failed transfer completes with its cause in AQSTAT, and a strand's failed messages are answered
with an access fault; a leased copy goes at the end of its lease, and leases that this device granted are forgotten
when they have run out; the answer to a cast fetch reaches the strands that share it, and a failed or refused fetch is an
access fault to each. -/
def FailuresLeasesAndCasts : Prop :=
  ∀ s : State,
    let i := s.inp
    (∀ (o : EngineOp) (u : Strand), i.part ≠ 1 → 1 ≤ i.code → i.code ≤ 4 → s.op i.unit = some o → s.strand o.slot = some u →
      (MayFail s o i.code i.len → ∃ t u', exec .transferFailure s = .next t ∧ t.ops = s.ops.filter (fun x => x.id ≠ o.id) ∧
        t.strand o.slot = some u' ∧
        u' = { u with aqFail := true, aqCause := BitVec.ofNat 3 i.code, cntC := u.cntC - 1, idleDone := u'.idleDone
                      slink := u'.slink, vlinks := u'.vlinks }) ∧
      (¬ MayFail s o i.code i.len → (∀ c, o.work ≠ .coll c) → exec .transferFailure s = .next s)) ∧
    (∀ (u : Strand) (tok x : Nat), i.part = 1 → 1 ≤ i.code → i.code ≤ 4 → s.strand i.unit = some u →
      u.st = .wait (.peer tok 1 x) → u.answers = [] → s.asker tok = some (i.unit, u, 0) →
      (i.code = 1 → u.sentAt + 11000000 ≤ s.clk) →
      ∃ t u', exec .transferFailure s = .next t ∧ t.strand i.unit = some u' ∧ u'.aqFail = true ∧
        u'.aqCause = BitVec.ofNat 3 i.code ∧ u'.answers = [(0, (0, 0x07))] ∧ u'.st = u.st ∧ u'.g = u.g) ∧
    (∃ t, exec .peerLeaseExpiry s = .next t ∧ t = { s with peer := t.peer, granted := t.granted } ∧
      (∀ p, p ∈ t.peer ↔ p ∈ s.peer ∧ ¬ (p.dev = i.dev ∧ p.line = i.addr.toNat / 64 ∧ p.once = none)) ∧
      ∀ l, l ∈ t.granted ↔ l ∈ s.granted ∧
        (if s.aqSync then s.aqNow ≤ l.expiry + 1000 else s.clk < l.clk + 56100)) ∧
    (∀ (u : Strand) (tok page : Nat), i.part = 1 → 1 ≤ i.code → i.code ≤ 4 → s.strand i.unit = some u →
      u.st = .wait (.fill tok page) → s.asker tok = some (i.unit, u, 0) →
      (i.code = 1 → s.clk < u.sentAt + 11000000 → exec .transferFailure s = .next s) ∧
      ((i.code = 1 → u.sentAt + 11000000 ≤ s.clk) →
        ∃ t u', exec .transferFailure s = .next t ∧ t.strand i.unit = some u' ∧ u'.aqFail = true ∧
          u'.aqCause = BitVec.ofNat 3 i.code ∧ u'.genRead = some (page, none) ∧ u'.st = u.st ∧ u'.g = u.g)) ∧
    (∀ (m : AqMsg) (tok frame pa n : Nat) (gen : BitVec 16) (u : Strand), i.msg = some m → FabricOn s → Admitted s m →
      m.body = .nack tok 4 → tok < 2 ^ 64 → s.asker tok = none → s.tokSpan tok = 1 → Table.sorted s.strands = true →
      s.strand n = some u → u.st = .wait (.cast m.dev frame gen pa tok) →
      ∃ t u', exec .aqueductMessage s = .next t ∧ t.casts = s.casts ∧ t.strand n = some u' ∧
        u' = { u with aqFail := true, aqCause := 4, st := .run, idleDone := u'.idleDone
                      answers := u.answers.put 0 (0, 0x07), slink := u'.slink, vlinks := u'.vlinks }) ∧
    (∀ (m : AqMsg) (tok : Nat) (a : CastAnswer), i.msg = some m → FabricOn s → Admitted s m → m.body = .castData tok a →
      a ≠ .failed → CastReaches .aqueductMessage s m.dev tok a) ∧
    (∀ (u : Strand) (dv : BitVec 12) (frame : Nat) (gen : BitVec 16) (pa tok : Nat) (a : CastAnswer),
      s.strand i.unit = some u → u.st = .wait (.cast dv frame gen pa tok) → i.cast = some a → FabricOn s →
      (a ≠ .failed →
        (Admitted s ⟨dv, i.inc, .castData tok a⟩ → CastReaches .castFetch s dv tok a) ∧
        (¬ Admitted s ⟨dv, i.inc, .castData tok a⟩ → exec .castFetch s = .next { s with aqStale := satInc s.aqStale })) ∧
      (a = .failed → 2 ≤ i.code → i.code ≤ 4 → Table.sorted s.strands = true → ∃ t u', exec .castFetch s = .next t ∧
        t.casts = s.casts ∧ t.strand i.unit = some u' ∧
        u' = { u with aqFail := true, aqCause := BitVec.ofNat 3 i.code, st := .run, idleDone := u'.idleDone
                      answers := u.answers.put 0 (0, 0x07), slink := u'.slink, vlinks := u'.vlinks }))

/-- R115, R407, R430: in a device that is READY an exchange sets the time, its bound and the clk from which it counts; the third one in a row within 100 ns
synchronises the device; one beyond 100 ns, or 8 ms without one, loses the synchronisation, and with it every leased
copy. Gaining and losing it are reported. -/
def TimeIsSynchronised : Prop :=
  ∀ s : State,
    let i := s.inp
    let z : State := { s with
      aqSec := i.value.extractLsb' 30 34, aqNs := i.value.extractLsb' 0 30, aqLast := s.clk
      aqBound := BitVec.ofNat 16 (min i.code 65535) }
    let lost (x : State) : State := if x.aqSync then
        { x with aqSync := false, aqGood := 0, peer := x.peer.filter (·.once.isSome) }.report 0 { kind := 0x0B }
      else { x with aqGood := 0 }
    (s.annex.bootState = 3 → i.code ≤ 100 → (s.aqSync = true ∨ s.aqGood + 1 < 3) →
      exec .timeSyncExchange s = .next { z with aqGood := s.aqGood + 1 }) ∧
    (s.annex.bootState = 3 → i.code ≤ 100 → s.aqSync = false → 3 ≤ s.aqGood + 1 →
      exec .timeSyncExchange s = .next ({ z with aqGood := s.aqGood + 1, aqSync := true }.report 0 { kind := 0x0B })) ∧
    (s.annex.bootState = 3 → 100 < i.code → exec .timeSyncExchange s = .next (lost z)) ∧
    (s.annex.bootState ≠ 3 → exec .timeSyncExchange s = .next s) ∧
    (s.aqSync = true → 8800000 ≤ s.clk - s.aqLast → exec .syncLoss s = .next (lost s)) ∧
    (s.aqSync = false ∨ s.clk - s.aqLast < 8800000 → exec .syncLoss s = .next s)

/-- A range of device memory that lies in one page, from an address on. -/
def OnePage (r : AqRange) (a n : Nat) : Prop := r = ⟨a % 4096, [a / 4096 * 4096]⟩ ∧ a % 4096 + n ≤ 4096 ∧ a < 2 ^ 39

/-- The bytes of an element of a collective (R437). -/
def elemSize (c : Coll) : Nat := (if c.ft then (FFmt.ofCode c.ty.toNat).width else widthOf c.ty) / 8

/-- The only collective is that of this command, and no lease that this device granted, no error and no migration is in its way. -/
def Alone (s : State) (o : EngineOp) : Prop :=
  (∀ x ∈ s.ops, x = o ∨ ∀ c, x.work ≠ .coll c) ∧ s.granted = [] ∧ s.errs = [] ∧ (∀ x, s.migOf x = []) ∧ s.hostCopies = []

/-- What a step of a collective sends to a rank whose WORK starts at `dst`, from the WORK of this one in `t` (R438 to R440):
writes by line, each piece at the place where the step lets it arrive, and nothing else. -/
def PassSent (t : State) (c : Coll) (k : Nat) (p : Pass) (work dst : Nat) (l : List Out) : Prop :=
  let w := elemSize c
  let from_ (key x : Nat) : Nat := work + w * c.pieceAt key + x
  let at_ (key x : Nat) : Nat := dst + w * c.landsAt k key + x
  (∀ key ∈ p.keys, ∀ x, x < w * c.pieceLen key → ∃ d bytes ports,
    Out.aq (c.devOf p.rank) t.sender.1 t.sender.2 ports
      (.collLine c.seq k c.rank (BitVec.ofNat 52 (64 * (at_ key x / 64))) d bytes) ∈ l ∧
    bytes.getLsbD (at_ key x % 64) = true ∧ lineByte d (at_ key x % 64) = t.byteAt (from_ key x)) ∧
  ∀ y ∈ l, ∃ (line : Nat) (d : BitVec 512) (bytes : BitVec 64) (ports : List Nat),
    y = .aq (c.devOf p.rank) t.sender.1 t.sender.2 ports (.collLine c.seq k c.rank (BitVec.ofNat 52 (64 * line)) d bytes) ∧
    ∀ b, b < 64 → bytes.getLsbD b = true → ∃ key ∈ p.keys, ∃ x, x < w * c.pieceLen key ∧ at_ key x = 64 * line + b

/-- R437 to R441, R466: a step of a collective begins with what this rank sends in it, unless the device suspends, and before
the first one its WORK takes its SEND; a step in which the rank takes nothing completes at once. A line that a rank sends
for the present step is written in this one's WORK; with the last one the step is complete, and what was to be combined
is combined there. Any other line stays with its sender. -/
def CollectivesProceed : Prop :=
  ∀ (s : State) (o : EngineOp) (c : Coll) (work send : Nat), s.op o.id = some o → o.work = .coll c → c.step < c.steps →
    Alone s o → 2 ≤ c.n → c.rank < c.n → OnePage c.work work (elemSize c * (c.n * c.count)) →
    OnePage c.send send (elemSize c * c.count) →
    let k := c.step + 1
    let w := elemSize c
    let own := if c.op = 2 then c.rank * c.count else 0
    (send + w * c.count ≤ work ∨ work + w * (c.n * c.count) ≤ send) →
    (s.inp.unit = o.id → s.annex.suspState < 2 → c.sentStep < k → ∃ t l c', exec .operationCompletion s = .next t ∧
      t.out = l.reverse ++ s.out ∧ t.op o.id = some { o with sentAt := s.clk, work := .coll c' } ∧
      (c.lines k ≠ [] → c' = { c with sentStep := k, since := s.clk }) ∧
      (c.takes k = none → c' = { c with sentStep := k, since := s.clk, step := k, got := [] }) ∧
      (0 < c.step → t = { s with out := t.out, ops := t.ops }) ∧
      (c.step = 0 → (c.op ≠ 1 ∨ c.rank = c.root) → ∀ x, t.byteAt x =
        if work + w * own ≤ x ∧ x < work + w * (own + c.count) then s.byteAt (send + (x - (work + w * own))) else s.byteAt x) ∧
      (c.gives k = none → l = []) ∧
      (∀ p, c.gives k = some p → p.rank < c.n → ∀ dst, OnePage (c.works.getD p.rank ⟨0, []⟩) dst (w * (c.n * c.count)) →
        PassSent t c k p work dst l) ∧
      (∀ p, c.gives k = some p → c.n ≤ p.rank → ∃ (ports : List Nat) (xs : List Word),
        l = [.aq (c.devOf p.rank) s.sender.1 s.sender.2 ports (.collReduce c.seq c.rank xs)] ∧
        xs.length = (p.keys.map c.pieceLen).sum ∧
        ∀ j, j < c.count → p.keys = [c.rank] ∨ p.keys = [0] →
          (xs.getD j 0).toNat = leRead t.byteAt (work + w * (c.pieceAt (p.keys.headD 0) + j)) w)) ∧
    (s.inp.unit = o.id → 2 ≤ s.annex.suspState → c.sentStep < k → ∃ t, exec .operationCompletion s = .next t ∧
      t.op o.id = some o ∧ t = { s with ops := t.ops }) ∧
    (∀ (m : AqMsg) (seq : Word) (step rank : Nat) (pa : BitVec 52) (d : BitVec 512) (bytes : BitVec 64), s.inp.msg = some m →
      FabricOn s → Admitted s m → m.body = .collLine seq step rank pa d bytes → c.sentStep = k → pa.toNat < 2 ^ 40 →
      let line := pa.toNat / 64
      let fits : Prop := seq = c.seq ∧ step = k ∧ (∃ p, c.takes k = some p ∧ p.rank = rank) ∧ line ∈ c.lines k ∧ line ∉ c.got
      let incs := if rank < c.n then c.incs.put rank m.inc else c.incs
      let z (x : Nat) : Byte := if x / 64 = line ∧ bytes.getLsbD (x % 64) = true then lineByte d (x % 64) else s.byteAt x
      let last : Prop := ∀ x ∈ c.lines k, x = line ∨ x ∈ c.got
      (¬ fits → exec .aqueductMessage s = .next s) ∧
      (fits → ¬ last → ∃ t, exec .aqueductMessage s = .next t ∧ (∀ x, t.byteAt x = z x) ∧
        t.op o.id = some { o with work := .coll { c with got := line :: c.got, incs := incs } }) ∧
      (fits → last → ∀ p, c.takes k = some p → ∃ t contrib, exec .aqueductMessage s = .next t ∧
        t.op o.id = some { o with work := .coll { c with got := [], incs := incs, step := k, contrib := contrib } } ∧
        (∀ r, r ∈ contrib ↔ r ∈ c.contrib ∨ r ∈ c.news k p) ∧
        (c.combines k = false → ∀ x, t.byteAt x = z x) ∧
        (c.combines k = true → ∀ key, p.keys = [key] →
          let lo := work + w * c.pieceAt key
          let element (a e : Nat) : Word := BitVec.ofNat 64 (leRead z (a + w * e) w)
          (∀ e, e < c.pieceLen key → leRead t.byteAt (lo + w * e) w =
            ((c.merge [element lo e] [element (work + w * c.landsAt k key) e]).headD 0).toNat % 2 ^ (8 * w)) ∧
          ∀ x, x < lo ∨ lo + w * c.pieceLen key ≤ x → t.byteAt x = z x)))

/-- R405, R440, R441: a collective that has taken its last step copies its result from WORK to RECV, and then writes OK to
its status record; one that has waited longer than TMO since the step began writes PARTIAL-ABORT with the step completed
and the rank that did not answer, leaves RECV as it is, and tells the other ranks; one that a rank's abort reaches does
so with FAILRANK 0xFFFF. Where a lease that this device granted runs on the record's line, they wait. -/
def CollectivesEnd : Prop :=
  ∀ (s : State) (o : EngineOp) (c : Coll) (u : Strand), s.op o.id = some o → o.work = .coll c →
    s.strand o.slot = some u → (∀ x, s.migOf x = []) → s.errs = [] → c.n ≤ 256 → c.devs.length = c.n → c.rank < c.n →
    let w := elemSize c
    let len := w * (if c.op = 2 then c.n * c.count else c.count)
    ∀ st work recv : Nat, OnePage c.status st (16 + 4 * c.n) → OnePage c.work work (w * (c.n * c.count)) → OnePage c.recv recv len →
    let within (a n x : Nat) : Prop := a ≤ x ∧ x < a + n
    (∀ x, within st (16 + 4 * c.n) x → ¬ within work len x ∧ ¬ within recv len x) → (∀ x, within work len x → ¬ within recv len x) →
    let record (t : State) (c : Coll) (status : Nat) : Prop :=
      leRead t.byteAt st 4 = status ∧ leRead t.byteAt (st + 4) 2 = c.step % 2 ^ 16 ∧
      leRead t.byteAt (st + 8) 8 = s.aqtime.toNat ∧
      ∀ r, r < c.n → leRead t.byteAt (st + 16 + 4 * r + 2) 2 = (if r ∈ c.contrib then 1 else 0) ∧
        ∀ x, c.incs.find r = some x → leRead t.byteAt (st + 16 + 4 * r) 2 = x.toNat
    let gone (t : State) : Prop := t.ops = s.ops.filter (fun x => x.id ≠ o.id) ∧
      ∃ u', t.strand o.slot = some u' ∧ u'.cntC = u.cntC - 1
    let aborts (i : Instr) (c : Coll) (rank : Nat) (told : List Out) : Prop :=
      ∃ t, exec i s = .next t ∧ record t c 2 ∧ gone t ∧ leRead t.byteAt (st + 6) 2 = rank ∧
        (∀ x, ¬ within st (16 + 4 * c.n) x → t.byteAt x = s.byteAt x) ∧ (s.hostCopies = [] → t.out = told ++ s.out)
    (s.inp.unit = o.id → c.steps ≤ c.step → s.granted = [] → ∃ t, exec .operationCompletion s = .next t ∧ record t c 1 ∧ gone t ∧
      (s.hostCopies = [] → t.out = s.out) ∧ (∀ j, j < len → t.byteAt (recv + j) = s.byteAt (work + j)) ∧
      ∀ x, ¬ within st (16 + 4 * c.n) x → ¬ within recv len x → t.byteAt x = s.byteAt x) ∧
    (∀ l ∈ s.granted, l.line = st / 64 → s.leased l.line = true → s.inp.unit = o.id →
      c.steps ≤ c.step → exec .operationCompletion s = .next s) ∧
    (∀ p, s.inp.unit = o.id → c.takes (c.step + 1) = some p → c.sentStep = c.step + 1 → s.annex.suspState < 2 →
      c.since + 1100 * c.tmo < s.clk → s.granted = [] → p.rank < c.n →
      aborts .collectiveStepTimeout c p.rank (((List.range c.n).filter fun r => r ≠ c.rank).map fun r =>
          sends s (c.devs.getD r 0) 0 (.collAbort c.seq)).reverse) ∧
    (∀ p, s.inp.unit = o.id → c.takes (c.step + 1) = some p → s.clk ≤ c.since + 1100 * c.tmo ∨ 2 ≤ s.annex.suspState →
      exec .collectiveStepTimeout s = .next s) ∧
    (∀ (m : AqMsg) (r : Nat), s.inp.msg = some m → FabricOn s → Admitted s m → m.body = .collAbort c.seq →
      (∀ x ∈ s.ops, x = o ∨ ∀ c', x.work ≠ .coll c') → s.granted = [] → c.devs.Nodup → c.devs[r]? = some m.dev →
      aborts .aqueductMessage { c with incs := c.incs.put r m.inc } 0xFFFF [])

/-- What the ranks' WORK holds, element by element, after step `k` of a collective in which every rank takes what the rank
that its step names held before (R438 to R440). -/
def stepWork (c : Coll) (k : Nat) (W : Nat → Nat → Word) (r j : Nat) : Word :=
  let me : Coll := { c with rank := r }
  match me.takes k with
  | none => W r j
  | some p =>
    if p.keys.any fun key => decide (c.pieceAt key ≤ j) && decide (j < c.pieceAt key + c.pieceLen key) then
      (if c.combines k then (me.merge [W r j] [W p.rank j]).headD 0 else W p.rank j)
    else W r j

/-- The ranks' WORK after `k` steps. -/
def workAfter (c : Coll) (W : Nat → Nat → Word) : Nat → Nat → Nat → Word
  | 0 => W
  | k + 1 => stepWork c (k + 1) (workAfter c W k)

/-- A rank's contribution is part of what another's WORK holds after its `k` steps (R441). -/
def Included (c : Coll) (r x k : Nat) : Prop :=
  (x = r ∧ (c.op ≠ 1 ∨ r = c.root)) ∨
    ∃ i p, 1 ≤ i ∧ i ≤ k ∧ Coll.takes { c with rank := r } i = some p ∧ x ∈ Coll.news { c with rank := r } i p

end Sys2Proof.Claims

/-- R438, R439: whatever the number of ranks, the ring and the tree leave in every rank's WORK the result of the collective:
an integer allreduce the sums of all ranks' elements modulo 2^w, a broadcast the root's elements, an allgather the blocks
of all ranks in order; every rank has every contribution that the result is made of, and in each step a rank sends what
another takes from it. -/
def Obligations.CollectivesComputeTheirResult : Prop :=
  ∀ (c : Coll) (xs : Nat → Nat → Word) (W : Nat → Nat → Word), 2 ≤ c.n → c.n ≤ 256 → c.alg < 2 → c.op ≤ 2 → 1 ≤ c.count →
    c.root < c.n → c.ft = false → (∀ r j, (xs r j).toNat < 2 ^ Sys2Proof.Claims.widthOf c.ty) →
    (∀ r j, r < c.n → j < c.count → (c.op = 0 ∨ (c.op = 1 ∧ r = c.root) → W r j = xs r j) ∧
      (c.op = 2 → W r (r * c.count + j) = xs r j)) →
    (∀ r q k p, r < c.n → q < c.n → 1 ≤ k → k ≤ c.steps →
      (Coll.takes { c with rank := r } k = some p ∧ p.rank = q ↔
        p.rank = q ∧ Coll.gives { c with rank := q } k = some ⟨r, p.keys⟩)) ∧
    ∀ r j, r < c.n →
      let E := Sys2Proof.Claims.workAfter c W c.steps r j
      (c.op = 0 → c.red = 0 → j < c.count →
        E = BitVec.ofNat 64 (((List.range c.n).map fun q => (xs q j).toNat).sum % 2 ^ Sys2Proof.Claims.widthOf c.ty)) ∧
      (c.op = 1 → j < c.count → E = xs c.root j) ∧
      (c.op = 2 → j < c.n * c.count → E = xs (j / c.count) (j % c.count)) ∧
      (c.op ≠ 1 → ∀ q, q < c.n → Sys2Proof.Claims.Included c r q c.steps) ∧
      (c.op = 1 → Sys2Proof.Claims.Included c r c.root c.steps)

/-- R405, R406, R409, R411, R413, R428, R429, R432 to R436: peers' messages and the progress of this device's transfers. -/
def Sys2Proof.Claims.AqueductMessagesAndTransfers : Prop :=
  Sys2Proof.Claims.OwnersServe ∧ Sys2Proof.Claims.AnswersReachTheirStrand ∧ Sys2Proof.Claims.TransfersProceed

/-- R405, R407, R430, R434, R436 to R441: failures, leases, casts, time, and the end of a collective. -/
def Sys2Proof.Claims.AqueductFailuresTimeAndCollectives : Prop :=
  Sys2Proof.Claims.FailuresLeasesAndCasts ∧ Sys2Proof.Claims.TimeIsSynchronised ∧
  Sys2Proof.Claims.CollectivesProceed ∧ Sys2Proof.Claims.CollectivesEnd

/-! ### Suspend and resume, and power (16_retirement.md) -/

namespace Sys2Proof.Claims

/-- SUSPTIME as nanoseconds (R464). -/
def suspNs (s : State) : Nat := (s.annex.suspTime.extractLsb' 30 34).toNat * 10 ^ 9 + (s.annex.suspTime.extractLsb' 0 30).toNat

/-- The annex changes as told, and nothing else does. -/
def annexTo (s : State) (a : Annex) : State := { s with annex := a }

/-- A strand that a suspend finds stopped (R274, R278, R466): in JOIN; or outside a trap handler and outside an `rframe` or a
`vissue`, in WAIT for anything but a peer or a bank, or in RUN outside every loop or at an iteration boundary with no
instruction begun; or in END while a child that it has not joined still counts. -/
def AtRest (s : State) (u : Strand) : Prop :=
  u.st = .join ∨
  (u.exl = false ∧ u.inside = none ∧ (∀ q ∈ u.vq, q.isVissue = false) ∧
    (((∃ w, u.st = .wait w) ∧ ¬ WaitsForPeer u ∧ u.answers = []) ∨
     (u.st = .run ∧ (u.loops = [] ∨ (loopBoundary u.pc u.loops).2.2 = true) ∧ u.weirPass = none ∧ u.parked = none ∧
       u.descRead = none ∧ u.answers = [] ∧ u.placed = [] ∧ u.resumed = false))) ∨
  (u.st = .ended ∧ ∃ c r, u.children = c :: r ∧
    ((∃ x, s.strand c.slot = some x ∧ x.st ≠ .join) ∨ ∃ o ∈ s.ops, o.slot = c.slot))

/-- The device has stopped (R441, R466): every strand is at rest, and what the engines hold are collectives between two steps. -/
def AllStopped (s : State) : Prop :=
  (∀ e ∈ s.strands, AtRest s e.2) ∧ ∀ o ∈ s.ops, ∃ c, o.work = .coll c ∧ c.sentStep < c.step + 1

/-- A strand that the device has switched out (R410, R466): an instruction at which it waits will execute again, and its links
are gone. -/
def switchedOut (u : Strand) : Strand :=
  { u with st := (match u.st with | .wait _ => .run | x => x), slink := none, vlinks := [], weirPass := none
           parked := none, descRead := none, atsDenied := none, answers := [], placed := [], genRead := none, openCast := []
           snap := none, rowData := [], resumed := false, wrote := false }

/-- The first byte of a basin's suspend area (R464). -/
def areaOf (s : State) (b : Nat) : Nat := (s.basin b).suspBase.toNat * 2 ^ 21

/-- A byte of a basin's suspend area (R464). -/
def InArea (s : State) (b x : Nat) : Prop :=
  areaOf s b ≤ x ∧ x < areaOf s b + 96 * 2 ^ 20

/-- Every basin's suspend area lies in its own memory (R464), no migration is under way, and no strand has more than the eight
lane groups of a core (R244). -/
def AreasInOrder (s : State) : Prop :=
  (∀ b, b < 12 → b * 2 ^ 36 ≤ areaOf s b ∧ areaOf s b + 96 * 2 ^ 20 ≤ (b + 1) * 2 ^ 36) ∧ (∀ x, s.migOf x = []) ∧
    ∀ e ∈ s.strands, e.2.lgc.toNat ≤ 3

/-- Where the suspend area of a basin holds what is saved (R466), by the layout that the model chose (log entry 49): the
scratchpad of its core `k`, a bit for each expired row of it, its accumulators, and the registers of its slot `n`. -/
def savedSpad (s : State) (b k o : Nat) : Nat := areaOf s b + 3 * 2 ^ 20 * k + o
def savedMark (s : State) (b k r : Nat) : Nat := areaOf s b + 48 * 2 ^ 20 + 8192 * k + r / 8
def savedTile (s : State) (b k i : Nat) : Nat := areaOf s b + 49 * 2 ^ 20 + 2 ^ 18 * k + 8 * i
def savedWord (s : State) (b n i : Nat) : Nat := areaOf s b + 56 * 2 ^ 20 + 288 * 2 ^ 10 * n + 8 * i

/-- R466: the areas hold what the strands, the scratchpads and the tiles of `s` held. -/
def AreasHold (s t : State) : Prop :=
  ∀ b, b < 12 →
    (∀ n u, n < 128 → s.strand (128 * b + n) = some u →
      (∀ i, i < 32 → leRead t.byteAt (savedWord s b n i) 8 = (u.getG (BitVec.ofNat 5 i)).toNat) ∧
      leRead t.byteAt (savedWord s b n 32) 8 = u.pc.toNat ∧ leRead t.byteAt (savedWord s b n 39) 8 = u.xpc.toNat ∧
      leRead t.byteAt (savedWord s b n 41) 8 = u.xval.toNat ∧ leRead t.byteAt (savedWord s b n 43) 8 = u.xscratch.toNat) ∧
    ∀ k, k < 16 →
      (∀ o, o < 3 * 2 ^ 20 → t.byteAt (savedSpad s b k o) = s.spadByte (16 * b + k) o) ∧
      (∀ r, r < 49152 → (t.byteAt (savedMark s b k r)).getLsbD (r % 8) = s.expired (16 * b + k) r) ∧
      ∀ i, i < 32768 → leRead t.byteAt (savedTile s b k i) 5 = ((s.core (16 * b + k)).acc.get 0 i).toNat ∧
        (t.byteAt (savedTile s b k i + 5)).getLsbD 0 = (s.core (16 * b + k)).poison.get false i

/-- R467: the strands, the scratchpads and the tiles of `t` hold what the areas of `s` hold. -/
def AreasRestored (s t : State) : Prop :=
  (∀ n, s.strand n = none → t.strand n = none) ∧
  ∀ b, b < 12 →
    (∀ n u, n < 128 → s.strand (128 * b + n) = some u → ∃ u', t.strand (128 * b + n) = some u' ∧
      (∀ i, i < 32 → (u'.g.get 0 i).toNat = leRead s.byteAt (savedWord s b n i) 8) ∧
      u'.pc.toNat = leRead s.byteAt (savedWord s b n 32) 8 ∧ u'.xpc.toNat = leRead s.byteAt (savedWord s b n 39) 8 ∧
      u'.xval.toNat = leRead s.byteAt (savedWord s b n 41) 8 ∧ u'.xscratch.toNat = leRead s.byteAt (savedWord s b n 43) 8) ∧
    ∀ k, k < 16 →
      let c := t.core (16 * b + k)
      (∀ o, o < 3 * 2 ^ 20 → t.rawByte (2 ^ 40 + (16 * b + k) * 2 ^ 32 + o) = s.byteAt (savedSpad s b k o)) ∧
      c.rowClk = [] ∧ (∀ r, r < 49152 → c.rowDead.get false r = (s.byteAt (savedMark s b k r)).getLsbD (r % 8)) ∧
      ∀ i, i < 32768 → (c.acc.get 0 i).toNat = leRead s.byteAt (savedTile s b k i) 5 ∧
        c.poison.get false i = (s.byteAt (savedTile s b k i + 5)).getLsbD 0

end Sys2Proof.Claims

/-- R464 to R467: the port with the lease arms a suspend once every basin has a suspend area, arms a resume and cancels an
armed suspend, and any other command gives RESULT 4; at SUSPTIME an armed suspend stops the device, and reports a time that
is not synchronised; once every strand is at rest and the engines hold no command but collectives between steps, the
device is SAVING: the strands are switched out, the caches go empty, the suspend areas hold the strands, the scratchpads and
the tiles, memory outside them keeps its contents, and it enters RETAIN or DEEP RETAIN; a save waits for leases on the
areas and for links that dirty lines of the reservoir need; a suspend that does not stop within 4 s is given up, and the
collectives' timers go on from where they stood; at SUSPTIME an armed resume is RESTORING, and goes back to RUN, with
what the areas hold, every row young that was not expired, the latches as after INIT, and, after DEEP RETAIN, zeros in
memory that was not retained. Where an area holds what is the model's choice (log entry 49). -/
def Obligations.SuspendAndResume : Prop :=
  ∀ s : State,
    let a := s.annex
    let becomes (i : Instr) (b : Annex) : Prop := exec i s = .next (Sys2Proof.Claims.annexTo s b)
    let noted : State := if s.aqSync then s else s.report 0 { kind := 0x0E }
    let time : Prop := Sys2Proof.Claims.suspNs s ≤ s.aqNow
    let retain : Prop := a.suspState = 4 ∨ a.suspState = 5
    (Sys2Proof.Claims.OwnerWrites s →
      (a.suspState ≠ 0 → becomes .suspendArm { a with suspResult := 4 }) ∧
      (a.suspState = 0 → (∃ k, k < 12 ∧ (s.basin k).suspV = false) → becomes .suspendArm { a with suspResult := 3 }) ∧
      (a.suspState = 0 → (∀ k, k < 12 → (s.basin k).suspV = true) →
        becomes .suspendArm { a with suspState := 1, suspCmd := 1, suspDeep := s.inp.value.getLsbD 0 }) ∧
      (retain → becomes .resumeArm { a with suspCmd := 2 }) ∧
      (¬ retain → becomes .resumeArm { a with suspResult := 4 }) ∧
      (a.suspState = 1 → becomes .suspendCancel { a with suspState := 0, suspCmd := 0 }) ∧
      (a.suspState ≠ 1 → becomes .suspendCancel { a with suspResult := 4 })) ∧
    (¬ time → exec .stopping s = .next s ∧ (a.suspState ≠ 6 → exec .restoring s = .next s)) ∧
    (time → a.suspState = 1 → a.suspCmd = 1 →
      exec .stopping s = .next (Sys2Proof.Claims.annexTo noted { noted.annex with suspState := 2, stopAt := s.clk })) ∧
    (time → retain → a.suspCmd = 2 →
      exec .restoring s = .next (Sys2Proof.Claims.annexTo noted { noted.annex with suspState := 6, suspCmd := 0 })) ∧
    (a.suspState = 6 → a.heldReplies = [] → Sys2Proof.Claims.AreasInOrder s →
      ∃ t, exec .restoring s = .next t ∧ t.annex = { a with suspState := 0, suspResult := 1 } ∧
        t.spInit = s.clk ∧ t.latches = [] ∧ Sys2Proof.Claims.AreasRestored s t ∧
        (t.ops.map fun o => (o.id, o.slot)) = s.ops.map (fun o => (o.id, o.slot)) ∧
        (∀ o c, t.op o.id = some o → o.work = .coll c → c.since = s.clk) ∧
        (a.suspDeep = false → ∀ x, x < 2 ^ 40 → t.rawByte x = s.rawByte x) ∧
        (a.suspDeep = true → ∀ x, x < 2 ^ 40 →
          (t.rawByte x = s.rawByte x ∨ t.rawByte x = 0) ∧
          (Sys2Proof.Claims.InArea s (x / 2 ^ 36) x → t.rawByte x = s.rawByte x) ∧
          (let e := (s.basin (x / 2 ^ 36)).rettab.toNat * 4096 + 16 * (x / 2 ^ 27 % 512)
           isDevMem e = true → (s.readCo e 16).testBit (x / 2 ^ 20 % 128) = true → t.rawByte x = s.rawByte x) ∧
          (s.kept (x / 2 ^ 36) (x / 2 ^ 20) = false → t.rawByte x = 0))) ∧
    (a.suspState = 2 →
      (Sys2Proof.Claims.AllStopped s → becomes .saving { a with suspState := 3 } ∧ exec .suspendAbandoned s = .next s) ∧
      (¬ Sys2Proof.Claims.AllStopped s → exec .saving s = .next s ∧
        (s.aqNow < Sys2Proof.Claims.suspNs s + 4 * 10 ^ 9 → exec .suspendAbandoned s = .next s) ∧
        (Sys2Proof.Claims.suspNs s + 4 * 10 ^ 9 ≤ s.aqNow → ∃ t, exec .suspendAbandoned s = .next t ∧
          t = { s.report 0 { kind := 0x0E } with annex := t.annex, ops := t.ops } ∧
          (∀ o, s.op o.id = some o → (∀ c, o.work ≠ .coll c) → t.op o.id = some o) ∧
          (∀ o c, s.op o.id = some o → o.work = .coll c →
            t.op o.id = some { o with work := .coll { c with since := c.since + (s.clk - a.stopAt) } }) ∧
          t.annex.suspState = 0 ∧ t.annex.suspCmd = 0 ∧ t.annex.suspResult = 2))) ∧
    (a.suspState = 3 → s.areasLeased = true ∨ (∃ e ∈ s.resv, e.2.dirty = true ∧ s.annex.linkUp.contains e.2.port = false) →
      exec .saving s = .next s) ∧
    (a.suspState = 3 → s.granted = [] → (∀ e ∈ s.resv, e.2.dirty = true → s.annex.linkUp.contains e.2.port = true) →
      (∀ x, s.migOf x = []) → ∃ t, exec .saving s = .next t ∧ (Sys2Proof.Claims.AreasInOrder s → Sys2Proof.Claims.AreasHold s t) ∧
      t.annex = { a with suspState := if a.suspDeep then 5 else 4, suspCmd := 0 } ∧
      (∀ n, t.strand n = (s.strand n).map Sys2Proof.Claims.switchedOut) ∧
      t.cache = [] ∧ t.copies = [] ∧ t.resv = [] ∧ t.tlb = [] ∧ t.ats = [] ∧ t.casts = [] ∧ t.peer = [] ∧
      (∀ x, (∀ b, b < 12 → ¬ Sys2Proof.Claims.InArea s b x) → t.byteAt x = s.byteAt x) ∧
      (∀ x, t.hostRaw x = match s.resv.find (x / 64) with
        | some l => if l.dirty then lineByte l.data (x % 64) else s.hostRaw x
        | none => s.hostRaw x) ∧
      (∀ c, (t.core c).acc = (s.core c).acc ∧ (t.core c).queue = []) ∧
      ∀ c r, c < 192 → r < 49152 → t.expired c r = s.expired c r)

namespace Sys2Proof.Claims

/-- R115, R475, R476, R478: in a device that is READY a basin above 150 A holds its quads' weirs for 1,100 clk; above the cap H rises by one, at one comparison in 1 ms, and after ten
comparisons in a row below 95 % of it H falls by one, within 0 to 15; the energy of the last µs is divided over the
launches in proportion to what they were charged, and counts on for the monitors; a monitor takes what its meter gives, at
most once in its period, of the device and of the annex the energy since reset. -/
def PowerIsGoverned : Prop :=
  ∀ s : State,
    (s.annex.bootState ≠ 3 → exec .currentHold s = .next s ∧ exec .capHold s = .next s ∧ exec .monitorUpdate s = .next s ∧
      exec .energyApportion s = .next s) ∧
    (s.annex.bootState = 3 → s.inp.unit < 12 → 150000 < s.inp.code →
      ∃ t, exec .currentHold s = .next t ∧ t = { s with basins := t.basins } ∧
        t.basin s.inp.unit = { s.basin s.inp.unit with holdEnd := s.clk + 1100 } ∧
        ∀ k, k ≠ s.inp.unit → t.basin k = s.basin k) ∧
    (s.inp.code ≤ 150000 → exec .currentHold s = .next s) ∧
    (let a := s.annex
     let mw := s.inp.code
     let cap := 1000 * a.cap.toNat
     let becomes (h : Nat) (low : Nat) : Prop :=
       exec .capHold s = .next (annexTo s { a with h := BitVec.ofNat 4 h, capLow := low, nextCompare := s.clk + 1100000 })
     (s.clk < a.nextCompare → exec .capHold s = .next s) ∧
     (a.bootState = 3 → a.nextCompare ≤ s.clk → a.cap = 0 → becomes 0 0) ∧
     (a.bootState = 3 → a.nextCompare ≤ s.clk → a.cap ≠ 0 → (cap < mw → becomes (min 15 (a.h.toNat + 1)) 0) ∧
       (mw ≤ cap → 95 * cap ≤ 100 * mw → becomes a.h.toNat 0) ∧
       (100 * mw < 95 * cap → a.capLow ≠ 9 → becomes a.h.toNat (a.capLow + 1)) ∧
       (100 * mw < 95 * cap → a.capLow = 9 → becomes (a.h.toNat - 1) 0))) ∧
    (let total := s.inp.amounts.sum
     let sum := (s.annex.launches.map fun (l : Launch) => l.charged).sum
     (s.clk < s.annex.nextMeter → exec .energyApportion s = .next s) ∧
     (s.annex.bootState = 3 → s.annex.nextMeter ≤ s.clk → exec .energyApportion s = .next (annexTo s { s.annex with
       nextMeter := s.clk + 1100, basinNj := s.annex.basinNj + total, launches := s.annex.launches.map fun (l : Launch) =>
         { l with charged := 0, energy := if sum = 0 then l.energy else l.energy + total * l.charged / sum } }))) ∧
    (let i := s.inp.part
     let m := s.monitors.get {} i
     let now := s.clk / if i < 384 ∧ i % 32 = 30 then 1100000 else 1100
     i = 384 ∨ i = 385 ∨ (i < 384 ∧ 28 ≤ i % 32) →
     (m.period = some now → exec .monitorUpdate s = .next s) ∧
     (s.annex.bootState = 3 → m.period ≠ some now →
       ∃ t, exec .monitorUpdate s = .next t ∧ t = { s with monitors := t.monitors, annex := t.annex } ∧
         t.monitors.get {} i = ⟨if i = 384 then BitVec.ofNat 64 (s.annex.basinNj / 1000)
           else if i = 385 then BitVec.ofNat 64 ((s.annex.annexNj + s.inp.value.toNat) / 1000)
           else if i % 32 < 30 then BitVec.ofNat 64 (s.inp.value.toNat % 2 ^ 16)
           else BitVec.ofNat 64 (s.inp.value.toNat % 2 ^ 32), some now, m.value⟩ ∧
         (i ≠ 385 → t.annex = s.annex) ∧
         (i = 385 → t.annex = { s.annex with annexNj := s.annex.annexNj + s.inp.value.toNat }) ∧
         ∀ j, j ≠ i → t.monitors.get {} j = s.monitors.get {} j))

end Sys2Proof.Claims

/-- R36, R37, R462, R463, R475, R476, R478: temperature, current, power, energy and the meters. -/
def Sys2Proof.Claims.TemperatureAndPower : Prop :=
  Sys2Proof.Claims.TemperaturesSetIntervalsAndLimits ∧ Sys2Proof.Claims.PowerIsGoverned

/-! ### The machine as a whole: words, steps, reset and what every step keeps -/

namespace Sys2Proof.Claims

/-- The turn of slot `n` comes next, and `b` is the state that it finds (R273; log entry 1): the turn at the head of the
agenda, after its delay; or, with an empty agenda, the next turn of the cores in this clk, or in the next one if this one
has none left. -/
def TurnOf (s : State) (n : Nat) (b : State) : Prop :=
  (∃ d r, s.agenda = ⟨d, .slot n⟩ :: r ∧ b = { s.tick d with agenda := r }) ∨
    (s.agenda = [] ∧
      let z := if s.nextTurn.isSome then s else s.tick 1
      z.nextTurn = some n ∧ b = z)

/-- The state in which slot `n` acts in its turn. -/
def inTurn (b : State) (n : Nat) : State := { b with cur := n, inp := { unit := n }, rowCtx := none }

/-- The front end has taken slot `n` (R273). -/
def takenBy (b : State) (n : Nat) : State :=
  b.setCore (n / 8) { b.core (n / 8) with lastSlot := n % 8, turnEnd := b.clk + 1 }

end Sys2Proof.Claims

/-- R180 to R204, R208, R217, R246, R271, R273, R293: a strand in RUN whose front end takes it, with nothing before its next
instruction (no position inside an instruction, no queue, no request, no suspend), fetches the word at the address that
the loop boundary rule gives; when it decodes, the step is `exec` of that instruction, with the word and the address
noted and the loop stack as that rule leaves it. A front end that goes before the strand's vector queue leaves a vector
instruction to the queue and runs a scalar one. A strand in RUN that the front end does not take, or in a cycle that is
not enabled, does nothing; one in WAIT is looked at for its condition. A turn of a unit is `exec` of its row with what it
brings; a word is run by a strand alone. Every step answers a next state, but for a turn of a slot that the device does
not have. How an agenda chooses turns is the model's own (log entry 1). -/
def Obligations.StepRunsTheDecodedInstruction : Prop :=
  (∀ (s b : State) (n : Nat) (t : Strand), Sys2Proof.Claims.TurnOf s n b → n < 1536 → b.strand n = some t →
    b.annex.suspState = 0 → t.doubled = none →
    (¬ Sys2Proof.Claims.Lit b n → step s = .next (Sys2Proof.Claims.inTurn b n)) ∧
    (t.st = .run → ¬ Sys2Proof.Claims.FrontTakes b n → step s = .next (Sys2Proof.Claims.inTurn b n)) ∧
    (∀ w, t.st = .wait w → t.preq = none → Sys2Proof.Claims.Lit b n →
      step s = exec .awaitedCondition (Sys2Proof.Claims.inTurn b n)) ∧
    (t.st = .run → Sys2Proof.Claims.FrontTakes b n → t.inside = none → t.vq = [] → t.preq = none → t.answers = [] →
      t.resumed = false →
      ∀ (w : BitVec 32) (i : Instr),
      let x := loopBoundary t.pc t.loops
      let u := Sys2Proof.Claims.takenBy (Sys2Proof.Claims.inTurn b n) n
      let v := u.setSelf { t with pc := x.1, loops := x.2.1 }
      Sys2Proof.Claims.Fetches v x.1 w → decodeWord w = some i →
      step s = exec i (u.setSelf { t with pc := x.1, loops := x.2.1, word := w, lastPc := x.1 }))) ∧
  (∀ (s : State) (d n : Nat) (r : List Turn) (t : Strand), s.agenda = ⟨d, .ahead n⟩ :: r → n < 1536 →
    let b : State := { s.tick d with agenda := r }
    b.strand n = some t → b.annex.suspState = 0 → t.doubled = none → t.st = .run → Sys2Proof.Claims.FrontTakes b n →
    t.exl = false → t.inside = none → t.midway = false → t.preq = none →
    ∀ (w : BitVec 32) (i : Instr),
    let x := loopBoundary t.pc t.loops
    let u := Sys2Proof.Claims.takenBy (Sys2Proof.Claims.inTurn b n) n
    let v := u.setSelf { t with pc := x.1, loops := x.2.1 }
    let y : Strand := { t with pc := x.1, loops := x.2.1, word := w, lastPc := x.1 }
    Sys2Proof.Claims.Fetches v x.1 w → decodeWord w = some i →
    (deferrable i = true → t.owesG = false → t.vq.length < 256 → ∃ (q : Queued) (c : Nat),
      step s = .next (u.setSelf { y.modCount c (· + 1) with pc := x.1 + 4, vq := t.vq ++ [q] }) ∧ q.cls = c ∧ q.word = w ∧
      q.pc = x.1 ∧ q.cap.g = t.g ∧ q.cap.vn = t.vn) ∧
    (deferrable i = false → t.vq = [] ∨ t.heldBack i = false → ∀ z : State, exec i (u.setSelf y) = .next z →
      (∀ e a, z.strand n = some e → e.st ≠ .wait a) → step s = .next z)) ∧
  (∀ (s : State) (d : Nat) (i : Instr) (inp : Input) (r : List Turn), s.agenda = ⟨d, .unit i inp⟩ :: r →
    (i.isWord = false → step s = exec i { s.tick d with agenda := r, inp := inp }) ∧
    (i.isWord = true → step s = .next { s.tick d with agenda := r })) ∧
  (∀ s : State, s.agenda = [] → s.nextTurn = none → (s.tick 1).nextTurn = none → step s = .next (s.tick 1)) ∧
  (∀ (s : State) (n : Nat), (s.tick n).clk = s.clk + n ∧
    ((∀ e ∈ s.cores, e.2.queue = []) → Table.wf {} s.quads = true → (∀ e ∈ s.quads, e.2.latch = e.2) → s.annex.active = 0 →
      s.aqSync = false → s.deferred = [] →
      s.tick n = { s with clk := s.clk + n, annex := { s.annex with launches := (s.tick n).annex.launches } })) ∧
  (∀ s : State, (∃ t, step s = .next t) ∨
    ∃ d n r a, s.agenda = ⟨d, a⟩ :: r ∧ (a = .slot n ∨ a = .ahead n) ∧ 1536 ≤ n ∧ step s = .fault (.noSuchUnit n))

/-- R180 to R198: words of every major opcode, written field by field from their encodings, decode to the instructions that
they encode. -/
def Obligations.WordsDecodeAsTheSpecEncodesThem : Prop :=
  ∀ p ∈ ([
      (0b000001_11110_01001_00000_00000000000, .add 30 9 0),
      (0b000010_11101_00011_1000100100111111, .addi 29 3 35135),
      (0b001011_10101_11111_00000_0101_001_10_00, .fma 21 31 0 1 2),
      (0b010000_01010_10100_1001101011100011, .bltn 10 20 39651),
      (0b010010_01111101111001100000101000, .jal 33003560),
      (0b010011_10011_00011_1110_0101_1100_0010, .rframe 19 14 5 12 2),
      (0b010100_00101_00100_010011101011_0101, .ldWn 5 4 1259),
      (0b010101_01100_01011_010111011110_0001, .stH 12 11 1502),
      (0b010110_00111_10101_11110_00000000000, .sc 7 21 30),
      (0b010110_01010_11100_01001_001000000_01, .apnd 10 28 9 1),
      (0b011001_01001_00000_0000000011000101, .srd 9 197),
      (0b011011_1111110110_0000000000000000, .svc 1014),
      (0b01101100000000000000000000010011, .fenceSys),
      (0b0111000000000000_1111_1100_0011_0011, .waitc 15 12 3 3),
      (0b01110100000_01010_11010_00000000000, .cclean 10 26),
      (0b100000_00111_01100_000_01_000_001_00000, .vsetn 7 12 1 1),
      (0b10000100_100_00_101_00110_00000001001, .kshl 4 5 6),
      (0b100010_00101_11111_00000_110_101_00000, .vadd 5 31 0 6 5),
      (0b100110_10110_10011_00000_010_010_00101, .vfma 22 19 0 2 2),
      (0b101000_10001_11100_00101_111_000_00100, .vfredsum 17 28 5 7 0),
      (0b101001_00010_00101_11001_001_000_00010, .vperm 2 5 25 1 0),
      (0b101010_11110_11001_10100_110_001_10_001, .vquantPi 30 25 20 6 1 1),
      (0b110000_11011_10111_10000_100_111_00001, .vstx 27 23 16 4 7),
      (0b110001_10001_00101_10010_010_111_00001, .vldp 17 5 18 2 7),
      (0b110100_00100_10111_01001_00010_000000, .padd 4 23 9 2),
      (0b110101_00001_10011_0000000000_000010, .pprog 1 19 0),
      (0b11011000000_00010_01110_00101_000001, .rowmaj 2 14 5),
      (0b11100000_101_00010_01000_010_1_10_00000, .plantChained 5 2 8 2 2),
      (0b11100100_010_10001_11110_000_01_000000, .fold 2 17 30 1),
      (0b111010_01010_10011_00000_011_011_10000, .bksax 10 19 0 3),
      (0b111011_10100_000000000000000000000, .lfork 20),
      (0b11101100000_11110_00000_111_00000010, .vissue 30 7),
      (0b11101100000_11010_0000000000000011, .cspawn 26),
      (0b111100_00110_00010_0000000000001111, .barSet 6 15),
      (0b11110100000_11010_10110_01100000000, .aqColl 26 22)
] : List (BitVec 32 × Instr)), decodeWord p.1 = some p.2

/-- R180 to R203: every word that decodes is the encoding of its instruction, which is well formed; and every well-formed
instruction that has a word is what its encoding decodes to, with every operand at every value that it admits. -/
def Obligations.EncodingsRoundTrip : Prop :=
  (∀ i : Instr, i.isWord = true → i.wellFormed = true → decodeWord (encode i) = some i) ∧
  (∀ (w : BitVec 32) (i : Instr), decodeWord w = some i → i.isWord = true ∧ i.wellFormed = true ∧ encode i = w)

namespace Sys2Proof.Claims

/-- What a fork conserves (R275, R277): a strand's lane groups and its unjoined forks never stand for more than the eight
of its core, and an element count never passes 4,096, its own or one recorded for a join. -/
def LanesKept (u : Strand) : Prop :=
  u.lgc.toNat + u.children.length ≤ 3 ∧ u.vn ≤ 4096 ∧ ∀ c ∈ u.children, c.vn ≤ 4096

/-- Device memory, scratchpads and host memory in their canonical form, and the lanes of every strand and of every strand
that a dump or a `vsave` keeps. -/
def Inv (s : State) : Prop :=
  Table.wf 0 s.mem = true ∧ Table.wf 0 s.hostMem = true ∧ (∀ e ∈ s.strands, LanesKept e.2) ∧
    ∀ x ∈ s.saved, LanesKept x.strand

end Sys2Proof.Claims

/-- R28, R114, R115, R121, R128, R151, R168, R170, R290, R293, R428, R430, R443, R463: what device reset leaves where the
spec gives a value; and the invariant holds there. -/
def Obligations.ResetLeavesTheSpecsValues : Prop :=
  let s := State.reset
  s.clk = 0 ∧ (∀ n, s.strand n = none) ∧ s.ops = [] ∧ s.annex.bootState = 0 ∧ s.annex.active = 0 ∧
  s.annex.linkUp = [] ∧ s.annex.launches = [] ∧ s.annex.suspState = 0 ∧ s.annex.cap = 0 ∧
  (∀ q, (s.annex.queues.get {} q).en = false ∧ (s.annex.queues.get {} q).err = false ∧
    (s.annex.queues.get {} q).head = 0 ∧ (s.annex.queues.get {} q).tail = 0) ∧
  s.ctxtabWritten = false ∧ s.ctxtabBase = 0 ∧ s.xvec = 0 ∧ s.krSize = 0 ∧ s.devid = 0 ∧ s.ptabEn = false ∧
  s.aqSync = false ∧ s.aqBound = 0xFFFF ∧ (∀ k, s.arfcEn.get false k = false) ∧ (∀ p, s.hdmtWritten.get false p = false) ∧
  (∀ c, (s.core c).cap = 0xFFFFFFFF ∧ (s.core c).drain = 0xFFFFFFFF ∧ (s.core c).level = 0 ∧ (s.core c).eph = 0 ∧
    ∀ k, (s.core c).wts.get 1 k = 1) ∧
  (∀ q, (s.quad q).pat = 0xFFFF ∧ (s.quad q).limit = 16 ∧ (s.quad q).fused = none) ∧
  (∀ b, (s.basin b).poolEn = false ∧ (s.basin b).suspV = false ∧ (s.basin b).crLog2n = 0) ∧
  (∀ f, (s.frame f).state = 0 ∧ (s.frame f).gen = 0) ∧ Sys2Proof.Claims.Inv s

/-- R244, R275 to R277, R159: every step keeps the invariant: memory stays in its canonical form, a strand never holds more
lane groups than its core has, and no element count passes 4,096. -/
def Obligations.EveryStepKeepsTheInvariant : Prop :=
  ∀ s t : State, Sys2Proof.Claims.Inv s → step s = .next t → Sys2Proof.Claims.Inv t

/-! ### Statements that stand together -/

/-- Integer register and immediate forms, division included, deliver the rule's value and change nothing else. The
parts: `ScalarRegisterForms`, `DivisionTruncatesAndNeverTraps`, `ScalarImmediateForms`. -/
def Obligations.ScalarIntegerForms : Prop :=
  Sys2Proof.Claims.ScalarRegisterForms ∧ Sys2Proof.Claims.DivisionTruncatesAndNeverTraps ∧
    Sys2Proof.Claims.ScalarImmediateForms

/-- Scalar float arithmetic and its exact values, special operands, comparison and conversion. The parts:
`ScalarFloatArithmetic`, `FloatArithmeticIsExact`, `FloatSpecialOperands`, `ScalarFloatCompare`, `ScalarFloatConvert`.
-/
def Obligations.ScalarFloatForms : Prop :=
  Sys2Proof.Claims.ScalarFloatArithmetic ∧ Sys2Proof.Claims.FloatArithmeticIsExact ∧
    Sys2Proof.Claims.FloatSpecialOperands ∧ Sys2Proof.Claims.ScalarFloatCompare ∧ Sys2Proof.Claims.ScalarFloatConvert

/-- Branches, jumps and halt: where the fetch goes, the link register, and nothing else. The parts:
`BranchesCompareAndWriteNothing`, `JalLinksInG31`, `JrAndHalt`. -/
def Obligations.BranchesAndJumps : Prop :=
  Sys2Proof.Claims.BranchesCompareAndWriteNothing ∧ Sys2Proof.Claims.JalLinksInG31 ∧ Sys2Proof.Claims.JrAndHalt

/-- lp.set, lp.brk and the loop boundary rule: a loop of count n runs n times. The parts: `LoopSetPushesOrOverflows`,
`LoopBreakPopsOrFaults`, `LoopRunsItsCount`. -/
def Obligations.LoopInstructions : Prop :=
  Sys2Proof.Claims.LoopSetPushesOrOverflows ∧ Sys2Proof.Claims.LoopBreakPopsOrFaults ∧
    Sys2Proof.Claims.LoopRunsItsCount

/-- What taking a trap saves and sets, and what a double trap does. The parts: `TakingATrap`,
`DoubleTrapEndsTheStrand`. -/
def Obligations.TrapsAndDoubleTraps : Prop :=
  Sys2Proof.Claims.TakingATrap ∧ Sys2Proof.Claims.DoubleTrapEndsTheStrand

/-- svc traps in both modes; privileged instructions trap in user mode; neither has another effect. The parts:
`SvcTakesTheServiceTrap`, `PrivilegedInstructionsTrapInUserMode`. -/
def Obligations.ServiceCallsAndPrivilege : Prop :=
  Sys2Proof.Claims.SvcTakesTheServiceTrap ∧ Sys2Proof.Claims.PrivilegedInstructionsTrapInUserMode

/-- idle, the drains and waitc go on or wait, and a waiting strand wakes when its condition holds. The parts:
`IdleWaitsForItsEvents`, `DrainsWaitForTheirEngine`, `WaitcComparesTheFourCounts`, `AwaitedConditionsWakeTheirStrand`.
-/
def Obligations.WaitsAndDrains : Prop :=
  Sys2Proof.Claims.IdleWaitsForItsEvents ∧ Sys2Proof.Claims.DrainsWaitForTheirEngine ∧
    Sys2Proof.Claims.WaitcComparesTheFourCounts ∧ Sys2Proof.Claims.AwaitedConditionsWakeTheirStrand

/-- swr writes the writable fields of a register, and srd reads them back. The parts: `SwrWritesTheStrandsRegisters`,
`SwrThenSrdOfSharedRegisters`. -/
def Obligations.SystemRegisterWrites : Prop :=
  Sys2Proof.Claims.SwrWritesTheStrandsRegisters ∧ Sys2Proof.Claims.SwrThenSrdOfSharedRegisters

/-- Scalar loads and stores of device memory, host pages and peers: the bytes they move, their frame, and the faults
of their address. The parts: `ScalarLoadsReadMemory`, `ScalarStoresWriteMemory`, `ScalarHostAccesses`,
`ScalarPeerAccesses`, `ScalarAccessChecksItsAddress`, `BootContextHolesFault`. -/
def Obligations.ScalarMemoryAccesses : Prop :=
  Sys2Proof.Claims.ScalarLoadsReadMemory ∧ Sys2Proof.Claims.ScalarStoresWriteMemory ∧
    Sys2Proof.Claims.ScalarHostAccesses ∧ Sys2Proof.Claims.ScalarPeerAccesses ∧
    Sys2Proof.Claims.ScalarAccessChecksItsAddress ∧ Sys2Proof.Claims.BootContextHolesFault

/-- Scalar loads and stores of a scratchpad, and the expired rows they meet. The parts: `ScratchpadLoads`,
`ScratchpadStores`. -/
def Obligations.ScratchpadLoadsAndExpiry : Prop :=
  Sys2Proof.Claims.ScratchpadLoads ∧ Sys2Proof.Claims.ScratchpadStores

/-- Appending to, loading, sealing, querying and freeing a vitrine page. The parts: `VitrineAppend`, `VitrineLoads`,
`VitrineSealAndQuery`, `VfreeAdvancesTheGeneration`. -/
def Obligations.VitrinePages : Prop :=
  Sys2Proof.Claims.VitrineAppend ∧ Sys2Proof.Claims.VitrineLoads ∧ Sys2Proof.Claims.VitrineSealAndQuery ∧
    Sys2Proof.Claims.VfreeAdvancesTheGeneration

/-- Fences, cclean, cinval and tlbinv. The parts: `FencesComplete`, `CacheMaintenanceReachesTheHome`,
`TlbinvDropsWhatItNames`. -/
def Obligations.FencesAndMaintenance : Prop :=
  Sys2Proof.Claims.FencesComplete ∧ Sys2Proof.Claims.CacheMaintenanceReachesTheHome ∧
    Sys2Proof.Claims.TlbinvDropsWhatItNames

/-- Saturating forms, carry chains, merge, extension and narrowing. The parts: `VectorSaturation`,
`VectorCarryChains`, `VectorMergeExtendNarrow`. -/
def Obligations.VectorSaturationCarriesAndWidths : Prop :=
  Sys2Proof.Claims.VectorSaturation ∧ Sys2Proof.Claims.VectorCarryChains ∧ Sys2Proof.Claims.VectorMergeExtendNarrow

/-- Static conditions trap at decode; a length fault changes nothing. The parts: `StaticConditionsTrap`,
`LengthFaultChangesNothing`. -/
def Obligations.VectorStaticAndLengthFaults : Prop :=
  Sys2Proof.Claims.StaticConditionsTrap ∧ Sys2Proof.Claims.LengthFaultChangesNothing

/-- Mask instructions and vector comparisons. The parts: `MaskInstructions`, `VectorComparisons`. -/
def Obligations.MasksAndComparisons : Prop :=
  Sys2Proof.Claims.MaskInstructions ∧ Sys2Proof.Claims.VectorComparisons

/-- Vector float forms, comparisons and conversions. The parts: `VectorFloatForms`, `ExpAndRsqrtSpecialOperands`. -/
def Obligations.VectorFloatOperations : Prop :=
  Sys2Proof.Claims.VectorFloatForms ∧ Sys2Proof.Claims.ExpAndRsqrtSpecialOperands

/-- Integer and float reductions. The parts: `IntegerReductions`, `OrderedReductions`. -/
def Obligations.Reductions : Prop :=
  Sys2Proof.Claims.IntegerReductions ∧ Sys2Proof.Claims.OrderedReductions

/-- lfork splits a strand, and ljoin recombines it. The parts: `LforkSplitsTheStrand`, `LjoinRecombines`. -/
def Obligations.ForksAndJoins : Prop :=
  Sys2Proof.Claims.LforkSplitsTheStrand ∧ Sys2Proof.Claims.LjoinRecombines

/-- cspawn pushes a record; cjoin decrements a counter and pushes at 0; cend ends a strand. The parts:
`CspawnPushesARecord`, `CjoinDecrementsAndCendEnds`. -/
def Obligations.ContinuationRecords : Prop :=
  Sys2Proof.Claims.CspawnPushesARecord ∧ Sys2Proof.Claims.CjoinDecrementsAndCendEnds

/-- Barrier arrivals, waits and configuration. The parts: `BarriersArriveAndWait`, `BarSetTakesEffect`. -/
def Obligations.BarrierGroups : Prop :=
  Sys2Proof.Claims.BarriersArriveAndWait ∧ Sys2Proof.Claims.BarSetTakesEffect

/-- vissue groups its words and marks illegal ones. The parts: `VissueGroupsItsWords`, `VissueMarksIllegalWords`. -/
def Obligations.VissueWords : Prop :=
  Sys2Proof.Claims.VissueGroupsItsWords ∧ Sys2Proof.Claims.VissueMarksIllegalWords

/-- Vector loads deliver their elements, from device memory, host pages, peers and vitrine pages. The parts:
`VectorLoadsReadTheirElements`, `VectorLoadsElsewhere`. -/
def Obligations.VectorLoadsReadTheirElements : Prop :=
  Sys2Proof.Claims.VectorLoadsReadTheirElements ∧ Sys2Proof.Claims.VectorLoadsElsewhere

/-- Vector stores write their elements and no other byte; vsc stores where links are intact. The parts:
`VectorStoresWriteTheirElements`, `VectorStoresElsewhere`, `VectorStoreConditional`. -/
def Obligations.VectorStores : Prop :=
  Sys2Proof.Claims.VectorStoresWriteTheirElements ∧ Sys2Proof.Claims.VectorStoresElsewhere ∧
    Sys2Proof.Claims.VectorStoreConditional

/-- vldsp, vstsp, vldp, vstp and vapnd. The parts: `ScratchpadTransfers`, `PlaneTransfers`, `VectorAppend`. -/
def Obligations.ScratchpadPlaneAndAppendTransfers : Prop :=
  Sys2Proof.Claims.ScratchpadTransfers ∧ Sys2Proof.Claims.PlaneTransfers ∧ Sys2Proof.Claims.VectorAppend

/-- Plane instructions, plock, punlock, pcal and pprog hand their commands over. The parts:
`PlaneInstructionsAreAccepted`, `LocksCalibrationAndBlocksAreAccepted`. -/
def Obligations.PlaneCommandsAreAccepted : Prop :=
  Sys2Proof.Claims.PlaneInstructionsAreAccepted ∧ Sys2Proof.Claims.LocksCalibrationAndBlocksAreAccepted

/-- plant and fold hand their commands over; fread and fclr read and clear a tile. The parts:
`PlantsAndFoldsAreAccepted`, `AccumulatorsAreReadAndCleared`. -/
def Obligations.PlantsFoldsAndAccumulators : Prop :=
  Sys2Proof.Claims.PlantsAndFoldsAreAccepted ∧ Sys2Proof.Claims.AccumulatorsAreReadAndCleared

/-- Bank operations and Aqueduct transfers hand their commands over; aq.lease releases copies. The parts:
`BankOperationsAreAccepted`, `AqueductCommandsAreAccepted`, `CollectivesAreAccepted`, `LeasedCopiesAreReleased`. -/
def Obligations.BankAndAqueductCommands : Prop :=
  Sys2Proof.Claims.BankOperationsAreAccepted ∧ Sys2Proof.Claims.AqueductCommandsAreAccepted ∧
    Sys2Proof.Claims.CollectivesAreAccepted ∧ Sys2Proof.Claims.LeasedCopiesAreReleased

/-- Bring-up, attestation, links and the host lease. The parts: `BringUpSteps`, `AttestationAndLinks`,
`HostLeaseChangesHands`. -/
def Obligations.BringUpAttestationAndLease : Prop :=
  Sys2Proof.Claims.BringUpSteps ∧ Sys2Proof.Claims.AttestationAndLinks ∧ Sys2Proof.Claims.HostLeaseChangesHands

/-- Launch queues, and register writes that are steps of their own. The parts: `QueuesAndRegisterWrites`,
`RegisterWritesWithEffects`. -/
def Obligations.QueuesAndRegisterSteps : Prop :=
  Sys2Proof.Claims.QueuesAndRegisterWrites ∧ Sys2Proof.Claims.RegisterWritesWithEffects

/-- A launch record is read, admitted, copied for, and its root strands start. The parts: `RecordsBecomeRunnable`,
`RefusalCodesApply`, `AdmissionStartsTheRoots`, `CopiesMoveTheirBytes`. -/
def Obligations.LaunchesBegin : Prop :=
  Sys2Proof.Claims.RecordsBecomeRunnable ∧ Sys2Proof.Claims.RefusalCodesApply ∧
    Sys2Proof.Claims.AdmissionStartsTheRoots ∧ Sys2Proof.Claims.CopiesMoveTheirBytes

/-- Records start, strands end, and the completion record is written. The parts: `RecordsStartAndStrandsEnd`,
`StrandsEndWithTheirCounter`, `CompletionRecordIsWritten`. -/
def Obligations.LaunchesAndStrandsEnd : Prop :=
  Sys2Proof.Claims.RecordsStartAndStrandsEnd ∧ Sys2Proof.Claims.StrandsEndWithTheirCounter ∧
    Sys2Proof.Claims.CompletionRecordIsWritten

/-- Pre-emption, the faults of a fetch, and the vector-fault dump. The parts: `PreemptionRequestsAreHonoured`,
`FetchFaultsAreTaken`, `VectorFaultsAreDumped`. -/
def Obligations.PreemptionFetchFaultsAndDumps : Prop :=
  Sys2Proof.Claims.PreemptionRequestsAreHonoured ∧ Sys2Proof.Claims.FetchFaultsAreTaken ∧
    Sys2Proof.Claims.VectorFaultsAreDumped

/-- Peers' messages, transfers, failures, leases, casts, time and the end of collectives. The parts:
`AqueductMessagesAndTransfers`, `AqueductFailuresTimeAndCollectives`. -/
def Obligations.AqueductMessagesAndFailures : Prop :=
  Sys2Proof.Claims.AqueductMessagesAndTransfers ∧ Sys2Proof.Claims.AqueductFailuresTimeAndCollectives

/-- Weirs and pulse frames, temperature, current, power, energy and meters. The parts: `WeirsAdmitAndFramesLatch`,
`TemperatureAndPower`. -/
def Obligations.WeirsTemperatureAndPower : Prop :=
  Sys2Proof.Claims.WeirsAdmitAndFramesLatch ∧ Sys2Proof.Claims.TemperatureAndPower
end

