-- ==== Sys2Proof/Laws/State.lean ====
section
/-! SUPPORT. One lemma per field per update: what an update of the state or of a strand leaves in each field. -/
namespace Sys2Proof.Machine

@[simp] theorem State.setStrand_agenda (s : State) (n : Nat) (t : Strand) : (s.setStrand n t).agenda = s.agenda := rfl
@[simp] theorem State.setStrand_cur (s : State) (n : Nat) (t : Strand) : (s.setStrand n t).cur = s.cur := rfl
@[simp] theorem State.setStrand_inp (s : State) (n : Nat) (t : Strand) : (s.setStrand n t).inp = s.inp := rfl
@[simp] theorem State.setStrand_clk (s : State) (n : Nat) (t : Strand) : (s.setStrand n t).clk = s.clk := rfl
@[simp] theorem State.setStrand_freeCtr (s : State) (n : Nat) (t : Strand) : (s.setStrand n t).freeCtr = s.freeCtr := rfl
@[simp] theorem State.setStrand_nextId (s : State) (n : Nat) (t : Strand) : (s.setStrand n t).nextId = s.nextId := rfl
@[simp] theorem State.setStrand_rowCtx (s : State) (n : Nat) (t : Strand) : (s.setStrand n t).rowCtx = s.rowCtx := rfl
@[simp] theorem State.setStrand_cores (s : State) (n : Nat) (t : Strand) : (s.setStrand n t).cores = s.cores := rfl
@[simp] theorem State.setStrand_quads (s : State) (n : Nat) (t : Strand) : (s.setStrand n t).quads = s.quads := rfl
@[simp] theorem State.setStrand_basins (s : State) (n : Nat) (t : Strand) : (s.setStrand n t).basins = s.basins := rfl
@[simp] theorem State.setStrand_banks (s : State) (n : Nat) (t : Strand) : (s.setStrand n t).banks = s.banks := rfl
@[simp] theorem State.setStrand_latches (s : State) (n : Nat) (t : Strand) : (s.setStrand n t).latches = s.latches := rfl
@[simp] theorem State.setStrand_comp (s : State) (n : Nat) (t : Strand) : (s.setStrand n t).comp = s.comp := rfl
@[simp] theorem State.setStrand_unchecked (s : State) (n : Nat) (t : Strand) : (s.setStrand n t).unchecked = s.unchecked := rfl
@[simp] theorem State.setStrand_errs (s : State) (n : Nat) (t : Strand) : (s.setStrand n t).errs = s.errs := rfl
@[simp] theorem State.setStrand_spInit (s : State) (n : Nat) (t : Strand) : (s.setStrand n t).spInit = s.spInit := rfl
@[simp] theorem State.setStrand_sense (s : State) (n : Nat) (t : Strand) : (s.setStrand n t).sense = s.sense := rfl
@[simp] theorem State.setStrand_ops (s : State) (n : Nat) (t : Strand) : (s.setStrand n t).ops = s.ops := rfl
@[simp] theorem State.setStrand_mem (s : State) (n : Nat) (t : Strand) : (s.setStrand n t).mem = s.mem := rfl
@[simp] theorem State.setStrand_cache (s : State) (n : Nat) (t : Strand) : (s.setStrand n t).cache = s.cache := rfl
@[simp] theorem State.setStrand_copies (s : State) (n : Nat) (t : Strand) : (s.setStrand n t).copies = s.copies := rfl
@[simp] theorem State.setStrand_vec (s : State) (n : Nat) (t : Strand) : (s.setStrand n t).vec = s.vec := rfl
@[simp] theorem State.setStrand_tlb (s : State) (n : Nat) (t : Strand) : (s.setStrand n t).tlb = s.tlb := rfl
@[simp] theorem State.setStrand_ats (s : State) (n : Nat) (t : Strand) : (s.setStrand n t).ats = s.ats := rfl
@[simp] theorem State.setStrand_frames (s : State) (n : Nat) (t : Strand) : (s.setStrand n t).frames = s.frames := rfl
@[simp] theorem State.setStrand_casts (s : State) (n : Nat) (t : Strand) : (s.setStrand n t).casts = s.casts := rfl
@[simp] theorem State.setStrand_hostMem (s : State) (n : Nat) (t : Strand) : (s.setStrand n t).hostMem = s.hostMem := rfl
@[simp] theorem State.setStrand_hostPoison (s : State) (n : Nat) (t : Strand) : (s.setStrand n t).hostPoison = s.hostPoison := rfl
@[simp] theorem State.setStrand_resv (s : State) (n : Nat) (t : Strand) : (s.setStrand n t).resv = s.resv := rfl
@[simp] theorem State.setStrand_peer (s : State) (n : Nat) (t : Strand) : (s.setStrand n t).peer = s.peer := rfl
@[simp] theorem State.setStrand_granted (s : State) (n : Nat) (t : Strand) : (s.setStrand n t).granted = s.granted := rfl
@[simp] theorem State.setStrand_rlinks (s : State) (n : Nat) (t : Strand) : (s.setStrand n t).rlinks = s.rlinks := rfl
@[simp] theorem State.setStrand_groups (s : State) (n : Nat) (t : Strand) : (s.setStrand n t).groups = s.groups := rfl
@[simp] theorem State.setStrand_saved (s : State) (n : Nat) (t : Strand) : (s.setStrand n t).saved = s.saved := rfl
@[simp] theorem State.setStrand_pageReqs (s : State) (n : Nat) (t : Strand) : (s.setStrand n t).pageReqs = s.pageReqs := rfl
@[simp] theorem State.setStrand_pageHeld (s : State) (n : Nat) (t : Strand) : (s.setStrand n t).pageHeld = s.pageHeld := rfl
@[simp] theorem State.setStrand_hostCopies (s : State) (n : Nat) (t : Strand) : (s.setStrand n t).hostCopies = s.hostCopies := rfl
@[simp] theorem State.setStrand_deferred (s : State) (n : Nat) (t : Strand) : (s.setStrand n t).deferred = s.deferred := rfl
@[simp] theorem State.setStrand_atsInvs (s : State) (n : Nat) (t : Strand) : (s.setStrand n t).atsInvs = s.atsInvs := rfl
@[simp] theorem State.setStrand_nextTag (s : State) (n : Nat) (t : Strand) : (s.setStrand n t).nextTag = s.nextTag := rfl
@[simp] theorem State.setStrand_out (s : State) (n : Nat) (t : Strand) : (s.setStrand n t).out = s.out := rfl
@[simp] theorem State.setStrand_ctxtabBase (s : State) (n : Nat) (t : Strand) : (s.setStrand n t).ctxtabBase = s.ctxtabBase := rfl
@[simp] theorem State.setStrand_ctxtabLog2n (s : State) (n : Nat) (t : Strand) : (s.setStrand n t).ctxtabLog2n = s.ctxtabLog2n := rfl
@[simp] theorem State.setStrand_ctxtabWritten (s : State) (n : Nat) (t : Strand) : (s.setStrand n t).ctxtabWritten = s.ctxtabWritten := rfl
@[simp] theorem State.setStrand_hdmt (s : State) (n : Nat) (t : Strand) : (s.setStrand n t).hdmt = s.hdmt := rfl
@[simp] theorem State.setStrand_hdmtWritten (s : State) (n : Nat) (t : Strand) : (s.setStrand n t).hdmtWritten = s.hdmtWritten := rfl
@[simp] theorem State.setStrand_arfb (s : State) (n : Nat) (t : Strand) : (s.setStrand n t).arfb = s.arfb := rfl
@[simp] theorem State.setStrand_arfcLimit (s : State) (n : Nat) (t : Strand) : (s.setStrand n t).arfcLimit = s.arfcLimit := rfl
@[simp] theorem State.setStrand_arfcFmt (s : State) (n : Nat) (t : Strand) : (s.setStrand n t).arfcFmt = s.arfcFmt := rfl
@[simp] theorem State.setStrand_arfcEn (s : State) (n : Nat) (t : Strand) : (s.setStrand n t).arfcEn = s.arfcEn := rfl
@[simp] theorem State.setStrand_xvec (s : State) (n : Nat) (t : Strand) : (s.setStrand n t).xvec = s.xvec := rfl
@[simp] theorem State.setStrand_krBase (s : State) (n : Nat) (t : Strand) : (s.setStrand n t).krBase = s.krBase := rfl
@[simp] theorem State.setStrand_krSize (s : State) (n : Nat) (t : Strand) : (s.setStrand n t).krSize = s.krSize := rfl
@[simp] theorem State.setStrand_devid (s : State) (n : Nat) (t : Strand) : (s.setStrand n t).devid = s.devid := rfl
@[simp] theorem State.setStrand_aqInc (s : State) (n : Nat) (t : Strand) : (s.setStrand n t).aqInc = s.aqInc := rfl
@[simp] theorem State.setStrand_selfWas (s : State) (n : Nat) (t : Strand) : (s.setStrand n t).selfWas = s.selfWas := rfl
@[simp] theorem State.setStrand_ptabBase (s : State) (n : Nat) (t : Strand) : (s.setStrand n t).ptabBase = s.ptabBase := rfl
@[simp] theorem State.setStrand_ptabEn (s : State) (n : Nat) (t : Strand) : (s.setStrand n t).ptabEn = s.ptabEn := rfl
@[simp] theorem State.setStrand_aqTurn (s : State) (n : Nat) (t : Strand) : (s.setStrand n t).aqTurn = s.aqTurn := rfl
@[simp] theorem State.setStrand_aqStale (s : State) (n : Nat) (t : Strand) : (s.setStrand n t).aqStale = s.aqStale := rfl
@[simp] theorem State.setStrand_aqSync (s : State) (n : Nat) (t : Strand) : (s.setStrand n t).aqSync = s.aqSync := rfl
@[simp] theorem State.setStrand_aqBound (s : State) (n : Nat) (t : Strand) : (s.setStrand n t).aqBound = s.aqBound := rfl
@[simp] theorem State.setStrand_aqSec (s : State) (n : Nat) (t : Strand) : (s.setStrand n t).aqSec = s.aqSec := rfl
@[simp] theorem State.setStrand_aqNs (s : State) (n : Nat) (t : Strand) : (s.setStrand n t).aqNs = s.aqNs := rfl
@[simp] theorem State.setStrand_aqGood (s : State) (n : Nat) (t : Strand) : (s.setStrand n t).aqGood = s.aqGood := rfl
@[simp] theorem State.setStrand_aqLast (s : State) (n : Nat) (t : Strand) : (s.setStrand n t).aqLast = s.aqLast := rfl
@[simp] theorem State.setStrand_annex (s : State) (n : Nat) (t : Strand) : (s.setStrand n t).annex = s.annex := rfl
@[simp] theorem State.setStrand_monitors (s : State) (n : Nat) (t : Strand) : (s.setStrand n t).monitors = s.monitors := rfl

@[simp] theorem State.setSelf_agenda (s : State) (t : Strand) : (s.setSelf t).agenda = s.agenda := rfl
@[simp] theorem State.setSelf_cur (s : State) (t : Strand) : (s.setSelf t).cur = s.cur := rfl
@[simp] theorem State.setSelf_inp (s : State) (t : Strand) : (s.setSelf t).inp = s.inp := rfl
@[simp] theorem State.setSelf_clk (s : State) (t : Strand) : (s.setSelf t).clk = s.clk := rfl
@[simp] theorem State.setSelf_freeCtr (s : State) (t : Strand) : (s.setSelf t).freeCtr = s.freeCtr := rfl
@[simp] theorem State.setSelf_nextId (s : State) (t : Strand) : (s.setSelf t).nextId = s.nextId := rfl
@[simp] theorem State.setSelf_rowCtx (s : State) (t : Strand) : (s.setSelf t).rowCtx = s.rowCtx := rfl
@[simp] theorem State.setSelf_cores (s : State) (t : Strand) : (s.setSelf t).cores = s.cores := rfl
@[simp] theorem State.setSelf_quads (s : State) (t : Strand) : (s.setSelf t).quads = s.quads := rfl
@[simp] theorem State.setSelf_basins (s : State) (t : Strand) : (s.setSelf t).basins = s.basins := rfl
@[simp] theorem State.setSelf_banks (s : State) (t : Strand) : (s.setSelf t).banks = s.banks := rfl
@[simp] theorem State.setSelf_latches (s : State) (t : Strand) : (s.setSelf t).latches = s.latches := rfl
@[simp] theorem State.setSelf_comp (s : State) (t : Strand) : (s.setSelf t).comp = s.comp := rfl
@[simp] theorem State.setSelf_unchecked (s : State) (t : Strand) : (s.setSelf t).unchecked = s.unchecked := rfl
@[simp] theorem State.setSelf_errs (s : State) (t : Strand) : (s.setSelf t).errs = s.errs := rfl
@[simp] theorem State.setSelf_spInit (s : State) (t : Strand) : (s.setSelf t).spInit = s.spInit := rfl
@[simp] theorem State.setSelf_sense (s : State) (t : Strand) : (s.setSelf t).sense = s.sense := rfl
@[simp] theorem State.setSelf_ops (s : State) (t : Strand) : (s.setSelf t).ops = s.ops := rfl
@[simp] theorem State.setSelf_mem (s : State) (t : Strand) : (s.setSelf t).mem = s.mem := rfl
@[simp] theorem State.setSelf_cache (s : State) (t : Strand) : (s.setSelf t).cache = s.cache := rfl
@[simp] theorem State.setSelf_copies (s : State) (t : Strand) : (s.setSelf t).copies = s.copies := rfl
@[simp] theorem State.setSelf_vec (s : State) (t : Strand) : (s.setSelf t).vec = s.vec := rfl
@[simp] theorem State.setSelf_tlb (s : State) (t : Strand) : (s.setSelf t).tlb = s.tlb := rfl
@[simp] theorem State.setSelf_ats (s : State) (t : Strand) : (s.setSelf t).ats = s.ats := rfl
@[simp] theorem State.setSelf_frames (s : State) (t : Strand) : (s.setSelf t).frames = s.frames := rfl
@[simp] theorem State.setSelf_casts (s : State) (t : Strand) : (s.setSelf t).casts = s.casts := rfl
@[simp] theorem State.setSelf_hostMem (s : State) (t : Strand) : (s.setSelf t).hostMem = s.hostMem := rfl
@[simp] theorem State.setSelf_hostPoison (s : State) (t : Strand) : (s.setSelf t).hostPoison = s.hostPoison := rfl
@[simp] theorem State.setSelf_resv (s : State) (t : Strand) : (s.setSelf t).resv = s.resv := rfl
@[simp] theorem State.setSelf_peer (s : State) (t : Strand) : (s.setSelf t).peer = s.peer := rfl
@[simp] theorem State.setSelf_granted (s : State) (t : Strand) : (s.setSelf t).granted = s.granted := rfl
@[simp] theorem State.setSelf_rlinks (s : State) (t : Strand) : (s.setSelf t).rlinks = s.rlinks := rfl
@[simp] theorem State.setSelf_groups (s : State) (t : Strand) : (s.setSelf t).groups = s.groups := rfl
@[simp] theorem State.setSelf_saved (s : State) (t : Strand) : (s.setSelf t).saved = s.saved := rfl
@[simp] theorem State.setSelf_pageReqs (s : State) (t : Strand) : (s.setSelf t).pageReqs = s.pageReqs := rfl
@[simp] theorem State.setSelf_pageHeld (s : State) (t : Strand) : (s.setSelf t).pageHeld = s.pageHeld := rfl
@[simp] theorem State.setSelf_hostCopies (s : State) (t : Strand) : (s.setSelf t).hostCopies = s.hostCopies := rfl
@[simp] theorem State.setSelf_deferred (s : State) (t : Strand) : (s.setSelf t).deferred = s.deferred := rfl
@[simp] theorem State.setSelf_atsInvs (s : State) (t : Strand) : (s.setSelf t).atsInvs = s.atsInvs := rfl
@[simp] theorem State.setSelf_nextTag (s : State) (t : Strand) : (s.setSelf t).nextTag = s.nextTag := rfl
@[simp] theorem State.setSelf_out (s : State) (t : Strand) : (s.setSelf t).out = s.out := rfl
@[simp] theorem State.setSelf_ctxtabBase (s : State) (t : Strand) : (s.setSelf t).ctxtabBase = s.ctxtabBase := rfl
@[simp] theorem State.setSelf_ctxtabLog2n (s : State) (t : Strand) : (s.setSelf t).ctxtabLog2n = s.ctxtabLog2n := rfl
@[simp] theorem State.setSelf_ctxtabWritten (s : State) (t : Strand) : (s.setSelf t).ctxtabWritten = s.ctxtabWritten := rfl
@[simp] theorem State.setSelf_hdmt (s : State) (t : Strand) : (s.setSelf t).hdmt = s.hdmt := rfl
@[simp] theorem State.setSelf_hdmtWritten (s : State) (t : Strand) : (s.setSelf t).hdmtWritten = s.hdmtWritten := rfl
@[simp] theorem State.setSelf_arfb (s : State) (t : Strand) : (s.setSelf t).arfb = s.arfb := rfl
@[simp] theorem State.setSelf_arfcLimit (s : State) (t : Strand) : (s.setSelf t).arfcLimit = s.arfcLimit := rfl
@[simp] theorem State.setSelf_arfcFmt (s : State) (t : Strand) : (s.setSelf t).arfcFmt = s.arfcFmt := rfl
@[simp] theorem State.setSelf_arfcEn (s : State) (t : Strand) : (s.setSelf t).arfcEn = s.arfcEn := rfl
@[simp] theorem State.setSelf_xvec (s : State) (t : Strand) : (s.setSelf t).xvec = s.xvec := rfl
@[simp] theorem State.setSelf_krBase (s : State) (t : Strand) : (s.setSelf t).krBase = s.krBase := rfl
@[simp] theorem State.setSelf_krSize (s : State) (t : Strand) : (s.setSelf t).krSize = s.krSize := rfl
@[simp] theorem State.setSelf_devid (s : State) (t : Strand) : (s.setSelf t).devid = s.devid := rfl
@[simp] theorem State.setSelf_aqInc (s : State) (t : Strand) : (s.setSelf t).aqInc = s.aqInc := rfl
@[simp] theorem State.setSelf_selfWas (s : State) (t : Strand) : (s.setSelf t).selfWas = s.selfWas := rfl
@[simp] theorem State.setSelf_ptabBase (s : State) (t : Strand) : (s.setSelf t).ptabBase = s.ptabBase := rfl
@[simp] theorem State.setSelf_ptabEn (s : State) (t : Strand) : (s.setSelf t).ptabEn = s.ptabEn := rfl
@[simp] theorem State.setSelf_aqTurn (s : State) (t : Strand) : (s.setSelf t).aqTurn = s.aqTurn := rfl
@[simp] theorem State.setSelf_aqStale (s : State) (t : Strand) : (s.setSelf t).aqStale = s.aqStale := rfl
@[simp] theorem State.setSelf_aqSync (s : State) (t : Strand) : (s.setSelf t).aqSync = s.aqSync := rfl
@[simp] theorem State.setSelf_aqBound (s : State) (t : Strand) : (s.setSelf t).aqBound = s.aqBound := rfl
@[simp] theorem State.setSelf_aqSec (s : State) (t : Strand) : (s.setSelf t).aqSec = s.aqSec := rfl
@[simp] theorem State.setSelf_aqNs (s : State) (t : Strand) : (s.setSelf t).aqNs = s.aqNs := rfl
@[simp] theorem State.setSelf_aqGood (s : State) (t : Strand) : (s.setSelf t).aqGood = s.aqGood := rfl
@[simp] theorem State.setSelf_aqLast (s : State) (t : Strand) : (s.setSelf t).aqLast = s.aqLast := rfl
@[simp] theorem State.setSelf_annex (s : State) (t : Strand) : (s.setSelf t).annex = s.annex := rfl
@[simp] theorem State.setSelf_monitors (s : State) (t : Strand) : (s.setSelf t).monitors = s.monitors := rfl

@[simp] theorem State.modSelf_agenda (s : State) (f : Strand → Strand) : (s.modSelf f).agenda = s.agenda := rfl
@[simp] theorem State.modSelf_cur (s : State) (f : Strand → Strand) : (s.modSelf f).cur = s.cur := rfl
@[simp] theorem State.modSelf_inp (s : State) (f : Strand → Strand) : (s.modSelf f).inp = s.inp := rfl
@[simp] theorem State.modSelf_clk (s : State) (f : Strand → Strand) : (s.modSelf f).clk = s.clk := rfl
@[simp] theorem State.modSelf_freeCtr (s : State) (f : Strand → Strand) : (s.modSelf f).freeCtr = s.freeCtr := rfl
@[simp] theorem State.modSelf_nextId (s : State) (f : Strand → Strand) : (s.modSelf f).nextId = s.nextId := rfl
@[simp] theorem State.modSelf_rowCtx (s : State) (f : Strand → Strand) : (s.modSelf f).rowCtx = s.rowCtx := rfl
@[simp] theorem State.modSelf_cores (s : State) (f : Strand → Strand) : (s.modSelf f).cores = s.cores := rfl
@[simp] theorem State.modSelf_quads (s : State) (f : Strand → Strand) : (s.modSelf f).quads = s.quads := rfl
@[simp] theorem State.modSelf_basins (s : State) (f : Strand → Strand) : (s.modSelf f).basins = s.basins := rfl
@[simp] theorem State.modSelf_banks (s : State) (f : Strand → Strand) : (s.modSelf f).banks = s.banks := rfl
@[simp] theorem State.modSelf_latches (s : State) (f : Strand → Strand) : (s.modSelf f).latches = s.latches := rfl
@[simp] theorem State.modSelf_comp (s : State) (f : Strand → Strand) : (s.modSelf f).comp = s.comp := rfl
@[simp] theorem State.modSelf_unchecked (s : State) (f : Strand → Strand) : (s.modSelf f).unchecked = s.unchecked := rfl
@[simp] theorem State.modSelf_errs (s : State) (f : Strand → Strand) : (s.modSelf f).errs = s.errs := rfl
@[simp] theorem State.modSelf_spInit (s : State) (f : Strand → Strand) : (s.modSelf f).spInit = s.spInit := rfl
@[simp] theorem State.modSelf_sense (s : State) (f : Strand → Strand) : (s.modSelf f).sense = s.sense := rfl
@[simp] theorem State.modSelf_ops (s : State) (f : Strand → Strand) : (s.modSelf f).ops = s.ops := rfl
@[simp] theorem State.modSelf_mem (s : State) (f : Strand → Strand) : (s.modSelf f).mem = s.mem := rfl
@[simp] theorem State.modSelf_cache (s : State) (f : Strand → Strand) : (s.modSelf f).cache = s.cache := rfl
@[simp] theorem State.modSelf_copies (s : State) (f : Strand → Strand) : (s.modSelf f).copies = s.copies := rfl
@[simp] theorem State.modSelf_vec (s : State) (f : Strand → Strand) : (s.modSelf f).vec = s.vec := rfl
@[simp] theorem State.modSelf_tlb (s : State) (f : Strand → Strand) : (s.modSelf f).tlb = s.tlb := rfl
@[simp] theorem State.modSelf_ats (s : State) (f : Strand → Strand) : (s.modSelf f).ats = s.ats := rfl
@[simp] theorem State.modSelf_frames (s : State) (f : Strand → Strand) : (s.modSelf f).frames = s.frames := rfl
@[simp] theorem State.modSelf_casts (s : State) (f : Strand → Strand) : (s.modSelf f).casts = s.casts := rfl
@[simp] theorem State.modSelf_hostMem (s : State) (f : Strand → Strand) : (s.modSelf f).hostMem = s.hostMem := rfl
@[simp] theorem State.modSelf_hostPoison (s : State) (f : Strand → Strand) : (s.modSelf f).hostPoison = s.hostPoison := rfl
@[simp] theorem State.modSelf_resv (s : State) (f : Strand → Strand) : (s.modSelf f).resv = s.resv := rfl
@[simp] theorem State.modSelf_peer (s : State) (f : Strand → Strand) : (s.modSelf f).peer = s.peer := rfl
@[simp] theorem State.modSelf_granted (s : State) (f : Strand → Strand) : (s.modSelf f).granted = s.granted := rfl
@[simp] theorem State.modSelf_rlinks (s : State) (f : Strand → Strand) : (s.modSelf f).rlinks = s.rlinks := rfl
@[simp] theorem State.modSelf_groups (s : State) (f : Strand → Strand) : (s.modSelf f).groups = s.groups := rfl
@[simp] theorem State.modSelf_saved (s : State) (f : Strand → Strand) : (s.modSelf f).saved = s.saved := rfl
@[simp] theorem State.modSelf_pageReqs (s : State) (f : Strand → Strand) : (s.modSelf f).pageReqs = s.pageReqs := rfl
@[simp] theorem State.modSelf_pageHeld (s : State) (f : Strand → Strand) : (s.modSelf f).pageHeld = s.pageHeld := rfl
@[simp] theorem State.modSelf_hostCopies (s : State) (f : Strand → Strand) : (s.modSelf f).hostCopies = s.hostCopies := rfl
@[simp] theorem State.modSelf_deferred (s : State) (f : Strand → Strand) : (s.modSelf f).deferred = s.deferred := rfl
@[simp] theorem State.modSelf_atsInvs (s : State) (f : Strand → Strand) : (s.modSelf f).atsInvs = s.atsInvs := rfl
@[simp] theorem State.modSelf_nextTag (s : State) (f : Strand → Strand) : (s.modSelf f).nextTag = s.nextTag := rfl
@[simp] theorem State.modSelf_out (s : State) (f : Strand → Strand) : (s.modSelf f).out = s.out := rfl
@[simp] theorem State.modSelf_ctxtabBase (s : State) (f : Strand → Strand) : (s.modSelf f).ctxtabBase = s.ctxtabBase := rfl
@[simp] theorem State.modSelf_ctxtabLog2n (s : State) (f : Strand → Strand) : (s.modSelf f).ctxtabLog2n = s.ctxtabLog2n := rfl
@[simp] theorem State.modSelf_ctxtabWritten (s : State) (f : Strand → Strand) : (s.modSelf f).ctxtabWritten = s.ctxtabWritten := rfl
@[simp] theorem State.modSelf_hdmt (s : State) (f : Strand → Strand) : (s.modSelf f).hdmt = s.hdmt := rfl
@[simp] theorem State.modSelf_hdmtWritten (s : State) (f : Strand → Strand) : (s.modSelf f).hdmtWritten = s.hdmtWritten := rfl
@[simp] theorem State.modSelf_arfb (s : State) (f : Strand → Strand) : (s.modSelf f).arfb = s.arfb := rfl
@[simp] theorem State.modSelf_arfcLimit (s : State) (f : Strand → Strand) : (s.modSelf f).arfcLimit = s.arfcLimit := rfl
@[simp] theorem State.modSelf_arfcFmt (s : State) (f : Strand → Strand) : (s.modSelf f).arfcFmt = s.arfcFmt := rfl
@[simp] theorem State.modSelf_arfcEn (s : State) (f : Strand → Strand) : (s.modSelf f).arfcEn = s.arfcEn := rfl
@[simp] theorem State.modSelf_xvec (s : State) (f : Strand → Strand) : (s.modSelf f).xvec = s.xvec := rfl
@[simp] theorem State.modSelf_krBase (s : State) (f : Strand → Strand) : (s.modSelf f).krBase = s.krBase := rfl
@[simp] theorem State.modSelf_krSize (s : State) (f : Strand → Strand) : (s.modSelf f).krSize = s.krSize := rfl
@[simp] theorem State.modSelf_devid (s : State) (f : Strand → Strand) : (s.modSelf f).devid = s.devid := rfl
@[simp] theorem State.modSelf_aqInc (s : State) (f : Strand → Strand) : (s.modSelf f).aqInc = s.aqInc := rfl
@[simp] theorem State.modSelf_selfWas (s : State) (f : Strand → Strand) : (s.modSelf f).selfWas = s.selfWas := rfl
@[simp] theorem State.modSelf_ptabBase (s : State) (f : Strand → Strand) : (s.modSelf f).ptabBase = s.ptabBase := rfl
@[simp] theorem State.modSelf_ptabEn (s : State) (f : Strand → Strand) : (s.modSelf f).ptabEn = s.ptabEn := rfl
@[simp] theorem State.modSelf_aqTurn (s : State) (f : Strand → Strand) : (s.modSelf f).aqTurn = s.aqTurn := rfl
@[simp] theorem State.modSelf_aqStale (s : State) (f : Strand → Strand) : (s.modSelf f).aqStale = s.aqStale := rfl
@[simp] theorem State.modSelf_aqSync (s : State) (f : Strand → Strand) : (s.modSelf f).aqSync = s.aqSync := rfl
@[simp] theorem State.modSelf_aqBound (s : State) (f : Strand → Strand) : (s.modSelf f).aqBound = s.aqBound := rfl
@[simp] theorem State.modSelf_aqSec (s : State) (f : Strand → Strand) : (s.modSelf f).aqSec = s.aqSec := rfl
@[simp] theorem State.modSelf_aqNs (s : State) (f : Strand → Strand) : (s.modSelf f).aqNs = s.aqNs := rfl
@[simp] theorem State.modSelf_aqGood (s : State) (f : Strand → Strand) : (s.modSelf f).aqGood = s.aqGood := rfl
@[simp] theorem State.modSelf_aqLast (s : State) (f : Strand → Strand) : (s.modSelf f).aqLast = s.aqLast := rfl
@[simp] theorem State.modSelf_annex (s : State) (f : Strand → Strand) : (s.modSelf f).annex = s.annex := rfl
@[simp] theorem State.modSelf_monitors (s : State) (f : Strand → Strand) : (s.modSelf f).monitors = s.monitors := rfl

@[simp] theorem State.freeSlot_agenda (s : State) (n : Nat) : (s.freeSlot n).agenda = s.agenda := rfl
@[simp] theorem State.freeSlot_cur (s : State) (n : Nat) : (s.freeSlot n).cur = s.cur := rfl
@[simp] theorem State.freeSlot_inp (s : State) (n : Nat) : (s.freeSlot n).inp = s.inp := rfl
@[simp] theorem State.freeSlot_clk (s : State) (n : Nat) : (s.freeSlot n).clk = s.clk := rfl
@[simp] theorem State.freeSlot_freeCtr (s : State) (n : Nat) : (s.freeSlot n).freeCtr = s.freeCtr := rfl
@[simp] theorem State.freeSlot_nextId (s : State) (n : Nat) : (s.freeSlot n).nextId = s.nextId := rfl
@[simp] theorem State.freeSlot_rowCtx (s : State) (n : Nat) : (s.freeSlot n).rowCtx = s.rowCtx := rfl
@[simp] theorem State.freeSlot_cores (s : State) (n : Nat) : (s.freeSlot n).cores = s.cores := rfl
@[simp] theorem State.freeSlot_quads (s : State) (n : Nat) : (s.freeSlot n).quads = s.quads := rfl
@[simp] theorem State.freeSlot_basins (s : State) (n : Nat) : (s.freeSlot n).basins = s.basins := rfl
@[simp] theorem State.freeSlot_banks (s : State) (n : Nat) : (s.freeSlot n).banks = s.banks := rfl
@[simp] theorem State.freeSlot_latches (s : State) (n : Nat) : (s.freeSlot n).latches = s.latches := rfl
@[simp] theorem State.freeSlot_comp (s : State) (n : Nat) : (s.freeSlot n).comp = s.comp := rfl
@[simp] theorem State.freeSlot_unchecked (s : State) (n : Nat) : (s.freeSlot n).unchecked = s.unchecked := rfl
@[simp] theorem State.freeSlot_errs (s : State) (n : Nat) : (s.freeSlot n).errs = s.errs := rfl
@[simp] theorem State.freeSlot_spInit (s : State) (n : Nat) : (s.freeSlot n).spInit = s.spInit := rfl
@[simp] theorem State.freeSlot_sense (s : State) (n : Nat) : (s.freeSlot n).sense = s.sense := rfl
@[simp] theorem State.freeSlot_ops (s : State) (n : Nat) : (s.freeSlot n).ops = s.ops := rfl
@[simp] theorem State.freeSlot_mem (s : State) (n : Nat) : (s.freeSlot n).mem = s.mem := rfl
@[simp] theorem State.freeSlot_cache (s : State) (n : Nat) : (s.freeSlot n).cache = s.cache := rfl
@[simp] theorem State.freeSlot_copies (s : State) (n : Nat) : (s.freeSlot n).copies = s.copies := rfl
@[simp] theorem State.freeSlot_vec (s : State) (n : Nat) : (s.freeSlot n).vec = s.vec := rfl
@[simp] theorem State.freeSlot_tlb (s : State) (n : Nat) : (s.freeSlot n).tlb = s.tlb := rfl
@[simp] theorem State.freeSlot_ats (s : State) (n : Nat) : (s.freeSlot n).ats = s.ats := rfl
@[simp] theorem State.freeSlot_frames (s : State) (n : Nat) : (s.freeSlot n).frames = s.frames := rfl
@[simp] theorem State.freeSlot_casts (s : State) (n : Nat) : (s.freeSlot n).casts = s.casts := rfl
@[simp] theorem State.freeSlot_hostMem (s : State) (n : Nat) : (s.freeSlot n).hostMem = s.hostMem := rfl
@[simp] theorem State.freeSlot_hostPoison (s : State) (n : Nat) : (s.freeSlot n).hostPoison = s.hostPoison := rfl
@[simp] theorem State.freeSlot_resv (s : State) (n : Nat) : (s.freeSlot n).resv = s.resv := rfl
@[simp] theorem State.freeSlot_peer (s : State) (n : Nat) : (s.freeSlot n).peer = s.peer := rfl
@[simp] theorem State.freeSlot_granted (s : State) (n : Nat) : (s.freeSlot n).granted = s.granted := rfl
@[simp] theorem State.freeSlot_rlinks (s : State) (n : Nat) : (s.freeSlot n).rlinks = s.rlinks := rfl
@[simp] theorem State.freeSlot_groups (s : State) (n : Nat) : (s.freeSlot n).groups = s.groups := rfl
@[simp] theorem State.freeSlot_saved (s : State) (n : Nat) : (s.freeSlot n).saved = s.saved := rfl
@[simp] theorem State.freeSlot_pageReqs (s : State) (n : Nat) : (s.freeSlot n).pageReqs = s.pageReqs := rfl
@[simp] theorem State.freeSlot_pageHeld (s : State) (n : Nat) : (s.freeSlot n).pageHeld = s.pageHeld := rfl
@[simp] theorem State.freeSlot_hostCopies (s : State) (n : Nat) : (s.freeSlot n).hostCopies = s.hostCopies := rfl
@[simp] theorem State.freeSlot_deferred (s : State) (n : Nat) : (s.freeSlot n).deferred = s.deferred := rfl
@[simp] theorem State.freeSlot_atsInvs (s : State) (n : Nat) : (s.freeSlot n).atsInvs = s.atsInvs := rfl
@[simp] theorem State.freeSlot_nextTag (s : State) (n : Nat) : (s.freeSlot n).nextTag = s.nextTag := rfl
@[simp] theorem State.freeSlot_out (s : State) (n : Nat) : (s.freeSlot n).out = s.out := rfl
@[simp] theorem State.freeSlot_ctxtabBase (s : State) (n : Nat) : (s.freeSlot n).ctxtabBase = s.ctxtabBase := rfl
@[simp] theorem State.freeSlot_ctxtabLog2n (s : State) (n : Nat) : (s.freeSlot n).ctxtabLog2n = s.ctxtabLog2n := rfl
@[simp] theorem State.freeSlot_ctxtabWritten (s : State) (n : Nat) : (s.freeSlot n).ctxtabWritten = s.ctxtabWritten := rfl
@[simp] theorem State.freeSlot_hdmt (s : State) (n : Nat) : (s.freeSlot n).hdmt = s.hdmt := rfl
@[simp] theorem State.freeSlot_hdmtWritten (s : State) (n : Nat) : (s.freeSlot n).hdmtWritten = s.hdmtWritten := rfl
@[simp] theorem State.freeSlot_arfb (s : State) (n : Nat) : (s.freeSlot n).arfb = s.arfb := rfl
@[simp] theorem State.freeSlot_arfcLimit (s : State) (n : Nat) : (s.freeSlot n).arfcLimit = s.arfcLimit := rfl
@[simp] theorem State.freeSlot_arfcFmt (s : State) (n : Nat) : (s.freeSlot n).arfcFmt = s.arfcFmt := rfl
@[simp] theorem State.freeSlot_arfcEn (s : State) (n : Nat) : (s.freeSlot n).arfcEn = s.arfcEn := rfl
@[simp] theorem State.freeSlot_xvec (s : State) (n : Nat) : (s.freeSlot n).xvec = s.xvec := rfl
@[simp] theorem State.freeSlot_krBase (s : State) (n : Nat) : (s.freeSlot n).krBase = s.krBase := rfl
@[simp] theorem State.freeSlot_krSize (s : State) (n : Nat) : (s.freeSlot n).krSize = s.krSize := rfl
@[simp] theorem State.freeSlot_devid (s : State) (n : Nat) : (s.freeSlot n).devid = s.devid := rfl
@[simp] theorem State.freeSlot_aqInc (s : State) (n : Nat) : (s.freeSlot n).aqInc = s.aqInc := rfl
@[simp] theorem State.freeSlot_selfWas (s : State) (n : Nat) : (s.freeSlot n).selfWas = s.selfWas := rfl
@[simp] theorem State.freeSlot_ptabBase (s : State) (n : Nat) : (s.freeSlot n).ptabBase = s.ptabBase := rfl
@[simp] theorem State.freeSlot_ptabEn (s : State) (n : Nat) : (s.freeSlot n).ptabEn = s.ptabEn := rfl
@[simp] theorem State.freeSlot_aqTurn (s : State) (n : Nat) : (s.freeSlot n).aqTurn = s.aqTurn := rfl
@[simp] theorem State.freeSlot_aqStale (s : State) (n : Nat) : (s.freeSlot n).aqStale = s.aqStale := rfl
@[simp] theorem State.freeSlot_aqSync (s : State) (n : Nat) : (s.freeSlot n).aqSync = s.aqSync := rfl
@[simp] theorem State.freeSlot_aqBound (s : State) (n : Nat) : (s.freeSlot n).aqBound = s.aqBound := rfl
@[simp] theorem State.freeSlot_aqSec (s : State) (n : Nat) : (s.freeSlot n).aqSec = s.aqSec := rfl
@[simp] theorem State.freeSlot_aqNs (s : State) (n : Nat) : (s.freeSlot n).aqNs = s.aqNs := rfl
@[simp] theorem State.freeSlot_aqGood (s : State) (n : Nat) : (s.freeSlot n).aqGood = s.aqGood := rfl
@[simp] theorem State.freeSlot_aqLast (s : State) (n : Nat) : (s.freeSlot n).aqLast = s.aqLast := rfl
@[simp] theorem State.freeSlot_annex (s : State) (n : Nat) : (s.freeSlot n).annex = s.annex := rfl
@[simp] theorem State.freeSlot_monitors (s : State) (n : Nat) : (s.freeSlot n).monitors = s.monitors := rfl

@[simp] theorem State.setCore_agenda (s : State) (n : Nat) (x : Core) : (s.setCore n x).agenda = s.agenda := rfl
@[simp] theorem State.setCore_cur (s : State) (n : Nat) (x : Core) : (s.setCore n x).cur = s.cur := rfl
@[simp] theorem State.setCore_inp (s : State) (n : Nat) (x : Core) : (s.setCore n x).inp = s.inp := rfl
@[simp] theorem State.setCore_clk (s : State) (n : Nat) (x : Core) : (s.setCore n x).clk = s.clk := rfl
@[simp] theorem State.setCore_freeCtr (s : State) (n : Nat) (x : Core) : (s.setCore n x).freeCtr = s.freeCtr := rfl
@[simp] theorem State.setCore_nextId (s : State) (n : Nat) (x : Core) : (s.setCore n x).nextId = s.nextId := rfl
@[simp] theorem State.setCore_rowCtx (s : State) (n : Nat) (x : Core) : (s.setCore n x).rowCtx = s.rowCtx := rfl
@[simp] theorem State.setCore_strands (s : State) (n : Nat) (x : Core) : (s.setCore n x).strands = s.strands := rfl
@[simp] theorem State.setCore_quads (s : State) (n : Nat) (x : Core) : (s.setCore n x).quads = s.quads := rfl
@[simp] theorem State.setCore_basins (s : State) (n : Nat) (x : Core) : (s.setCore n x).basins = s.basins := rfl
@[simp] theorem State.setCore_banks (s : State) (n : Nat) (x : Core) : (s.setCore n x).banks = s.banks := rfl
@[simp] theorem State.setCore_latches (s : State) (n : Nat) (x : Core) : (s.setCore n x).latches = s.latches := rfl
@[simp] theorem State.setCore_comp (s : State) (n : Nat) (x : Core) : (s.setCore n x).comp = s.comp := rfl
@[simp] theorem State.setCore_unchecked (s : State) (n : Nat) (x : Core) : (s.setCore n x).unchecked = s.unchecked := rfl
@[simp] theorem State.setCore_errs (s : State) (n : Nat) (x : Core) : (s.setCore n x).errs = s.errs := rfl
@[simp] theorem State.setCore_spInit (s : State) (n : Nat) (x : Core) : (s.setCore n x).spInit = s.spInit := rfl
@[simp] theorem State.setCore_sense (s : State) (n : Nat) (x : Core) : (s.setCore n x).sense = s.sense := rfl
@[simp] theorem State.setCore_ops (s : State) (n : Nat) (x : Core) : (s.setCore n x).ops = s.ops := rfl
@[simp] theorem State.setCore_mem (s : State) (n : Nat) (x : Core) : (s.setCore n x).mem = s.mem := rfl
@[simp] theorem State.setCore_cache (s : State) (n : Nat) (x : Core) : (s.setCore n x).cache = s.cache := rfl
@[simp] theorem State.setCore_copies (s : State) (n : Nat) (x : Core) : (s.setCore n x).copies = s.copies := rfl
@[simp] theorem State.setCore_vec (s : State) (n : Nat) (x : Core) : (s.setCore n x).vec = s.vec := rfl
@[simp] theorem State.setCore_tlb (s : State) (n : Nat) (x : Core) : (s.setCore n x).tlb = s.tlb := rfl
@[simp] theorem State.setCore_ats (s : State) (n : Nat) (x : Core) : (s.setCore n x).ats = s.ats := rfl
@[simp] theorem State.setCore_frames (s : State) (n : Nat) (x : Core) : (s.setCore n x).frames = s.frames := rfl
@[simp] theorem State.setCore_casts (s : State) (n : Nat) (x : Core) : (s.setCore n x).casts = s.casts := rfl
@[simp] theorem State.setCore_hostMem (s : State) (n : Nat) (x : Core) : (s.setCore n x).hostMem = s.hostMem := rfl
@[simp] theorem State.setCore_hostPoison (s : State) (n : Nat) (x : Core) : (s.setCore n x).hostPoison = s.hostPoison := rfl
@[simp] theorem State.setCore_resv (s : State) (n : Nat) (x : Core) : (s.setCore n x).resv = s.resv := rfl
@[simp] theorem State.setCore_peer (s : State) (n : Nat) (x : Core) : (s.setCore n x).peer = s.peer := rfl
@[simp] theorem State.setCore_granted (s : State) (n : Nat) (x : Core) : (s.setCore n x).granted = s.granted := rfl
@[simp] theorem State.setCore_rlinks (s : State) (n : Nat) (x : Core) : (s.setCore n x).rlinks = s.rlinks := rfl
@[simp] theorem State.setCore_groups (s : State) (n : Nat) (x : Core) : (s.setCore n x).groups = s.groups := rfl
@[simp] theorem State.setCore_saved (s : State) (n : Nat) (x : Core) : (s.setCore n x).saved = s.saved := rfl
@[simp] theorem State.setCore_pageReqs (s : State) (n : Nat) (x : Core) : (s.setCore n x).pageReqs = s.pageReqs := rfl
@[simp] theorem State.setCore_pageHeld (s : State) (n : Nat) (x : Core) : (s.setCore n x).pageHeld = s.pageHeld := rfl
@[simp] theorem State.setCore_hostCopies (s : State) (n : Nat) (x : Core) : (s.setCore n x).hostCopies = s.hostCopies := rfl
@[simp] theorem State.setCore_deferred (s : State) (n : Nat) (x : Core) : (s.setCore n x).deferred = s.deferred := rfl
@[simp] theorem State.setCore_atsInvs (s : State) (n : Nat) (x : Core) : (s.setCore n x).atsInvs = s.atsInvs := rfl
@[simp] theorem State.setCore_nextTag (s : State) (n : Nat) (x : Core) : (s.setCore n x).nextTag = s.nextTag := rfl
@[simp] theorem State.setCore_out (s : State) (n : Nat) (x : Core) : (s.setCore n x).out = s.out := rfl
@[simp] theorem State.setCore_ctxtabBase (s : State) (n : Nat) (x : Core) : (s.setCore n x).ctxtabBase = s.ctxtabBase := rfl
@[simp] theorem State.setCore_ctxtabLog2n (s : State) (n : Nat) (x : Core) : (s.setCore n x).ctxtabLog2n = s.ctxtabLog2n := rfl
@[simp] theorem State.setCore_ctxtabWritten (s : State) (n : Nat) (x : Core) : (s.setCore n x).ctxtabWritten = s.ctxtabWritten := rfl
@[simp] theorem State.setCore_hdmt (s : State) (n : Nat) (x : Core) : (s.setCore n x).hdmt = s.hdmt := rfl
@[simp] theorem State.setCore_hdmtWritten (s : State) (n : Nat) (x : Core) : (s.setCore n x).hdmtWritten = s.hdmtWritten := rfl
@[simp] theorem State.setCore_arfb (s : State) (n : Nat) (x : Core) : (s.setCore n x).arfb = s.arfb := rfl
@[simp] theorem State.setCore_arfcLimit (s : State) (n : Nat) (x : Core) : (s.setCore n x).arfcLimit = s.arfcLimit := rfl
@[simp] theorem State.setCore_arfcFmt (s : State) (n : Nat) (x : Core) : (s.setCore n x).arfcFmt = s.arfcFmt := rfl
@[simp] theorem State.setCore_arfcEn (s : State) (n : Nat) (x : Core) : (s.setCore n x).arfcEn = s.arfcEn := rfl
@[simp] theorem State.setCore_xvec (s : State) (n : Nat) (x : Core) : (s.setCore n x).xvec = s.xvec := rfl
@[simp] theorem State.setCore_krBase (s : State) (n : Nat) (x : Core) : (s.setCore n x).krBase = s.krBase := rfl
@[simp] theorem State.setCore_krSize (s : State) (n : Nat) (x : Core) : (s.setCore n x).krSize = s.krSize := rfl
@[simp] theorem State.setCore_devid (s : State) (n : Nat) (x : Core) : (s.setCore n x).devid = s.devid := rfl
@[simp] theorem State.setCore_aqInc (s : State) (n : Nat) (x : Core) : (s.setCore n x).aqInc = s.aqInc := rfl
@[simp] theorem State.setCore_selfWas (s : State) (n : Nat) (x : Core) : (s.setCore n x).selfWas = s.selfWas := rfl
@[simp] theorem State.setCore_ptabBase (s : State) (n : Nat) (x : Core) : (s.setCore n x).ptabBase = s.ptabBase := rfl
@[simp] theorem State.setCore_ptabEn (s : State) (n : Nat) (x : Core) : (s.setCore n x).ptabEn = s.ptabEn := rfl
@[simp] theorem State.setCore_aqTurn (s : State) (n : Nat) (x : Core) : (s.setCore n x).aqTurn = s.aqTurn := rfl
@[simp] theorem State.setCore_aqStale (s : State) (n : Nat) (x : Core) : (s.setCore n x).aqStale = s.aqStale := rfl
@[simp] theorem State.setCore_aqSync (s : State) (n : Nat) (x : Core) : (s.setCore n x).aqSync = s.aqSync := rfl
@[simp] theorem State.setCore_aqBound (s : State) (n : Nat) (x : Core) : (s.setCore n x).aqBound = s.aqBound := rfl
@[simp] theorem State.setCore_aqSec (s : State) (n : Nat) (x : Core) : (s.setCore n x).aqSec = s.aqSec := rfl
@[simp] theorem State.setCore_aqNs (s : State) (n : Nat) (x : Core) : (s.setCore n x).aqNs = s.aqNs := rfl
@[simp] theorem State.setCore_aqGood (s : State) (n : Nat) (x : Core) : (s.setCore n x).aqGood = s.aqGood := rfl
@[simp] theorem State.setCore_aqLast (s : State) (n : Nat) (x : Core) : (s.setCore n x).aqLast = s.aqLast := rfl
@[simp] theorem State.setCore_annex (s : State) (n : Nat) (x : Core) : (s.setCore n x).annex = s.annex := rfl
@[simp] theorem State.setCore_monitors (s : State) (n : Nat) (x : Core) : (s.setCore n x).monitors = s.monitors := rfl

@[simp] theorem State.setBasin_agenda (s : State) (n : Nat) (x : Basin) : (s.setBasin n x).agenda = s.agenda := rfl
@[simp] theorem State.setBasin_cur (s : State) (n : Nat) (x : Basin) : (s.setBasin n x).cur = s.cur := rfl
@[simp] theorem State.setBasin_inp (s : State) (n : Nat) (x : Basin) : (s.setBasin n x).inp = s.inp := rfl
@[simp] theorem State.setBasin_clk (s : State) (n : Nat) (x : Basin) : (s.setBasin n x).clk = s.clk := rfl
@[simp] theorem State.setBasin_freeCtr (s : State) (n : Nat) (x : Basin) : (s.setBasin n x).freeCtr = s.freeCtr := rfl
@[simp] theorem State.setBasin_nextId (s : State) (n : Nat) (x : Basin) : (s.setBasin n x).nextId = s.nextId := rfl
@[simp] theorem State.setBasin_rowCtx (s : State) (n : Nat) (x : Basin) : (s.setBasin n x).rowCtx = s.rowCtx := rfl
@[simp] theorem State.setBasin_strands (s : State) (n : Nat) (x : Basin) : (s.setBasin n x).strands = s.strands := rfl
@[simp] theorem State.setBasin_cores (s : State) (n : Nat) (x : Basin) : (s.setBasin n x).cores = s.cores := rfl
@[simp] theorem State.setBasin_quads (s : State) (n : Nat) (x : Basin) : (s.setBasin n x).quads = s.quads := rfl
@[simp] theorem State.setBasin_banks (s : State) (n : Nat) (x : Basin) : (s.setBasin n x).banks = s.banks := rfl
@[simp] theorem State.setBasin_latches (s : State) (n : Nat) (x : Basin) : (s.setBasin n x).latches = s.latches := rfl
@[simp] theorem State.setBasin_comp (s : State) (n : Nat) (x : Basin) : (s.setBasin n x).comp = s.comp := rfl
@[simp] theorem State.setBasin_unchecked (s : State) (n : Nat) (x : Basin) : (s.setBasin n x).unchecked = s.unchecked := rfl
@[simp] theorem State.setBasin_errs (s : State) (n : Nat) (x : Basin) : (s.setBasin n x).errs = s.errs := rfl
@[simp] theorem State.setBasin_spInit (s : State) (n : Nat) (x : Basin) : (s.setBasin n x).spInit = s.spInit := rfl
@[simp] theorem State.setBasin_sense (s : State) (n : Nat) (x : Basin) : (s.setBasin n x).sense = s.sense := rfl
@[simp] theorem State.setBasin_ops (s : State) (n : Nat) (x : Basin) : (s.setBasin n x).ops = s.ops := rfl
@[simp] theorem State.setBasin_mem (s : State) (n : Nat) (x : Basin) : (s.setBasin n x).mem = s.mem := rfl
@[simp] theorem State.setBasin_cache (s : State) (n : Nat) (x : Basin) : (s.setBasin n x).cache = s.cache := rfl
@[simp] theorem State.setBasin_copies (s : State) (n : Nat) (x : Basin) : (s.setBasin n x).copies = s.copies := rfl
@[simp] theorem State.setBasin_vec (s : State) (n : Nat) (x : Basin) : (s.setBasin n x).vec = s.vec := rfl
@[simp] theorem State.setBasin_tlb (s : State) (n : Nat) (x : Basin) : (s.setBasin n x).tlb = s.tlb := rfl
@[simp] theorem State.setBasin_ats (s : State) (n : Nat) (x : Basin) : (s.setBasin n x).ats = s.ats := rfl
@[simp] theorem State.setBasin_frames (s : State) (n : Nat) (x : Basin) : (s.setBasin n x).frames = s.frames := rfl
@[simp] theorem State.setBasin_casts (s : State) (n : Nat) (x : Basin) : (s.setBasin n x).casts = s.casts := rfl
@[simp] theorem State.setBasin_hostMem (s : State) (n : Nat) (x : Basin) : (s.setBasin n x).hostMem = s.hostMem := rfl
@[simp] theorem State.setBasin_hostPoison (s : State) (n : Nat) (x : Basin) : (s.setBasin n x).hostPoison = s.hostPoison := rfl
@[simp] theorem State.setBasin_resv (s : State) (n : Nat) (x : Basin) : (s.setBasin n x).resv = s.resv := rfl
@[simp] theorem State.setBasin_peer (s : State) (n : Nat) (x : Basin) : (s.setBasin n x).peer = s.peer := rfl
@[simp] theorem State.setBasin_granted (s : State) (n : Nat) (x : Basin) : (s.setBasin n x).granted = s.granted := rfl
@[simp] theorem State.setBasin_rlinks (s : State) (n : Nat) (x : Basin) : (s.setBasin n x).rlinks = s.rlinks := rfl
@[simp] theorem State.setBasin_groups (s : State) (n : Nat) (x : Basin) : (s.setBasin n x).groups = s.groups := rfl
@[simp] theorem State.setBasin_saved (s : State) (n : Nat) (x : Basin) : (s.setBasin n x).saved = s.saved := rfl
@[simp] theorem State.setBasin_pageReqs (s : State) (n : Nat) (x : Basin) : (s.setBasin n x).pageReqs = s.pageReqs := rfl
@[simp] theorem State.setBasin_pageHeld (s : State) (n : Nat) (x : Basin) : (s.setBasin n x).pageHeld = s.pageHeld := rfl
@[simp] theorem State.setBasin_hostCopies (s : State) (n : Nat) (x : Basin) : (s.setBasin n x).hostCopies = s.hostCopies := rfl
@[simp] theorem State.setBasin_deferred (s : State) (n : Nat) (x : Basin) : (s.setBasin n x).deferred = s.deferred := rfl
@[simp] theorem State.setBasin_atsInvs (s : State) (n : Nat) (x : Basin) : (s.setBasin n x).atsInvs = s.atsInvs := rfl
@[simp] theorem State.setBasin_nextTag (s : State) (n : Nat) (x : Basin) : (s.setBasin n x).nextTag = s.nextTag := rfl
@[simp] theorem State.setBasin_out (s : State) (n : Nat) (x : Basin) : (s.setBasin n x).out = s.out := rfl
@[simp] theorem State.setBasin_ctxtabBase (s : State) (n : Nat) (x : Basin) : (s.setBasin n x).ctxtabBase = s.ctxtabBase := rfl
@[simp] theorem State.setBasin_ctxtabLog2n (s : State) (n : Nat) (x : Basin) : (s.setBasin n x).ctxtabLog2n = s.ctxtabLog2n := rfl
@[simp] theorem State.setBasin_ctxtabWritten (s : State) (n : Nat) (x : Basin) : (s.setBasin n x).ctxtabWritten = s.ctxtabWritten := rfl
@[simp] theorem State.setBasin_hdmt (s : State) (n : Nat) (x : Basin) : (s.setBasin n x).hdmt = s.hdmt := rfl
@[simp] theorem State.setBasin_hdmtWritten (s : State) (n : Nat) (x : Basin) : (s.setBasin n x).hdmtWritten = s.hdmtWritten := rfl
@[simp] theorem State.setBasin_arfb (s : State) (n : Nat) (x : Basin) : (s.setBasin n x).arfb = s.arfb := rfl
@[simp] theorem State.setBasin_arfcLimit (s : State) (n : Nat) (x : Basin) : (s.setBasin n x).arfcLimit = s.arfcLimit := rfl
@[simp] theorem State.setBasin_arfcFmt (s : State) (n : Nat) (x : Basin) : (s.setBasin n x).arfcFmt = s.arfcFmt := rfl
@[simp] theorem State.setBasin_arfcEn (s : State) (n : Nat) (x : Basin) : (s.setBasin n x).arfcEn = s.arfcEn := rfl
@[simp] theorem State.setBasin_xvec (s : State) (n : Nat) (x : Basin) : (s.setBasin n x).xvec = s.xvec := rfl
@[simp] theorem State.setBasin_krBase (s : State) (n : Nat) (x : Basin) : (s.setBasin n x).krBase = s.krBase := rfl
@[simp] theorem State.setBasin_krSize (s : State) (n : Nat) (x : Basin) : (s.setBasin n x).krSize = s.krSize := rfl
@[simp] theorem State.setBasin_devid (s : State) (n : Nat) (x : Basin) : (s.setBasin n x).devid = s.devid := rfl
@[simp] theorem State.setBasin_aqInc (s : State) (n : Nat) (x : Basin) : (s.setBasin n x).aqInc = s.aqInc := rfl
@[simp] theorem State.setBasin_selfWas (s : State) (n : Nat) (x : Basin) : (s.setBasin n x).selfWas = s.selfWas := rfl
@[simp] theorem State.setBasin_ptabBase (s : State) (n : Nat) (x : Basin) : (s.setBasin n x).ptabBase = s.ptabBase := rfl
@[simp] theorem State.setBasin_ptabEn (s : State) (n : Nat) (x : Basin) : (s.setBasin n x).ptabEn = s.ptabEn := rfl
@[simp] theorem State.setBasin_aqTurn (s : State) (n : Nat) (x : Basin) : (s.setBasin n x).aqTurn = s.aqTurn := rfl
@[simp] theorem State.setBasin_aqStale (s : State) (n : Nat) (x : Basin) : (s.setBasin n x).aqStale = s.aqStale := rfl
@[simp] theorem State.setBasin_aqSync (s : State) (n : Nat) (x : Basin) : (s.setBasin n x).aqSync = s.aqSync := rfl
@[simp] theorem State.setBasin_aqBound (s : State) (n : Nat) (x : Basin) : (s.setBasin n x).aqBound = s.aqBound := rfl
@[simp] theorem State.setBasin_aqSec (s : State) (n : Nat) (x : Basin) : (s.setBasin n x).aqSec = s.aqSec := rfl
@[simp] theorem State.setBasin_aqNs (s : State) (n : Nat) (x : Basin) : (s.setBasin n x).aqNs = s.aqNs := rfl
@[simp] theorem State.setBasin_aqGood (s : State) (n : Nat) (x : Basin) : (s.setBasin n x).aqGood = s.aqGood := rfl
@[simp] theorem State.setBasin_aqLast (s : State) (n : Nat) (x : Basin) : (s.setBasin n x).aqLast = s.aqLast := rfl
@[simp] theorem State.setBasin_annex (s : State) (n : Nat) (x : Basin) : (s.setBasin n x).annex = s.annex := rfl
@[simp] theorem State.setBasin_monitors (s : State) (n : Nat) (x : Basin) : (s.setBasin n x).monitors = s.monitors := rfl

@[simp] theorem State.setQuad_agenda (s : State) (n : Nat) (x : Quad) : (s.setQuad n x).agenda = s.agenda := rfl
@[simp] theorem State.setQuad_cur (s : State) (n : Nat) (x : Quad) : (s.setQuad n x).cur = s.cur := rfl
@[simp] theorem State.setQuad_inp (s : State) (n : Nat) (x : Quad) : (s.setQuad n x).inp = s.inp := rfl
@[simp] theorem State.setQuad_clk (s : State) (n : Nat) (x : Quad) : (s.setQuad n x).clk = s.clk := rfl
@[simp] theorem State.setQuad_freeCtr (s : State) (n : Nat) (x : Quad) : (s.setQuad n x).freeCtr = s.freeCtr := rfl
@[simp] theorem State.setQuad_nextId (s : State) (n : Nat) (x : Quad) : (s.setQuad n x).nextId = s.nextId := rfl
@[simp] theorem State.setQuad_rowCtx (s : State) (n : Nat) (x : Quad) : (s.setQuad n x).rowCtx = s.rowCtx := rfl
@[simp] theorem State.setQuad_strands (s : State) (n : Nat) (x : Quad) : (s.setQuad n x).strands = s.strands := rfl
@[simp] theorem State.setQuad_cores (s : State) (n : Nat) (x : Quad) : (s.setQuad n x).cores = s.cores := rfl
@[simp] theorem State.setQuad_basins (s : State) (n : Nat) (x : Quad) : (s.setQuad n x).basins = s.basins := rfl
@[simp] theorem State.setQuad_banks (s : State) (n : Nat) (x : Quad) : (s.setQuad n x).banks = s.banks := rfl
@[simp] theorem State.setQuad_latches (s : State) (n : Nat) (x : Quad) : (s.setQuad n x).latches = s.latches := rfl
@[simp] theorem State.setQuad_comp (s : State) (n : Nat) (x : Quad) : (s.setQuad n x).comp = s.comp := rfl
@[simp] theorem State.setQuad_unchecked (s : State) (n : Nat) (x : Quad) : (s.setQuad n x).unchecked = s.unchecked := rfl
@[simp] theorem State.setQuad_errs (s : State) (n : Nat) (x : Quad) : (s.setQuad n x).errs = s.errs := rfl
@[simp] theorem State.setQuad_spInit (s : State) (n : Nat) (x : Quad) : (s.setQuad n x).spInit = s.spInit := rfl
@[simp] theorem State.setQuad_sense (s : State) (n : Nat) (x : Quad) : (s.setQuad n x).sense = s.sense := rfl
@[simp] theorem State.setQuad_ops (s : State) (n : Nat) (x : Quad) : (s.setQuad n x).ops = s.ops := rfl
@[simp] theorem State.setQuad_mem (s : State) (n : Nat) (x : Quad) : (s.setQuad n x).mem = s.mem := rfl
@[simp] theorem State.setQuad_cache (s : State) (n : Nat) (x : Quad) : (s.setQuad n x).cache = s.cache := rfl
@[simp] theorem State.setQuad_copies (s : State) (n : Nat) (x : Quad) : (s.setQuad n x).copies = s.copies := rfl
@[simp] theorem State.setQuad_vec (s : State) (n : Nat) (x : Quad) : (s.setQuad n x).vec = s.vec := rfl
@[simp] theorem State.setQuad_tlb (s : State) (n : Nat) (x : Quad) : (s.setQuad n x).tlb = s.tlb := rfl
@[simp] theorem State.setQuad_ats (s : State) (n : Nat) (x : Quad) : (s.setQuad n x).ats = s.ats := rfl
@[simp] theorem State.setQuad_frames (s : State) (n : Nat) (x : Quad) : (s.setQuad n x).frames = s.frames := rfl
@[simp] theorem State.setQuad_casts (s : State) (n : Nat) (x : Quad) : (s.setQuad n x).casts = s.casts := rfl
@[simp] theorem State.setQuad_hostMem (s : State) (n : Nat) (x : Quad) : (s.setQuad n x).hostMem = s.hostMem := rfl
@[simp] theorem State.setQuad_hostPoison (s : State) (n : Nat) (x : Quad) : (s.setQuad n x).hostPoison = s.hostPoison := rfl
@[simp] theorem State.setQuad_resv (s : State) (n : Nat) (x : Quad) : (s.setQuad n x).resv = s.resv := rfl
@[simp] theorem State.setQuad_peer (s : State) (n : Nat) (x : Quad) : (s.setQuad n x).peer = s.peer := rfl
@[simp] theorem State.setQuad_granted (s : State) (n : Nat) (x : Quad) : (s.setQuad n x).granted = s.granted := rfl
@[simp] theorem State.setQuad_rlinks (s : State) (n : Nat) (x : Quad) : (s.setQuad n x).rlinks = s.rlinks := rfl
@[simp] theorem State.setQuad_groups (s : State) (n : Nat) (x : Quad) : (s.setQuad n x).groups = s.groups := rfl
@[simp] theorem State.setQuad_saved (s : State) (n : Nat) (x : Quad) : (s.setQuad n x).saved = s.saved := rfl
@[simp] theorem State.setQuad_pageReqs (s : State) (n : Nat) (x : Quad) : (s.setQuad n x).pageReqs = s.pageReqs := rfl
@[simp] theorem State.setQuad_pageHeld (s : State) (n : Nat) (x : Quad) : (s.setQuad n x).pageHeld = s.pageHeld := rfl
@[simp] theorem State.setQuad_hostCopies (s : State) (n : Nat) (x : Quad) : (s.setQuad n x).hostCopies = s.hostCopies := rfl
@[simp] theorem State.setQuad_deferred (s : State) (n : Nat) (x : Quad) : (s.setQuad n x).deferred = s.deferred := rfl
@[simp] theorem State.setQuad_atsInvs (s : State) (n : Nat) (x : Quad) : (s.setQuad n x).atsInvs = s.atsInvs := rfl
@[simp] theorem State.setQuad_nextTag (s : State) (n : Nat) (x : Quad) : (s.setQuad n x).nextTag = s.nextTag := rfl
@[simp] theorem State.setQuad_out (s : State) (n : Nat) (x : Quad) : (s.setQuad n x).out = s.out := rfl
@[simp] theorem State.setQuad_ctxtabBase (s : State) (n : Nat) (x : Quad) : (s.setQuad n x).ctxtabBase = s.ctxtabBase := rfl
@[simp] theorem State.setQuad_ctxtabLog2n (s : State) (n : Nat) (x : Quad) : (s.setQuad n x).ctxtabLog2n = s.ctxtabLog2n := rfl
@[simp] theorem State.setQuad_ctxtabWritten (s : State) (n : Nat) (x : Quad) : (s.setQuad n x).ctxtabWritten = s.ctxtabWritten := rfl
@[simp] theorem State.setQuad_hdmt (s : State) (n : Nat) (x : Quad) : (s.setQuad n x).hdmt = s.hdmt := rfl
@[simp] theorem State.setQuad_hdmtWritten (s : State) (n : Nat) (x : Quad) : (s.setQuad n x).hdmtWritten = s.hdmtWritten := rfl
@[simp] theorem State.setQuad_arfb (s : State) (n : Nat) (x : Quad) : (s.setQuad n x).arfb = s.arfb := rfl
@[simp] theorem State.setQuad_arfcLimit (s : State) (n : Nat) (x : Quad) : (s.setQuad n x).arfcLimit = s.arfcLimit := rfl
@[simp] theorem State.setQuad_arfcFmt (s : State) (n : Nat) (x : Quad) : (s.setQuad n x).arfcFmt = s.arfcFmt := rfl
@[simp] theorem State.setQuad_arfcEn (s : State) (n : Nat) (x : Quad) : (s.setQuad n x).arfcEn = s.arfcEn := rfl
@[simp] theorem State.setQuad_xvec (s : State) (n : Nat) (x : Quad) : (s.setQuad n x).xvec = s.xvec := rfl
@[simp] theorem State.setQuad_krBase (s : State) (n : Nat) (x : Quad) : (s.setQuad n x).krBase = s.krBase := rfl
@[simp] theorem State.setQuad_krSize (s : State) (n : Nat) (x : Quad) : (s.setQuad n x).krSize = s.krSize := rfl
@[simp] theorem State.setQuad_devid (s : State) (n : Nat) (x : Quad) : (s.setQuad n x).devid = s.devid := rfl
@[simp] theorem State.setQuad_aqInc (s : State) (n : Nat) (x : Quad) : (s.setQuad n x).aqInc = s.aqInc := rfl
@[simp] theorem State.setQuad_selfWas (s : State) (n : Nat) (x : Quad) : (s.setQuad n x).selfWas = s.selfWas := rfl
@[simp] theorem State.setQuad_ptabBase (s : State) (n : Nat) (x : Quad) : (s.setQuad n x).ptabBase = s.ptabBase := rfl
@[simp] theorem State.setQuad_ptabEn (s : State) (n : Nat) (x : Quad) : (s.setQuad n x).ptabEn = s.ptabEn := rfl
@[simp] theorem State.setQuad_aqTurn (s : State) (n : Nat) (x : Quad) : (s.setQuad n x).aqTurn = s.aqTurn := rfl
@[simp] theorem State.setQuad_aqStale (s : State) (n : Nat) (x : Quad) : (s.setQuad n x).aqStale = s.aqStale := rfl
@[simp] theorem State.setQuad_aqSync (s : State) (n : Nat) (x : Quad) : (s.setQuad n x).aqSync = s.aqSync := rfl
@[simp] theorem State.setQuad_aqBound (s : State) (n : Nat) (x : Quad) : (s.setQuad n x).aqBound = s.aqBound := rfl
@[simp] theorem State.setQuad_aqSec (s : State) (n : Nat) (x : Quad) : (s.setQuad n x).aqSec = s.aqSec := rfl
@[simp] theorem State.setQuad_aqNs (s : State) (n : Nat) (x : Quad) : (s.setQuad n x).aqNs = s.aqNs := rfl
@[simp] theorem State.setQuad_aqGood (s : State) (n : Nat) (x : Quad) : (s.setQuad n x).aqGood = s.aqGood := rfl
@[simp] theorem State.setQuad_aqLast (s : State) (n : Nat) (x : Quad) : (s.setQuad n x).aqLast = s.aqLast := rfl
@[simp] theorem State.setQuad_annex (s : State) (n : Nat) (x : Quad) : (s.setQuad n x).annex = s.annex := rfl
@[simp] theorem State.setQuad_monitors (s : State) (n : Nat) (x : Quad) : (s.setQuad n x).monitors = s.monitors := rfl

@[simp] theorem State.setRawByte_agenda (s : State) (a : Nat) (b : Byte) : (s.setRawByte a b).agenda = s.agenda := rfl
@[simp] theorem State.setRawByte_cur (s : State) (a : Nat) (b : Byte) : (s.setRawByte a b).cur = s.cur := rfl
@[simp] theorem State.setRawByte_inp (s : State) (a : Nat) (b : Byte) : (s.setRawByte a b).inp = s.inp := rfl
@[simp] theorem State.setRawByte_clk (s : State) (a : Nat) (b : Byte) : (s.setRawByte a b).clk = s.clk := rfl
@[simp] theorem State.setRawByte_freeCtr (s : State) (a : Nat) (b : Byte) : (s.setRawByte a b).freeCtr = s.freeCtr := rfl
@[simp] theorem State.setRawByte_nextId (s : State) (a : Nat) (b : Byte) : (s.setRawByte a b).nextId = s.nextId := rfl
@[simp] theorem State.setRawByte_rowCtx (s : State) (a : Nat) (b : Byte) : (s.setRawByte a b).rowCtx = s.rowCtx := rfl
@[simp] theorem State.setRawByte_strands (s : State) (a : Nat) (b : Byte) : (s.setRawByte a b).strands = s.strands := rfl
@[simp] theorem State.setRawByte_cores (s : State) (a : Nat) (b : Byte) : (s.setRawByte a b).cores = s.cores := rfl
@[simp] theorem State.setRawByte_quads (s : State) (a : Nat) (b : Byte) : (s.setRawByte a b).quads = s.quads := rfl
@[simp] theorem State.setRawByte_basins (s : State) (a : Nat) (b : Byte) : (s.setRawByte a b).basins = s.basins := rfl
@[simp] theorem State.setRawByte_banks (s : State) (a : Nat) (b : Byte) : (s.setRawByte a b).banks = s.banks := rfl
@[simp] theorem State.setRawByte_latches (s : State) (a : Nat) (b : Byte) : (s.setRawByte a b).latches = s.latches := rfl
@[simp] theorem State.setRawByte_comp (s : State) (a : Nat) (b : Byte) : (s.setRawByte a b).comp = s.comp := rfl
@[simp] theorem State.setRawByte_unchecked (s : State) (a : Nat) (b : Byte) : (s.setRawByte a b).unchecked = s.unchecked := rfl
@[simp] theorem State.setRawByte_errs (s : State) (a : Nat) (b : Byte) : (s.setRawByte a b).errs = s.errs := rfl
@[simp] theorem State.setRawByte_spInit (s : State) (a : Nat) (b : Byte) : (s.setRawByte a b).spInit = s.spInit := rfl
@[simp] theorem State.setRawByte_sense (s : State) (a : Nat) (b : Byte) : (s.setRawByte a b).sense = s.sense := rfl
@[simp] theorem State.setRawByte_ops (s : State) (a : Nat) (b : Byte) : (s.setRawByte a b).ops = s.ops := rfl
@[simp] theorem State.setRawByte_cache (s : State) (a : Nat) (b : Byte) : (s.setRawByte a b).cache = s.cache := rfl
@[simp] theorem State.setRawByte_copies (s : State) (a : Nat) (b : Byte) : (s.setRawByte a b).copies = s.copies := rfl
@[simp] theorem State.setRawByte_vec (s : State) (a : Nat) (b : Byte) : (s.setRawByte a b).vec = s.vec := rfl
@[simp] theorem State.setRawByte_tlb (s : State) (a : Nat) (b : Byte) : (s.setRawByte a b).tlb = s.tlb := rfl
@[simp] theorem State.setRawByte_ats (s : State) (a : Nat) (b : Byte) : (s.setRawByte a b).ats = s.ats := rfl
@[simp] theorem State.setRawByte_frames (s : State) (a : Nat) (b : Byte) : (s.setRawByte a b).frames = s.frames := rfl
@[simp] theorem State.setRawByte_casts (s : State) (a : Nat) (b : Byte) : (s.setRawByte a b).casts = s.casts := rfl
@[simp] theorem State.setRawByte_hostMem (s : State) (a : Nat) (b : Byte) : (s.setRawByte a b).hostMem = s.hostMem := rfl
@[simp] theorem State.setRawByte_hostPoison (s : State) (a : Nat) (b : Byte) : (s.setRawByte a b).hostPoison = s.hostPoison := rfl
@[simp] theorem State.setRawByte_resv (s : State) (a : Nat) (b : Byte) : (s.setRawByte a b).resv = s.resv := rfl
@[simp] theorem State.setRawByte_peer (s : State) (a : Nat) (b : Byte) : (s.setRawByte a b).peer = s.peer := rfl
@[simp] theorem State.setRawByte_granted (s : State) (a : Nat) (b : Byte) : (s.setRawByte a b).granted = s.granted := rfl
@[simp] theorem State.setRawByte_rlinks (s : State) (a : Nat) (b : Byte) : (s.setRawByte a b).rlinks = s.rlinks := rfl
@[simp] theorem State.setRawByte_groups (s : State) (a : Nat) (b : Byte) : (s.setRawByte a b).groups = s.groups := rfl
@[simp] theorem State.setRawByte_saved (s : State) (a : Nat) (b : Byte) : (s.setRawByte a b).saved = s.saved := rfl
@[simp] theorem State.setRawByte_pageReqs (s : State) (a : Nat) (b : Byte) : (s.setRawByte a b).pageReqs = s.pageReqs := rfl
@[simp] theorem State.setRawByte_pageHeld (s : State) (a : Nat) (b : Byte) : (s.setRawByte a b).pageHeld = s.pageHeld := rfl
@[simp] theorem State.setRawByte_hostCopies (s : State) (a : Nat) (b : Byte) : (s.setRawByte a b).hostCopies = s.hostCopies := rfl
@[simp] theorem State.setRawByte_deferred (s : State) (a : Nat) (b : Byte) : (s.setRawByte a b).deferred = s.deferred := rfl
@[simp] theorem State.setRawByte_atsInvs (s : State) (a : Nat) (b : Byte) : (s.setRawByte a b).atsInvs = s.atsInvs := rfl
@[simp] theorem State.setRawByte_nextTag (s : State) (a : Nat) (b : Byte) : (s.setRawByte a b).nextTag = s.nextTag := rfl
@[simp] theorem State.setRawByte_out (s : State) (a : Nat) (b : Byte) : (s.setRawByte a b).out = s.out := rfl
@[simp] theorem State.setRawByte_ctxtabBase (s : State) (a : Nat) (b : Byte) : (s.setRawByte a b).ctxtabBase = s.ctxtabBase := rfl
@[simp] theorem State.setRawByte_ctxtabLog2n (s : State) (a : Nat) (b : Byte) : (s.setRawByte a b).ctxtabLog2n = s.ctxtabLog2n := rfl
@[simp] theorem State.setRawByte_ctxtabWritten (s : State) (a : Nat) (b : Byte) : (s.setRawByte a b).ctxtabWritten = s.ctxtabWritten := rfl
@[simp] theorem State.setRawByte_hdmt (s : State) (a : Nat) (b : Byte) : (s.setRawByte a b).hdmt = s.hdmt := rfl
@[simp] theorem State.setRawByte_hdmtWritten (s : State) (a : Nat) (b : Byte) : (s.setRawByte a b).hdmtWritten = s.hdmtWritten := rfl
@[simp] theorem State.setRawByte_arfb (s : State) (a : Nat) (b : Byte) : (s.setRawByte a b).arfb = s.arfb := rfl
@[simp] theorem State.setRawByte_arfcLimit (s : State) (a : Nat) (b : Byte) : (s.setRawByte a b).arfcLimit = s.arfcLimit := rfl
@[simp] theorem State.setRawByte_arfcFmt (s : State) (a : Nat) (b : Byte) : (s.setRawByte a b).arfcFmt = s.arfcFmt := rfl
@[simp] theorem State.setRawByte_arfcEn (s : State) (a : Nat) (b : Byte) : (s.setRawByte a b).arfcEn = s.arfcEn := rfl
@[simp] theorem State.setRawByte_xvec (s : State) (a : Nat) (b : Byte) : (s.setRawByte a b).xvec = s.xvec := rfl
@[simp] theorem State.setRawByte_krBase (s : State) (a : Nat) (b : Byte) : (s.setRawByte a b).krBase = s.krBase := rfl
@[simp] theorem State.setRawByte_krSize (s : State) (a : Nat) (b : Byte) : (s.setRawByte a b).krSize = s.krSize := rfl
@[simp] theorem State.setRawByte_devid (s : State) (a : Nat) (b : Byte) : (s.setRawByte a b).devid = s.devid := rfl
@[simp] theorem State.setRawByte_aqInc (s : State) (a : Nat) (b : Byte) : (s.setRawByte a b).aqInc = s.aqInc := rfl
@[simp] theorem State.setRawByte_selfWas (s : State) (a : Nat) (b : Byte) : (s.setRawByte a b).selfWas = s.selfWas := rfl
@[simp] theorem State.setRawByte_ptabBase (s : State) (a : Nat) (b : Byte) : (s.setRawByte a b).ptabBase = s.ptabBase := rfl
@[simp] theorem State.setRawByte_ptabEn (s : State) (a : Nat) (b : Byte) : (s.setRawByte a b).ptabEn = s.ptabEn := rfl
@[simp] theorem State.setRawByte_aqTurn (s : State) (a : Nat) (b : Byte) : (s.setRawByte a b).aqTurn = s.aqTurn := rfl
@[simp] theorem State.setRawByte_aqStale (s : State) (a : Nat) (b : Byte) : (s.setRawByte a b).aqStale = s.aqStale := rfl
@[simp] theorem State.setRawByte_aqSync (s : State) (a : Nat) (b : Byte) : (s.setRawByte a b).aqSync = s.aqSync := rfl
@[simp] theorem State.setRawByte_aqBound (s : State) (a : Nat) (b : Byte) : (s.setRawByte a b).aqBound = s.aqBound := rfl
@[simp] theorem State.setRawByte_aqSec (s : State) (a : Nat) (b : Byte) : (s.setRawByte a b).aqSec = s.aqSec := rfl
@[simp] theorem State.setRawByte_aqNs (s : State) (a : Nat) (b : Byte) : (s.setRawByte a b).aqNs = s.aqNs := rfl
@[simp] theorem State.setRawByte_aqGood (s : State) (a : Nat) (b : Byte) : (s.setRawByte a b).aqGood = s.aqGood := rfl
@[simp] theorem State.setRawByte_aqLast (s : State) (a : Nat) (b : Byte) : (s.setRawByte a b).aqLast = s.aqLast := rfl
@[simp] theorem State.setRawByte_annex (s : State) (a : Nat) (b : Byte) : (s.setRawByte a b).annex = s.annex := rfl
@[simp] theorem State.setRawByte_monitors (s : State) (a : Nat) (b : Byte) : (s.setRawByte a b).monitors = s.monitors := rfl

@[simp] theorem State.setFrame_agenda (s : State) (n : Nat) (x : Frame) : (s.setFrame n x).agenda = s.agenda := rfl
@[simp] theorem State.setFrame_cur (s : State) (n : Nat) (x : Frame) : (s.setFrame n x).cur = s.cur := rfl
@[simp] theorem State.setFrame_inp (s : State) (n : Nat) (x : Frame) : (s.setFrame n x).inp = s.inp := rfl
@[simp] theorem State.setFrame_clk (s : State) (n : Nat) (x : Frame) : (s.setFrame n x).clk = s.clk := rfl
@[simp] theorem State.setFrame_freeCtr (s : State) (n : Nat) (x : Frame) : (s.setFrame n x).freeCtr = s.freeCtr := rfl
@[simp] theorem State.setFrame_nextId (s : State) (n : Nat) (x : Frame) : (s.setFrame n x).nextId = s.nextId := rfl
@[simp] theorem State.setFrame_rowCtx (s : State) (n : Nat) (x : Frame) : (s.setFrame n x).rowCtx = s.rowCtx := rfl
@[simp] theorem State.setFrame_strands (s : State) (n : Nat) (x : Frame) : (s.setFrame n x).strands = s.strands := rfl
@[simp] theorem State.setFrame_cores (s : State) (n : Nat) (x : Frame) : (s.setFrame n x).cores = s.cores := rfl
@[simp] theorem State.setFrame_quads (s : State) (n : Nat) (x : Frame) : (s.setFrame n x).quads = s.quads := rfl
@[simp] theorem State.setFrame_basins (s : State) (n : Nat) (x : Frame) : (s.setFrame n x).basins = s.basins := rfl
@[simp] theorem State.setFrame_banks (s : State) (n : Nat) (x : Frame) : (s.setFrame n x).banks = s.banks := rfl
@[simp] theorem State.setFrame_latches (s : State) (n : Nat) (x : Frame) : (s.setFrame n x).latches = s.latches := rfl
@[simp] theorem State.setFrame_comp (s : State) (n : Nat) (x : Frame) : (s.setFrame n x).comp = s.comp := rfl
@[simp] theorem State.setFrame_unchecked (s : State) (n : Nat) (x : Frame) : (s.setFrame n x).unchecked = s.unchecked := rfl
@[simp] theorem State.setFrame_errs (s : State) (n : Nat) (x : Frame) : (s.setFrame n x).errs = s.errs := rfl
@[simp] theorem State.setFrame_spInit (s : State) (n : Nat) (x : Frame) : (s.setFrame n x).spInit = s.spInit := rfl
@[simp] theorem State.setFrame_sense (s : State) (n : Nat) (x : Frame) : (s.setFrame n x).sense = s.sense := rfl
@[simp] theorem State.setFrame_ops (s : State) (n : Nat) (x : Frame) : (s.setFrame n x).ops = s.ops := rfl
@[simp] theorem State.setFrame_mem (s : State) (n : Nat) (x : Frame) : (s.setFrame n x).mem = s.mem := rfl
@[simp] theorem State.setFrame_cache (s : State) (n : Nat) (x : Frame) : (s.setFrame n x).cache = s.cache := rfl
@[simp] theorem State.setFrame_copies (s : State) (n : Nat) (x : Frame) : (s.setFrame n x).copies = s.copies := rfl
@[simp] theorem State.setFrame_vec (s : State) (n : Nat) (x : Frame) : (s.setFrame n x).vec = s.vec := rfl
@[simp] theorem State.setFrame_tlb (s : State) (n : Nat) (x : Frame) : (s.setFrame n x).tlb = s.tlb := rfl
@[simp] theorem State.setFrame_ats (s : State) (n : Nat) (x : Frame) : (s.setFrame n x).ats = s.ats := rfl
@[simp] theorem State.setFrame_casts (s : State) (n : Nat) (x : Frame) : (s.setFrame n x).casts = s.casts := rfl
@[simp] theorem State.setFrame_hostMem (s : State) (n : Nat) (x : Frame) : (s.setFrame n x).hostMem = s.hostMem := rfl
@[simp] theorem State.setFrame_hostPoison (s : State) (n : Nat) (x : Frame) : (s.setFrame n x).hostPoison = s.hostPoison := rfl
@[simp] theorem State.setFrame_resv (s : State) (n : Nat) (x : Frame) : (s.setFrame n x).resv = s.resv := rfl
@[simp] theorem State.setFrame_peer (s : State) (n : Nat) (x : Frame) : (s.setFrame n x).peer = s.peer := rfl
@[simp] theorem State.setFrame_granted (s : State) (n : Nat) (x : Frame) : (s.setFrame n x).granted = s.granted := rfl
@[simp] theorem State.setFrame_rlinks (s : State) (n : Nat) (x : Frame) : (s.setFrame n x).rlinks = s.rlinks := rfl
@[simp] theorem State.setFrame_groups (s : State) (n : Nat) (x : Frame) : (s.setFrame n x).groups = s.groups := rfl
@[simp] theorem State.setFrame_saved (s : State) (n : Nat) (x : Frame) : (s.setFrame n x).saved = s.saved := rfl
@[simp] theorem State.setFrame_pageReqs (s : State) (n : Nat) (x : Frame) : (s.setFrame n x).pageReqs = s.pageReqs := rfl
@[simp] theorem State.setFrame_pageHeld (s : State) (n : Nat) (x : Frame) : (s.setFrame n x).pageHeld = s.pageHeld := rfl
@[simp] theorem State.setFrame_hostCopies (s : State) (n : Nat) (x : Frame) : (s.setFrame n x).hostCopies = s.hostCopies := rfl
@[simp] theorem State.setFrame_deferred (s : State) (n : Nat) (x : Frame) : (s.setFrame n x).deferred = s.deferred := rfl
@[simp] theorem State.setFrame_atsInvs (s : State) (n : Nat) (x : Frame) : (s.setFrame n x).atsInvs = s.atsInvs := rfl
@[simp] theorem State.setFrame_nextTag (s : State) (n : Nat) (x : Frame) : (s.setFrame n x).nextTag = s.nextTag := rfl
@[simp] theorem State.setFrame_out (s : State) (n : Nat) (x : Frame) : (s.setFrame n x).out = s.out := rfl
@[simp] theorem State.setFrame_ctxtabBase (s : State) (n : Nat) (x : Frame) : (s.setFrame n x).ctxtabBase = s.ctxtabBase := rfl
@[simp] theorem State.setFrame_ctxtabLog2n (s : State) (n : Nat) (x : Frame) : (s.setFrame n x).ctxtabLog2n = s.ctxtabLog2n := rfl
@[simp] theorem State.setFrame_ctxtabWritten (s : State) (n : Nat) (x : Frame) : (s.setFrame n x).ctxtabWritten = s.ctxtabWritten := rfl
@[simp] theorem State.setFrame_hdmt (s : State) (n : Nat) (x : Frame) : (s.setFrame n x).hdmt = s.hdmt := rfl
@[simp] theorem State.setFrame_hdmtWritten (s : State) (n : Nat) (x : Frame) : (s.setFrame n x).hdmtWritten = s.hdmtWritten := rfl
@[simp] theorem State.setFrame_arfb (s : State) (n : Nat) (x : Frame) : (s.setFrame n x).arfb = s.arfb := rfl
@[simp] theorem State.setFrame_arfcLimit (s : State) (n : Nat) (x : Frame) : (s.setFrame n x).arfcLimit = s.arfcLimit := rfl
@[simp] theorem State.setFrame_arfcFmt (s : State) (n : Nat) (x : Frame) : (s.setFrame n x).arfcFmt = s.arfcFmt := rfl
@[simp] theorem State.setFrame_arfcEn (s : State) (n : Nat) (x : Frame) : (s.setFrame n x).arfcEn = s.arfcEn := rfl
@[simp] theorem State.setFrame_xvec (s : State) (n : Nat) (x : Frame) : (s.setFrame n x).xvec = s.xvec := rfl
@[simp] theorem State.setFrame_krBase (s : State) (n : Nat) (x : Frame) : (s.setFrame n x).krBase = s.krBase := rfl
@[simp] theorem State.setFrame_krSize (s : State) (n : Nat) (x : Frame) : (s.setFrame n x).krSize = s.krSize := rfl
@[simp] theorem State.setFrame_devid (s : State) (n : Nat) (x : Frame) : (s.setFrame n x).devid = s.devid := rfl
@[simp] theorem State.setFrame_aqInc (s : State) (n : Nat) (x : Frame) : (s.setFrame n x).aqInc = s.aqInc := rfl
@[simp] theorem State.setFrame_selfWas (s : State) (n : Nat) (x : Frame) : (s.setFrame n x).selfWas = s.selfWas := rfl
@[simp] theorem State.setFrame_ptabBase (s : State) (n : Nat) (x : Frame) : (s.setFrame n x).ptabBase = s.ptabBase := rfl
@[simp] theorem State.setFrame_ptabEn (s : State) (n : Nat) (x : Frame) : (s.setFrame n x).ptabEn = s.ptabEn := rfl
@[simp] theorem State.setFrame_aqTurn (s : State) (n : Nat) (x : Frame) : (s.setFrame n x).aqTurn = s.aqTurn := rfl
@[simp] theorem State.setFrame_aqStale (s : State) (n : Nat) (x : Frame) : (s.setFrame n x).aqStale = s.aqStale := rfl
@[simp] theorem State.setFrame_aqSync (s : State) (n : Nat) (x : Frame) : (s.setFrame n x).aqSync = s.aqSync := rfl
@[simp] theorem State.setFrame_aqBound (s : State) (n : Nat) (x : Frame) : (s.setFrame n x).aqBound = s.aqBound := rfl
@[simp] theorem State.setFrame_aqSec (s : State) (n : Nat) (x : Frame) : (s.setFrame n x).aqSec = s.aqSec := rfl
@[simp] theorem State.setFrame_aqNs (s : State) (n : Nat) (x : Frame) : (s.setFrame n x).aqNs = s.aqNs := rfl
@[simp] theorem State.setFrame_aqGood (s : State) (n : Nat) (x : Frame) : (s.setFrame n x).aqGood = s.aqGood := rfl
@[simp] theorem State.setFrame_aqLast (s : State) (n : Nat) (x : Frame) : (s.setFrame n x).aqLast = s.aqLast := rfl
@[simp] theorem State.setFrame_annex (s : State) (n : Nat) (x : Frame) : (s.setFrame n x).annex = s.annex := rfl
@[simp] theorem State.setFrame_monitors (s : State) (n : Nat) (x : Frame) : (s.setFrame n x).monitors = s.monitors := rfl

@[simp] theorem State.send_agenda (s : State) (o : Out) : (s.send o).agenda = s.agenda := rfl
@[simp] theorem State.send_cur (s : State) (o : Out) : (s.send o).cur = s.cur := rfl
@[simp] theorem State.send_inp (s : State) (o : Out) : (s.send o).inp = s.inp := rfl
@[simp] theorem State.send_clk (s : State) (o : Out) : (s.send o).clk = s.clk := rfl
@[simp] theorem State.send_freeCtr (s : State) (o : Out) : (s.send o).freeCtr = s.freeCtr := rfl
@[simp] theorem State.send_nextId (s : State) (o : Out) : (s.send o).nextId = s.nextId := rfl
@[simp] theorem State.send_rowCtx (s : State) (o : Out) : (s.send o).rowCtx = s.rowCtx := rfl
@[simp] theorem State.send_strands (s : State) (o : Out) : (s.send o).strands = s.strands := rfl
@[simp] theorem State.send_cores (s : State) (o : Out) : (s.send o).cores = s.cores := rfl
@[simp] theorem State.send_quads (s : State) (o : Out) : (s.send o).quads = s.quads := rfl
@[simp] theorem State.send_basins (s : State) (o : Out) : (s.send o).basins = s.basins := rfl
@[simp] theorem State.send_banks (s : State) (o : Out) : (s.send o).banks = s.banks := rfl
@[simp] theorem State.send_latches (s : State) (o : Out) : (s.send o).latches = s.latches := rfl
@[simp] theorem State.send_comp (s : State) (o : Out) : (s.send o).comp = s.comp := rfl
@[simp] theorem State.send_unchecked (s : State) (o : Out) : (s.send o).unchecked = s.unchecked := rfl
@[simp] theorem State.send_errs (s : State) (o : Out) : (s.send o).errs = s.errs := rfl
@[simp] theorem State.send_spInit (s : State) (o : Out) : (s.send o).spInit = s.spInit := rfl
@[simp] theorem State.send_sense (s : State) (o : Out) : (s.send o).sense = s.sense := rfl
@[simp] theorem State.send_ops (s : State) (o : Out) : (s.send o).ops = s.ops := rfl
@[simp] theorem State.send_mem (s : State) (o : Out) : (s.send o).mem = s.mem := rfl
@[simp] theorem State.send_cache (s : State) (o : Out) : (s.send o).cache = s.cache := rfl
@[simp] theorem State.send_copies (s : State) (o : Out) : (s.send o).copies = s.copies := rfl
@[simp] theorem State.send_vec (s : State) (o : Out) : (s.send o).vec = s.vec := rfl
@[simp] theorem State.send_tlb (s : State) (o : Out) : (s.send o).tlb = s.tlb := rfl
@[simp] theorem State.send_ats (s : State) (o : Out) : (s.send o).ats = s.ats := rfl
@[simp] theorem State.send_frames (s : State) (o : Out) : (s.send o).frames = s.frames := rfl
@[simp] theorem State.send_casts (s : State) (o : Out) : (s.send o).casts = s.casts := rfl
@[simp] theorem State.send_hostMem (s : State) (o : Out) : (s.send o).hostMem = s.hostMem := rfl
@[simp] theorem State.send_hostPoison (s : State) (o : Out) : (s.send o).hostPoison = s.hostPoison := rfl
@[simp] theorem State.send_resv (s : State) (o : Out) : (s.send o).resv = s.resv := rfl
@[simp] theorem State.send_peer (s : State) (o : Out) : (s.send o).peer = s.peer := rfl
@[simp] theorem State.send_granted (s : State) (o : Out) : (s.send o).granted = s.granted := rfl
@[simp] theorem State.send_rlinks (s : State) (o : Out) : (s.send o).rlinks = s.rlinks := rfl
@[simp] theorem State.send_groups (s : State) (o : Out) : (s.send o).groups = s.groups := rfl
@[simp] theorem State.send_saved (s : State) (o : Out) : (s.send o).saved = s.saved := rfl
@[simp] theorem State.send_pageReqs (s : State) (o : Out) : (s.send o).pageReqs = s.pageReqs := rfl
@[simp] theorem State.send_pageHeld (s : State) (o : Out) : (s.send o).pageHeld = s.pageHeld := rfl
@[simp] theorem State.send_hostCopies (s : State) (o : Out) : (s.send o).hostCopies = s.hostCopies := rfl
@[simp] theorem State.send_deferred (s : State) (o : Out) : (s.send o).deferred = s.deferred := rfl
@[simp] theorem State.send_atsInvs (s : State) (o : Out) : (s.send o).atsInvs = s.atsInvs := rfl
@[simp] theorem State.send_nextTag (s : State) (o : Out) : (s.send o).nextTag = s.nextTag := rfl
@[simp] theorem State.send_ctxtabBase (s : State) (o : Out) : (s.send o).ctxtabBase = s.ctxtabBase := rfl
@[simp] theorem State.send_ctxtabLog2n (s : State) (o : Out) : (s.send o).ctxtabLog2n = s.ctxtabLog2n := rfl
@[simp] theorem State.send_ctxtabWritten (s : State) (o : Out) : (s.send o).ctxtabWritten = s.ctxtabWritten := rfl
@[simp] theorem State.send_hdmt (s : State) (o : Out) : (s.send o).hdmt = s.hdmt := rfl
@[simp] theorem State.send_hdmtWritten (s : State) (o : Out) : (s.send o).hdmtWritten = s.hdmtWritten := rfl
@[simp] theorem State.send_arfb (s : State) (o : Out) : (s.send o).arfb = s.arfb := rfl
@[simp] theorem State.send_arfcLimit (s : State) (o : Out) : (s.send o).arfcLimit = s.arfcLimit := rfl
@[simp] theorem State.send_arfcFmt (s : State) (o : Out) : (s.send o).arfcFmt = s.arfcFmt := rfl
@[simp] theorem State.send_arfcEn (s : State) (o : Out) : (s.send o).arfcEn = s.arfcEn := rfl
@[simp] theorem State.send_xvec (s : State) (o : Out) : (s.send o).xvec = s.xvec := rfl
@[simp] theorem State.send_krBase (s : State) (o : Out) : (s.send o).krBase = s.krBase := rfl
@[simp] theorem State.send_krSize (s : State) (o : Out) : (s.send o).krSize = s.krSize := rfl
@[simp] theorem State.send_devid (s : State) (o : Out) : (s.send o).devid = s.devid := rfl
@[simp] theorem State.send_aqInc (s : State) (o : Out) : (s.send o).aqInc = s.aqInc := rfl
@[simp] theorem State.send_selfWas (s : State) (o : Out) : (s.send o).selfWas = s.selfWas := rfl
@[simp] theorem State.send_ptabBase (s : State) (o : Out) : (s.send o).ptabBase = s.ptabBase := rfl
@[simp] theorem State.send_ptabEn (s : State) (o : Out) : (s.send o).ptabEn = s.ptabEn := rfl
@[simp] theorem State.send_aqTurn (s : State) (o : Out) : (s.send o).aqTurn = s.aqTurn := rfl
@[simp] theorem State.send_aqStale (s : State) (o : Out) : (s.send o).aqStale = s.aqStale := rfl
@[simp] theorem State.send_aqSync (s : State) (o : Out) : (s.send o).aqSync = s.aqSync := rfl
@[simp] theorem State.send_aqBound (s : State) (o : Out) : (s.send o).aqBound = s.aqBound := rfl
@[simp] theorem State.send_aqSec (s : State) (o : Out) : (s.send o).aqSec = s.aqSec := rfl
@[simp] theorem State.send_aqNs (s : State) (o : Out) : (s.send o).aqNs = s.aqNs := rfl
@[simp] theorem State.send_aqGood (s : State) (o : Out) : (s.send o).aqGood = s.aqGood := rfl
@[simp] theorem State.send_aqLast (s : State) (o : Out) : (s.send o).aqLast = s.aqLast := rfl
@[simp] theorem State.send_annex (s : State) (o : Out) : (s.send o).annex = s.annex := rfl
@[simp] theorem State.send_monitors (s : State) (o : Out) : (s.send o).monitors = s.monitors := rfl

@[simp] theorem State.modAnnex_agenda (s : State) (f : Annex → Annex) : (s.modAnnex f).agenda = s.agenda := rfl
@[simp] theorem State.modAnnex_cur (s : State) (f : Annex → Annex) : (s.modAnnex f).cur = s.cur := rfl
@[simp] theorem State.modAnnex_inp (s : State) (f : Annex → Annex) : (s.modAnnex f).inp = s.inp := rfl
@[simp] theorem State.modAnnex_clk (s : State) (f : Annex → Annex) : (s.modAnnex f).clk = s.clk := rfl
@[simp] theorem State.modAnnex_freeCtr (s : State) (f : Annex → Annex) : (s.modAnnex f).freeCtr = s.freeCtr := rfl
@[simp] theorem State.modAnnex_nextId (s : State) (f : Annex → Annex) : (s.modAnnex f).nextId = s.nextId := rfl
@[simp] theorem State.modAnnex_rowCtx (s : State) (f : Annex → Annex) : (s.modAnnex f).rowCtx = s.rowCtx := rfl
@[simp] theorem State.modAnnex_strands (s : State) (f : Annex → Annex) : (s.modAnnex f).strands = s.strands := rfl
@[simp] theorem State.modAnnex_cores (s : State) (f : Annex → Annex) : (s.modAnnex f).cores = s.cores := rfl
@[simp] theorem State.modAnnex_quads (s : State) (f : Annex → Annex) : (s.modAnnex f).quads = s.quads := rfl
@[simp] theorem State.modAnnex_basins (s : State) (f : Annex → Annex) : (s.modAnnex f).basins = s.basins := rfl
@[simp] theorem State.modAnnex_banks (s : State) (f : Annex → Annex) : (s.modAnnex f).banks = s.banks := rfl
@[simp] theorem State.modAnnex_latches (s : State) (f : Annex → Annex) : (s.modAnnex f).latches = s.latches := rfl
@[simp] theorem State.modAnnex_comp (s : State) (f : Annex → Annex) : (s.modAnnex f).comp = s.comp := rfl
@[simp] theorem State.modAnnex_unchecked (s : State) (f : Annex → Annex) : (s.modAnnex f).unchecked = s.unchecked := rfl
@[simp] theorem State.modAnnex_errs (s : State) (f : Annex → Annex) : (s.modAnnex f).errs = s.errs := rfl
@[simp] theorem State.modAnnex_spInit (s : State) (f : Annex → Annex) : (s.modAnnex f).spInit = s.spInit := rfl
@[simp] theorem State.modAnnex_sense (s : State) (f : Annex → Annex) : (s.modAnnex f).sense = s.sense := rfl
@[simp] theorem State.modAnnex_ops (s : State) (f : Annex → Annex) : (s.modAnnex f).ops = s.ops := rfl
@[simp] theorem State.modAnnex_mem (s : State) (f : Annex → Annex) : (s.modAnnex f).mem = s.mem := rfl
@[simp] theorem State.modAnnex_cache (s : State) (f : Annex → Annex) : (s.modAnnex f).cache = s.cache := rfl
@[simp] theorem State.modAnnex_copies (s : State) (f : Annex → Annex) : (s.modAnnex f).copies = s.copies := rfl
@[simp] theorem State.modAnnex_vec (s : State) (f : Annex → Annex) : (s.modAnnex f).vec = s.vec := rfl
@[simp] theorem State.modAnnex_tlb (s : State) (f : Annex → Annex) : (s.modAnnex f).tlb = s.tlb := rfl
@[simp] theorem State.modAnnex_ats (s : State) (f : Annex → Annex) : (s.modAnnex f).ats = s.ats := rfl
@[simp] theorem State.modAnnex_frames (s : State) (f : Annex → Annex) : (s.modAnnex f).frames = s.frames := rfl
@[simp] theorem State.modAnnex_casts (s : State) (f : Annex → Annex) : (s.modAnnex f).casts = s.casts := rfl
@[simp] theorem State.modAnnex_hostMem (s : State) (f : Annex → Annex) : (s.modAnnex f).hostMem = s.hostMem := rfl
@[simp] theorem State.modAnnex_hostPoison (s : State) (f : Annex → Annex) : (s.modAnnex f).hostPoison = s.hostPoison := rfl
@[simp] theorem State.modAnnex_resv (s : State) (f : Annex → Annex) : (s.modAnnex f).resv = s.resv := rfl
@[simp] theorem State.modAnnex_peer (s : State) (f : Annex → Annex) : (s.modAnnex f).peer = s.peer := rfl
@[simp] theorem State.modAnnex_granted (s : State) (f : Annex → Annex) : (s.modAnnex f).granted = s.granted := rfl
@[simp] theorem State.modAnnex_rlinks (s : State) (f : Annex → Annex) : (s.modAnnex f).rlinks = s.rlinks := rfl
@[simp] theorem State.modAnnex_groups (s : State) (f : Annex → Annex) : (s.modAnnex f).groups = s.groups := rfl
@[simp] theorem State.modAnnex_saved (s : State) (f : Annex → Annex) : (s.modAnnex f).saved = s.saved := rfl
@[simp] theorem State.modAnnex_pageReqs (s : State) (f : Annex → Annex) : (s.modAnnex f).pageReqs = s.pageReqs := rfl
@[simp] theorem State.modAnnex_pageHeld (s : State) (f : Annex → Annex) : (s.modAnnex f).pageHeld = s.pageHeld := rfl
@[simp] theorem State.modAnnex_hostCopies (s : State) (f : Annex → Annex) : (s.modAnnex f).hostCopies = s.hostCopies := rfl
@[simp] theorem State.modAnnex_deferred (s : State) (f : Annex → Annex) : (s.modAnnex f).deferred = s.deferred := rfl
@[simp] theorem State.modAnnex_atsInvs (s : State) (f : Annex → Annex) : (s.modAnnex f).atsInvs = s.atsInvs := rfl
@[simp] theorem State.modAnnex_nextTag (s : State) (f : Annex → Annex) : (s.modAnnex f).nextTag = s.nextTag := rfl
@[simp] theorem State.modAnnex_out (s : State) (f : Annex → Annex) : (s.modAnnex f).out = s.out := rfl
@[simp] theorem State.modAnnex_ctxtabBase (s : State) (f : Annex → Annex) : (s.modAnnex f).ctxtabBase = s.ctxtabBase := rfl
@[simp] theorem State.modAnnex_ctxtabLog2n (s : State) (f : Annex → Annex) : (s.modAnnex f).ctxtabLog2n = s.ctxtabLog2n := rfl
@[simp] theorem State.modAnnex_ctxtabWritten (s : State) (f : Annex → Annex) : (s.modAnnex f).ctxtabWritten = s.ctxtabWritten := rfl
@[simp] theorem State.modAnnex_hdmt (s : State) (f : Annex → Annex) : (s.modAnnex f).hdmt = s.hdmt := rfl
@[simp] theorem State.modAnnex_hdmtWritten (s : State) (f : Annex → Annex) : (s.modAnnex f).hdmtWritten = s.hdmtWritten := rfl
@[simp] theorem State.modAnnex_arfb (s : State) (f : Annex → Annex) : (s.modAnnex f).arfb = s.arfb := rfl
@[simp] theorem State.modAnnex_arfcLimit (s : State) (f : Annex → Annex) : (s.modAnnex f).arfcLimit = s.arfcLimit := rfl
@[simp] theorem State.modAnnex_arfcFmt (s : State) (f : Annex → Annex) : (s.modAnnex f).arfcFmt = s.arfcFmt := rfl
@[simp] theorem State.modAnnex_arfcEn (s : State) (f : Annex → Annex) : (s.modAnnex f).arfcEn = s.arfcEn := rfl
@[simp] theorem State.modAnnex_xvec (s : State) (f : Annex → Annex) : (s.modAnnex f).xvec = s.xvec := rfl
@[simp] theorem State.modAnnex_krBase (s : State) (f : Annex → Annex) : (s.modAnnex f).krBase = s.krBase := rfl
@[simp] theorem State.modAnnex_krSize (s : State) (f : Annex → Annex) : (s.modAnnex f).krSize = s.krSize := rfl
@[simp] theorem State.modAnnex_devid (s : State) (f : Annex → Annex) : (s.modAnnex f).devid = s.devid := rfl
@[simp] theorem State.modAnnex_aqInc (s : State) (f : Annex → Annex) : (s.modAnnex f).aqInc = s.aqInc := rfl
@[simp] theorem State.modAnnex_selfWas (s : State) (f : Annex → Annex) : (s.modAnnex f).selfWas = s.selfWas := rfl
@[simp] theorem State.modAnnex_ptabBase (s : State) (f : Annex → Annex) : (s.modAnnex f).ptabBase = s.ptabBase := rfl
@[simp] theorem State.modAnnex_ptabEn (s : State) (f : Annex → Annex) : (s.modAnnex f).ptabEn = s.ptabEn := rfl
@[simp] theorem State.modAnnex_aqTurn (s : State) (f : Annex → Annex) : (s.modAnnex f).aqTurn = s.aqTurn := rfl
@[simp] theorem State.modAnnex_aqStale (s : State) (f : Annex → Annex) : (s.modAnnex f).aqStale = s.aqStale := rfl
@[simp] theorem State.modAnnex_aqSync (s : State) (f : Annex → Annex) : (s.modAnnex f).aqSync = s.aqSync := rfl
@[simp] theorem State.modAnnex_aqBound (s : State) (f : Annex → Annex) : (s.modAnnex f).aqBound = s.aqBound := rfl
@[simp] theorem State.modAnnex_aqSec (s : State) (f : Annex → Annex) : (s.modAnnex f).aqSec = s.aqSec := rfl
@[simp] theorem State.modAnnex_aqNs (s : State) (f : Annex → Annex) : (s.modAnnex f).aqNs = s.aqNs := rfl
@[simp] theorem State.modAnnex_aqGood (s : State) (f : Annex → Annex) : (s.modAnnex f).aqGood = s.aqGood := rfl
@[simp] theorem State.modAnnex_aqLast (s : State) (f : Annex → Annex) : (s.modAnnex f).aqLast = s.aqLast := rfl
@[simp] theorem State.modAnnex_monitors (s : State) (f : Annex → Annex) : (s.modAnnex f).monitors = s.monitors := rfl

@[simp] theorem State.setOp_agenda (s : State) (o : EngineOp) : (s.setOp o).agenda = s.agenda := rfl
@[simp] theorem State.setOp_cur (s : State) (o : EngineOp) : (s.setOp o).cur = s.cur := rfl
@[simp] theorem State.setOp_inp (s : State) (o : EngineOp) : (s.setOp o).inp = s.inp := rfl
@[simp] theorem State.setOp_clk (s : State) (o : EngineOp) : (s.setOp o).clk = s.clk := rfl
@[simp] theorem State.setOp_freeCtr (s : State) (o : EngineOp) : (s.setOp o).freeCtr = s.freeCtr := rfl
@[simp] theorem State.setOp_nextId (s : State) (o : EngineOp) : (s.setOp o).nextId = s.nextId := rfl
@[simp] theorem State.setOp_rowCtx (s : State) (o : EngineOp) : (s.setOp o).rowCtx = s.rowCtx := rfl
@[simp] theorem State.setOp_strands (s : State) (o : EngineOp) : (s.setOp o).strands = s.strands := rfl
@[simp] theorem State.setOp_cores (s : State) (o : EngineOp) : (s.setOp o).cores = s.cores := rfl
@[simp] theorem State.setOp_quads (s : State) (o : EngineOp) : (s.setOp o).quads = s.quads := rfl
@[simp] theorem State.setOp_basins (s : State) (o : EngineOp) : (s.setOp o).basins = s.basins := rfl
@[simp] theorem State.setOp_banks (s : State) (o : EngineOp) : (s.setOp o).banks = s.banks := rfl
@[simp] theorem State.setOp_latches (s : State) (o : EngineOp) : (s.setOp o).latches = s.latches := rfl
@[simp] theorem State.setOp_comp (s : State) (o : EngineOp) : (s.setOp o).comp = s.comp := rfl
@[simp] theorem State.setOp_unchecked (s : State) (o : EngineOp) : (s.setOp o).unchecked = s.unchecked := rfl
@[simp] theorem State.setOp_errs (s : State) (o : EngineOp) : (s.setOp o).errs = s.errs := rfl
@[simp] theorem State.setOp_spInit (s : State) (o : EngineOp) : (s.setOp o).spInit = s.spInit := rfl
@[simp] theorem State.setOp_sense (s : State) (o : EngineOp) : (s.setOp o).sense = s.sense := rfl
@[simp] theorem State.setOp_mem (s : State) (o : EngineOp) : (s.setOp o).mem = s.mem := rfl
@[simp] theorem State.setOp_cache (s : State) (o : EngineOp) : (s.setOp o).cache = s.cache := rfl
@[simp] theorem State.setOp_copies (s : State) (o : EngineOp) : (s.setOp o).copies = s.copies := rfl
@[simp] theorem State.setOp_vec (s : State) (o : EngineOp) : (s.setOp o).vec = s.vec := rfl
@[simp] theorem State.setOp_tlb (s : State) (o : EngineOp) : (s.setOp o).tlb = s.tlb := rfl
@[simp] theorem State.setOp_ats (s : State) (o : EngineOp) : (s.setOp o).ats = s.ats := rfl
@[simp] theorem State.setOp_frames (s : State) (o : EngineOp) : (s.setOp o).frames = s.frames := rfl
@[simp] theorem State.setOp_casts (s : State) (o : EngineOp) : (s.setOp o).casts = s.casts := rfl
@[simp] theorem State.setOp_hostMem (s : State) (o : EngineOp) : (s.setOp o).hostMem = s.hostMem := rfl
@[simp] theorem State.setOp_hostPoison (s : State) (o : EngineOp) : (s.setOp o).hostPoison = s.hostPoison := rfl
@[simp] theorem State.setOp_resv (s : State) (o : EngineOp) : (s.setOp o).resv = s.resv := rfl
@[simp] theorem State.setOp_peer (s : State) (o : EngineOp) : (s.setOp o).peer = s.peer := rfl
@[simp] theorem State.setOp_granted (s : State) (o : EngineOp) : (s.setOp o).granted = s.granted := rfl
@[simp] theorem State.setOp_rlinks (s : State) (o : EngineOp) : (s.setOp o).rlinks = s.rlinks := rfl
@[simp] theorem State.setOp_groups (s : State) (o : EngineOp) : (s.setOp o).groups = s.groups := rfl
@[simp] theorem State.setOp_saved (s : State) (o : EngineOp) : (s.setOp o).saved = s.saved := rfl
@[simp] theorem State.setOp_pageReqs (s : State) (o : EngineOp) : (s.setOp o).pageReqs = s.pageReqs := rfl
@[simp] theorem State.setOp_pageHeld (s : State) (o : EngineOp) : (s.setOp o).pageHeld = s.pageHeld := rfl
@[simp] theorem State.setOp_hostCopies (s : State) (o : EngineOp) : (s.setOp o).hostCopies = s.hostCopies := rfl
@[simp] theorem State.setOp_deferred (s : State) (o : EngineOp) : (s.setOp o).deferred = s.deferred := rfl
@[simp] theorem State.setOp_atsInvs (s : State) (o : EngineOp) : (s.setOp o).atsInvs = s.atsInvs := rfl
@[simp] theorem State.setOp_nextTag (s : State) (o : EngineOp) : (s.setOp o).nextTag = s.nextTag := rfl
@[simp] theorem State.setOp_out (s : State) (o : EngineOp) : (s.setOp o).out = s.out := rfl
@[simp] theorem State.setOp_ctxtabBase (s : State) (o : EngineOp) : (s.setOp o).ctxtabBase = s.ctxtabBase := rfl
@[simp] theorem State.setOp_ctxtabLog2n (s : State) (o : EngineOp) : (s.setOp o).ctxtabLog2n = s.ctxtabLog2n := rfl
@[simp] theorem State.setOp_ctxtabWritten (s : State) (o : EngineOp) : (s.setOp o).ctxtabWritten = s.ctxtabWritten := rfl
@[simp] theorem State.setOp_hdmt (s : State) (o : EngineOp) : (s.setOp o).hdmt = s.hdmt := rfl
@[simp] theorem State.setOp_hdmtWritten (s : State) (o : EngineOp) : (s.setOp o).hdmtWritten = s.hdmtWritten := rfl
@[simp] theorem State.setOp_arfb (s : State) (o : EngineOp) : (s.setOp o).arfb = s.arfb := rfl
@[simp] theorem State.setOp_arfcLimit (s : State) (o : EngineOp) : (s.setOp o).arfcLimit = s.arfcLimit := rfl
@[simp] theorem State.setOp_arfcFmt (s : State) (o : EngineOp) : (s.setOp o).arfcFmt = s.arfcFmt := rfl
@[simp] theorem State.setOp_arfcEn (s : State) (o : EngineOp) : (s.setOp o).arfcEn = s.arfcEn := rfl
@[simp] theorem State.setOp_xvec (s : State) (o : EngineOp) : (s.setOp o).xvec = s.xvec := rfl
@[simp] theorem State.setOp_krBase (s : State) (o : EngineOp) : (s.setOp o).krBase = s.krBase := rfl
@[simp] theorem State.setOp_krSize (s : State) (o : EngineOp) : (s.setOp o).krSize = s.krSize := rfl
@[simp] theorem State.setOp_devid (s : State) (o : EngineOp) : (s.setOp o).devid = s.devid := rfl
@[simp] theorem State.setOp_aqInc (s : State) (o : EngineOp) : (s.setOp o).aqInc = s.aqInc := rfl
@[simp] theorem State.setOp_selfWas (s : State) (o : EngineOp) : (s.setOp o).selfWas = s.selfWas := rfl
@[simp] theorem State.setOp_ptabBase (s : State) (o : EngineOp) : (s.setOp o).ptabBase = s.ptabBase := rfl
@[simp] theorem State.setOp_ptabEn (s : State) (o : EngineOp) : (s.setOp o).ptabEn = s.ptabEn := rfl
@[simp] theorem State.setOp_aqTurn (s : State) (o : EngineOp) : (s.setOp o).aqTurn = s.aqTurn := rfl
@[simp] theorem State.setOp_aqStale (s : State) (o : EngineOp) : (s.setOp o).aqStale = s.aqStale := rfl
@[simp] theorem State.setOp_aqSync (s : State) (o : EngineOp) : (s.setOp o).aqSync = s.aqSync := rfl
@[simp] theorem State.setOp_aqBound (s : State) (o : EngineOp) : (s.setOp o).aqBound = s.aqBound := rfl
@[simp] theorem State.setOp_aqSec (s : State) (o : EngineOp) : (s.setOp o).aqSec = s.aqSec := rfl
@[simp] theorem State.setOp_aqNs (s : State) (o : EngineOp) : (s.setOp o).aqNs = s.aqNs := rfl
@[simp] theorem State.setOp_aqGood (s : State) (o : EngineOp) : (s.setOp o).aqGood = s.aqGood := rfl
@[simp] theorem State.setOp_aqLast (s : State) (o : EngineOp) : (s.setOp o).aqLast = s.aqLast := rfl
@[simp] theorem State.setOp_annex (s : State) (o : EngineOp) : (s.setOp o).annex = s.annex := rfl
@[simp] theorem State.setOp_monitors (s : State) (o : EngineOp) : (s.setOp o).monitors = s.monitors := rfl

@[simp] theorem State.breakLinks_agenda (s : State) (l : Nat) : (s.breakLinks l).agenda = s.agenda := rfl
@[simp] theorem State.breakLinks_cur (s : State) (l : Nat) : (s.breakLinks l).cur = s.cur := rfl
@[simp] theorem State.breakLinks_inp (s : State) (l : Nat) : (s.breakLinks l).inp = s.inp := rfl
@[simp] theorem State.breakLinks_clk (s : State) (l : Nat) : (s.breakLinks l).clk = s.clk := rfl
@[simp] theorem State.breakLinks_freeCtr (s : State) (l : Nat) : (s.breakLinks l).freeCtr = s.freeCtr := rfl
@[simp] theorem State.breakLinks_nextId (s : State) (l : Nat) : (s.breakLinks l).nextId = s.nextId := rfl
@[simp] theorem State.breakLinks_rowCtx (s : State) (l : Nat) : (s.breakLinks l).rowCtx = s.rowCtx := rfl
@[simp] theorem State.breakLinks_cores (s : State) (l : Nat) : (s.breakLinks l).cores = s.cores := rfl
@[simp] theorem State.breakLinks_quads (s : State) (l : Nat) : (s.breakLinks l).quads = s.quads := rfl
@[simp] theorem State.breakLinks_basins (s : State) (l : Nat) : (s.breakLinks l).basins = s.basins := rfl
@[simp] theorem State.breakLinks_banks (s : State) (l : Nat) : (s.breakLinks l).banks = s.banks := rfl
@[simp] theorem State.breakLinks_latches (s : State) (l : Nat) : (s.breakLinks l).latches = s.latches := rfl
@[simp] theorem State.breakLinks_comp (s : State) (l : Nat) : (s.breakLinks l).comp = s.comp := rfl
@[simp] theorem State.breakLinks_unchecked (s : State) (l : Nat) : (s.breakLinks l).unchecked = s.unchecked := rfl
@[simp] theorem State.breakLinks_errs (s : State) (l : Nat) : (s.breakLinks l).errs = s.errs := rfl
@[simp] theorem State.breakLinks_spInit (s : State) (l : Nat) : (s.breakLinks l).spInit = s.spInit := rfl
@[simp] theorem State.breakLinks_sense (s : State) (l : Nat) : (s.breakLinks l).sense = s.sense := rfl
@[simp] theorem State.breakLinks_ops (s : State) (l : Nat) : (s.breakLinks l).ops = s.ops := rfl
@[simp] theorem State.breakLinks_mem (s : State) (l : Nat) : (s.breakLinks l).mem = s.mem := rfl
@[simp] theorem State.breakLinks_cache (s : State) (l : Nat) : (s.breakLinks l).cache = s.cache := rfl
@[simp] theorem State.breakLinks_copies (s : State) (l : Nat) : (s.breakLinks l).copies = s.copies := rfl
@[simp] theorem State.breakLinks_vec (s : State) (l : Nat) : (s.breakLinks l).vec = s.vec := rfl
@[simp] theorem State.breakLinks_tlb (s : State) (l : Nat) : (s.breakLinks l).tlb = s.tlb := rfl
@[simp] theorem State.breakLinks_ats (s : State) (l : Nat) : (s.breakLinks l).ats = s.ats := rfl
@[simp] theorem State.breakLinks_frames (s : State) (l : Nat) : (s.breakLinks l).frames = s.frames := rfl
@[simp] theorem State.breakLinks_casts (s : State) (l : Nat) : (s.breakLinks l).casts = s.casts := rfl
@[simp] theorem State.breakLinks_hostMem (s : State) (l : Nat) : (s.breakLinks l).hostMem = s.hostMem := rfl
@[simp] theorem State.breakLinks_hostPoison (s : State) (l : Nat) : (s.breakLinks l).hostPoison = s.hostPoison := rfl
@[simp] theorem State.breakLinks_resv (s : State) (l : Nat) : (s.breakLinks l).resv = s.resv := rfl
@[simp] theorem State.breakLinks_peer (s : State) (l : Nat) : (s.breakLinks l).peer = s.peer := rfl
@[simp] theorem State.breakLinks_granted (s : State) (l : Nat) : (s.breakLinks l).granted = s.granted := rfl
@[simp] theorem State.breakLinks_groups (s : State) (l : Nat) : (s.breakLinks l).groups = s.groups := rfl
@[simp] theorem State.breakLinks_saved (s : State) (l : Nat) : (s.breakLinks l).saved = s.saved := rfl
@[simp] theorem State.breakLinks_pageReqs (s : State) (l : Nat) : (s.breakLinks l).pageReqs = s.pageReqs := rfl
@[simp] theorem State.breakLinks_pageHeld (s : State) (l : Nat) : (s.breakLinks l).pageHeld = s.pageHeld := rfl
@[simp] theorem State.breakLinks_deferred (s : State) (l : Nat) : (s.breakLinks l).deferred = s.deferred := rfl
@[simp] theorem State.breakLinks_atsInvs (s : State) (l : Nat) : (s.breakLinks l).atsInvs = s.atsInvs := rfl
@[simp] theorem State.breakLinks_nextTag (s : State) (l : Nat) : (s.breakLinks l).nextTag = s.nextTag := rfl
@[simp] theorem State.breakLinks_ctxtabBase (s : State) (l : Nat) : (s.breakLinks l).ctxtabBase = s.ctxtabBase := rfl
@[simp] theorem State.breakLinks_ctxtabLog2n (s : State) (l : Nat) : (s.breakLinks l).ctxtabLog2n = s.ctxtabLog2n := rfl
@[simp] theorem State.breakLinks_ctxtabWritten (s : State) (l : Nat) : (s.breakLinks l).ctxtabWritten = s.ctxtabWritten := rfl
@[simp] theorem State.breakLinks_hdmt (s : State) (l : Nat) : (s.breakLinks l).hdmt = s.hdmt := rfl
@[simp] theorem State.breakLinks_hdmtWritten (s : State) (l : Nat) : (s.breakLinks l).hdmtWritten = s.hdmtWritten := rfl
@[simp] theorem State.breakLinks_arfb (s : State) (l : Nat) : (s.breakLinks l).arfb = s.arfb := rfl
@[simp] theorem State.breakLinks_arfcLimit (s : State) (l : Nat) : (s.breakLinks l).arfcLimit = s.arfcLimit := rfl
@[simp] theorem State.breakLinks_arfcFmt (s : State) (l : Nat) : (s.breakLinks l).arfcFmt = s.arfcFmt := rfl
@[simp] theorem State.breakLinks_arfcEn (s : State) (l : Nat) : (s.breakLinks l).arfcEn = s.arfcEn := rfl
@[simp] theorem State.breakLinks_xvec (s : State) (l : Nat) : (s.breakLinks l).xvec = s.xvec := rfl
@[simp] theorem State.breakLinks_krBase (s : State) (l : Nat) : (s.breakLinks l).krBase = s.krBase := rfl
@[simp] theorem State.breakLinks_krSize (s : State) (l : Nat) : (s.breakLinks l).krSize = s.krSize := rfl
@[simp] theorem State.breakLinks_devid (s : State) (l : Nat) : (s.breakLinks l).devid = s.devid := rfl
@[simp] theorem State.breakLinks_aqInc (s : State) (l : Nat) : (s.breakLinks l).aqInc = s.aqInc := rfl
@[simp] theorem State.breakLinks_selfWas (s : State) (l : Nat) : (s.breakLinks l).selfWas = s.selfWas := rfl
@[simp] theorem State.breakLinks_ptabBase (s : State) (l : Nat) : (s.breakLinks l).ptabBase = s.ptabBase := rfl
@[simp] theorem State.breakLinks_ptabEn (s : State) (l : Nat) : (s.breakLinks l).ptabEn = s.ptabEn := rfl
@[simp] theorem State.breakLinks_aqTurn (s : State) (l : Nat) : (s.breakLinks l).aqTurn = s.aqTurn := rfl
@[simp] theorem State.breakLinks_aqStale (s : State) (l : Nat) : (s.breakLinks l).aqStale = s.aqStale := rfl
@[simp] theorem State.breakLinks_aqSync (s : State) (l : Nat) : (s.breakLinks l).aqSync = s.aqSync := rfl
@[simp] theorem State.breakLinks_aqBound (s : State) (l : Nat) : (s.breakLinks l).aqBound = s.aqBound := rfl
@[simp] theorem State.breakLinks_aqSec (s : State) (l : Nat) : (s.breakLinks l).aqSec = s.aqSec := rfl
@[simp] theorem State.breakLinks_aqNs (s : State) (l : Nat) : (s.breakLinks l).aqNs = s.aqNs := rfl
@[simp] theorem State.breakLinks_aqGood (s : State) (l : Nat) : (s.breakLinks l).aqGood = s.aqGood := rfl
@[simp] theorem State.breakLinks_aqLast (s : State) (l : Nat) : (s.breakLinks l).aqLast = s.aqLast := rfl
@[simp] theorem State.breakLinks_annex (s : State) (l : Nat) : (s.breakLinks l).annex = s.annex := rfl
@[simp] theorem State.breakLinks_monitors (s : State) (l : Nat) : (s.breakLinks l).monitors = s.monitors := rfl

@[simp] theorem State.elapse_agenda (s : State) (n : Nat) : (s.elapse n).agenda = s.agenda := rfl
@[simp] theorem State.elapse_cur (s : State) (n : Nat) : (s.elapse n).cur = s.cur := rfl
@[simp] theorem State.elapse_inp (s : State) (n : Nat) : (s.elapse n).inp = s.inp := rfl
@[simp] theorem State.elapse_freeCtr (s : State) (n : Nat) : (s.elapse n).freeCtr = s.freeCtr := rfl
@[simp] theorem State.elapse_nextId (s : State) (n : Nat) : (s.elapse n).nextId = s.nextId := rfl
@[simp] theorem State.elapse_rowCtx (s : State) (n : Nat) : (s.elapse n).rowCtx = s.rowCtx := rfl
@[simp] theorem State.elapse_strands (s : State) (n : Nat) : (s.elapse n).strands = s.strands := rfl
@[simp] theorem State.elapse_cores (s : State) (n : Nat) : (s.elapse n).cores = s.cores := rfl
@[simp] theorem State.elapse_quads (s : State) (n : Nat) : (s.elapse n).quads = s.quads := rfl
@[simp] theorem State.elapse_basins (s : State) (n : Nat) : (s.elapse n).basins = s.basins := rfl
@[simp] theorem State.elapse_banks (s : State) (n : Nat) : (s.elapse n).banks = s.banks := rfl
@[simp] theorem State.elapse_latches (s : State) (n : Nat) : (s.elapse n).latches = s.latches := rfl
@[simp] theorem State.elapse_comp (s : State) (n : Nat) : (s.elapse n).comp = s.comp := rfl
@[simp] theorem State.elapse_unchecked (s : State) (n : Nat) : (s.elapse n).unchecked = s.unchecked := rfl
@[simp] theorem State.elapse_errs (s : State) (n : Nat) : (s.elapse n).errs = s.errs := rfl
@[simp] theorem State.elapse_spInit (s : State) (n : Nat) : (s.elapse n).spInit = s.spInit := rfl
@[simp] theorem State.elapse_sense (s : State) (n : Nat) : (s.elapse n).sense = s.sense := rfl
@[simp] theorem State.elapse_ops (s : State) (n : Nat) : (s.elapse n).ops = s.ops := rfl
@[simp] theorem State.elapse_mem (s : State) (n : Nat) : (s.elapse n).mem = s.mem := rfl
@[simp] theorem State.elapse_cache (s : State) (n : Nat) : (s.elapse n).cache = s.cache := rfl
@[simp] theorem State.elapse_copies (s : State) (n : Nat) : (s.elapse n).copies = s.copies := rfl
@[simp] theorem State.elapse_vec (s : State) (n : Nat) : (s.elapse n).vec = s.vec := rfl
@[simp] theorem State.elapse_tlb (s : State) (n : Nat) : (s.elapse n).tlb = s.tlb := rfl
@[simp] theorem State.elapse_ats (s : State) (n : Nat) : (s.elapse n).ats = s.ats := rfl
@[simp] theorem State.elapse_frames (s : State) (n : Nat) : (s.elapse n).frames = s.frames := rfl
@[simp] theorem State.elapse_casts (s : State) (n : Nat) : (s.elapse n).casts = s.casts := rfl
@[simp] theorem State.elapse_hostMem (s : State) (n : Nat) : (s.elapse n).hostMem = s.hostMem := rfl
@[simp] theorem State.elapse_hostPoison (s : State) (n : Nat) : (s.elapse n).hostPoison = s.hostPoison := rfl
@[simp] theorem State.elapse_resv (s : State) (n : Nat) : (s.elapse n).resv = s.resv := rfl
@[simp] theorem State.elapse_peer (s : State) (n : Nat) : (s.elapse n).peer = s.peer := rfl
@[simp] theorem State.elapse_granted (s : State) (n : Nat) : (s.elapse n).granted = s.granted := rfl
@[simp] theorem State.elapse_rlinks (s : State) (n : Nat) : (s.elapse n).rlinks = s.rlinks := rfl
@[simp] theorem State.elapse_groups (s : State) (n : Nat) : (s.elapse n).groups = s.groups := rfl
@[simp] theorem State.elapse_saved (s : State) (n : Nat) : (s.elapse n).saved = s.saved := rfl
@[simp] theorem State.elapse_pageReqs (s : State) (n : Nat) : (s.elapse n).pageReqs = s.pageReqs := rfl
@[simp] theorem State.elapse_pageHeld (s : State) (n : Nat) : (s.elapse n).pageHeld = s.pageHeld := rfl
@[simp] theorem State.elapse_hostCopies (s : State) (n : Nat) : (s.elapse n).hostCopies = s.hostCopies := rfl
@[simp] theorem State.elapse_deferred (s : State) (n : Nat) : (s.elapse n).deferred = s.deferred := rfl
@[simp] theorem State.elapse_atsInvs (s : State) (n : Nat) : (s.elapse n).atsInvs = s.atsInvs := rfl
@[simp] theorem State.elapse_nextTag (s : State) (n : Nat) : (s.elapse n).nextTag = s.nextTag := rfl
@[simp] theorem State.elapse_out (s : State) (n : Nat) : (s.elapse n).out = s.out := rfl
@[simp] theorem State.elapse_ctxtabBase (s : State) (n : Nat) : (s.elapse n).ctxtabBase = s.ctxtabBase := rfl
@[simp] theorem State.elapse_ctxtabLog2n (s : State) (n : Nat) : (s.elapse n).ctxtabLog2n = s.ctxtabLog2n := rfl
@[simp] theorem State.elapse_ctxtabWritten (s : State) (n : Nat) : (s.elapse n).ctxtabWritten = s.ctxtabWritten := rfl
@[simp] theorem State.elapse_hdmt (s : State) (n : Nat) : (s.elapse n).hdmt = s.hdmt := rfl
@[simp] theorem State.elapse_hdmtWritten (s : State) (n : Nat) : (s.elapse n).hdmtWritten = s.hdmtWritten := rfl
@[simp] theorem State.elapse_arfb (s : State) (n : Nat) : (s.elapse n).arfb = s.arfb := rfl
@[simp] theorem State.elapse_arfcLimit (s : State) (n : Nat) : (s.elapse n).arfcLimit = s.arfcLimit := rfl
@[simp] theorem State.elapse_arfcFmt (s : State) (n : Nat) : (s.elapse n).arfcFmt = s.arfcFmt := rfl
@[simp] theorem State.elapse_arfcEn (s : State) (n : Nat) : (s.elapse n).arfcEn = s.arfcEn := rfl
@[simp] theorem State.elapse_xvec (s : State) (n : Nat) : (s.elapse n).xvec = s.xvec := rfl
@[simp] theorem State.elapse_krBase (s : State) (n : Nat) : (s.elapse n).krBase = s.krBase := rfl
@[simp] theorem State.elapse_krSize (s : State) (n : Nat) : (s.elapse n).krSize = s.krSize := rfl
@[simp] theorem State.elapse_devid (s : State) (n : Nat) : (s.elapse n).devid = s.devid := rfl
@[simp] theorem State.elapse_aqInc (s : State) (n : Nat) : (s.elapse n).aqInc = s.aqInc := rfl
@[simp] theorem State.elapse_selfWas (s : State) (n : Nat) : (s.elapse n).selfWas = s.selfWas := rfl
@[simp] theorem State.elapse_ptabBase (s : State) (n : Nat) : (s.elapse n).ptabBase = s.ptabBase := rfl
@[simp] theorem State.elapse_ptabEn (s : State) (n : Nat) : (s.elapse n).ptabEn = s.ptabEn := rfl
@[simp] theorem State.elapse_aqTurn (s : State) (n : Nat) : (s.elapse n).aqTurn = s.aqTurn := rfl
@[simp] theorem State.elapse_aqStale (s : State) (n : Nat) : (s.elapse n).aqStale = s.aqStale := rfl
@[simp] theorem State.elapse_aqSync (s : State) (n : Nat) : (s.elapse n).aqSync = s.aqSync := rfl
@[simp] theorem State.elapse_aqBound (s : State) (n : Nat) : (s.elapse n).aqBound = s.aqBound := rfl
@[simp] theorem State.elapse_aqSec (s : State) (n : Nat) : (s.elapse n).aqSec = s.aqSec := rfl
@[simp] theorem State.elapse_aqNs (s : State) (n : Nat) : (s.elapse n).aqNs = s.aqNs := rfl
@[simp] theorem State.elapse_aqGood (s : State) (n : Nat) : (s.elapse n).aqGood = s.aqGood := rfl
@[simp] theorem State.elapse_aqLast (s : State) (n : Nat) : (s.elapse n).aqLast = s.aqLast := rfl
@[simp] theorem State.elapse_monitors (s : State) (n : Nat) : (s.elapse n).monitors = s.monitors := rfl

@[simp] theorem Strand.setPc_st (t : Strand) (a : Word) : (t.setPc a).st = t.st := rfl
@[simp] theorem Strand.setPc_lastPc (t : Strand) (a : Word) : (t.setPc a).lastPc = t.lastPc := rfl
@[simp] theorem Strand.setPc_word (t : Strand) (a : Word) : (t.setPc a).word = t.word := rfl
@[simp] theorem Strand.setPc_g (t : Strand) (a : Word) : (t.setPc a).g = t.g := rfl
@[simp] theorem Strand.setPc_v (t : Strand) (a : Word) : (t.setPc a).v = t.v := rfl
@[simp] theorem Strand.setPc_k (t : Strand) (a : Word) : (t.setPc a).k = t.k := rfl
@[simp] theorem Strand.setPc_vn (t : Strand) (a : Word) : (t.setPc a).vn = t.vn := rfl
@[simp] theorem Strand.setPc_lgc (t : Strand) (a : Word) : (t.setPc a).lgc = t.lgc := rfl
@[simp] theorem Strand.setPc_slip (t : Strand) (a : Word) : (t.setPc a).slip = t.slip := rfl
@[simp] theorem Strand.setPc_bs (t : Strand) (a : Word) : (t.setPc a).bs = t.bs := rfl
@[simp] theorem Strand.setPc_sw (t : Strand) (a : Word) : (t.setPc a).sw = t.sw := rfl
@[simp] theorem Strand.setPc_lgbase (t : Strand) (a : Word) : (t.setPc a).lgbase = t.lgbase := rfl
@[simp] theorem Strand.setPc_maskW (t : Strand) (a : Word) : (t.setPc a).maskW = t.maskW := rfl
@[simp] theorem Strand.setPc_sat (t : Strand) (a : Word) : (t.setPc a).sat = t.sat := rfl
@[simp] theorem Strand.setPc_rm (t : Strand) (a : Word) : (t.setPc a).rm = t.rm := rfl
@[simp] theorem Strand.setPc_fflags (t : Strand) (a : Word) : (t.setPc a).fflags = t.fflags := rfl
@[simp] theorem Strand.setPc_loops (t : Strand) (a : Word) : (t.setPc a).loops = t.loops := rfl
@[simp] theorem Strand.setPc_xpc (t : Strand) (a : Word) : (t.setPc a).xpc = t.xpc := rfl
@[simp] theorem Strand.setPc_xcause (t : Strand) (a : Word) : (t.setPc a).xcause = t.xcause := rfl
@[simp] theorem Strand.setPc_xval (t : Strand) (a : Word) : (t.setPc a).xval = t.xval := rfl
@[simp] theorem Strand.setPc_xscratch (t : Strand) (a : Word) : (t.setPc a).xscratch = t.xscratch := rfl
@[simp] theorem Strand.setPc_widx (t : Strand) (a : Word) : (t.setPc a).widx = t.widx := rfl
@[simp] theorem Strand.setPc_nrec (t : Strand) (a : Word) : (t.setPc a).nrec = t.nrec := rfl
@[simp] theorem Strand.setPc_cur (t : Strand) (a : Word) : (t.setPc a).cur = t.cur := rfl
@[simp] theorem Strand.setPc_exl (t : Strand) (a : Word) : (t.setPc a).exl = t.exl := rfl
@[simp] theorem Strand.setPc_ppriv (t : Strand) (a : Word) : (t.setPc a).ppriv = t.ppriv := rfl
@[simp] theorem Strand.setPc_xld (t : Strand) (a : Word) : (t.setPc a).xld = t.xld := rfl
@[simp] theorem Strand.setPc_xls (t : Strand) (a : Word) : (t.setPc a).xls = t.xls := rfl
@[simp] theorem Strand.setPc_ctxid (t : Strand) (a : Word) : (t.setPc a).ctxid = t.ctxid := rfl
@[simp] theorem Strand.setPc_ite (t : Strand) (a : Word) : (t.setPc a).ite = t.ite := rfl
@[simp] theorem Strand.setPc_illmask (t : Strand) (a : Word) : (t.setPc a).illmask = t.illmask := rfl
@[simp] theorem Strand.setPc_expp (t : Strand) (a : Word) : (t.setPc a).expp = t.expp := rfl
@[simp] theorem Strand.setPc_exps (t : Strand) (a : Word) : (t.setPc a).exps = t.exps := rfl
@[simp] theorem Strand.setPc_expte (t : Strand) (a : Word) : (t.setPc a).expte = t.expte := rfl
@[simp] theorem Strand.setPc_expmask (t : Strand) (a : Word) : (t.setPc a).expmask = t.expmask := rfl
@[simp] theorem Strand.setPc_plNext (t : Strand) (a : Word) : (t.setPc a).plNext = t.plNext := rfl
@[simp] theorem Strand.setPc_plFirst (t : Strand) (a : Word) : (t.setPc a).plFirst = t.plFirst := rfl
@[simp] theorem Strand.setPc_lockerr (t : Strand) (a : Word) : (t.setPc a).lockerr = t.lockerr := rfl
@[simp] theorem Strand.setPc_margin (t : Strand) (a : Word) : (t.setPc a).margin = t.margin := rfl
@[simp] theorem Strand.setPc_aqCause (t : Strand) (a : Word) : (t.setPc a).aqCause = t.aqCause := rfl
@[simp] theorem Strand.setPc_aqFail (t : Strand) (a : Word) : (t.setPc a).aqFail = t.aqFail := rfl
@[simp] theorem Strand.setPc_monsel (t : Strand) (a : Word) : (t.setPc a).monsel = t.monsel := rfl
@[simp] theorem Strand.setPc_cntL (t : Strand) (a : Word) : (t.setPc a).cntL = t.cntL := rfl
@[simp] theorem Strand.setPc_cntS (t : Strand) (a : Word) : (t.setPc a).cntS = t.cntS := rfl
@[simp] theorem Strand.setPc_cntC (t : Strand) (a : Word) : (t.setPc a).cntC = t.cntC := rfl
@[simp] theorem Strand.setPc_cntT (t : Strand) (a : Word) : (t.setPc a).cntT = t.cntT := rfl
@[simp] theorem Strand.setPc_slink (t : Strand) (a : Word) : (t.setPc a).slink = t.slink := rfl
@[simp] theorem Strand.setPc_vlinks (t : Strand) (a : Word) : (t.setPc a).vlinks = t.vlinks := rfl
@[simp] theorem Strand.setPc_barRec (t : Strand) (a : Word) : (t.setPc a).barRec = t.barRec := rfl
@[simp] theorem Strand.setPc_bind (t : Strand) (a : Word) : (t.setPc a).bind = t.bind := rfl
@[simp] theorem Strand.setPc_join (t : Strand) (a : Word) : (t.setPc a).join = t.join := rfl
@[simp] theorem Strand.setPc_root (t : Strand) (a : Word) : (t.setPc a).root = t.root := rfl
@[simp] theorem Strand.setPc_parent (t : Strand) (a : Word) : (t.setPc a).parent = t.parent := rfl
@[simp] theorem Strand.setPc_children (t : Strand) (a : Word) : (t.setPc a).children = t.children := rfl
@[simp] theorem Strand.setPc_preq (t : Strand) (a : Word) : (t.setPc a).preq = t.preq := rfl
@[simp] theorem Strand.setPc_preqLate (t : Strand) (a : Word) : (t.setPc a).preqLate = t.preqLate := rfl
@[simp] theorem Strand.setPc_inside (t : Strand) (a : Word) : (t.setPc a).inside = t.inside := rfl
@[simp] theorem Strand.setPc_resume (t : Strand) (a : Word) : (t.setPc a).resume = t.resume := rfl
@[simp] theorem Strand.setPc_vq (t : Strand) (a : Word) : (t.setPc a).vq = t.vq := rfl
@[simp] theorem Strand.setPc_faults (t : Strand) (a : Word) : (t.setPc a).faults = t.faults := rfl
@[simp] theorem Strand.setPc_faultElem (t : Strand) (a : Word) : (t.setPc a).faultElem = t.faultElem := rfl
@[simp] theorem Strand.setPc_weirPass (t : Strand) (a : Word) : (t.setPc a).weirPass = t.weirPass := rfl
@[simp] theorem Strand.setPc_parked (t : Strand) (a : Word) : (t.setPc a).parked = t.parked := rfl
@[simp] theorem Strand.setPc_descRead (t : Strand) (a : Word) : (t.setPc a).descRead = t.descRead := rfl
@[simp] theorem Strand.setPc_atsDenied (t : Strand) (a : Word) : (t.setPc a).atsDenied = t.atsDenied := rfl
@[simp] theorem Strand.setPc_hostFault (t : Strand) (a : Word) : (t.setPc a).hostFault = t.hostFault := rfl
@[simp] theorem Strand.setPc_genRead (t : Strand) (a : Word) : (t.setPc a).genRead = t.genRead := rfl
@[simp] theorem Strand.setPc_answers (t : Strand) (a : Word) : (t.setPc a).answers = t.answers := rfl
@[simp] theorem Strand.setPc_placed (t : Strand) (a : Word) : (t.setPc a).placed = t.placed := rfl
@[simp] theorem Strand.setPc_sentAt (t : Strand) (a : Word) : (t.setPc a).sentAt = t.sentAt := rfl
@[simp] theorem Strand.setPc_openCast (t : Strand) (a : Word) : (t.setPc a).openCast = t.openCast := rfl
@[simp] theorem Strand.setPc_snap (t : Strand) (a : Word) : (t.setPc a).snap = t.snap := rfl
@[simp] theorem Strand.setPc_joining (t : Strand) (a : Word) : (t.setPc a).joining = t.joining := rfl
@[simp] theorem Strand.setPc_rowData (t : Strand) (a : Word) : (t.setPc a).rowData = t.rowData := rfl
@[simp] theorem Strand.setPc_resumed (t : Strand) (a : Word) : (t.setPc a).resumed = t.resumed := rfl
@[simp] theorem Strand.setPc_wrote (t : Strand) (a : Word) : (t.setPc a).wrote = t.wrote := rfl
@[simp] theorem Strand.setPc_idleDone (t : Strand) (a : Word) : (t.setPc a).idleDone = t.idleDone := rfl
@[simp] theorem Strand.setPc_doubled (t : Strand) (a : Word) : (t.setPc a).doubled = t.doubled := rfl
@[simp] theorem Strand.setPc_sreq (t : Strand) (a : Word) : (t.setPc a).sreq = t.sreq := rfl

@[simp] theorem Strand.setG_st (t : Strand) (r : BitVec 5) (v : Word) : (t.setG r v).st = t.st := by
  unfold Strand.setG; split <;> rfl
@[simp] theorem Strand.setG_pc (t : Strand) (r : BitVec 5) (v : Word) : (t.setG r v).pc = t.pc := by
  unfold Strand.setG; split <;> rfl
@[simp] theorem Strand.setG_lastPc (t : Strand) (r : BitVec 5) (v : Word) : (t.setG r v).lastPc = t.lastPc := by
  unfold Strand.setG; split <;> rfl
@[simp] theorem Strand.setG_word (t : Strand) (r : BitVec 5) (v : Word) : (t.setG r v).word = t.word := by
  unfold Strand.setG; split <;> rfl
@[simp] theorem Strand.setG_v (t : Strand) (r : BitVec 5) (v : Word) : (t.setG r v).v = t.v := by
  unfold Strand.setG; split <;> rfl
@[simp] theorem Strand.setG_k (t : Strand) (r : BitVec 5) (v : Word) : (t.setG r v).k = t.k := by
  unfold Strand.setG; split <;> rfl
@[simp] theorem Strand.setG_vn (t : Strand) (r : BitVec 5) (v : Word) : (t.setG r v).vn = t.vn := by
  unfold Strand.setG; split <;> rfl
@[simp] theorem Strand.setG_lgc (t : Strand) (r : BitVec 5) (v : Word) : (t.setG r v).lgc = t.lgc := by
  unfold Strand.setG; split <;> rfl
@[simp] theorem Strand.setG_slip (t : Strand) (r : BitVec 5) (v : Word) : (t.setG r v).slip = t.slip := by
  unfold Strand.setG; split <;> rfl
@[simp] theorem Strand.setG_bs (t : Strand) (r : BitVec 5) (v : Word) : (t.setG r v).bs = t.bs := by
  unfold Strand.setG; split <;> rfl
@[simp] theorem Strand.setG_sw (t : Strand) (r : BitVec 5) (v : Word) : (t.setG r v).sw = t.sw := by
  unfold Strand.setG; split <;> rfl
@[simp] theorem Strand.setG_lgbase (t : Strand) (r : BitVec 5) (v : Word) : (t.setG r v).lgbase = t.lgbase := by
  unfold Strand.setG; split <;> rfl
@[simp] theorem Strand.setG_maskW (t : Strand) (r : BitVec 5) (v : Word) : (t.setG r v).maskW = t.maskW := by
  unfold Strand.setG; split <;> rfl
@[simp] theorem Strand.setG_sat (t : Strand) (r : BitVec 5) (v : Word) : (t.setG r v).sat = t.sat := by
  unfold Strand.setG; split <;> rfl
@[simp] theorem Strand.setG_rm (t : Strand) (r : BitVec 5) (v : Word) : (t.setG r v).rm = t.rm := by
  unfold Strand.setG; split <;> rfl
@[simp] theorem Strand.setG_fflags (t : Strand) (r : BitVec 5) (v : Word) : (t.setG r v).fflags = t.fflags := by
  unfold Strand.setG; split <;> rfl
@[simp] theorem Strand.setG_loops (t : Strand) (r : BitVec 5) (v : Word) : (t.setG r v).loops = t.loops := by
  unfold Strand.setG; split <;> rfl
@[simp] theorem Strand.setG_xpc (t : Strand) (r : BitVec 5) (v : Word) : (t.setG r v).xpc = t.xpc := by
  unfold Strand.setG; split <;> rfl
@[simp] theorem Strand.setG_xcause (t : Strand) (r : BitVec 5) (v : Word) : (t.setG r v).xcause = t.xcause := by
  unfold Strand.setG; split <;> rfl
@[simp] theorem Strand.setG_xval (t : Strand) (r : BitVec 5) (v : Word) : (t.setG r v).xval = t.xval := by
  unfold Strand.setG; split <;> rfl
@[simp] theorem Strand.setG_xscratch (t : Strand) (r : BitVec 5) (v : Word) : (t.setG r v).xscratch = t.xscratch := by
  unfold Strand.setG; split <;> rfl
@[simp] theorem Strand.setG_widx (t : Strand) (r : BitVec 5) (v : Word) : (t.setG r v).widx = t.widx := by
  unfold Strand.setG; split <;> rfl
@[simp] theorem Strand.setG_nrec (t : Strand) (r : BitVec 5) (v : Word) : (t.setG r v).nrec = t.nrec := by
  unfold Strand.setG; split <;> rfl
@[simp] theorem Strand.setG_cur (t : Strand) (r : BitVec 5) (v : Word) : (t.setG r v).cur = t.cur := by
  unfold Strand.setG; split <;> rfl
@[simp] theorem Strand.setG_exl (t : Strand) (r : BitVec 5) (v : Word) : (t.setG r v).exl = t.exl := by
  unfold Strand.setG; split <;> rfl
@[simp] theorem Strand.setG_ppriv (t : Strand) (r : BitVec 5) (v : Word) : (t.setG r v).ppriv = t.ppriv := by
  unfold Strand.setG; split <;> rfl
@[simp] theorem Strand.setG_xld (t : Strand) (r : BitVec 5) (v : Word) : (t.setG r v).xld = t.xld := by
  unfold Strand.setG; split <;> rfl
@[simp] theorem Strand.setG_xls (t : Strand) (r : BitVec 5) (v : Word) : (t.setG r v).xls = t.xls := by
  unfold Strand.setG; split <;> rfl
@[simp] theorem Strand.setG_ctxid (t : Strand) (r : BitVec 5) (v : Word) : (t.setG r v).ctxid = t.ctxid := by
  unfold Strand.setG; split <;> rfl
@[simp] theorem Strand.setG_ite (t : Strand) (r : BitVec 5) (v : Word) : (t.setG r v).ite = t.ite := by
  unfold Strand.setG; split <;> rfl
@[simp] theorem Strand.setG_illmask (t : Strand) (r : BitVec 5) (v : Word) : (t.setG r v).illmask = t.illmask := by
  unfold Strand.setG; split <;> rfl
@[simp] theorem Strand.setG_expp (t : Strand) (r : BitVec 5) (v : Word) : (t.setG r v).expp = t.expp := by
  unfold Strand.setG; split <;> rfl
@[simp] theorem Strand.setG_exps (t : Strand) (r : BitVec 5) (v : Word) : (t.setG r v).exps = t.exps := by
  unfold Strand.setG; split <;> rfl
@[simp] theorem Strand.setG_expte (t : Strand) (r : BitVec 5) (v : Word) : (t.setG r v).expte = t.expte := by
  unfold Strand.setG; split <;> rfl
@[simp] theorem Strand.setG_expmask (t : Strand) (r : BitVec 5) (v : Word) : (t.setG r v).expmask = t.expmask := by
  unfold Strand.setG; split <;> rfl
@[simp] theorem Strand.setG_plNext (t : Strand) (r : BitVec 5) (v : Word) : (t.setG r v).plNext = t.plNext := by
  unfold Strand.setG; split <;> rfl
@[simp] theorem Strand.setG_plFirst (t : Strand) (r : BitVec 5) (v : Word) : (t.setG r v).plFirst = t.plFirst := by
  unfold Strand.setG; split <;> rfl
@[simp] theorem Strand.setG_lockerr (t : Strand) (r : BitVec 5) (v : Word) : (t.setG r v).lockerr = t.lockerr := by
  unfold Strand.setG; split <;> rfl
@[simp] theorem Strand.setG_margin (t : Strand) (r : BitVec 5) (v : Word) : (t.setG r v).margin = t.margin := by
  unfold Strand.setG; split <;> rfl
@[simp] theorem Strand.setG_aqCause (t : Strand) (r : BitVec 5) (v : Word) : (t.setG r v).aqCause = t.aqCause := by
  unfold Strand.setG; split <;> rfl
@[simp] theorem Strand.setG_aqFail (t : Strand) (r : BitVec 5) (v : Word) : (t.setG r v).aqFail = t.aqFail := by
  unfold Strand.setG; split <;> rfl
@[simp] theorem Strand.setG_monsel (t : Strand) (r : BitVec 5) (v : Word) : (t.setG r v).monsel = t.monsel := by
  unfold Strand.setG; split <;> rfl
@[simp] theorem Strand.setG_cntL (t : Strand) (r : BitVec 5) (v : Word) : (t.setG r v).cntL = t.cntL := by
  unfold Strand.setG; split <;> rfl
@[simp] theorem Strand.setG_cntS (t : Strand) (r : BitVec 5) (v : Word) : (t.setG r v).cntS = t.cntS := by
  unfold Strand.setG; split <;> rfl
@[simp] theorem Strand.setG_cntC (t : Strand) (r : BitVec 5) (v : Word) : (t.setG r v).cntC = t.cntC := by
  unfold Strand.setG; split <;> rfl
@[simp] theorem Strand.setG_cntT (t : Strand) (r : BitVec 5) (v : Word) : (t.setG r v).cntT = t.cntT := by
  unfold Strand.setG; split <;> rfl
@[simp] theorem Strand.setG_slink (t : Strand) (r : BitVec 5) (v : Word) : (t.setG r v).slink = t.slink := by
  unfold Strand.setG; split <;> rfl
@[simp] theorem Strand.setG_vlinks (t : Strand) (r : BitVec 5) (v : Word) : (t.setG r v).vlinks = t.vlinks := by
  unfold Strand.setG; split <;> rfl
@[simp] theorem Strand.setG_barRec (t : Strand) (r : BitVec 5) (v : Word) : (t.setG r v).barRec = t.barRec := by
  unfold Strand.setG; split <;> rfl
@[simp] theorem Strand.setG_bind (t : Strand) (r : BitVec 5) (v : Word) : (t.setG r v).bind = t.bind := by
  unfold Strand.setG; split <;> rfl
@[simp] theorem Strand.setG_join (t : Strand) (r : BitVec 5) (v : Word) : (t.setG r v).join = t.join := by
  unfold Strand.setG; split <;> rfl
@[simp] theorem Strand.setG_root (t : Strand) (r : BitVec 5) (v : Word) : (t.setG r v).root = t.root := by
  unfold Strand.setG; split <;> rfl
@[simp] theorem Strand.setG_parent (t : Strand) (r : BitVec 5) (v : Word) : (t.setG r v).parent = t.parent := by
  unfold Strand.setG; split <;> rfl
@[simp] theorem Strand.setG_children (t : Strand) (r : BitVec 5) (v : Word) : (t.setG r v).children = t.children := by
  unfold Strand.setG; split <;> rfl
@[simp] theorem Strand.setG_preq (t : Strand) (r : BitVec 5) (v : Word) : (t.setG r v).preq = t.preq := by
  unfold Strand.setG; split <;> rfl
@[simp] theorem Strand.setG_preqLate (t : Strand) (r : BitVec 5) (v : Word) : (t.setG r v).preqLate = t.preqLate := by
  unfold Strand.setG; split <;> rfl
@[simp] theorem Strand.setG_inside (t : Strand) (r : BitVec 5) (v : Word) : (t.setG r v).inside = t.inside := by
  unfold Strand.setG; split <;> rfl
@[simp] theorem Strand.setG_resume (t : Strand) (r : BitVec 5) (v : Word) : (t.setG r v).resume = t.resume := by
  unfold Strand.setG; split <;> rfl
@[simp] theorem Strand.setG_vq (t : Strand) (r : BitVec 5) (v : Word) : (t.setG r v).vq = t.vq := by
  unfold Strand.setG; split <;> rfl
@[simp] theorem Strand.setG_faults (t : Strand) (r : BitVec 5) (v : Word) : (t.setG r v).faults = t.faults := by
  unfold Strand.setG; split <;> rfl
@[simp] theorem Strand.setG_faultElem (t : Strand) (r : BitVec 5) (v : Word) : (t.setG r v).faultElem = t.faultElem := by
  unfold Strand.setG; split <;> rfl
@[simp] theorem Strand.setG_weirPass (t : Strand) (r : BitVec 5) (v : Word) : (t.setG r v).weirPass = t.weirPass := by
  unfold Strand.setG; split <;> rfl
@[simp] theorem Strand.setG_parked (t : Strand) (r : BitVec 5) (v : Word) : (t.setG r v).parked = t.parked := by
  unfold Strand.setG; split <;> rfl
@[simp] theorem Strand.setG_descRead (t : Strand) (r : BitVec 5) (v : Word) : (t.setG r v).descRead = t.descRead := by
  unfold Strand.setG; split <;> rfl
@[simp] theorem Strand.setG_atsDenied (t : Strand) (r : BitVec 5) (v : Word) : (t.setG r v).atsDenied = t.atsDenied := by
  unfold Strand.setG; split <;> rfl
@[simp] theorem Strand.setG_hostFault (t : Strand) (r : BitVec 5) (v : Word) : (t.setG r v).hostFault = t.hostFault := by
  unfold Strand.setG; split <;> rfl
@[simp] theorem Strand.setG_genRead (t : Strand) (r : BitVec 5) (v : Word) : (t.setG r v).genRead = t.genRead := by
  unfold Strand.setG; split <;> rfl
@[simp] theorem Strand.setG_answers (t : Strand) (r : BitVec 5) (v : Word) : (t.setG r v).answers = t.answers := by
  unfold Strand.setG; split <;> rfl
@[simp] theorem Strand.setG_placed (t : Strand) (r : BitVec 5) (v : Word) : (t.setG r v).placed = t.placed := by
  unfold Strand.setG; split <;> rfl
@[simp] theorem Strand.setG_sentAt (t : Strand) (r : BitVec 5) (v : Word) : (t.setG r v).sentAt = t.sentAt := by
  unfold Strand.setG; split <;> rfl
@[simp] theorem Strand.setG_openCast (t : Strand) (r : BitVec 5) (v : Word) : (t.setG r v).openCast = t.openCast := by
  unfold Strand.setG; split <;> rfl
@[simp] theorem Strand.setG_snap (t : Strand) (r : BitVec 5) (v : Word) : (t.setG r v).snap = t.snap := by
  unfold Strand.setG; split <;> rfl
@[simp] theorem Strand.setG_joining (t : Strand) (r : BitVec 5) (v : Word) : (t.setG r v).joining = t.joining := by
  unfold Strand.setG; split <;> rfl
@[simp] theorem Strand.setG_rowData (t : Strand) (r : BitVec 5) (v : Word) : (t.setG r v).rowData = t.rowData := by
  unfold Strand.setG; split <;> rfl
@[simp] theorem Strand.setG_resumed (t : Strand) (r : BitVec 5) (v : Word) : (t.setG r v).resumed = t.resumed := by
  unfold Strand.setG; split <;> rfl
@[simp] theorem Strand.setG_wrote (t : Strand) (r : BitVec 5) (v : Word) : (t.setG r v).wrote = t.wrote := by
  unfold Strand.setG; split <;> rfl
@[simp] theorem Strand.setG_idleDone (t : Strand) (r : BitVec 5) (v : Word) : (t.setG r v).idleDone = t.idleDone := by
  unfold Strand.setG; split <;> rfl
@[simp] theorem Strand.setG_doubled (t : Strand) (r : BitVec 5) (v : Word) : (t.setG r v).doubled = t.doubled := by
  unfold Strand.setG; split <;> rfl
@[simp] theorem Strand.setG_sreq (t : Strand) (r : BitVec 5) (v : Word) : (t.setG r v).sreq = t.sreq := by
  unfold Strand.setG; split <;> rfl

@[simp] theorem Strand.fetched_st (t : Strand) (w : BitVec 32) : (t.fetched w).st = t.st := rfl
@[simp] theorem Strand.fetched_pc (t : Strand) (w : BitVec 32) : (t.fetched w).pc = t.pc := rfl
@[simp] theorem Strand.fetched_g (t : Strand) (w : BitVec 32) : (t.fetched w).g = t.g := rfl
@[simp] theorem Strand.fetched_v (t : Strand) (w : BitVec 32) : (t.fetched w).v = t.v := rfl
@[simp] theorem Strand.fetched_k (t : Strand) (w : BitVec 32) : (t.fetched w).k = t.k := rfl
@[simp] theorem Strand.fetched_vn (t : Strand) (w : BitVec 32) : (t.fetched w).vn = t.vn := rfl
@[simp] theorem Strand.fetched_lgc (t : Strand) (w : BitVec 32) : (t.fetched w).lgc = t.lgc := rfl
@[simp] theorem Strand.fetched_slip (t : Strand) (w : BitVec 32) : (t.fetched w).slip = t.slip := rfl
@[simp] theorem Strand.fetched_bs (t : Strand) (w : BitVec 32) : (t.fetched w).bs = t.bs := rfl
@[simp] theorem Strand.fetched_sw (t : Strand) (w : BitVec 32) : (t.fetched w).sw = t.sw := rfl
@[simp] theorem Strand.fetched_lgbase (t : Strand) (w : BitVec 32) : (t.fetched w).lgbase = t.lgbase := rfl
@[simp] theorem Strand.fetched_maskW (t : Strand) (w : BitVec 32) : (t.fetched w).maskW = t.maskW := rfl
@[simp] theorem Strand.fetched_sat (t : Strand) (w : BitVec 32) : (t.fetched w).sat = t.sat := rfl
@[simp] theorem Strand.fetched_rm (t : Strand) (w : BitVec 32) : (t.fetched w).rm = t.rm := rfl
@[simp] theorem Strand.fetched_fflags (t : Strand) (w : BitVec 32) : (t.fetched w).fflags = t.fflags := rfl
@[simp] theorem Strand.fetched_loops (t : Strand) (w : BitVec 32) : (t.fetched w).loops = t.loops := rfl
@[simp] theorem Strand.fetched_xpc (t : Strand) (w : BitVec 32) : (t.fetched w).xpc = t.xpc := rfl
@[simp] theorem Strand.fetched_xcause (t : Strand) (w : BitVec 32) : (t.fetched w).xcause = t.xcause := rfl
@[simp] theorem Strand.fetched_xval (t : Strand) (w : BitVec 32) : (t.fetched w).xval = t.xval := rfl
@[simp] theorem Strand.fetched_xscratch (t : Strand) (w : BitVec 32) : (t.fetched w).xscratch = t.xscratch := rfl
@[simp] theorem Strand.fetched_widx (t : Strand) (w : BitVec 32) : (t.fetched w).widx = t.widx := rfl
@[simp] theorem Strand.fetched_nrec (t : Strand) (w : BitVec 32) : (t.fetched w).nrec = t.nrec := rfl
@[simp] theorem Strand.fetched_cur (t : Strand) (w : BitVec 32) : (t.fetched w).cur = t.cur := rfl
@[simp] theorem Strand.fetched_exl (t : Strand) (w : BitVec 32) : (t.fetched w).exl = t.exl := rfl
@[simp] theorem Strand.fetched_ppriv (t : Strand) (w : BitVec 32) : (t.fetched w).ppriv = t.ppriv := rfl
@[simp] theorem Strand.fetched_xld (t : Strand) (w : BitVec 32) : (t.fetched w).xld = t.xld := rfl
@[simp] theorem Strand.fetched_xls (t : Strand) (w : BitVec 32) : (t.fetched w).xls = t.xls := rfl
@[simp] theorem Strand.fetched_ctxid (t : Strand) (w : BitVec 32) : (t.fetched w).ctxid = t.ctxid := rfl
@[simp] theorem Strand.fetched_ite (t : Strand) (w : BitVec 32) : (t.fetched w).ite = t.ite := rfl
@[simp] theorem Strand.fetched_illmask (t : Strand) (w : BitVec 32) : (t.fetched w).illmask = t.illmask := rfl
@[simp] theorem Strand.fetched_expp (t : Strand) (w : BitVec 32) : (t.fetched w).expp = t.expp := rfl
@[simp] theorem Strand.fetched_exps (t : Strand) (w : BitVec 32) : (t.fetched w).exps = t.exps := rfl
@[simp] theorem Strand.fetched_expte (t : Strand) (w : BitVec 32) : (t.fetched w).expte = t.expte := rfl
@[simp] theorem Strand.fetched_expmask (t : Strand) (w : BitVec 32) : (t.fetched w).expmask = t.expmask := rfl
@[simp] theorem Strand.fetched_plNext (t : Strand) (w : BitVec 32) : (t.fetched w).plNext = t.plNext := rfl
@[simp] theorem Strand.fetched_plFirst (t : Strand) (w : BitVec 32) : (t.fetched w).plFirst = t.plFirst := rfl
@[simp] theorem Strand.fetched_lockerr (t : Strand) (w : BitVec 32) : (t.fetched w).lockerr = t.lockerr := rfl
@[simp] theorem Strand.fetched_margin (t : Strand) (w : BitVec 32) : (t.fetched w).margin = t.margin := rfl
@[simp] theorem Strand.fetched_aqCause (t : Strand) (w : BitVec 32) : (t.fetched w).aqCause = t.aqCause := rfl
@[simp] theorem Strand.fetched_aqFail (t : Strand) (w : BitVec 32) : (t.fetched w).aqFail = t.aqFail := rfl
@[simp] theorem Strand.fetched_monsel (t : Strand) (w : BitVec 32) : (t.fetched w).monsel = t.monsel := rfl
@[simp] theorem Strand.fetched_cntL (t : Strand) (w : BitVec 32) : (t.fetched w).cntL = t.cntL := rfl
@[simp] theorem Strand.fetched_cntS (t : Strand) (w : BitVec 32) : (t.fetched w).cntS = t.cntS := rfl
@[simp] theorem Strand.fetched_cntC (t : Strand) (w : BitVec 32) : (t.fetched w).cntC = t.cntC := rfl
@[simp] theorem Strand.fetched_cntT (t : Strand) (w : BitVec 32) : (t.fetched w).cntT = t.cntT := rfl
@[simp] theorem Strand.fetched_slink (t : Strand) (w : BitVec 32) : (t.fetched w).slink = t.slink := rfl
@[simp] theorem Strand.fetched_vlinks (t : Strand) (w : BitVec 32) : (t.fetched w).vlinks = t.vlinks := rfl
@[simp] theorem Strand.fetched_barRec (t : Strand) (w : BitVec 32) : (t.fetched w).barRec = t.barRec := rfl
@[simp] theorem Strand.fetched_bind (t : Strand) (w : BitVec 32) : (t.fetched w).bind = t.bind := rfl
@[simp] theorem Strand.fetched_join (t : Strand) (w : BitVec 32) : (t.fetched w).join = t.join := rfl
@[simp] theorem Strand.fetched_root (t : Strand) (w : BitVec 32) : (t.fetched w).root = t.root := rfl
@[simp] theorem Strand.fetched_parent (t : Strand) (w : BitVec 32) : (t.fetched w).parent = t.parent := rfl
@[simp] theorem Strand.fetched_children (t : Strand) (w : BitVec 32) : (t.fetched w).children = t.children := rfl
@[simp] theorem Strand.fetched_preq (t : Strand) (w : BitVec 32) : (t.fetched w).preq = t.preq := rfl
@[simp] theorem Strand.fetched_preqLate (t : Strand) (w : BitVec 32) : (t.fetched w).preqLate = t.preqLate := rfl
@[simp] theorem Strand.fetched_inside (t : Strand) (w : BitVec 32) : (t.fetched w).inside = t.inside := rfl
@[simp] theorem Strand.fetched_resume (t : Strand) (w : BitVec 32) : (t.fetched w).resume = t.resume := rfl
@[simp] theorem Strand.fetched_vq (t : Strand) (w : BitVec 32) : (t.fetched w).vq = t.vq := rfl
@[simp] theorem Strand.fetched_faults (t : Strand) (w : BitVec 32) : (t.fetched w).faults = t.faults := rfl
@[simp] theorem Strand.fetched_faultElem (t : Strand) (w : BitVec 32) : (t.fetched w).faultElem = t.faultElem := rfl
@[simp] theorem Strand.fetched_weirPass (t : Strand) (w : BitVec 32) : (t.fetched w).weirPass = t.weirPass := rfl
@[simp] theorem Strand.fetched_parked (t : Strand) (w : BitVec 32) : (t.fetched w).parked = t.parked := rfl
@[simp] theorem Strand.fetched_descRead (t : Strand) (w : BitVec 32) : (t.fetched w).descRead = t.descRead := rfl
@[simp] theorem Strand.fetched_atsDenied (t : Strand) (w : BitVec 32) : (t.fetched w).atsDenied = t.atsDenied := rfl
@[simp] theorem Strand.fetched_hostFault (t : Strand) (w : BitVec 32) : (t.fetched w).hostFault = t.hostFault := rfl
@[simp] theorem Strand.fetched_genRead (t : Strand) (w : BitVec 32) : (t.fetched w).genRead = t.genRead := rfl
@[simp] theorem Strand.fetched_answers (t : Strand) (w : BitVec 32) : (t.fetched w).answers = t.answers := rfl
@[simp] theorem Strand.fetched_placed (t : Strand) (w : BitVec 32) : (t.fetched w).placed = t.placed := rfl
@[simp] theorem Strand.fetched_sentAt (t : Strand) (w : BitVec 32) : (t.fetched w).sentAt = t.sentAt := rfl
@[simp] theorem Strand.fetched_openCast (t : Strand) (w : BitVec 32) : (t.fetched w).openCast = t.openCast := rfl
@[simp] theorem Strand.fetched_snap (t : Strand) (w : BitVec 32) : (t.fetched w).snap = t.snap := rfl
@[simp] theorem Strand.fetched_joining (t : Strand) (w : BitVec 32) : (t.fetched w).joining = t.joining := rfl
@[simp] theorem Strand.fetched_rowData (t : Strand) (w : BitVec 32) : (t.fetched w).rowData = t.rowData := rfl
@[simp] theorem Strand.fetched_resumed (t : Strand) (w : BitVec 32) : (t.fetched w).resumed = t.resumed := rfl
@[simp] theorem Strand.fetched_wrote (t : Strand) (w : BitVec 32) : (t.fetched w).wrote = t.wrote := rfl
@[simp] theorem Strand.fetched_idleDone (t : Strand) (w : BitVec 32) : (t.fetched w).idleDone = t.idleDone := rfl
@[simp] theorem Strand.fetched_doubled (t : Strand) (w : BitVec 32) : (t.fetched w).doubled = t.doubled := rfl
@[simp] theorem Strand.fetched_sreq (t : Strand) (w : BitVec 32) : (t.fetched w).sreq = t.sreq := rfl

@[simp] theorem Strand.enterTrap_lastPc (t : Strand) (h : Word) (c : BitVec 8) (v r : Word) : (t.enterTrap h c v r).lastPc = t.lastPc := rfl
@[simp] theorem Strand.enterTrap_word (t : Strand) (h : Word) (c : BitVec 8) (v r : Word) : (t.enterTrap h c v r).word = t.word := rfl
@[simp] theorem Strand.enterTrap_g (t : Strand) (h : Word) (c : BitVec 8) (v r : Word) : (t.enterTrap h c v r).g = t.g := rfl
@[simp] theorem Strand.enterTrap_v (t : Strand) (h : Word) (c : BitVec 8) (v r : Word) : (t.enterTrap h c v r).v = t.v := rfl
@[simp] theorem Strand.enterTrap_k (t : Strand) (h : Word) (c : BitVec 8) (v r : Word) : (t.enterTrap h c v r).k = t.k := rfl
@[simp] theorem Strand.enterTrap_vn (t : Strand) (h : Word) (c : BitVec 8) (v r : Word) : (t.enterTrap h c v r).vn = t.vn := rfl
@[simp] theorem Strand.enterTrap_lgc (t : Strand) (h : Word) (c : BitVec 8) (v r : Word) : (t.enterTrap h c v r).lgc = t.lgc := rfl
@[simp] theorem Strand.enterTrap_slip (t : Strand) (h : Word) (c : BitVec 8) (v r : Word) : (t.enterTrap h c v r).slip = t.slip := rfl
@[simp] theorem Strand.enterTrap_bs (t : Strand) (h : Word) (c : BitVec 8) (v r : Word) : (t.enterTrap h c v r).bs = t.bs := rfl
@[simp] theorem Strand.enterTrap_sw (t : Strand) (h : Word) (c : BitVec 8) (v r : Word) : (t.enterTrap h c v r).sw = t.sw := rfl
@[simp] theorem Strand.enterTrap_lgbase (t : Strand) (h : Word) (c : BitVec 8) (v r : Word) : (t.enterTrap h c v r).lgbase = t.lgbase := rfl
@[simp] theorem Strand.enterTrap_maskW (t : Strand) (h : Word) (c : BitVec 8) (v r : Word) : (t.enterTrap h c v r).maskW = t.maskW := rfl
@[simp] theorem Strand.enterTrap_sat (t : Strand) (h : Word) (c : BitVec 8) (v r : Word) : (t.enterTrap h c v r).sat = t.sat := rfl
@[simp] theorem Strand.enterTrap_rm (t : Strand) (h : Word) (c : BitVec 8) (v r : Word) : (t.enterTrap h c v r).rm = t.rm := rfl
@[simp] theorem Strand.enterTrap_fflags (t : Strand) (h : Word) (c : BitVec 8) (v r : Word) : (t.enterTrap h c v r).fflags = t.fflags := rfl
@[simp] theorem Strand.enterTrap_xscratch (t : Strand) (h : Word) (c : BitVec 8) (v r : Word) : (t.enterTrap h c v r).xscratch = t.xscratch := rfl
@[simp] theorem Strand.enterTrap_widx (t : Strand) (h : Word) (c : BitVec 8) (v r : Word) : (t.enterTrap h c v r).widx = t.widx := rfl
@[simp] theorem Strand.enterTrap_nrec (t : Strand) (h : Word) (c : BitVec 8) (v r : Word) : (t.enterTrap h c v r).nrec = t.nrec := rfl
@[simp] theorem Strand.enterTrap_ctxid (t : Strand) (h : Word) (c : BitVec 8) (v r : Word) : (t.enterTrap h c v r).ctxid = t.ctxid := rfl
@[simp] theorem Strand.enterTrap_ite (t : Strand) (h : Word) (c : BitVec 8) (v r : Word) : (t.enterTrap h c v r).ite = t.ite := rfl
@[simp] theorem Strand.enterTrap_illmask (t : Strand) (h : Word) (c : BitVec 8) (v r : Word) : (t.enterTrap h c v r).illmask = t.illmask := rfl
@[simp] theorem Strand.enterTrap_expp (t : Strand) (h : Word) (c : BitVec 8) (v r : Word) : (t.enterTrap h c v r).expp = t.expp := rfl
@[simp] theorem Strand.enterTrap_exps (t : Strand) (h : Word) (c : BitVec 8) (v r : Word) : (t.enterTrap h c v r).exps = t.exps := rfl
@[simp] theorem Strand.enterTrap_expte (t : Strand) (h : Word) (c : BitVec 8) (v r : Word) : (t.enterTrap h c v r).expte = t.expte := rfl
@[simp] theorem Strand.enterTrap_expmask (t : Strand) (h : Word) (c : BitVec 8) (v r : Word) : (t.enterTrap h c v r).expmask = t.expmask := rfl
@[simp] theorem Strand.enterTrap_plNext (t : Strand) (h : Word) (c : BitVec 8) (v r : Word) : (t.enterTrap h c v r).plNext = t.plNext := rfl
@[simp] theorem Strand.enterTrap_plFirst (t : Strand) (h : Word) (c : BitVec 8) (v r : Word) : (t.enterTrap h c v r).plFirst = t.plFirst := rfl
@[simp] theorem Strand.enterTrap_lockerr (t : Strand) (h : Word) (c : BitVec 8) (v r : Word) : (t.enterTrap h c v r).lockerr = t.lockerr := rfl
@[simp] theorem Strand.enterTrap_margin (t : Strand) (h : Word) (c : BitVec 8) (v r : Word) : (t.enterTrap h c v r).margin = t.margin := rfl
@[simp] theorem Strand.enterTrap_aqCause (t : Strand) (h : Word) (c : BitVec 8) (v r : Word) : (t.enterTrap h c v r).aqCause = t.aqCause := rfl
@[simp] theorem Strand.enterTrap_aqFail (t : Strand) (h : Word) (c : BitVec 8) (v r : Word) : (t.enterTrap h c v r).aqFail = t.aqFail := rfl
@[simp] theorem Strand.enterTrap_monsel (t : Strand) (h : Word) (c : BitVec 8) (v r : Word) : (t.enterTrap h c v r).monsel = t.monsel := rfl
@[simp] theorem Strand.enterTrap_cntL (t : Strand) (h : Word) (c : BitVec 8) (v r : Word) : (t.enterTrap h c v r).cntL = t.cntL := rfl
@[simp] theorem Strand.enterTrap_cntS (t : Strand) (h : Word) (c : BitVec 8) (v r : Word) : (t.enterTrap h c v r).cntS = t.cntS := rfl
@[simp] theorem Strand.enterTrap_cntC (t : Strand) (h : Word) (c : BitVec 8) (v r : Word) : (t.enterTrap h c v r).cntC = t.cntC := rfl
@[simp] theorem Strand.enterTrap_cntT (t : Strand) (h : Word) (c : BitVec 8) (v r : Word) : (t.enterTrap h c v r).cntT = t.cntT := rfl
@[simp] theorem Strand.enterTrap_barRec (t : Strand) (h : Word) (c : BitVec 8) (v r : Word) : (t.enterTrap h c v r).barRec = t.barRec := rfl
@[simp] theorem Strand.enterTrap_bind (t : Strand) (h : Word) (c : BitVec 8) (v r : Word) : (t.enterTrap h c v r).bind = t.bind := rfl
@[simp] theorem Strand.enterTrap_join (t : Strand) (h : Word) (c : BitVec 8) (v r : Word) : (t.enterTrap h c v r).join = t.join := rfl
@[simp] theorem Strand.enterTrap_root (t : Strand) (h : Word) (c : BitVec 8) (v r : Word) : (t.enterTrap h c v r).root = t.root := rfl
@[simp] theorem Strand.enterTrap_parent (t : Strand) (h : Word) (c : BitVec 8) (v r : Word) : (t.enterTrap h c v r).parent = t.parent := rfl
@[simp] theorem Strand.enterTrap_children (t : Strand) (h : Word) (c : BitVec 8) (v r : Word) : (t.enterTrap h c v r).children = t.children := rfl
@[simp] theorem Strand.enterTrap_preq (t : Strand) (h : Word) (c : BitVec 8) (v r : Word) : (t.enterTrap h c v r).preq = t.preq := rfl
@[simp] theorem Strand.enterTrap_preqLate (t : Strand) (h : Word) (c : BitVec 8) (v r : Word) : (t.enterTrap h c v r).preqLate = t.preqLate := rfl
@[simp] theorem Strand.enterTrap_inside (t : Strand) (h : Word) (c : BitVec 8) (v r : Word) : (t.enterTrap h c v r).inside = t.inside := rfl
@[simp] theorem Strand.enterTrap_resume (t : Strand) (h : Word) (c : BitVec 8) (v r : Word) : (t.enterTrap h c v r).resume = t.resume := rfl
@[simp] theorem Strand.enterTrap_vq (t : Strand) (h : Word) (c : BitVec 8) (v r : Word) : (t.enterTrap h c v r).vq = t.vq := rfl
@[simp] theorem Strand.enterTrap_faults (t : Strand) (h : Word) (c : BitVec 8) (v r : Word) : (t.enterTrap h c v r).faults = t.faults := rfl
@[simp] theorem Strand.enterTrap_faultElem (t : Strand) (h : Word) (c : BitVec 8) (v r : Word) : (t.enterTrap h c v r).faultElem = t.faultElem := rfl
@[simp] theorem Strand.enterTrap_hostFault (t : Strand) (h : Word) (c : BitVec 8) (v r : Word) : (t.enterTrap h c v r).hostFault = t.hostFault := rfl
@[simp] theorem Strand.enterTrap_sentAt (t : Strand) (h : Word) (c : BitVec 8) (v r : Word) : (t.enterTrap h c v r).sentAt = t.sentAt := rfl
@[simp] theorem Strand.enterTrap_doubled (t : Strand) (h : Word) (c : BitVec 8) (v r : Word) : (t.enterTrap h c v r).doubled = t.doubled := rfl
@[simp] theorem Strand.enterTrap_sreq (t : Strand) (h : Word) (c : BitVec 8) (v r : Word) : (t.enterTrap h c v r).sreq = t.sreq := rfl

/-! ### The fields that trap entry writes (R447) -/

@[simp] theorem Strand.enterTrap_xpc (t : Strand) (h : Word) (c : BitVec 8) (v r : Word) : (t.enterTrap h c v r).xpc = r := rfl
@[simp] theorem Strand.enterTrap_xcause (t : Strand) (h : Word) (c : BitVec 8) (v r : Word) : (t.enterTrap h c v r).xcause = c := rfl
@[simp] theorem Strand.enterTrap_xval (t : Strand) (h : Word) (c : BitVec 8) (v r : Word) : (t.enterTrap h c v r).xval = v := rfl
@[simp] theorem Strand.enterTrap_ppriv (t : Strand) (h : Word) (c : BitVec 8) (v r : Word) : (t.enterTrap h c v r).ppriv = t.cur := rfl
@[simp] theorem Strand.enterTrap_cur (t : Strand) (h : Word) (c : BitVec 8) (v r : Word) : (t.enterTrap h c v r).cur = true := rfl
@[simp] theorem Strand.enterTrap_exl (t : Strand) (h : Word) (c : BitVec 8) (v r : Word) : (t.enterTrap h c v r).exl = true := rfl
@[simp] theorem Strand.enterTrap_loops (t : Strand) (h : Word) (c : BitVec 8) (v r : Word) : (t.enterTrap h c v r).loops = [] := rfl
@[simp] theorem Strand.enterTrap_xld (t : Strand) (h : Word) (c : BitVec 8) (v r : Word) : (t.enterTrap h c v r).xld = t.loops.length := rfl
@[simp] theorem Strand.enterTrap_pc (t : Strand) (h : Word) (c : BitVec 8) (v r : Word) : (t.enterTrap h c v r).pc = h := rfl
@[simp] theorem Strand.enterTrap_st (t : Strand) (h : Word) (c : BitVec 8) (v r : Word) : (t.enterTrap h c v r).st = .run := rfl
@[simp] theorem Strand.setPc_pc (t : Strand) (a : Word) : (t.setPc a).pc = a := rfl

end Sys2Proof.Machine
end

