-- ==== Sys2Proof/Laws/Table.lean ====
section
/-! SUPPORT. The laws of tables: what a read gives after a write, and that every operation keeps the canonical form. -/
namespace Sys2Proof.Machine

theorem Table.find_put_same {α : Type} (t : Table α) (k : Nat) (v : α) : Table.find k (Table.put k v t) = some v := by
  induction t with
  | nil => simp [Table.put, Table.find]
  | cons e r ih => simp only [Table.put]; split <;> (try split) <;> simp_all [Table.find]

theorem Table.find_put_ne {α : Type} (t : Table α) (k j : Nat) (v : α) (h : j ≠ k) :
    Table.find j (Table.put k v t) = Table.find j t := by
  induction t with
  | nil => simp [Table.put, Table.find, Ne.symm h]
  | cons e r ih => simp only [Table.put]; split <;> (try split) <;> simp_all [Table.find, Ne.symm h]

theorem Table.put_put {α : Type} (t : Table α) (k : Nat) (v w : α) :
    Table.put k w (Table.put k v t) = Table.put k w t := by
  induction t with
  | nil => simp [Table.put]
  | cons e r ih => simp only [Table.put]; split <;> (try split) <;> simp_all [Table.put]

theorem Table.find_drop_same {α : Type} (t : Table α) (k : Nat) : Table.find k (Table.drop k t) = none := by
  induction t with
  | nil => rfl
  | cons e r ih => simp only [Table.drop]; split <;> simp_all [Table.find]

theorem Table.find_drop_ne {α : Type} (t : Table α) (k j : Nat) (h : j ≠ k) :
    Table.find j (Table.drop k t) = Table.find j t := by
  induction t with
  | nil => rfl
  | cons e r ih => simp only [Table.drop]; split <;> simp_all [Table.find, Ne.symm h]

theorem Table.find_put {α : Type} (t : Table α) (k j : Nat) (v : α) :
    Table.find j (Table.put k v t) = if j = k then some v else Table.find j t := by
  by_cases h : j = k
  · simp [h, Table.find_put_same]
  · simp [h, Table.find_put_ne]

theorem Table.find_drop {α : Type} (t : Table α) (k j : Nat) :
    Table.find j (Table.drop k t) = if j = k then none else Table.find j t := by
  by_cases h : j = k
  · simp [h, Table.find_drop_same]
  · simp [h, Table.find_drop_ne]

/-- Reading after a write, at any key. -/
theorem Table.get_set {α : Type} [DecidableEq α] (d : α) (t : Table α) (k j : Nat) (v : α) :
    Table.get d (Table.set d t k v) j = if j = k then v else Table.get d t j := by
  unfold Table.get Table.set
  split <;> by_cases h : j = k <;> simp_all [Table.find_put, Table.find_drop]

/-- A table whose values pass through a function of key and value. -/
theorem Table.find_map {α β : Type} (t : Table α) (f : Nat → α → β) (k : Nat) :
    Table.find k (t.map fun e => (e.1, f e.1 e.2)) = (Table.find k t).map (f k) := by
  induction t with
  | nil => rfl
  | cons e r ih => simp only [List.map_cons, Table.find]; split <;> simp_all

/-- A table filtered by a test of the key. -/
theorem Table.find_filter_key {α : Type} (t : Table α) (p : Nat → Bool) (k : Nat) :
    Table.find k (t.filter fun e => p e.1) = if p k then Table.find k t else none := by
  induction t with
  | nil => simp [Table.find]
  | cons e r ih =>
    simp only [List.filter_cons, Table.find]
    by_cases hk : e.1 = k
    · by_cases hp : p k <;> simp_all [Table.find]
    · by_cases hp : p e.1 <;> simp_all [Table.find]

/-! ### The canonical form -/

theorem Table.above_put {α : Type} (t : Table α) (b k : Nat) (v : α) (h : Table.above b t = true) (hk : b < k) :
    Table.above b (Table.put k v t) = true := by
  induction t generalizing b with
  | nil => simp [Table.put, Table.above, hk]
  | cons e r ih =>
    simp only [Table.above, Bool.and_eq_true, decide_eq_true_eq] at h
    simp only [Table.put]
    split
    · rename_i he; subst he; simp [Table.above, h.1, h.2]
    · split
      · rename_i hlt; simp [Table.above, hk, hlt, h.2]
      · rename_i hne hnl; simp [Table.above, h.1, ih e.1 h.2 (by omega)]

theorem Table.above_mono {α : Type} (t : Table α) (b c : Nat) (h : Table.above c t = true) (hb : b ≤ c) :
    Table.above b t = true := by
  cases t with
  | nil => rfl
  | cons e r => simp only [Table.above, Bool.and_eq_true, decide_eq_true_eq] at h ⊢; exact ⟨by omega, h.2⟩

theorem Table.above_filter {α : Type} (t : Table α) (p : Nat × α → Bool) (b : Nat) (h : Table.above b t = true) :
    Table.above b (t.filter p) = true := by
  induction t generalizing b with
  | nil => rfl
  | cons e r ih =>
    simp only [Table.above, Bool.and_eq_true, decide_eq_true_eq] at h
    simp only [List.filter_cons]
    split
    · simp [Table.above, h.1, ih e.1 h.2]
    · exact ih b (Table.above_mono r b e.1 h.2 (by omega))

theorem Table.sorted_filter {α : Type} (t : Table α) (p : Nat × α → Bool) (h : Table.sorted t = true) :
    Table.sorted (t.filter p) = true := by
  induction t with
  | nil => rfl
  | cons e r ih =>
    simp only [List.filter_cons]
    split
    · exact Table.above_filter r p e.1 h
    · refine ih ?_
      cases r with
      | nil => rfl
      | cons f q =>
        have h' : (decide (e.1 < f.1) && Table.above f.1 q) = true := h
        simp only [Bool.and_eq_true] at h'
        exact h'.2

theorem Table.drop_eq_filter {α : Type} (t : Table α) (k : Nat) :
    Table.drop k t = t.filter fun e => decide (e.1 ≠ k) := by
  induction t with
  | nil => rfl
  | cons e r ih => simp only [Table.drop, List.filter_cons]; split <;> simp_all

theorem Table.sorted_put {α : Type} (t : Table α) (k : Nat) (v : α) (h : Table.sorted t = true) :
    Table.sorted (Table.put k v t) = true := by
  cases t with
  | nil => rfl
  | cons e r =>
    have h' : Table.above e.1 r = true := h
    simp only [Table.put]
    split
    · rename_i he; rw [← he]; exact h'
    · split
      · rename_i hlt; simp [Table.sorted, Table.above, hlt, h']
      · exact Table.above_put r e.1 k v h' (by omega)

theorem Table.all_put {α : Type} (t : Table α) (k : Nat) (v : α) (p : α → Bool) (hv : p v = true)
    (h : t.all (fun e => p e.2) = true) : (Table.put k v t).all (fun e => p e.2) = true := by
  induction t with
  | nil => simp [Table.put, hv]
  | cons e r ih =>
    simp only [List.all_cons, Bool.and_eq_true] at h
    simp only [Table.put]
    split
    · simpa [hv] using h.2
    · split
      · simpa [hv, h.1] using h.2
      · simpa [h.1] using ih h.2

/-- A filter keeps the canonical form. -/
theorem Table.wf_filter {α : Type} [DecidableEq α] (d : α) (t : Table α) (p : Nat × α → Bool) (h : Table.wf d t = true) :
    Table.wf d (t.filter p) = true := by
  simp only [Table.wf, Bool.and_eq_true] at h ⊢
  refine ⟨Table.sorted_filter t p h.1, ?_⟩
  have h2 := h.2
  simp only [List.all_eq_true] at h2 ⊢
  exact fun x hx => h2 x (List.mem_of_mem_filter hx)

/-- A write keeps the canonical form. -/
theorem Table.wf_set {α : Type} [DecidableEq α] (d : α) (t : Table α) (k : Nat) (v : α) (h : Table.wf d t = true) :
    Table.wf d (Table.set d t k v) = true := by
  unfold Table.set
  split
  · rw [Table.drop_eq_filter]; exact Table.wf_filter d t _ h
  · rename_i hv
    simp only [Table.wf, Bool.and_eq_true] at h ⊢
    exact ⟨Table.sorted_put t k v h.1, Table.all_put t k v (fun x => decide (x ≠ d)) (by simpa using hv) h.2⟩

/-- Nothing is listed at or below the bound of a table. -/
theorem Table.find_above {α : Type} (t : Table α) (b k : Nat) (h : Table.above b t = true) (hk : k ≤ b) :
    Table.find k t = none := by
  induction t generalizing b with
  | nil => rfl
  | cons e r ih =>
    simp only [Table.above, Bool.and_eq_true, decide_eq_true_eq] at h
    simp only [Table.find]
    split
    · omega
    · exact ih e.1 h.2 (by omega)

end Sys2Proof.Machine
end

