-- ==== Sys2Proof/Laws/Memory.lean ====
section
/-! SUPPORT. Memory: every operation keeps its canonical form, and what a read gives after a write. -/
namespace Sys2Proof.Machine

/-- Both memories of the state are in their canonical form. -/
def State.memWf (s : State) : Prop := Memory.wf s.mem = true ∧ Memory.wf s.hostMem = true

theorem reset_memWf : State.reset.memWf := by unfold State.memWf; decide

/-- An operation that leaves both memories alone keeps their form. -/
theorem memWf_of_eq {s t : State} (h : s.memWf) (hm : t.mem = s.mem) (hh : t.hostMem = s.hostMem) : t.memWf := by
  unfold State.memWf at *; rw [hm, hh]; exact h

/-- A fold of operations that keep the form keeps it. -/
theorem foldl_memWf {α : Type} (f : State → α → State) (hf : ∀ s x, s.memWf → (f s x).memWf) (l : List α) (s : State)
    (h : s.memWf) : (l.foldl f s).memWf := by
  induction l generalizing s with
  | nil => exact h
  | cons x r ih => exact ih (f s x) (hf s x h)

theorem setRawByte_memWf (s : State) (a : Nat) (b : Byte) (h : s.memWf) : (s.setRawByte a b).memWf :=
  ⟨Table.wf_set 0 s.mem a b h.1, h.2⟩

theorem breakLinks_memWf (s : State) (l : Nat) (h : s.memWf) : (s.breakLinks l).memWf := h

theorem breakRange_memWf (s : State) (a b : Nat) (h : s.memWf) : (s.breakRange a b).memWf := h

/-- A byte written to a line that a cache owns goes into that line; otherwise it goes into the DRAM. -/
theorem setByteAt_owned (s : State) (a : Nat) (b : Byte) (c : CLine) (h : Table.find (a / 64) s.cache = some c) :
    (s.setByteAt a b).cache = s.cache.put (a / 64) { c with data := setLineByte c.data (a % 64) b } ∧
      (s.setByteAt a b).mem = s.mem ∧ (s.setByteAt a b).hostMem = s.hostMem := by
  simp [State.setByteAt, h]

theorem setByteAt_home (s : State) (a : Nat) (b : Byte) (h : Table.find (a / 64) s.cache = none) :
    (s.setByteAt a b).cache = s.cache ∧ (s.setByteAt a b).mem = Table.set 0 s.mem a b ∧
      (s.setByteAt a b).hostMem = s.hostMem := by
  simp [State.setByteAt, h, State.setRawByte]

theorem setByteAt_memWf (s : State) (a : Nat) (b : Byte) (h : s.memWf) : (s.setByteAt a b).memWf := by
  cases hc : Table.find (a / 64) s.cache with
  | some c => obtain ⟨-, hm, hh⟩ := setByteAt_owned s a b c hc; exact memWf_of_eq h hm hh
  | none =>
    obtain ⟨-, hm, hh⟩ := setByteAt_home s a b hc
    exact memWf_of_eq (setRawByte_memWf s a b h) hm hh

theorem writeBytes_memWf (n : Nat) : ∀ (s : State) (a v : Nat), s.memWf → (s.writeBytes a n v).memWf := by
  induction n with
  | zero => intro s a v h; exact h
  | succ n ih =>
    intro s a v h
    exact ih _ (a + 1) (v / 256) (memWf_of_eq (setByteAt_memWf s a _ h) rfl rfl)

theorem writeEach_memWf (n v : Nat) (l : List Nat) : ∀ s : State, s.memWf → (s.writeEach n v l).memWf := by
  induction l with
  | nil => intro s h; exact h
  | cons a r ih => intro s h; exact ih _ (breakRange_memWf _ _ _ (writeBytes_memWf n s a v h))

theorem writeCo_memWf (s : State) (a n v : Nat) (h : s.memWf) : (s.writeCo a n v).memWf :=
  breakLinks_memWf _ _ (writeBytes_memWf n _ a v (writeEach_memWf n v _ s h))

theorem mirror_memWf (s : State) (a n : Nat) (h : s.memWf) : (s.mirror a n).memWf := writeEach_memWf n _ _ s h

/-- An address that no active migration slot holds is served, and written, where it is (R178). -/
theorem migRead_none (s : State) (a : Nat) (h : s.migOf a = []) : s.migRead a = a := by
  simp [State.migRead, State.migReadIn, h]

theorem migWrites_none (s : State) (a : Nat) (h : s.migOf a = []) : s.migWrites a = [] := by
  simp [State.migWrites, State.migWritesIn, h]

theorem writeList_memWf (l : List Byte) : ∀ (s : State) (a : Nat), s.memWf → (s.writeList a l).memWf := by
  induction l with
  | nil => intro s a h; exact h
  | cons b r ih => intro s a h; exact ih _ (a + 1) (writeCo_memWf s a 1 _ h)

theorem writeBack_go_memWf (line : Nat) (d : BitVec 512) (n : Nat) :
    ∀ s : State, s.memWf → (State.writeBack.go line d s n).memWf := by
  induction n with
  | zero => intro s h; exact h
  | succ n ih => intro s h; exact ih _ (setRawByte_memWf s _ _ h)

theorem writeBack_memWf (s : State) (l : Nat) (d : BitVec 512) (h : s.memWf) : (s.writeBack l d).memWf := by
  unfold State.writeBack
  have h64 := writeBack_go_memWf l d 64 s h
  generalize State.writeBack.go l d s 64 = z at h64 ⊢
  exact memWf_of_eq h64 rfl rfl

theorem cleanLine_memWf (s : State) (l : Nat) (h : s.memWf) : (s.cleanLine l).memWf := by
  unfold State.cleanLine
  split
  · rename_i c _
    have hw := writeBack_memWf s l c.data h
    generalize s.writeBack l c.data = z at hw ⊢
    exact memWf_of_eq hw rfl rfl
  · exact h

theorem dropLine_memWf (s : State) (l : Nat) (h : s.memWf) : (s.dropLine l).memWf := by
  unfold State.dropLine
  have hc := cleanLine_memWf s l h
  generalize s.cleanLine l = z at hc ⊢
  exact memWf_of_eq hc rfl rfl

theorem evict_memWf (s : State) (u l : Nat) (h : s.memWf) : (s.evict u l).memWf := by
  unfold State.evict
  split
  · exact memWf_of_eq (cleanLine_memWf s l h) rfl rfl
  · exact h

theorem makeRoom_memWf (s : State) (u b : Nat) (h : s.memWf) : (s.makeRoom u b).memWf := by
  unfold State.makeRoom
  simp only
  split
  · exact h
  · split
    · exact evict_memWf _ u _ h
    · exact h
    · exact h

theorem takeCopy_memWf (s : State) (u l : Nat) (h : s.memWf) : (s.takeCopy u l).memWf := by
  have hr := makeRoom_memWf s u (s.bankFor u l) h
  unfold State.takeCopy
  simp only
  split
  · exact h
  · exact memWf_of_eq hr rfl rfl

theorem ownLine_memWf (s : State) (l : Nat) (h : s.memWf) : (s.ownLine l).memWf := by
  unfold State.ownLine
  split
  · exact h
  · rename_i u _
    have hr := makeRoom_memWf s u (s.bankFor u l) h
    split
    · exact h
    · simp only
      split
      · exact h
      · exact memWf_of_eq hr rfl rfl

theorem emptyUnit_memWf (s : State) (u b : Nat) (h : s.memWf) : (s.emptyUnit u b).memWf := by
  unfold State.emptyUnit
  have hf := foldl_memWf (fun s (e : Nat × CLine) => s.cleanLine e.1) (fun s e h => cleanLine_memWf s e.1 h)
    (s.cache.filter fun e => e.2.holder = u && b ≤ e.2.bank) s h
  generalize List.foldl _ s _ = z at hf ⊢
  exact memWf_of_eq hf rfl rfl

theorem relend_memWf (s : State) (core before : Nat) (h : s.memWf) : (s.relend core before).memWf := by
  unfold State.relend
  split
  · exact emptyUnit_memWf s _ _ h
  · exact h

theorem clearRow_go_memWf (core row n : Nat) : ∀ s : State, s.memWf → (State.clearRow.go core row s n).memWf := by
  induction n with
  | zero => intro s h; exact h
  | succ n ih => intro s h; exact ih _ (setRawByte_memWf s _ _ h)

theorem clearRow_memWf (s : State) (core row : Nat) (h : s.memWf) : (s.clearRow core row).memWf :=
  clearRow_go_memWf core row 64 s h

theorem ageRow_memWf (s : State) (core row : Nat) (h : s.memWf) : (s.ageRow core row).memWf := h

theorem writeSpad_go_memWf (core n : Nat) : ∀ (s : State) (off v : Nat), s.memWf → (State.writeSpad.go core s off n v).memWf := by
  induction n with
  | zero => intro s off v h; exact h
  | succ n ih => intro s off v h; exact ih _ (off + 1) (v / 256) (setRawByte_memWf s _ _ h)

theorem writeSpad_memWf (s : State) (core off n v : Nat) (h : s.memWf) : (s.writeSpad core off n v).memWf := by
  unfold State.writeSpad
  refine breakLinks_memWf _ _ (ageRow_memWf _ core _ (writeSpad_go_memWf core n _ off v ?_))
  split
  · exact clearRow_memWf s core _ h
  · exact h

theorem fillResv_memWf (s : State) (l : Nat) (h : s.memWf) : (s.fillResv l).memWf := by
  unfold State.fillResv; split <;> exact h

theorem writeHost_memWf (s : State) (a n v : Nat) (h : s.memWf) : (s.writeHost a n v).memWf := by
  unfold State.writeHost
  have h' := fillResv_memWf s (a / 64) h
  generalize s.fillResv (a / 64) = z at h' ⊢
  simp only
  split <;> exact h'

theorem setHostLine_go_wf (hl : Nat) (d : BitVec 512) (n : Nat) :
    ∀ m : List Host.Cell, Memory.wf m = true → Memory.wf (State.setHostLine.go hl d m n) = true := by
  induction n with
  | zero => intro m h; exact h
  | succ n ih => intro m h; exact ih _ (Table.wf_set 0 m _ _ h)

theorem setHostLine_memWf (s : State) (hl : Nat) (d : BitVec 512) (h : s.memWf) : (s.setHostLine hl d).memWf :=
  ⟨h.1, setHostLine_go_wf hl d 64 s.hostMem h.2⟩

theorem cleanResv_memWf (s : State) (hl : Nat) (h : s.memWf) : (s.cleanResv hl).memWf := by
  unfold State.cleanResv
  split
  · split
    · rename_i l _ _
      have hw := setHostLine_memWf s hl l.data h
      generalize s.setHostLine hl l.data = z at hw ⊢
      exact memWf_of_eq hw rfl rfl
    · exact h
  · exact h

theorem dropResv_memWf (s : State) (hl : Nat) (h : s.memWf) : (s.dropResv hl).memWf := by
  unfold State.dropResv
  have hc := cleanResv_memWf s hl h
  generalize s.cleanResv hl = z at hc ⊢
  exact memWf_of_eq hc rfl rfl

theorem dropWithViews_memWf (s : State) (hl : Nat) (h : s.memWf) : (s.dropWithViews hl).memWf := by
  unfold State.dropWithViews
  have hc := dropResv_memWf s hl h
  generalize s.dropResv hl = z at hc ⊢
  exact memWf_of_eq hc rfl rfl

theorem raiseMsix_memWf (s : State) (v : Nat) (h : s.memWf) : (s.raiseMsix v).memWf := by
  unfold State.raiseMsix
  split
  · exact h
  · split <;> exact h

theorem ownWrite_memWf (s : State) (a : Nat) (l : List Byte) (h : s.memWf) : (s.ownWrite a l).memWf := by
  unfold State.ownWrite
  split
  · exact h
  · exact writeList_memWf l s a h

theorem flushDeferred_memWf (s : State) (h : s.memWf) : s.flushDeferred.memWf := by
  unfold State.flushDeferred
  exact foldl_memWf (fun s (e : Nat × List Byte) => s.ownWrite e.1 e.2) (fun s e h => ownWrite_memWf s e.1 e.2 h)
    s.deferred { s with deferred := [] } h

theorem report_memWf (s : State) (b : Nat) (r : Report) (h : s.memWf) : (s.report b r).memWf := by
  unfold State.report
  have key (x : State) (hx : x.memWf) (a : Nat) (l : List Byte) (bb : Basin) : ((x.ownWrite a l).setBasin b bb).memWf := by
    have hl := ownWrite_memWf x a l hx
    generalize x.ownWrite a l = z at hl ⊢
    exact hl
  simp only
  generalize hz : State.wakeIdle _ b = z
  have hz' : z.memWf := by rw [← hz]; exact h
  split
  · exact hz'
  · split
    · exact raiseMsix_memWf _ 1 (key z hz' _ _ _)
    · exact key z hz' _ _ _

theorem setCells_memWf (n : Nat) : ∀ (s : State) (a v : Nat), s.memWf → (s.setCells a n v).memWf := by
  induction n with
  | zero => intro s a v h; exact h
  | succ n ih => intro s a v h; exact ih _ (a + 1) (v / 256) (setRawByte_memWf s a _ h)

theorem setRow_memWf (s : State) (sub row : Nat) (x : BitVec 128) (v : Row) (h : s.memWf) :
    (s.setRow sub row x v).memWf := by
  unfold State.setRow
  generalize 1024 = n
  exact mirror_memWf _ _ _ (breakRange_memWf _ _ _ (setCells_memWf n s _ _ h))

theorem setRowVal_memWf (s : State) (sub row : Nat) (x : BitVec 128) (v : Row) (h : s.memWf) :
    (s.setRowVal sub row x v).memWf := by
  unfold State.setRowVal
  split
  · have hr := setRow_memWf s sub row x v h
    generalize s.setRow sub row x v = z at hr ⊢
    exact memWf_of_eq hr rfl rfl
  · split <;> exact h

theorem putLocal_memWf (s : State) (a n v : Nat) (h : s.memWf) : (s.putLocal a n v).memWf := by
  unfold State.putLocal
  split
  · exact writeCo_memWf s a n v h
  · exact writeSpad_memWf s _ _ n v h

theorem clearLost_memWf (s : State) (h : s.memWf) : s.clearLost.memWf := ⟨Table.wf_filter 0 s.mem _ h.1, h.2⟩

/-! ### Reads after writes -/

@[simp] theorem rawByte_setRawByte (s : State) (a x : Nat) (b : Byte) :
    (s.setRawByte a b).rawByte x = if x = a then b else s.rawByte x := Table.get_set 0 s.mem a x b

theorem getLsbD_byteMask (m : Nat) : (0xFF#512).getLsbD m = decide (m < 8) := by
  rw [BitVec.getLsbD_ofNat, show 0xFF = 2 ^ 8 - 1 from rfl, Nat.testBit_two_pow_sub_one]
  by_cases h : m < 8
  · simp [h, show m < 512 by omega]
  · simp [h]

/-- A byte of a line after a byte of it has been written. -/
theorem lineByte_setLineByte (d : BitVec 512) (i j : Nat) (b : Byte) (hj : j < 64) :
    lineByte (setLineByte d i b) j = if j = i then b else lineByte d j := by
  unfold lineByte setLineByte
  apply BitVec.eq_of_getLsbD_eq
  intro k hk
  have h1 : 8 * j + k < 512 := by omega
  simp only [BitVec.getLsbD_extractLsb', hk, decide_true, Bool.true_and, BitVec.getLsbD_or, BitVec.getLsbD_and,
    BitVec.getLsbD_not, BitVec.getLsbD_shiftLeft, BitVec.getLsbD_setWidth, getLsbD_byteMask, h1]
  by_cases h : j = i
  · subst h
    have h2 : ¬ 8 * j + k < 8 * j := by omega
    have h3 : 8 * j + k - 8 * j = k := by omega
    have h4 : k < 512 := by omega
    simp [h2, h3, hk, h4]
  · rw [if_neg h]
    by_cases hlt : 8 * j + k < 8 * i
    · simp [hlt, hk]
    · have h5 : ¬ 8 * j + k - 8 * i < 8 := by omega
      have h6 : b.getLsbD (8 * j + k - 8 * i) = false := BitVec.getLsbD_of_ge b _ (by omega)
      simp [hlt, h5, h6, hk]

/-- A byte as it is served after one byte has been written. -/
theorem byteAt_setByteAt (s : State) (a x : Nat) (b : Byte) :
    (s.setByteAt a b).byteAt x = if x = a then b else s.byteAt x := by
  cases hc : Table.find (a / 64) s.cache with
  | none =>
    obtain ⟨h1, h2, -⟩ := setByteAt_home s a b hc
    unfold State.byteAt State.rawByte
    rw [h1, h2]
    by_cases h : x = a
    · subst h; simp [hc, Table.get_set]
    · simp [h, Table.get_set]
  | some c =>
    obtain ⟨h1, h2, -⟩ := setByteAt_owned s a b c hc
    unfold State.byteAt State.rawByte
    rw [h1, h2]
    simp only [Table.find_put]
    by_cases hl : x / 64 = a / 64
    · rw [if_pos hl, hl, hc]
      simp only [lineByte_setLineByte c.data (a % 64) (x % 64) b (Nat.mod_lt _ (by decide))]
      by_cases h : x = a
      · simp [h]
      · have : x % 64 ≠ a % 64 := by omega
        simp [h, this]
    · have : x ≠ a := by intro h; exact hl (by rw [h])
      rw [if_neg hl, if_neg this]

@[simp] theorem byteAt_breakLinks (s : State) (l x : Nat) : (s.breakLinks l).byteAt x = s.byteAt x := rfl
@[simp] theorem byteAt_setSelf (s : State) (t : Strand) (x : Nat) : (s.setSelf t).byteAt x = s.byteAt x := rfl
@[simp] theorem byteAt_modSelf (s : State) (f : Strand → Strand) (x : Nat) : (s.modSelf f).byteAt x = s.byteAt x := rfl

/-- The bytes served after `n` bytes have been written from `a` on (R7). -/
theorem byteAt_writeBytes (n : Nat) : ∀ (s : State) (a v x : Nat),
    (s.writeBytes a n v).byteAt x = if a ≤ x ∧ x < a + n then leByte v (x - a) else s.byteAt x := by
  induction n with
  | zero => intro s a v x; rw [if_neg (by omega)]; rfl
  | succ n ih =>
    intro s a v x
    simp only [State.writeBytes, ih, byteAt_setByteAt]
    by_cases h0 : x = a
    · subst h0; simp [leByte]
    · by_cases h : a ≤ x ∧ x < a + (n + 1)
      · have h1 : a + 1 ≤ x ∧ x < a + 1 + n := by omega
        rw [if_pos h, if_pos h1]
        unfold leByte
        rw [Nat.div_div_eq_div_mul, ← Nat.pow_succ', Nat.succ_eq_add_one, show x - (a + 1) + 1 = x - a by omega]
      · rw [if_neg h, if_neg (by omega), if_neg h0]

theorem basins_writeBytes (n : Nat) : ∀ (s : State) (a v : Nat), (s.writeBytes a n v).basins = s.basins := by
  induction n with
  | zero => intro s a v; rfl
  | succ n ih =>
    intro s a v
    rw [State.writeBytes, ih]
    unfold State.setByteAt
    simp only
    split <;> rfl

/-- The bytes served after a coherent write to an address under no migration (R178, R301). -/
theorem byteAt_writeCo (s : State) (a n v x : Nat) (h : s.migOf a = []) :
    (s.writeCo a n v).byteAt x = if a ≤ x ∧ x < a + n then leByte v (x - a) else s.byteAt x := by
  unfold State.writeCo
  rw [migWrites_none s a h, State.writeEach, byteAt_breakLinks, byteAt_writeBytes]

end Sys2Proof.Machine
end

