-- ==== Sys2Proof/Laws/Ops.lean ====
section
/-! SUPPORT. What each shared operation can do: the running strand and its registers, the fall-through and results,
taking a trap and returning from one, the loop boundary, translation in the boot context, the weir, and the three ways
in which a vector-stream instruction ends. -/
namespace Sys2Proof.Machine
open Sys2Proof

/-! ### The running strand -/

@[simp] theorem strand_setStrand (s : State) (n m : Nat) (t : Strand) :
    (s.setStrand n t).strand m = if m = n then some t else s.strand m := Table.find_put s.strands n m t

@[simp] theorem self_setSelf (s : State) (t : Strand) : (s.setSelf t).self = t := by
  unfold State.self State.setSelf; simp

@[simp] theorem self_modSelf (s : State) (f : Strand → Strand) : (s.modSelf f).self = f s.self := by
  simp [State.modSelf]

@[simp] theorem setSelf_setSelf (s : State) (t u : Strand) : (s.setSelf t).setSelf u = s.setSelf u := by
  simp [State.setSelf, State.setStrand, Table.put_put]

@[simp] theorem modSelf_modSelf (s : State) (f g : Strand → Strand) :
    (s.modSelf f).modSelf g = s.modSelf fun t => g (f t) := by simp [State.modSelf]

theorem strand_setSelf (s : State) (t : Strand) (n : Nat) :
    (s.setSelf t).strand n = if n = s.cur then some t else s.strand n := strand_setStrand s s.cur n t

@[simp] theorem strand_setSelf_ne (s : State) (t : Strand) {n : Nat} (h : n ≠ s.cur) :
    (s.setSelf t).strand n = s.strand n := by simp [strand_setSelf, h]

theorem self_of_strand {s : State} {t : Strand} (h : s.strand s.cur = some t) : s.self = t := by
  simp [State.self, h]

@[simp] theorem rawByte_setSelf (s : State) (t : Strand) (x : Nat) : (s.setSelf t).rawByte x = s.rawByte x := rfl
@[simp] theorem rawByte_modSelf (s : State) (f : Strand → Strand) (x : Nat) : (s.modSelf f).rawByte x = s.rawByte x := rfl
@[simp] theorem spadByte_setSelf (s : State) (t : Strand) (c o : Nat) : (s.setSelf t).spadByte c o = s.spadByte c o := rfl
@[simp] theorem spadByte_modSelf (s : State) (f : Strand → Strand) (c o : Nat) :
    (s.modSelf f).spadByte c o = s.spadByte c o := rfl
@[simp] theorem hostByte_setSelf (s : State) (t : Strand) (x : Nat) : (s.setSelf t).hostByte x = s.hostByte x := rfl
@[simp] theorem hostByte_modSelf (s : State) (f : Strand → Strand) (x : Nat) :
    (s.modSelf f).hostByte x = s.hostByte x := rfl

/-! ### General registers (R182, R216) -/

@[simp] theorem getG_zero (t : Strand) : t.getG 0 = 0 := rfl

/-- A read after a write: g0 stays zero, and a write reaches no other register. -/
theorem getG_setG (t : Strand) (d r : BitVec 5) (v : Word) :
    (t.setG d v).getG r = if r = d then (if d = 0 then 0 else v) else t.getG r := by
  unfold Strand.setG Strand.getG
  by_cases hd : d = 0
  · by_cases hr : r = d <;> simp_all
  · rw [if_neg hd]
    by_cases hr : r = d
    · rw [if_pos hr, if_neg hd, hr, if_neg hd, Table.get_set, if_pos rfl]
    · rw [if_neg hr, Table.get_set, if_neg fun h => hr (BitVec.eq_of_toNat_eq h)]

/-- A write of a general register changes the field `g` alone. -/
theorem setG_eq (t : Strand) (d : BitVec 5) (v : Word) : t.setG d v = { t with g := (t.setG d v).g } := by
  unfold Strand.setG; split <;> rfl

@[simp] theorem getG_setPc (t : Strand) (p : Word) (r : BitVec 5) : (t.setPc p).getG r = t.getG r := rfl

/-! ### Results, the fall-through, waiting -/

/-- What `State.result` does: the register, the fall-through, and nothing else of the strand. -/
theorem result_self (s : State) (d : BitVec 5) (v : Word) :
    (s.result d v).self = { s.self with g := (s.result d v).self.g, pc := s.self.pc + 4 } ∧
      (s.result d v).getG d = (if d = 0 then 0 else v) ∧ ∀ r, r ≠ d → (s.result d v).getG r = s.getG r := by
  refine ⟨?_, ?_, fun r h => ?_⟩
  · simp only [State.result, self_modSelf]; rw [setG_eq]; rfl
  · simp [State.getG, State.result, getG_setG]
  · simp [State.getG, State.result, getG_setG, h]

theorem result_eq (s : State) (d : BitVec 5) (v : Word) : s.result d v = s.setSelf (s.result d v).self := by
  simp [State.result, State.modSelf]

@[simp] theorem advance_self (s : State) : s.advance.self = { s.self with pc := s.self.pc + 4 } := by
  simp [State.advance, Strand.setPc]

@[simp] theorem waitOn_self (s : State) (w : Await) : (s.waitOn w).self = { s.self with st := .wait w } := by
  simp [State.waitOn]

/-! ### Traps (R447, R448, R450) -/

/-- Withdrawing a strand from its weir's queue touches that queue alone. -/
theorem leaveWeir_eq (s : State) (n : Nat) : ∃ c, s.leaveWeir n = { s with cores := c } := by
  unfold State.leaveWeir State.setCore
  simp only
  split
  · exact ⟨_, rfl⟩
  · exact ⟨s.cores, rfl⟩

theorem dropOnce_eq (s : State) : ∃ p, s.dropOnce = { s with peer := p } := by
  unfold State.dropOnce
  split
  · exact ⟨_, rfl⟩
  · exact ⟨s.peer, rfl⟩

/-- A trap outside a handler: the strand enters the handler, and of the rest of the machine only the core's weir queue
and the lines that peers served to this strand change. -/
theorem takeTrap_eq (s : State) (code : BitVec 8) (val ret : Word) (h : s.self.exl = false) :
    ∃ c p, s.takeTrap code val ret =
      { s.setSelf (s.self.enterTrap s.handler code val ret) with cores := c, peer := p } := by
  unfold State.takeTrap
  rw [if_neg (by simp [h])]
  obtain ⟨c, hc⟩ := leaveWeir_eq (s.modSelf fun t => t.enterTrap s.handler code val ret) s.cur
  rw [hc]
  obtain ⟨p, hp⟩ := dropOnce_eq { s.modSelf (fun t => t.enterTrap s.handler code val ret) with cores := c }
  exact ⟨c, p, hp⟩

theorem takeTrap_self (s : State) (code : BitVec 8) (val ret : Word) (h : s.self.exl = false) :
    (s.takeTrap code val ret).self = s.self.enterTrap s.handler code val ret := by
  obtain ⟨c, p, he⟩ := takeTrap_eq s code val ret h
  rw [he]
  exact self_setSelf s _

/-- A cause that arises while EXL is set is a double trap. -/
theorem takeTrap_exl (s : State) (code : BitVec 8) (val ret : Word) (h : s.self.exl = true) :
    s.takeTrap code val ret = s.doubleTrap code 0x0D := by simp [State.takeTrap, h]

/-- `n` shadow registers from index 4 × k on leave the registers below 4 × k alone. -/
theorem shadowOf_go_below (l : List LoopEntry) : ∀ (n : Nat) (t : Table Word) (k : Nat), k < 4 * n →
    Table.get 0 (shadowOf.go n l t) k = Table.get 0 t k := by
  induction l with
  | nil => intro n t k h; rfl
  | cons e r ih =>
    intro n t k h
    rw [shadowOf.go, ih (n + 1) _ k (by omega)]
    simp [Table.get_set, show k ≠ 4 * n + 3 by omega, show k ≠ 4 * n + 2 by omega, show k ≠ 4 * n + 1 by omega,
      show k ≠ 4 * n by omega]

/-- The shadow registers hold the entries in order (R449). -/
theorem shadowOf_go_get (l : List LoopEntry) : ∀ (n : Nat) (t : Table Word) (i : Nat) (e : LoopEntry), l[i]? = some e →
    Table.get 0 (shadowOf.go n l t) (4 * (n + i)) = e.start ∧
      Table.get 0 (shadowOf.go n l t) (4 * (n + i) + 1) = e.stop ∧
      Table.get 0 (shadowOf.go n l t) (4 * (n + i) + 2) = e.rem ∧
      Table.get 0 (shadowOf.go n l t) (4 * (n + i) + 3) = e.idx := by
  induction l with
  | nil => intro n t i e h; simp at h
  | cons x r ih =>
    intro n t i e h
    cases i with
    | zero =>
      simp only [List.getElem?_cons_zero, Option.some.injEq] at h
      subst h
      simp only [shadowOf.go, Nat.add_zero]
      refine ⟨?_, ?_, ?_, ?_⟩ <;> rw [shadowOf_go_below _ _ _ _ (by omega)] <;> simp [Table.get_set]
    | succ i =>
      simp only [List.getElem?_cons_succ] at h
      have := ih (n + 1) ((((t.set 0 (4 * n) x.start).set 0 (4 * n + 1) x.stop).set 0 (4 * n + 2) x.rem).set 0 (4 * n + 3)
        x.idx) i e h
      rw [show n + 1 + i = n + (i + 1) by omega] at this
      simpa only [shadowOf.go] using this

/-- The shadow stack gives back the loop stack that a trap moved into it (R447, R449). -/
theorem shadowLoops_of_shadowOf (t : Strand) (l : List LoopEntry) (hx : t.xls = shadowOf l) (hd : t.xld = l.length) :
    t.shadowLoops = l := by
  unfold Strand.shadowLoops
  rw [hx, hd, ← List.reverse_inj, List.reverse_reverse]
  apply List.ext_getElem
  · simp
  · intro i h1 h2
    have hl : i < l.reverse.length := by simpa using h2
    have h := shadowOf_go_get l.reverse 0 [] i l.reverse[i] (List.getElem?_eq_getElem hl)
    simp only [Nat.zero_add] at h
    simp only [List.getElem_map, List.getElem_range, shadowOf]
    rw [h.1, h.2.1, h.2.2.1, h.2.2.2]

@[simp] theorem shadowLoops_enterTrap (t : Strand) (a : Word) (code : BitVec 8) (val ret : Word) :
    (t.enterTrap a code val ret).shadowLoops = t.loops := shadowLoops_of_shadowOf _ _ rfl rfl

/-- A privileged instruction has its effect in privileged mode, and is the privilege trap outside it (R201). -/
theorem privileged_super {s : State} (f : State → State) (h : s.self.cur = true) : s.privileged f = f s := by
  simp [State.privileged, h]

theorem privileged_user {s : State} (f : State → State) (h : s.self.cur = false) :
    s.privileged f = s.takeTrap causePrivilege (s.self.word.setWidth 64) s.self.pc := by
  simp [State.privileged, h, State.trapHere]

/-! ### The loop boundary (R208) -/

theorem loopBoundary_nil (a : Word) : loopBoundary a [] = (a, [], false) := rfl

theorem loopBoundary_ne (a : Word) (e : LoopEntry) (r : List LoopEntry) (h : a ≠ e.stop) :
    loopBoundary a (e :: r) = (a, e :: r, false) := by simp [loopBoundary, h]

theorem loopBoundary_back (e : LoopEntry) (r : List LoopEntry) (h : e.rem ≠ 1) :
    loopBoundary e.stop (e :: r) = (e.start, { e with rem := e.rem - 1, idx := e.idx + 1 } :: r, true) := by
  have : ¬ e.rem - 1 = 0 := fun h0 => h (by rw [BitVec.sub_eq_iff_eq_add] at h0; simpa using h0)
  rw [loopBoundary, if_pos rfl, if_neg this]

theorem loopBoundary_last (e : LoopEntry) (r : List LoopEntry) (h : e.rem = 1) :
    loopBoundary e.stop (e :: r) = ((loopBoundary e.stop r).1, (loopBoundary e.stop r).2.1, true) := by
  simp [loopBoundary, h]

/-! ### Translation in the boot context (R444) -/

theorem bootPlace_dev (s : State) (va : Nat) (k : Access) (hd : isDevMem va = true) (hp : s.inPool va = false)
    (ha : k ≠ .append) (hq : k ≠ .query) : s.bootPlace va k = .ok (.dev va) s := by
  simp [State.bootPlace, hd, hp, ha, hq]

theorem translate_boot (s : State) (va : Word) (k : Access) (hb : s.inBoot s.self.ctxid = true) (h : va.toNat < 2 ^ 48) :
    s.translate va k = s.bootPlace va.toNat k := by
  have h0 : va.extractLsb' 48 16 = 0 := by
    apply BitVec.eq_of_toNat_eq
    rw [BitVec.extractLsb'_toNat, Nat.shiftRight_eq_div_pow, Nat.div_eq_of_lt h]
    rfl
  rw [State.translate, if_neg (by simp [h0]), if_pos hb]

/-! ### Demand reads (R357) -/

/-- A read whose check bits are right goes on with the state as it is; an uncorrectable error is the machine check. -/
theorem demand_clean {α : Type} (s : State) (va : Word) (pa n : Nat) (f : State → Res α) (h : s.checkOf pa n = 0) :
    s.demand va pa n f = f s := by simp [State.demand, h]

theorem demand_lost {α : Type} (s : State) (va : Word) (pa n : Nat) (f : State → Res α) (h : s.checkOf pa n = 2) :
    s.demand va pa n f = machineCheck va s := by simp [State.demand, h]

/-! ### The weir (R291, R292) -/

/-- A charge passes at once, stands in the queue, or is put into it. -/
theorem throughWeir_cases (s : State) (ch : Charge) :
    (s.self.weirPass.isSome = true ∧ s.throughWeir ch = .ok () s) ∨
    (s.self.weirPass.isSome = false ∧
      (s.throughWeir ch = .ok () (s.letThrough s.cur ch) ∨ s.throughWeir ch = .wait .weir s ∨
        ∃ c, s.throughWeir ch = .wait .weir (s.setCore s.myCore c))) := by
  unfold State.throughWeir
  by_cases hp : s.self.weirPass.isSome = true
  · exact .inl ⟨hp, by simp [hp]⟩
  · refine .inr ⟨by simpa using hp, ?_⟩
    rw [if_neg hp]
    simp only
    split
    · exact .inr (.inl rfl)
    · split
      · exact .inl rfl
      · exact .inr (.inr ⟨_, rfl⟩)

/-! ### How a vector-stream instruction ends (R246, R248, R451) -/

/-- A legal vector-stream instruction completes, waits at its place, or faults. -/
theorem runVector_ok {i : Instr} {plan : Plan} {s t : State} (hi : staticOk i = true)
    (h : s.attempt s.self.venv (plan s.self.venv s.self) = .ok () t) :
    s.runVector i plan = t.modSelf fun u => u.vectorDone.setPc (u.pc + 4) := by
  simp only [State.runVector, hi, if_true, State.runPlan, h, State.vectorDone, modSelf_modSelf]
  rfl

theorem runVector_wait {i : Instr} {plan : Plan} {s t : State} {w : Await} (hi : staticOk i = true)
    (h : s.attempt s.self.venv (plan s.self.venv s.self) = .wait w t) : s.runVector i plan = t.waitOn w := by
  simp only [State.runVector, hi, if_true, State.runPlan, h]

theorem runVector_illegal {i : Instr} {plan : Plan} {s : State} (hi : staticOk i = false) :
    s.runVector i plan = s.illegal := by simp [State.runVector, hi]

/-- The weir does not look at whose access runs. -/
theorem throughWeir_vec (s : State) (ch : Charge) (b : Bool) :
    ({ s with vec := b } : State).throughWeir ch = (s.throughWeir ch).after fun t => { t with vec := b } := by
  have hl : ({ s with vec := b } : State).letThrough s.cur ch = { s.letThrough s.cur ch with vec := b } := by
    have hi : ∀ (c : Prop) [Decidable c] (x y : State), ({ (if c then x else y) with vec := b } : State) =
        if c then { x with vec := b } else { y with vec := b } := by intro c _ x y; split <;> rfl
    have hv : ({ s with vec := b } : State).strand s.cur = s.strand s.cur := rfl
    unfold State.letThrough
    simp only [hv]
    cases s.strand s.cur with
    | none => rfl
    | some u => simp only [hi]; rfl
  have ha : ∀ (c : Prop) [Decidable c] (x y : Res Unit) (g : State → State),
      (if c then x else y).after g = if c then x.after g else y.after g := by intro c _ x y g; split <;> rfl
  unfold State.throughWeir
  simp only [ha, hl]
  rfl

/-- An instruction on the strand's registers that is short enough and passes the weir has its effect. -/
theorem attempt_regPlan (s : State) (e : VEnv) (wmax : Nat) (ch : Charge) (f : Strand → Strand)
    (hl : e.vn * wmax ≤ s.self.vlen) :
    s.attempt e (regPlan wmax ch f) =
      ((s.throughWeir ch).bind fun _ s => .ok () (s.modSelf f)).after fun t => { t with vec := s.vec } := by
  have hl' : ¬ s.self.vlen < e.vn * (regPlan wmax ch f).wmax := Nat.not_lt.mpr hl
  unfold State.attempt
  rw [if_neg hl']
  simp only [regPlan, VAct.run, throughWeir_vec]
  cases s.throughWeir ch <;> rfl

end Sys2Proof.Machine
end

