-- ==== Sys2Proof/Laws/PerInstr.lean ====
section
/-! SUPPORT. The family `Major`: the word of an instruction carries the major opcode that the opcode table gives it. -/
namespace Sys2Proof.Laws

/-- The major opcode, bits 31 to 26, that the opcode table gives each instruction; 0 for a step of the device. -/
def majorOf : Instr → BitVec 6
  | .add _ _ _ | .sub _ _ _ | .and _ _ _ | .or _ _ _ | .xor _ _ _ | .andn _ _ _ | .sll _ _ _ | .srl _ _ _
  | .sra _ _ _ | .slt _ _ _ | .sltn _ _ _ | .min _ _ _ | .max _ _ _ | .minn _ _ _ | .maxn _ _ _ | .mul _ _ _
  | .mulh _ _ _ | .mulhn _ _ _ | .div _ _ _ | .divn _ _ _ | .rem _ _ _ | .remn _ _ _ | .clz _ _ | .ctz _ _
  | .popc _ _ | .sext _ _ _ | .zext _ _ _ => 0x01#6
  | .addi _ _ _ => 0x02#6
  | .andi _ _ _ => 0x03#6
  | .ori _ _ _ => 0x04#6
  | .xori _ _ _ => 0x05#6
  | .slli _ _ _ | .srli _ _ _ | .srai _ _ _ => 0x06#6
  | .slti _ _ _ => 0x07#6
  | .sltni _ _ _ => 0x08#6
  | .ldih _ _ _ => 0x09#6
  | .adpc _ _ => 0x0A#6
  | .fadd _ _ _ _ _ | .fsub _ _ _ _ _ | .fmul _ _ _ _ _ | .fdiv _ _ _ _ _ | .fsqrt _ _ _ _ | .fma _ _ _ _ _
  | .fmin _ _ _ _ | .fmax _ _ _ _ | .fcmp _ _ _ _ _ | .fcvt _ _ _ _ _ | .fclass _ _ _ => 0x0B#6
  | .beq _ _ _ => 0x0C#6
  | .bne _ _ _ => 0x0D#6
  | .blt _ _ _ => 0x0E#6
  | .bge _ _ _ => 0x0F#6
  | .bltn _ _ _ => 0x10#6
  | .bgen _ _ _ => 0x11#6
  | .jal _ => 0x12#6
  | .jr _ | .lpSet _ _ | .lpBrk _ | .lpBrkZ _ | .rframe _ _ _ _ _ | .halt => 0x13#6
  | .ldB _ _ _ | .ldBn _ _ _ | .ldH _ _ _ | .ldHn _ _ _ | .ldW _ _ _ | .ldWn _ _ _ | .ldD _ _ _ | .gl _ _ _ => 0x14#6
  | .stB _ _ _ | .stH _ _ _ | .stW _ _ _ | .stD _ _ _ => 0x15#6
  | .sc _ _ _ | .apnd _ _ _ _ | .seal _ | .sealq _ _ => 0x16#6
  | .srd _ _ => 0x19#6
  | .swr _ _ => 0x1A#6
  | .svc _ | .tret | .fenceSv | .fenceVs | .fenceVv | .fenceSys | .drainPln | .drainSpm | .drainFold
  | .drainBk | .drainAq | .idle => 0x1B#6
  | .waitc _ _ _ _ => 0x1C#6
  | .cclean _ _ | .cinval _ _ | .tlbinv _ _ | .pcal _ => 0x1D#6
  | .vsave _ | .vrestore _ | .vfree _ => 0x1E#6
  | .vsetn _ _ _ _ | .vsetnFloat _ _ _ _ | .vgetn _ | .vslip _ => 0x20#6
  | .kand _ _ _ | .kor _ _ _ | .kxor _ _ _ | .kandn _ _ _ | .knot _ _ | .kmov _ _ | .kpop _ _ | .kfirst _ _
  | .kset _ _ | .kshl _ _ _ | .kshr _ _ _ => 0x21#6
  | .vadd _ _ _ _ _ | .vsub _ _ _ _ _ | .vrsub _ _ _ _ _ | .vmul _ _ _ _ _ | .vmulh _ _ _ _ _
  | .vmulhn _ _ _ _ _ | .vmadd _ _ _ _ _ | .vmin _ _ _ _ _ | .vmax _ _ _ _ _ | .vminn _ _ _ _ _
  | .vmaxn _ _ _ _ _ | .vand _ _ _ _ _ | .vor _ _ _ _ _ | .vxor _ _ _ _ _ | .vsll _ _ _ _ _ | .vsrl _ _ _ _ _
  | .vsra _ _ _ _ _ | .vsadd _ _ _ _ _ | .vssub _ _ _ _ _ | .vadc _ _ _ _ _ | .vsbc _ _ _ _ _
  | .vmerge _ _ _ _ _ | .vmov _ _ _ _ | .vsext _ _ _ _ _ | .vzext _ _ _ _ _ | .vclz _ _ _ _ | .vpopc _ _ _ _ => 0x22#6
  | .vsllImm _ _ _ _ _ | .vsrlImm _ _ _ _ _ | .vsraImm _ _ _ _ _ => 0x23#6
  | .vcmpEq _ _ _ _ _ | .vcmpNe _ _ _ _ _ | .vcmpLt _ _ _ _ _ | .vcmpLe _ _ _ _ _ | .vcmpLtn _ _ _ _ _
  | .vcmpLen _ _ _ _ _ => 0x24#6
  | .vnarrowWrap _ _ _ _ _ | .vnarrowSat _ _ _ _ _ => 0x25#6
  | .vfadd _ _ _ _ _ | .vfsub _ _ _ _ _ | .vfmul _ _ _ _ _ | .vfdiv _ _ _ _ _ | .vfsqrt _ _ _ _
  | .vfma _ _ _ _ _ | .vfnma _ _ _ _ _ | .vfmin _ _ _ _ _ | .vfmax _ _ _ _ _ | .vfexp2 _ _ _ _
  | .vfrsqrt _ _ _ _ | .vfcvt _ _ _ _ _ | .vfcvtIntToFloat _ _ _ _ _ | .vfcvtFloatToInt _ _ _ _ _ => 0x26#6
  | .vfcmpEq _ _ _ _ _ | .vfcmpNe _ _ _ _ _ | .vfcmpLt _ _ _ _ _ | .vfcmpLe _ _ _ _ _ | .vfcmpUn _ _ _ _ _ => 0x27#6
  | .vredsumWrap _ _ _ _ _ | .vredsumSat _ _ _ _ _ | .vredmin _ _ _ _ _ | .vredmax _ _ _ _ _
  | .vfredsum _ _ _ _ _ | .vfredmax _ _ _ _ _ => 0x28#6
  | .vslideup _ _ _ _ _ | .vslidedn _ _ _ _ _ | .vperm _ _ _ _ _ | .vcomp _ _ _ _ | .vexpand _ _ _ _
  | .vbcast _ _ _ _ | .vext _ _ _ _ | .vins _ _ _ _ => 0x29#6
  | .vquantI8 _ _ _ _ _ | .vquantI4 _ _ _ _ _ | .vquantTern _ _ _ _ _ | .vdeqNq4 _ _ _ _ _
  | .vdeqE2m1 _ _ _ _ _ | .vdeqTern _ _ _ _ _ | .vquantPi _ _ _ _ _ _ => 0x2A#6
  | .vld _ _ _ _ | .vst _ _ _ _ => 0x2E#6
  | .vlds _ _ _ _ _ | .vsts _ _ _ _ _ => 0x2F#6
  | .vldx _ _ _ _ _ | .vstx _ _ _ _ _ | .vgl _ _ _ _ _ | .vsc _ _ _ _ _ => 0x30#6
  | .vapnd _ _ _ _ _ | .vldp _ _ _ _ _ | .vstp _ _ _ _ _ | .vldsp _ _ _ _ | .vstsp _ _ _ _ => 0x31#6
  | .padd _ _ _ _ | .psub _ _ _ _ | .pmul _ _ _ _ | .pcmp _ _ _ _ | .pand _ _ _ _ | .por _ _ _ _
  | .pxor _ _ _ _ | .pnot _ _ _ | .psel _ _ _ _ | .pshl _ _ _ _ | .pshr _ _ _ _ | .pcopy _ _ _ | .pfill _ _ _ => 0x34#6
  | .plock _ | .punlock _ | .pprog _ _ _ => 0x35#6
  | .rowcp _ _ | .rowmaj _ _ _ | .rownot _ _ | .rowshl _ _ _ | .rowshr _ _ _ => 0x36#6
  | .plant _ _ _ | .plantChained _ _ _ _ _ => 0x38#6
  | .fold _ _ _ _ | .fread _ _ _ _ _ _ | .fclr _ => 0x39#6
  | .bkadd _ _ _ _ _ | .bkred _ _ _ _ _ | .bkcx _ _ _ _ _ | .bksax _ _ _ _ => 0x3A#6
  | .lfork _ | .ljoin _ | .vissue _ _ | .cspawn _ | .cjoin _ | .cend => 0x3B#6
  | .barArrive _ | .barWait _ | .barSet _ _ => 0x3C#6
  | .aqPut _ _ _ | .aqGet _ _ _ | .aqSig _ _ | .aqColl _ _ | .aqLease _ _ _ => 0x3D#6
  | .deviceReset | .resetReleased | .verify | .init | .bootcmd | .attestationQuote | .certificatePieceFirst
  | .certificatePieceNext | .attestationCommandDone | .linkTraining | .portLinkDown | .renewal | .claim
  | .release | .leaseLapse | .doorbell | .queueEnable | .queueDisable | .queueReset | .registerWrite
  | .launchRecordHead | .signalReread | .signalPoll | .admission | .copyDescriptorComplete | .continuationPop
  | .awaitedCondition | .strandEnd | .launchRetirement | .completionRecord | .weirClk | .pulseFrame
  | .preemptionRequest | .preemption | .looplateCount | .vectorFaultDump | .ctxtabWrite | .ctxidWrite
  | .fctlWrite | .hdmtWrite | .arfWrite | .castpoolWrite | .migrationCopy | .migrationIdle
  | .migrationLineCopy | .pageWalk | .atsTranslationCompletion | .pageRequestGroupResponse
  | .atsInvalidationRequest | .invalidationCompletion | .hostSnoop | .hdmAccess | .bankSlot | .refreshDeadline
  | .scratchpadRefresh | .thermalSample | .lockGrant | .lockRelease | .planeInstructionComplete
  | .plantLatchLoadComplete | .foldComplete | .bankOperationComplete | .operationCompletion | .aqueductMessage
  | .transferFailure | .peerLeaseExpiry | .castFetch | .collectiveStepTimeout | .timeSyncExchange | .syncLoss
  | .suspendArm | .resumeArm | .suspendCancel | .stopping | .suspendAbandoned | .saving | .restoring
  | .currentHold | .capHold | .energyApportion | .monitorUpdate | .illegalInstruction | .codeEndFault
  | .cacheEviction | .logicalLeaseExpiry => 0

/-- High bits of a concatenation are bits of its left part. -/
theorem hi_append {w v : Nat} (x : BitVec w) (y : BitVec v) (k n : Nat) :
    (x ++ y).extractLsb' (k + v) n = x.extractLsb' k n := by
  apply BitVec.eq_of_getLsbD_eq
  intro i hi
  rw [BitVec.getLsbD_extractLsb', BitVec.getLsbD_extractLsb', BitVec.getLsbD_append, if_neg (by omega),
    show k + v + i - v = k + i by omega]

theorem lo_all {w : Nat} (x : BitVec w) : x.extractLsb' 0 w = x := by
  apply BitVec.eq_of_getLsbD_eq
  intro i hi
  rw [BitVec.getLsbD_extractLsb', Nat.zero_add]
  simp [hi]

/-- The word of an instruction carries its major opcode. -/
def Major.Statement (i : Instr) : Prop := i.isWord = true → (encode i).extractLsb' 26 6 = majorOf i

theorem Major.add (d : BitVec 5) (a : BitVec 5) (b : BitVec 5) : Major.Statement (.add d a b) := fun _ =>
  (hi_append _ (0#11) 15 6).trans ((hi_append _ b 10 6).trans ((hi_append _ a 5 6).trans ((hi_append _ d 0 6).trans (lo_all _))))
theorem Major.sub (d : BitVec 5) (a : BitVec 5) (b : BitVec 5) : Major.Statement (.sub d a b) := fun _ =>
  (hi_append _ (1#11) 15 6).trans ((hi_append _ b 10 6).trans ((hi_append _ a 5 6).trans ((hi_append _ d 0 6).trans (lo_all _))))
theorem Major.and (d : BitVec 5) (a : BitVec 5) (b : BitVec 5) : Major.Statement (.and d a b) := fun _ =>
  (hi_append _ (2#11) 15 6).trans ((hi_append _ b 10 6).trans ((hi_append _ a 5 6).trans ((hi_append _ d 0 6).trans (lo_all _))))
theorem Major.or (d : BitVec 5) (a : BitVec 5) (b : BitVec 5) : Major.Statement (.or d a b) := fun _ =>
  (hi_append _ (3#11) 15 6).trans ((hi_append _ b 10 6).trans ((hi_append _ a 5 6).trans ((hi_append _ d 0 6).trans (lo_all _))))
theorem Major.xor (d : BitVec 5) (a : BitVec 5) (b : BitVec 5) : Major.Statement (.xor d a b) := fun _ =>
  (hi_append _ (4#11) 15 6).trans ((hi_append _ b 10 6).trans ((hi_append _ a 5 6).trans ((hi_append _ d 0 6).trans (lo_all _))))
theorem Major.andn (d : BitVec 5) (a : BitVec 5) (b : BitVec 5) : Major.Statement (.andn d a b) := fun _ =>
  (hi_append _ (5#11) 15 6).trans ((hi_append _ b 10 6).trans ((hi_append _ a 5 6).trans ((hi_append _ d 0 6).trans (lo_all _))))
theorem Major.sll (d : BitVec 5) (a : BitVec 5) (b : BitVec 5) : Major.Statement (.sll d a b) := fun _ =>
  (hi_append _ (6#11) 15 6).trans ((hi_append _ b 10 6).trans ((hi_append _ a 5 6).trans ((hi_append _ d 0 6).trans (lo_all _))))
theorem Major.srl (d : BitVec 5) (a : BitVec 5) (b : BitVec 5) : Major.Statement (.srl d a b) := fun _ =>
  (hi_append _ (7#11) 15 6).trans ((hi_append _ b 10 6).trans ((hi_append _ a 5 6).trans ((hi_append _ d 0 6).trans (lo_all _))))
theorem Major.sra (d : BitVec 5) (a : BitVec 5) (b : BitVec 5) : Major.Statement (.sra d a b) := fun _ =>
  (hi_append _ (8#11) 15 6).trans ((hi_append _ b 10 6).trans ((hi_append _ a 5 6).trans ((hi_append _ d 0 6).trans (lo_all _))))
theorem Major.slt (d : BitVec 5) (a : BitVec 5) (b : BitVec 5) : Major.Statement (.slt d a b) := fun _ =>
  (hi_append _ (9#11) 15 6).trans ((hi_append _ b 10 6).trans ((hi_append _ a 5 6).trans ((hi_append _ d 0 6).trans (lo_all _))))
theorem Major.sltn (d : BitVec 5) (a : BitVec 5) (b : BitVec 5) : Major.Statement (.sltn d a b) := fun _ =>
  (hi_append _ (10#11) 15 6).trans ((hi_append _ b 10 6).trans ((hi_append _ a 5 6).trans ((hi_append _ d 0 6).trans (lo_all _))))
theorem Major.min (d : BitVec 5) (a : BitVec 5) (b : BitVec 5) : Major.Statement (.min d a b) := fun _ =>
  (hi_append _ (11#11) 15 6).trans ((hi_append _ b 10 6).trans ((hi_append _ a 5 6).trans ((hi_append _ d 0 6).trans (lo_all _))))
theorem Major.max (d : BitVec 5) (a : BitVec 5) (b : BitVec 5) : Major.Statement (.max d a b) := fun _ =>
  (hi_append _ (12#11) 15 6).trans ((hi_append _ b 10 6).trans ((hi_append _ a 5 6).trans ((hi_append _ d 0 6).trans (lo_all _))))
theorem Major.minn (d : BitVec 5) (a : BitVec 5) (b : BitVec 5) : Major.Statement (.minn d a b) := fun _ =>
  (hi_append _ (13#11) 15 6).trans ((hi_append _ b 10 6).trans ((hi_append _ a 5 6).trans ((hi_append _ d 0 6).trans (lo_all _))))
theorem Major.maxn (d : BitVec 5) (a : BitVec 5) (b : BitVec 5) : Major.Statement (.maxn d a b) := fun _ =>
  (hi_append _ (14#11) 15 6).trans ((hi_append _ b 10 6).trans ((hi_append _ a 5 6).trans ((hi_append _ d 0 6).trans (lo_all _))))
theorem Major.mul (d : BitVec 5) (a : BitVec 5) (b : BitVec 5) : Major.Statement (.mul d a b) := fun _ =>
  (hi_append _ (15#11) 15 6).trans ((hi_append _ b 10 6).trans ((hi_append _ a 5 6).trans ((hi_append _ d 0 6).trans (lo_all _))))
theorem Major.mulh (d : BitVec 5) (a : BitVec 5) (b : BitVec 5) : Major.Statement (.mulh d a b) := fun _ =>
  (hi_append _ (16#11) 15 6).trans ((hi_append _ b 10 6).trans ((hi_append _ a 5 6).trans ((hi_append _ d 0 6).trans (lo_all _))))
theorem Major.mulhn (d : BitVec 5) (a : BitVec 5) (b : BitVec 5) : Major.Statement (.mulhn d a b) := fun _ =>
  (hi_append _ (17#11) 15 6).trans ((hi_append _ b 10 6).trans ((hi_append _ a 5 6).trans ((hi_append _ d 0 6).trans (lo_all _))))
theorem Major.div (d : BitVec 5) (a : BitVec 5) (b : BitVec 5) : Major.Statement (.div d a b) := fun _ =>
  (hi_append _ (18#11) 15 6).trans ((hi_append _ b 10 6).trans ((hi_append _ a 5 6).trans ((hi_append _ d 0 6).trans (lo_all _))))
theorem Major.divn (d : BitVec 5) (a : BitVec 5) (b : BitVec 5) : Major.Statement (.divn d a b) := fun _ =>
  (hi_append _ (19#11) 15 6).trans ((hi_append _ b 10 6).trans ((hi_append _ a 5 6).trans ((hi_append _ d 0 6).trans (lo_all _))))
theorem Major.rem (d : BitVec 5) (a : BitVec 5) (b : BitVec 5) : Major.Statement (.rem d a b) := fun _ =>
  (hi_append _ (20#11) 15 6).trans ((hi_append _ b 10 6).trans ((hi_append _ a 5 6).trans ((hi_append _ d 0 6).trans (lo_all _))))
theorem Major.remn (d : BitVec 5) (a : BitVec 5) (b : BitVec 5) : Major.Statement (.remn d a b) := fun _ =>
  (hi_append _ (21#11) 15 6).trans ((hi_append _ b 10 6).trans ((hi_append _ a 5 6).trans ((hi_append _ d 0 6).trans (lo_all _))))
theorem Major.clz (d : BitVec 5) (a : BitVec 5) : Major.Statement (.clz d a) := fun _ =>
  (hi_append _ (22#16) 10 6).trans ((hi_append _ a 5 6).trans ((hi_append _ d 0 6).trans (lo_all _)))
theorem Major.ctz (d : BitVec 5) (a : BitVec 5) : Major.Statement (.ctz d a) := fun _ =>
  (hi_append _ (23#16) 10 6).trans ((hi_append _ a 5 6).trans ((hi_append _ d 0 6).trans (lo_all _)))
theorem Major.popc (d : BitVec 5) (a : BitVec 5) : Major.Statement (.popc d a) := fun _ =>
  (hi_append _ (24#16) 10 6).trans ((hi_append _ a 5 6).trans ((hi_append _ d 0 6).trans (lo_all _)))
theorem Major.sext (d : BitVec 5) (a : BitVec 5) (n : BitVec 2) : Major.Statement (.sext d a n) := fun _ =>
  (hi_append _ (25#11) 15 6).trans ((hi_append _ n 13 6).trans ((hi_append _ (0#3) 10 6).trans ((hi_append _ a 5 6).trans ((hi_append _ d 0 6).trans (lo_all _)))))
theorem Major.zext (d : BitVec 5) (a : BitVec 5) (n : BitVec 2) : Major.Statement (.zext d a n) := fun _ =>
  (hi_append _ (26#11) 15 6).trans ((hi_append _ n 13 6).trans ((hi_append _ (0#3) 10 6).trans ((hi_append _ a 5 6).trans ((hi_append _ d 0 6).trans (lo_all _)))))
theorem Major.addi (d : BitVec 5) (a : BitVec 5) (i : BitVec 16) : Major.Statement (.addi d a i) := fun _ =>
  (hi_append _ i 10 6).trans ((hi_append _ a 5 6).trans ((hi_append _ d 0 6).trans (lo_all _)))
theorem Major.andi (d : BitVec 5) (a : BitVec 5) (i : BitVec 16) : Major.Statement (.andi d a i) := fun _ =>
  (hi_append _ i 10 6).trans ((hi_append _ a 5 6).trans ((hi_append _ d 0 6).trans (lo_all _)))
theorem Major.ori (d : BitVec 5) (a : BitVec 5) (i : BitVec 16) : Major.Statement (.ori d a i) := fun _ =>
  (hi_append _ i 10 6).trans ((hi_append _ a 5 6).trans ((hi_append _ d 0 6).trans (lo_all _)))
theorem Major.xori (d : BitVec 5) (a : BitVec 5) (i : BitVec 16) : Major.Statement (.xori d a i) := fun _ =>
  (hi_append _ i 10 6).trans ((hi_append _ a 5 6).trans ((hi_append _ d 0 6).trans (lo_all _)))
theorem Major.slli (d : BitVec 5) (a : BitVec 5) (s : BitVec 6) : Major.Statement (.slli d a s) := fun _ =>
  (hi_append _ s 20 6).trans ((hi_append _ (0#10) 10 6).trans ((hi_append _ a 5 6).trans ((hi_append _ d 0 6).trans (lo_all _))))
theorem Major.srli (d : BitVec 5) (a : BitVec 5) (s : BitVec 6) : Major.Statement (.srli d a s) := fun _ =>
  (hi_append _ s 20 6).trans ((hi_append _ (256#10) 10 6).trans ((hi_append _ a 5 6).trans ((hi_append _ d 0 6).trans (lo_all _))))
theorem Major.srai (d : BitVec 5) (a : BitVec 5) (s : BitVec 6) : Major.Statement (.srai d a s) := fun _ =>
  (hi_append _ s 20 6).trans ((hi_append _ (512#10) 10 6).trans ((hi_append _ a 5 6).trans ((hi_append _ d 0 6).trans (lo_all _))))
theorem Major.slti (d : BitVec 5) (a : BitVec 5) (i : BitVec 16) : Major.Statement (.slti d a i) := fun _ =>
  (hi_append _ i 10 6).trans ((hi_append _ a 5 6).trans ((hi_append _ d 0 6).trans (lo_all _)))
theorem Major.sltni (d : BitVec 5) (a : BitVec 5) (i : BitVec 16) : Major.Statement (.sltni d a i) := fun _ =>
  (hi_append _ i 10 6).trans ((hi_append _ a 5 6).trans ((hi_append _ d 0 6).trans (lo_all _)))
theorem Major.ldih (d : BitVec 5) (a : BitVec 5) (i : BitVec 16) : Major.Statement (.ldih d a i) := fun _ =>
  (hi_append _ i 10 6).trans ((hi_append _ a 5 6).trans ((hi_append _ d 0 6).trans (lo_all _)))
theorem Major.adpc (d : BitVec 5) (i : BitVec 16) : Major.Statement (.adpc d i) := fun _ =>
  (hi_append _ i 10 6).trans ((hi_append _ (0#5) 5 6).trans ((hi_append _ d 0 6).trans (lo_all _)))
theorem Major.fadd (d : BitVec 5) (a : BitVec 5) (b : BitVec 5) (m : BitVec 3) (f : BitVec 2) : Major.Statement (.fadd d a b m f) := fun _ =>
  (hi_append _ (0#2) 24 6).trans ((hi_append _ f 22 6).trans ((hi_append _ m 19 6).trans ((hi_append _ (0#4) 15 6).trans ((hi_append _ b 10 6).trans ((hi_append _ a 5 6).trans ((hi_append _ d 0 6).trans (lo_all _)))))))
theorem Major.fsub (d : BitVec 5) (a : BitVec 5) (b : BitVec 5) (m : BitVec 3) (f : BitVec 2) : Major.Statement (.fsub d a b m f) := fun _ =>
  (hi_append _ (0#2) 24 6).trans ((hi_append _ f 22 6).trans ((hi_append _ m 19 6).trans ((hi_append _ (1#4) 15 6).trans ((hi_append _ b 10 6).trans ((hi_append _ a 5 6).trans ((hi_append _ d 0 6).trans (lo_all _)))))))
theorem Major.fmul (d : BitVec 5) (a : BitVec 5) (b : BitVec 5) (m : BitVec 3) (f : BitVec 2) : Major.Statement (.fmul d a b m f) := fun _ =>
  (hi_append _ (0#2) 24 6).trans ((hi_append _ f 22 6).trans ((hi_append _ m 19 6).trans ((hi_append _ (2#4) 15 6).trans ((hi_append _ b 10 6).trans ((hi_append _ a 5 6).trans ((hi_append _ d 0 6).trans (lo_all _)))))))
theorem Major.fdiv (d : BitVec 5) (a : BitVec 5) (b : BitVec 5) (m : BitVec 3) (f : BitVec 2) : Major.Statement (.fdiv d a b m f) := fun _ =>
  (hi_append _ (0#2) 24 6).trans ((hi_append _ f 22 6).trans ((hi_append _ m 19 6).trans ((hi_append _ (3#4) 15 6).trans ((hi_append _ b 10 6).trans ((hi_append _ a 5 6).trans ((hi_append _ d 0 6).trans (lo_all _)))))))
theorem Major.fsqrt (d : BitVec 5) (a : BitVec 5) (m : BitVec 3) (f : BitVec 2) : Major.Statement (.fsqrt d a m f) := fun _ =>
  (hi_append _ (0#2) 24 6).trans ((hi_append _ f 22 6).trans ((hi_append _ m 19 6).trans ((hi_append _ (4#9) 10 6).trans ((hi_append _ a 5 6).trans ((hi_append _ d 0 6).trans (lo_all _))))))
theorem Major.fma (d : BitVec 5) (a : BitVec 5) (b : BitVec 5) (m : BitVec 3) (f : BitVec 2) : Major.Statement (.fma d a b m f) := fun _ =>
  (hi_append _ (0#2) 24 6).trans ((hi_append _ f 22 6).trans ((hi_append _ m 19 6).trans ((hi_append _ (5#4) 15 6).trans ((hi_append _ b 10 6).trans ((hi_append _ a 5 6).trans ((hi_append _ d 0 6).trans (lo_all _)))))))
theorem Major.fmin (d : BitVec 5) (a : BitVec 5) (b : BitVec 5) (f : BitVec 2) : Major.Statement (.fmin d a b f) := fun _ =>
  (hi_append _ (0#2) 24 6).trans ((hi_append _ f 22 6).trans ((hi_append _ (48#7) 15 6).trans ((hi_append _ b 10 6).trans ((hi_append _ a 5 6).trans ((hi_append _ d 0 6).trans (lo_all _))))))
theorem Major.fmax (d : BitVec 5) (a : BitVec 5) (b : BitVec 5) (f : BitVec 2) : Major.Statement (.fmax d a b f) := fun _ =>
  (hi_append _ (0#2) 24 6).trans ((hi_append _ f 22 6).trans ((hi_append _ (56#7) 15 6).trans ((hi_append _ b 10 6).trans ((hi_append _ a 5 6).trans ((hi_append _ d 0 6).trans (lo_all _))))))
theorem Major.fcmp (d : BitVec 5) (a : BitVec 5) (b : BitVec 5) (f : BitVec 2) (p : BitVec 2) : Major.Statement (.fcmp d a b f p) := fun _ =>
  (hi_append _ p 24 6).trans ((hi_append _ f 22 6).trans ((hi_append _ (64#7) 15 6).trans ((hi_append _ b 10 6).trans ((hi_append _ a 5 6).trans ((hi_append _ d 0 6).trans (lo_all _))))))
theorem Major.fcvt (d : BitVec 5) (a : BitVec 5) (s : BitVec 4) (m : BitVec 3) (t : BitVec 4) : Major.Statement (.fcvt d a s m t) := fun _ =>
  (hi_append _ t 22 6).trans ((hi_append _ m 19 6).trans ((hi_append _ (9#4) 15 6).trans ((hi_append _ s 11 6).trans ((hi_append _ (0#1) 10 6).trans ((hi_append _ a 5 6).trans ((hi_append _ d 0 6).trans (lo_all _)))))))
theorem Major.fclass (d : BitVec 5) (a : BitVec 5) (f : BitVec 2) : Major.Statement (.fclass d a f) := fun _ =>
  (hi_append _ (0#2) 24 6).trans ((hi_append _ f 22 6).trans ((hi_append _ (80#12) 10 6).trans ((hi_append _ a 5 6).trans ((hi_append _ d 0 6).trans (lo_all _)))))
theorem Major.beq (a : BitVec 5) (b : BitVec 5) (o : BitVec 16) : Major.Statement (.beq a b o) := fun _ =>
  (hi_append _ o 10 6).trans ((hi_append _ b 5 6).trans ((hi_append _ a 0 6).trans (lo_all _)))
theorem Major.bne (a : BitVec 5) (b : BitVec 5) (o : BitVec 16) : Major.Statement (.bne a b o) := fun _ =>
  (hi_append _ o 10 6).trans ((hi_append _ b 5 6).trans ((hi_append _ a 0 6).trans (lo_all _)))
theorem Major.blt (a : BitVec 5) (b : BitVec 5) (o : BitVec 16) : Major.Statement (.blt a b o) := fun _ =>
  (hi_append _ o 10 6).trans ((hi_append _ b 5 6).trans ((hi_append _ a 0 6).trans (lo_all _)))
theorem Major.bge (a : BitVec 5) (b : BitVec 5) (o : BitVec 16) : Major.Statement (.bge a b o) := fun _ =>
  (hi_append _ o 10 6).trans ((hi_append _ b 5 6).trans ((hi_append _ a 0 6).trans (lo_all _)))
theorem Major.bltn (a : BitVec 5) (b : BitVec 5) (o : BitVec 16) : Major.Statement (.bltn a b o) := fun _ =>
  (hi_append _ o 10 6).trans ((hi_append _ b 5 6).trans ((hi_append _ a 0 6).trans (lo_all _)))
theorem Major.bgen (a : BitVec 5) (b : BitVec 5) (o : BitVec 16) : Major.Statement (.bgen a b o) := fun _ =>
  (hi_append _ o 10 6).trans ((hi_append _ b 5 6).trans ((hi_append _ a 0 6).trans (lo_all _)))
theorem Major.jal (o : BitVec 26) : Major.Statement (.jal o) := fun _ =>
  (hi_append _ o 0 6).trans (lo_all _)
theorem Major.jr (a : BitVec 5) : Major.Statement (.jr a) := fun _ =>
  (hi_append _ (0#21) 5 6).trans ((hi_append _ a 0 6).trans (lo_all _))
theorem Major.lpSet (a : BitVec 5) (k : BitVec 16) : Major.Statement (.lpSet a k) := fun _ =>
  (hi_append _ k 10 6).trans ((hi_append _ (1#5) 5 6).trans ((hi_append _ a 0 6).trans (lo_all _)))
theorem Major.lpBrk (a : BitVec 5) : Major.Statement (.lpBrk a) := fun _ =>
  (hi_append _ (131072#21) 5 6).trans ((hi_append _ a 0 6).trans (lo_all _))
theorem Major.lpBrkZ (a : BitVec 5) : Major.Statement (.lpBrkZ a) := fun _ =>
  (hi_append _ (131073#21) 5 6).trans ((hi_append _ a 0 6).trans (lo_all _))
theorem Major.rframe (g : BitVec 5) (n : BitVec 4) (d : BitVec 4) (a : BitVec 4) (b : BitVec 4) : Major.Statement (.rframe g n d a b) := fun _ =>
  (hi_append _ b 22 6).trans ((hi_append _ a 18 6).trans ((hi_append _ d 14 6).trans ((hi_append _ n 10 6).trans ((hi_append _ (3#5) 5 6).trans ((hi_append _ g 0 6).trans (lo_all _))))))
theorem Major.ldB (d : BitVec 5) (a : BitVec 5) (e : BitVec 12) : Major.Statement (.ldB d a e) := fun _ =>
  (hi_append _ (0#4) 22 6).trans ((hi_append _ e 10 6).trans ((hi_append _ a 5 6).trans ((hi_append _ d 0 6).trans (lo_all _))))
theorem Major.ldBn (d : BitVec 5) (a : BitVec 5) (e : BitVec 12) : Major.Statement (.ldBn d a e) := fun _ =>
  (hi_append _ (1#4) 22 6).trans ((hi_append _ e 10 6).trans ((hi_append _ a 5 6).trans ((hi_append _ d 0 6).trans (lo_all _))))
theorem Major.ldH (d : BitVec 5) (a : BitVec 5) (e : BitVec 12) : Major.Statement (.ldH d a e) := fun _ =>
  (hi_append _ (2#4) 22 6).trans ((hi_append _ e 10 6).trans ((hi_append _ a 5 6).trans ((hi_append _ d 0 6).trans (lo_all _))))
theorem Major.ldHn (d : BitVec 5) (a : BitVec 5) (e : BitVec 12) : Major.Statement (.ldHn d a e) := fun _ =>
  (hi_append _ (3#4) 22 6).trans ((hi_append _ e 10 6).trans ((hi_append _ a 5 6).trans ((hi_append _ d 0 6).trans (lo_all _))))
theorem Major.ldW (d : BitVec 5) (a : BitVec 5) (e : BitVec 12) : Major.Statement (.ldW d a e) := fun _ =>
  (hi_append _ (4#4) 22 6).trans ((hi_append _ e 10 6).trans ((hi_append _ a 5 6).trans ((hi_append _ d 0 6).trans (lo_all _))))
theorem Major.ldWn (d : BitVec 5) (a : BitVec 5) (e : BitVec 12) : Major.Statement (.ldWn d a e) := fun _ =>
  (hi_append _ (5#4) 22 6).trans ((hi_append _ e 10 6).trans ((hi_append _ a 5 6).trans ((hi_append _ d 0 6).trans (lo_all _))))
theorem Major.ldD (d : BitVec 5) (a : BitVec 5) (e : BitVec 12) : Major.Statement (.ldD d a e) := fun _ =>
  (hi_append _ (6#4) 22 6).trans ((hi_append _ e 10 6).trans ((hi_append _ a 5 6).trans ((hi_append _ d 0 6).trans (lo_all _))))
theorem Major.gl (d : BitVec 5) (a : BitVec 5) (e : BitVec 12) : Major.Statement (.gl d a e) := fun _ =>
  (hi_append _ (7#4) 22 6).trans ((hi_append _ e 10 6).trans ((hi_append _ a 5 6).trans ((hi_append _ d 0 6).trans (lo_all _))))
theorem Major.stB (d : BitVec 5) (a : BitVec 5) (e : BitVec 12) : Major.Statement (.stB d a e) := fun _ =>
  (hi_append _ (0#4) 22 6).trans ((hi_append _ e 10 6).trans ((hi_append _ a 5 6).trans ((hi_append _ d 0 6).trans (lo_all _))))
theorem Major.stH (d : BitVec 5) (a : BitVec 5) (e : BitVec 12) : Major.Statement (.stH d a e) := fun _ =>
  (hi_append _ (1#4) 22 6).trans ((hi_append _ e 10 6).trans ((hi_append _ a 5 6).trans ((hi_append _ d 0 6).trans (lo_all _))))
theorem Major.stW (d : BitVec 5) (a : BitVec 5) (e : BitVec 12) : Major.Statement (.stW d a e) := fun _ =>
  (hi_append _ (2#4) 22 6).trans ((hi_append _ e 10 6).trans ((hi_append _ a 5 6).trans ((hi_append _ d 0 6).trans (lo_all _))))
theorem Major.stD (d : BitVec 5) (a : BitVec 5) (e : BitVec 12) : Major.Statement (.stD d a e) := fun _ =>
  (hi_append _ (3#4) 22 6).trans ((hi_append _ e 10 6).trans ((hi_append _ a 5 6).trans ((hi_append _ d 0 6).trans (lo_all _))))
theorem Major.sc (d : BitVec 5) (a : BitVec 5) (b : BitVec 5) : Major.Statement (.sc d a b) := fun _ =>
  (hi_append _ (0#11) 15 6).trans ((hi_append _ b 10 6).trans ((hi_append _ a 5 6).trans ((hi_append _ d 0 6).trans (lo_all _))))
theorem Major.apnd (d : BitVec 5) (a : BitVec 5) (b : BitVec 5) (z : BitVec 2) : Major.Statement (.apnd d a b z) := fun _ =>
  (hi_append _ z 24 6).trans ((hi_append _ (64#9) 15 6).trans ((hi_append _ b 10 6).trans ((hi_append _ a 5 6).trans ((hi_append _ d 0 6).trans (lo_all _)))))
theorem Major.seal (a : BitVec 5) : Major.Statement (.seal a) := fun _ =>
  (hi_append _ (512#16) 10 6).trans ((hi_append _ a 5 6).trans ((hi_append _ (0#5) 0 6).trans (lo_all _)))
theorem Major.sealq (d : BitVec 5) (a : BitVec 5) : Major.Statement (.sealq d a) := fun _ =>
  (hi_append _ (768#16) 10 6).trans ((hi_append _ a 5 6).trans ((hi_append _ d 0 6).trans (lo_all _)))
theorem Major.srd (d : BitVec 5) (s : BitVec 16) : Major.Statement (.srd d s) := fun _ =>
  (hi_append _ s 10 6).trans ((hi_append _ (0#5) 5 6).trans ((hi_append _ d 0 6).trans (lo_all _)))
theorem Major.swr (a : BitVec 5) (s : BitVec 16) : Major.Statement (.swr a s) := fun _ =>
  (hi_append _ s 10 6).trans ((hi_append _ a 5 6).trans ((hi_append _ (0#5) 0 6).trans (lo_all _)))
theorem Major.svc (n : BitVec 10) : Major.Statement (.svc n) := fun _ =>
  (hi_append _ (0#16) 10 6).trans ((hi_append _ n 0 6).trans (lo_all _))
theorem Major.waitc (l : BitVec 4) (s : BitVec 4) (c : BitVec 4) (t : BitVec 4) : Major.Statement (.waitc l s c t) := fun _ =>
  (hi_append _ t 22 6).trans ((hi_append _ c 18 6).trans ((hi_append _ s 14 6).trans ((hi_append _ l 10 6).trans ((hi_append _ (0#10) 0 6).trans (lo_all _)))))
theorem Major.cclean (a : BitVec 5) (b : BitVec 5) : Major.Statement (.cclean a b) := fun _ =>
  (hi_append _ (0#11) 15 6).trans ((hi_append _ b 10 6).trans ((hi_append _ a 5 6).trans ((hi_append _ (0#5) 0 6).trans (lo_all _))))
theorem Major.cinval (a : BitVec 5) (b : BitVec 5) : Major.Statement (.cinval a b) := fun _ =>
  (hi_append _ (1#11) 15 6).trans ((hi_append _ b 10 6).trans ((hi_append _ a 5 6).trans ((hi_append _ (0#5) 0 6).trans (lo_all _))))
theorem Major.tlbinv (a : BitVec 5) (b : BitVec 5) : Major.Statement (.tlbinv a b) := fun _ =>
  (hi_append _ (2#11) 15 6).trans ((hi_append _ b 10 6).trans ((hi_append _ a 5 6).trans ((hi_append _ (0#5) 0 6).trans (lo_all _))))
theorem Major.pcal (a : BitVec 5) : Major.Statement (.pcal a) := fun _ =>
  (hi_append _ (3#16) 10 6).trans ((hi_append _ a 5 6).trans ((hi_append _ (0#5) 0 6).trans (lo_all _)))
theorem Major.vsave (a : BitVec 5) : Major.Statement (.vsave a) := fun _ =>
  (hi_append _ (0#16) 10 6).trans ((hi_append _ a 5 6).trans ((hi_append _ (0#5) 0 6).trans (lo_all _)))
theorem Major.vrestore (a : BitVec 5) : Major.Statement (.vrestore a) := fun _ =>
  (hi_append _ (1#16) 10 6).trans ((hi_append _ a 5 6).trans ((hi_append _ (0#5) 0 6).trans (lo_all _)))
theorem Major.vfree (a : BitVec 5) : Major.Statement (.vfree a) := fun _ =>
  (hi_append _ (2#16) 10 6).trans ((hi_append _ a 5 6).trans ((hi_append _ (0#5) 0 6).trans (lo_all _)))
theorem Major.vsetn (d : BitVec 5) (a : BitVec 5) (s : BitVec 2) (t : BitVec 3) : Major.Statement (.vsetn d a s t) := fun _ =>
  (hi_append _ (0#5) 21 6).trans ((hi_append _ t 18 6).trans ((hi_append _ (0#3) 15 6).trans ((hi_append _ s 13 6).trans ((hi_append _ (0#3) 10 6).trans ((hi_append _ a 5 6).trans ((hi_append _ d 0 6).trans (lo_all _)))))))
theorem Major.vsetnFloat (d : BitVec 5) (a : BitVec 5) (s : BitVec 2) (t : BitVec 3) : Major.Statement (.vsetnFloat d a s t) := fun _ =>
  (hi_append _ (1#5) 21 6).trans ((hi_append _ t 18 6).trans ((hi_append _ (0#3) 15 6).trans ((hi_append _ s 13 6).trans ((hi_append _ (0#3) 10 6).trans ((hi_append _ a 5 6).trans ((hi_append _ d 0 6).trans (lo_all _)))))))
theorem Major.vgetn (d : BitVec 5) : Major.Statement (.vgetn d) := fun _ =>
  (hi_append _ (2#21) 5 6).trans ((hi_append _ d 0 6).trans (lo_all _))
theorem Major.vslip (s : BitVec 5) : Major.Statement (.vslip s) := fun _ =>
  (hi_append _ (3#11) 15 6).trans ((hi_append _ s 10 6).trans ((hi_append _ (0#10) 0 6).trans (lo_all _)))
theorem Major.kand (d : BitVec 3) (a : BitVec 3) (b : BitVec 3) : Major.Statement (.kand d a b) := fun _ =>
  (hi_append _ (0#11) 15 6).trans ((hi_append _ b 12 6).trans ((hi_append _ (0#2) 10 6).trans ((hi_append _ a 7 6).trans ((hi_append _ (0#2) 5 6).trans ((hi_append _ d 2 6).trans ((hi_append _ (0#2) 0 6).trans (lo_all _)))))))
theorem Major.kor (d : BitVec 3) (a : BitVec 3) (b : BitVec 3) : Major.Statement (.kor d a b) := fun _ =>
  (hi_append _ (1#11) 15 6).trans ((hi_append _ b 12 6).trans ((hi_append _ (0#2) 10 6).trans ((hi_append _ a 7 6).trans ((hi_append _ (0#2) 5 6).trans ((hi_append _ d 2 6).trans ((hi_append _ (0#2) 0 6).trans (lo_all _)))))))
theorem Major.kxor (d : BitVec 3) (a : BitVec 3) (b : BitVec 3) : Major.Statement (.kxor d a b) := fun _ =>
  (hi_append _ (2#11) 15 6).trans ((hi_append _ b 12 6).trans ((hi_append _ (0#2) 10 6).trans ((hi_append _ a 7 6).trans ((hi_append _ (0#2) 5 6).trans ((hi_append _ d 2 6).trans ((hi_append _ (0#2) 0 6).trans (lo_all _)))))))
theorem Major.kandn (d : BitVec 3) (a : BitVec 3) (b : BitVec 3) : Major.Statement (.kandn d a b) := fun _ =>
  (hi_append _ (3#11) 15 6).trans ((hi_append _ b 12 6).trans ((hi_append _ (0#2) 10 6).trans ((hi_append _ a 7 6).trans ((hi_append _ (0#2) 5 6).trans ((hi_append _ d 2 6).trans ((hi_append _ (0#2) 0 6).trans (lo_all _)))))))
theorem Major.knot (d : BitVec 3) (a : BitVec 3) : Major.Statement (.knot d a) := fun _ =>
  (hi_append _ (4#16) 10 6).trans ((hi_append _ a 7 6).trans ((hi_append _ (0#2) 5 6).trans ((hi_append _ d 2 6).trans ((hi_append _ (0#2) 0 6).trans (lo_all _)))))
theorem Major.kmov (d : BitVec 3) (a : BitVec 3) : Major.Statement (.kmov d a) := fun _ =>
  (hi_append _ (5#16) 10 6).trans ((hi_append _ a 7 6).trans ((hi_append _ (0#2) 5 6).trans ((hi_append _ d 2 6).trans ((hi_append _ (0#2) 0 6).trans (lo_all _)))))
theorem Major.kpop (d : BitVec 5) (a : BitVec 3) : Major.Statement (.kpop d a) := fun _ =>
  (hi_append _ (6#16) 10 6).trans ((hi_append _ a 7 6).trans ((hi_append _ (0#2) 5 6).trans ((hi_append _ d 0 6).trans (lo_all _))))
theorem Major.kfirst (d : BitVec 5) (a : BitVec 3) : Major.Statement (.kfirst d a) := fun _ =>
  (hi_append _ (7#16) 10 6).trans ((hi_append _ a 7 6).trans ((hi_append _ (0#2) 5 6).trans ((hi_append _ d 0 6).trans (lo_all _))))
theorem Major.kset (d : BitVec 3) (a : BitVec 5) : Major.Statement (.kset d a) := fun _ =>
  (hi_append _ (8#16) 10 6).trans ((hi_append _ a 5 6).trans ((hi_append _ d 2 6).trans ((hi_append _ (0#2) 0 6).trans (lo_all _))))
theorem Major.kshl (d : BitVec 3) (a : BitVec 3) (s : BitVec 5) : Major.Statement (.kshl d a s) := fun _ =>
  (hi_append _ (9#11) 15 6).trans ((hi_append _ s 10 6).trans ((hi_append _ a 7 6).trans ((hi_append _ (0#2) 5 6).trans ((hi_append _ d 2 6).trans ((hi_append _ (0#2) 0 6).trans (lo_all _))))))
theorem Major.kshr (d : BitVec 3) (a : BitVec 3) (s : BitVec 5) : Major.Statement (.kshr d a s) := fun _ =>
  (hi_append _ (10#11) 15 6).trans ((hi_append _ s 10 6).trans ((hi_append _ a 7 6).trans ((hi_append _ (0#2) 5 6).trans ((hi_append _ d 2 6).trans ((hi_append _ (0#2) 0 6).trans (lo_all _))))))
theorem Major.vadd (d : BitVec 5) (a : BitVec 5) (b : BitVec 5) (k : BitVec 3) (t : BitVec 3) : Major.Statement (.vadd d a b k t) := fun _ =>
  (hi_append _ (0#5) 21 6).trans ((hi_append _ t 18 6).trans ((hi_append _ k 15 6).trans ((hi_append _ b 10 6).trans ((hi_append _ a 5 6).trans ((hi_append _ d 0 6).trans (lo_all _))))))
theorem Major.vsub (d : BitVec 5) (a : BitVec 5) (b : BitVec 5) (k : BitVec 3) (t : BitVec 3) : Major.Statement (.vsub d a b k t) := fun _ =>
  (hi_append _ (1#5) 21 6).trans ((hi_append _ t 18 6).trans ((hi_append _ k 15 6).trans ((hi_append _ b 10 6).trans ((hi_append _ a 5 6).trans ((hi_append _ d 0 6).trans (lo_all _))))))
theorem Major.vrsub (d : BitVec 5) (a : BitVec 5) (b : BitVec 5) (k : BitVec 3) (t : BitVec 3) : Major.Statement (.vrsub d a b k t) := fun _ =>
  (hi_append _ (2#5) 21 6).trans ((hi_append _ t 18 6).trans ((hi_append _ k 15 6).trans ((hi_append _ b 10 6).trans ((hi_append _ a 5 6).trans ((hi_append _ d 0 6).trans (lo_all _))))))
theorem Major.vmul (d : BitVec 5) (a : BitVec 5) (b : BitVec 5) (k : BitVec 3) (t : BitVec 3) : Major.Statement (.vmul d a b k t) := fun _ =>
  (hi_append _ (3#5) 21 6).trans ((hi_append _ t 18 6).trans ((hi_append _ k 15 6).trans ((hi_append _ b 10 6).trans ((hi_append _ a 5 6).trans ((hi_append _ d 0 6).trans (lo_all _))))))
theorem Major.vmulh (d : BitVec 5) (a : BitVec 5) (b : BitVec 5) (k : BitVec 3) (t : BitVec 3) : Major.Statement (.vmulh d a b k t) := fun _ =>
  (hi_append _ (4#5) 21 6).trans ((hi_append _ t 18 6).trans ((hi_append _ k 15 6).trans ((hi_append _ b 10 6).trans ((hi_append _ a 5 6).trans ((hi_append _ d 0 6).trans (lo_all _))))))
theorem Major.vmulhn (d : BitVec 5) (a : BitVec 5) (b : BitVec 5) (k : BitVec 3) (t : BitVec 3) : Major.Statement (.vmulhn d a b k t) := fun _ =>
  (hi_append _ (5#5) 21 6).trans ((hi_append _ t 18 6).trans ((hi_append _ k 15 6).trans ((hi_append _ b 10 6).trans ((hi_append _ a 5 6).trans ((hi_append _ d 0 6).trans (lo_all _))))))
theorem Major.vmadd (d : BitVec 5) (a : BitVec 5) (b : BitVec 5) (k : BitVec 3) (t : BitVec 3) : Major.Statement (.vmadd d a b k t) := fun _ =>
  (hi_append _ (6#5) 21 6).trans ((hi_append _ t 18 6).trans ((hi_append _ k 15 6).trans ((hi_append _ b 10 6).trans ((hi_append _ a 5 6).trans ((hi_append _ d 0 6).trans (lo_all _))))))
theorem Major.vmin (d : BitVec 5) (a : BitVec 5) (b : BitVec 5) (k : BitVec 3) (t : BitVec 3) : Major.Statement (.vmin d a b k t) := fun _ =>
  (hi_append _ (7#5) 21 6).trans ((hi_append _ t 18 6).trans ((hi_append _ k 15 6).trans ((hi_append _ b 10 6).trans ((hi_append _ a 5 6).trans ((hi_append _ d 0 6).trans (lo_all _))))))
theorem Major.vmax (d : BitVec 5) (a : BitVec 5) (b : BitVec 5) (k : BitVec 3) (t : BitVec 3) : Major.Statement (.vmax d a b k t) := fun _ =>
  (hi_append _ (8#5) 21 6).trans ((hi_append _ t 18 6).trans ((hi_append _ k 15 6).trans ((hi_append _ b 10 6).trans ((hi_append _ a 5 6).trans ((hi_append _ d 0 6).trans (lo_all _))))))
theorem Major.vminn (d : BitVec 5) (a : BitVec 5) (b : BitVec 5) (k : BitVec 3) (t : BitVec 3) : Major.Statement (.vminn d a b k t) := fun _ =>
  (hi_append _ (9#5) 21 6).trans ((hi_append _ t 18 6).trans ((hi_append _ k 15 6).trans ((hi_append _ b 10 6).trans ((hi_append _ a 5 6).trans ((hi_append _ d 0 6).trans (lo_all _))))))
theorem Major.vmaxn (d : BitVec 5) (a : BitVec 5) (b : BitVec 5) (k : BitVec 3) (t : BitVec 3) : Major.Statement (.vmaxn d a b k t) := fun _ =>
  (hi_append _ (10#5) 21 6).trans ((hi_append _ t 18 6).trans ((hi_append _ k 15 6).trans ((hi_append _ b 10 6).trans ((hi_append _ a 5 6).trans ((hi_append _ d 0 6).trans (lo_all _))))))
theorem Major.vand (d : BitVec 5) (a : BitVec 5) (b : BitVec 5) (k : BitVec 3) (t : BitVec 3) : Major.Statement (.vand d a b k t) := fun _ =>
  (hi_append _ (11#5) 21 6).trans ((hi_append _ t 18 6).trans ((hi_append _ k 15 6).trans ((hi_append _ b 10 6).trans ((hi_append _ a 5 6).trans ((hi_append _ d 0 6).trans (lo_all _))))))
theorem Major.vor (d : BitVec 5) (a : BitVec 5) (b : BitVec 5) (k : BitVec 3) (t : BitVec 3) : Major.Statement (.vor d a b k t) := fun _ =>
  (hi_append _ (12#5) 21 6).trans ((hi_append _ t 18 6).trans ((hi_append _ k 15 6).trans ((hi_append _ b 10 6).trans ((hi_append _ a 5 6).trans ((hi_append _ d 0 6).trans (lo_all _))))))
theorem Major.vxor (d : BitVec 5) (a : BitVec 5) (b : BitVec 5) (k : BitVec 3) (t : BitVec 3) : Major.Statement (.vxor d a b k t) := fun _ =>
  (hi_append _ (13#5) 21 6).trans ((hi_append _ t 18 6).trans ((hi_append _ k 15 6).trans ((hi_append _ b 10 6).trans ((hi_append _ a 5 6).trans ((hi_append _ d 0 6).trans (lo_all _))))))
theorem Major.vsll (d : BitVec 5) (a : BitVec 5) (b : BitVec 5) (k : BitVec 3) (t : BitVec 3) : Major.Statement (.vsll d a b k t) := fun _ =>
  (hi_append _ (14#5) 21 6).trans ((hi_append _ t 18 6).trans ((hi_append _ k 15 6).trans ((hi_append _ b 10 6).trans ((hi_append _ a 5 6).trans ((hi_append _ d 0 6).trans (lo_all _))))))
theorem Major.vsrl (d : BitVec 5) (a : BitVec 5) (b : BitVec 5) (k : BitVec 3) (t : BitVec 3) : Major.Statement (.vsrl d a b k t) := fun _ =>
  (hi_append _ (15#5) 21 6).trans ((hi_append _ t 18 6).trans ((hi_append _ k 15 6).trans ((hi_append _ b 10 6).trans ((hi_append _ a 5 6).trans ((hi_append _ d 0 6).trans (lo_all _))))))
theorem Major.vsra (d : BitVec 5) (a : BitVec 5) (b : BitVec 5) (k : BitVec 3) (t : BitVec 3) : Major.Statement (.vsra d a b k t) := fun _ =>
  (hi_append _ (16#5) 21 6).trans ((hi_append _ t 18 6).trans ((hi_append _ k 15 6).trans ((hi_append _ b 10 6).trans ((hi_append _ a 5 6).trans ((hi_append _ d 0 6).trans (lo_all _))))))
theorem Major.vsadd (d : BitVec 5) (a : BitVec 5) (b : BitVec 5) (k : BitVec 3) (t : BitVec 3) : Major.Statement (.vsadd d a b k t) := fun _ =>
  (hi_append _ (17#5) 21 6).trans ((hi_append _ t 18 6).trans ((hi_append _ k 15 6).trans ((hi_append _ b 10 6).trans ((hi_append _ a 5 6).trans ((hi_append _ d 0 6).trans (lo_all _))))))
theorem Major.vssub (d : BitVec 5) (a : BitVec 5) (b : BitVec 5) (k : BitVec 3) (t : BitVec 3) : Major.Statement (.vssub d a b k t) := fun _ =>
  (hi_append _ (18#5) 21 6).trans ((hi_append _ t 18 6).trans ((hi_append _ k 15 6).trans ((hi_append _ b 10 6).trans ((hi_append _ a 5 6).trans ((hi_append _ d 0 6).trans (lo_all _))))))
theorem Major.vadc (d : BitVec 5) (a : BitVec 5) (b : BitVec 5) (k : BitVec 3) (t : BitVec 3) : Major.Statement (.vadc d a b k t) := fun _ =>
  (hi_append _ (19#5) 21 6).trans ((hi_append _ t 18 6).trans ((hi_append _ k 15 6).trans ((hi_append _ b 10 6).trans ((hi_append _ a 5 6).trans ((hi_append _ d 0 6).trans (lo_all _))))))
theorem Major.vsbc (d : BitVec 5) (a : BitVec 5) (b : BitVec 5) (k : BitVec 3) (t : BitVec 3) : Major.Statement (.vsbc d a b k t) := fun _ =>
  (hi_append _ (20#5) 21 6).trans ((hi_append _ t 18 6).trans ((hi_append _ k 15 6).trans ((hi_append _ b 10 6).trans ((hi_append _ a 5 6).trans ((hi_append _ d 0 6).trans (lo_all _))))))
theorem Major.vmerge (d : BitVec 5) (a : BitVec 5) (b : BitVec 5) (k : BitVec 3) (t : BitVec 3) : Major.Statement (.vmerge d a b k t) := fun _ =>
  (hi_append _ (21#5) 21 6).trans ((hi_append _ t 18 6).trans ((hi_append _ k 15 6).trans ((hi_append _ b 10 6).trans ((hi_append _ a 5 6).trans ((hi_append _ d 0 6).trans (lo_all _))))))
theorem Major.vmov (d : BitVec 5) (a : BitVec 5) (k : BitVec 3) (t : BitVec 3) : Major.Statement (.vmov d a k t) := fun _ =>
  (hi_append _ (22#5) 21 6).trans ((hi_append _ t 18 6).trans ((hi_append _ k 15 6).trans ((hi_append _ (0#5) 10 6).trans ((hi_append _ a 5 6).trans ((hi_append _ d 0 6).trans (lo_all _))))))
theorem Major.vsext (d : BitVec 5) (a : BitVec 5) (s : BitVec 3) (k : BitVec 3) (t : BitVec 3) : Major.Statement (.vsext d a s k t) := fun _ =>
  (hi_append _ (23#5) 21 6).trans ((hi_append _ t 18 6).trans ((hi_append _ k 15 6).trans ((hi_append _ s 12 6).trans ((hi_append _ (0#2) 10 6).trans ((hi_append _ a 5 6).trans ((hi_append _ d 0 6).trans (lo_all _)))))))
theorem Major.vzext (d : BitVec 5) (a : BitVec 5) (s : BitVec 3) (k : BitVec 3) (t : BitVec 3) : Major.Statement (.vzext d a s k t) := fun _ =>
  (hi_append _ (24#5) 21 6).trans ((hi_append _ t 18 6).trans ((hi_append _ k 15 6).trans ((hi_append _ s 12 6).trans ((hi_append _ (0#2) 10 6).trans ((hi_append _ a 5 6).trans ((hi_append _ d 0 6).trans (lo_all _)))))))
theorem Major.vclz (d : BitVec 5) (a : BitVec 5) (k : BitVec 3) (t : BitVec 3) : Major.Statement (.vclz d a k t) := fun _ =>
  (hi_append _ (25#5) 21 6).trans ((hi_append _ t 18 6).trans ((hi_append _ k 15 6).trans ((hi_append _ (0#5) 10 6).trans ((hi_append _ a 5 6).trans ((hi_append _ d 0 6).trans (lo_all _))))))
theorem Major.vpopc (d : BitVec 5) (a : BitVec 5) (k : BitVec 3) (t : BitVec 3) : Major.Statement (.vpopc d a k t) := fun _ =>
  (hi_append _ (26#5) 21 6).trans ((hi_append _ t 18 6).trans ((hi_append _ k 15 6).trans ((hi_append _ (0#5) 10 6).trans ((hi_append _ a 5 6).trans ((hi_append _ d 0 6).trans (lo_all _))))))
theorem Major.vsllImm (d : BitVec 5) (a : BitVec 5) (s : BitVec 5) (k : BitVec 3) (t : BitVec 3) : Major.Statement (.vsllImm d a s k t) := fun _ =>
  (hi_append _ (0#5) 21 6).trans ((hi_append _ t 18 6).trans ((hi_append _ k 15 6).trans ((hi_append _ s 10 6).trans ((hi_append _ a 5 6).trans ((hi_append _ d 0 6).trans (lo_all _))))))
theorem Major.vsrlImm (d : BitVec 5) (a : BitVec 5) (s : BitVec 5) (k : BitVec 3) (t : BitVec 3) : Major.Statement (.vsrlImm d a s k t) := fun _ =>
  (hi_append _ (1#5) 21 6).trans ((hi_append _ t 18 6).trans ((hi_append _ k 15 6).trans ((hi_append _ s 10 6).trans ((hi_append _ a 5 6).trans ((hi_append _ d 0 6).trans (lo_all _))))))
theorem Major.vsraImm (d : BitVec 5) (a : BitVec 5) (s : BitVec 5) (k : BitVec 3) (t : BitVec 3) : Major.Statement (.vsraImm d a s k t) := fun _ =>
  (hi_append _ (2#5) 21 6).trans ((hi_append _ t 18 6).trans ((hi_append _ k 15 6).trans ((hi_append _ s 10 6).trans ((hi_append _ a 5 6).trans ((hi_append _ d 0 6).trans (lo_all _))))))
theorem Major.vcmpEq (d : BitVec 3) (a : BitVec 5) (b : BitVec 5) (k : BitVec 3) (t : BitVec 3) : Major.Statement (.vcmpEq d a b k t) := fun _ =>
  (hi_append _ (0#5) 21 6).trans ((hi_append _ t 18 6).trans ((hi_append _ k 15 6).trans ((hi_append _ b 10 6).trans ((hi_append _ a 5 6).trans ((hi_append _ d 2 6).trans ((hi_append _ (0#2) 0 6).trans (lo_all _)))))))
theorem Major.vcmpNe (d : BitVec 3) (a : BitVec 5) (b : BitVec 5) (k : BitVec 3) (t : BitVec 3) : Major.Statement (.vcmpNe d a b k t) := fun _ =>
  (hi_append _ (1#5) 21 6).trans ((hi_append _ t 18 6).trans ((hi_append _ k 15 6).trans ((hi_append _ b 10 6).trans ((hi_append _ a 5 6).trans ((hi_append _ d 2 6).trans ((hi_append _ (0#2) 0 6).trans (lo_all _)))))))
theorem Major.vcmpLt (d : BitVec 3) (a : BitVec 5) (b : BitVec 5) (k : BitVec 3) (t : BitVec 3) : Major.Statement (.vcmpLt d a b k t) := fun _ =>
  (hi_append _ (2#5) 21 6).trans ((hi_append _ t 18 6).trans ((hi_append _ k 15 6).trans ((hi_append _ b 10 6).trans ((hi_append _ a 5 6).trans ((hi_append _ d 2 6).trans ((hi_append _ (0#2) 0 6).trans (lo_all _)))))))
theorem Major.vcmpLe (d : BitVec 3) (a : BitVec 5) (b : BitVec 5) (k : BitVec 3) (t : BitVec 3) : Major.Statement (.vcmpLe d a b k t) := fun _ =>
  (hi_append _ (3#5) 21 6).trans ((hi_append _ t 18 6).trans ((hi_append _ k 15 6).trans ((hi_append _ b 10 6).trans ((hi_append _ a 5 6).trans ((hi_append _ d 2 6).trans ((hi_append _ (0#2) 0 6).trans (lo_all _)))))))
theorem Major.vcmpLtn (d : BitVec 3) (a : BitVec 5) (b : BitVec 5) (k : BitVec 3) (t : BitVec 3) : Major.Statement (.vcmpLtn d a b k t) := fun _ =>
  (hi_append _ (4#5) 21 6).trans ((hi_append _ t 18 6).trans ((hi_append _ k 15 6).trans ((hi_append _ b 10 6).trans ((hi_append _ a 5 6).trans ((hi_append _ d 2 6).trans ((hi_append _ (0#2) 0 6).trans (lo_all _)))))))
theorem Major.vcmpLen (d : BitVec 3) (a : BitVec 5) (b : BitVec 5) (k : BitVec 3) (t : BitVec 3) : Major.Statement (.vcmpLen d a b k t) := fun _ =>
  (hi_append _ (5#5) 21 6).trans ((hi_append _ t 18 6).trans ((hi_append _ k 15 6).trans ((hi_append _ b 10 6).trans ((hi_append _ a 5 6).trans ((hi_append _ d 2 6).trans ((hi_append _ (0#2) 0 6).trans (lo_all _)))))))
theorem Major.vnarrowWrap (d : BitVec 5) (a : BitVec 5) (s : BitVec 3) (k : BitVec 3) (t : BitVec 3) : Major.Statement (.vnarrowWrap d a s k t) := fun _ =>
  (hi_append _ (0#5) 21 6).trans ((hi_append _ t 18 6).trans ((hi_append _ k 15 6).trans ((hi_append _ s 12 6).trans ((hi_append _ (0#2) 10 6).trans ((hi_append _ a 5 6).trans ((hi_append _ d 0 6).trans (lo_all _)))))))
theorem Major.vnarrowSat (d : BitVec 5) (a : BitVec 5) (s : BitVec 3) (k : BitVec 3) (t : BitVec 3) : Major.Statement (.vnarrowSat d a s k t) := fun _ =>
  (hi_append _ (1#5) 21 6).trans ((hi_append _ t 18 6).trans ((hi_append _ k 15 6).trans ((hi_append _ s 12 6).trans ((hi_append _ (0#2) 10 6).trans ((hi_append _ a 5 6).trans ((hi_append _ d 0 6).trans (lo_all _)))))))
theorem Major.vfadd (d : BitVec 5) (a : BitVec 5) (b : BitVec 5) (k : BitVec 3) (t : BitVec 3) : Major.Statement (.vfadd d a b k t) := fun _ =>
  (hi_append _ (0#5) 21 6).trans ((hi_append _ t 18 6).trans ((hi_append _ k 15 6).trans ((hi_append _ b 10 6).trans ((hi_append _ a 5 6).trans ((hi_append _ d 0 6).trans (lo_all _))))))
theorem Major.vfsub (d : BitVec 5) (a : BitVec 5) (b : BitVec 5) (k : BitVec 3) (t : BitVec 3) : Major.Statement (.vfsub d a b k t) := fun _ =>
  (hi_append _ (1#5) 21 6).trans ((hi_append _ t 18 6).trans ((hi_append _ k 15 6).trans ((hi_append _ b 10 6).trans ((hi_append _ a 5 6).trans ((hi_append _ d 0 6).trans (lo_all _))))))
theorem Major.vfmul (d : BitVec 5) (a : BitVec 5) (b : BitVec 5) (k : BitVec 3) (t : BitVec 3) : Major.Statement (.vfmul d a b k t) := fun _ =>
  (hi_append _ (2#5) 21 6).trans ((hi_append _ t 18 6).trans ((hi_append _ k 15 6).trans ((hi_append _ b 10 6).trans ((hi_append _ a 5 6).trans ((hi_append _ d 0 6).trans (lo_all _))))))
theorem Major.vfdiv (d : BitVec 5) (a : BitVec 5) (b : BitVec 5) (k : BitVec 3) (t : BitVec 3) : Major.Statement (.vfdiv d a b k t) := fun _ =>
  (hi_append _ (3#5) 21 6).trans ((hi_append _ t 18 6).trans ((hi_append _ k 15 6).trans ((hi_append _ b 10 6).trans ((hi_append _ a 5 6).trans ((hi_append _ d 0 6).trans (lo_all _))))))
theorem Major.vfsqrt (d : BitVec 5) (a : BitVec 5) (k : BitVec 3) (t : BitVec 3) : Major.Statement (.vfsqrt d a k t) := fun _ =>
  (hi_append _ (4#5) 21 6).trans ((hi_append _ t 18 6).trans ((hi_append _ k 15 6).trans ((hi_append _ (0#5) 10 6).trans ((hi_append _ a 5 6).trans ((hi_append _ d 0 6).trans (lo_all _))))))
theorem Major.vfma (d : BitVec 5) (a : BitVec 5) (b : BitVec 5) (k : BitVec 3) (t : BitVec 3) : Major.Statement (.vfma d a b k t) := fun _ =>
  (hi_append _ (5#5) 21 6).trans ((hi_append _ t 18 6).trans ((hi_append _ k 15 6).trans ((hi_append _ b 10 6).trans ((hi_append _ a 5 6).trans ((hi_append _ d 0 6).trans (lo_all _))))))
theorem Major.vfnma (d : BitVec 5) (a : BitVec 5) (b : BitVec 5) (k : BitVec 3) (t : BitVec 3) : Major.Statement (.vfnma d a b k t) := fun _ =>
  (hi_append _ (6#5) 21 6).trans ((hi_append _ t 18 6).trans ((hi_append _ k 15 6).trans ((hi_append _ b 10 6).trans ((hi_append _ a 5 6).trans ((hi_append _ d 0 6).trans (lo_all _))))))
theorem Major.vfmin (d : BitVec 5) (a : BitVec 5) (b : BitVec 5) (k : BitVec 3) (t : BitVec 3) : Major.Statement (.vfmin d a b k t) := fun _ =>
  (hi_append _ (7#5) 21 6).trans ((hi_append _ t 18 6).trans ((hi_append _ k 15 6).trans ((hi_append _ b 10 6).trans ((hi_append _ a 5 6).trans ((hi_append _ d 0 6).trans (lo_all _))))))
theorem Major.vfmax (d : BitVec 5) (a : BitVec 5) (b : BitVec 5) (k : BitVec 3) (t : BitVec 3) : Major.Statement (.vfmax d a b k t) := fun _ =>
  (hi_append _ (8#5) 21 6).trans ((hi_append _ t 18 6).trans ((hi_append _ k 15 6).trans ((hi_append _ b 10 6).trans ((hi_append _ a 5 6).trans ((hi_append _ d 0 6).trans (lo_all _))))))
theorem Major.vfexp2 (d : BitVec 5) (a : BitVec 5) (k : BitVec 3) (t : BitVec 3) : Major.Statement (.vfexp2 d a k t) := fun _ =>
  (hi_append _ (9#5) 21 6).trans ((hi_append _ t 18 6).trans ((hi_append _ k 15 6).trans ((hi_append _ (0#5) 10 6).trans ((hi_append _ a 5 6).trans ((hi_append _ d 0 6).trans (lo_all _))))))
theorem Major.vfrsqrt (d : BitVec 5) (a : BitVec 5) (k : BitVec 3) (t : BitVec 3) : Major.Statement (.vfrsqrt d a k t) := fun _ =>
  (hi_append _ (10#5) 21 6).trans ((hi_append _ t 18 6).trans ((hi_append _ k 15 6).trans ((hi_append _ (0#5) 10 6).trans ((hi_append _ a 5 6).trans ((hi_append _ d 0 6).trans (lo_all _))))))
theorem Major.vfcvt (d : BitVec 5) (a : BitVec 5) (s : BitVec 2) (k : BitVec 3) (t : BitVec 3) : Major.Statement (.vfcvt d a s k t) := fun _ =>
  (hi_append _ (16#5) 21 6).trans ((hi_append _ t 18 6).trans ((hi_append _ k 15 6).trans ((hi_append _ s 13 6).trans ((hi_append _ (0#3) 10 6).trans ((hi_append _ a 5 6).trans ((hi_append _ d 0 6).trans (lo_all _)))))))
theorem Major.vfcvtIntToFloat (d : BitVec 5) (a : BitVec 5) (s : BitVec 3) (k : BitVec 3) (t : BitVec 3) : Major.Statement (.vfcvtIntToFloat d a s k t) := fun _ =>
  (hi_append _ (17#5) 21 6).trans ((hi_append _ t 18 6).trans ((hi_append _ k 15 6).trans ((hi_append _ s 12 6).trans ((hi_append _ (0#2) 10 6).trans ((hi_append _ a 5 6).trans ((hi_append _ d 0 6).trans (lo_all _)))))))
theorem Major.vfcvtFloatToInt (d : BitVec 5) (a : BitVec 5) (s : BitVec 2) (k : BitVec 3) (t : BitVec 3) : Major.Statement (.vfcvtFloatToInt d a s k t) := fun _ =>
  (hi_append _ (18#5) 21 6).trans ((hi_append _ t 18 6).trans ((hi_append _ k 15 6).trans ((hi_append _ s 13 6).trans ((hi_append _ (0#3) 10 6).trans ((hi_append _ a 5 6).trans ((hi_append _ d 0 6).trans (lo_all _)))))))
theorem Major.vfcmpEq (d : BitVec 3) (a : BitVec 5) (b : BitVec 5) (k : BitVec 3) (t : BitVec 3) : Major.Statement (.vfcmpEq d a b k t) := fun _ =>
  (hi_append _ (0#5) 21 6).trans ((hi_append _ t 18 6).trans ((hi_append _ k 15 6).trans ((hi_append _ b 10 6).trans ((hi_append _ a 5 6).trans ((hi_append _ d 2 6).trans ((hi_append _ (0#2) 0 6).trans (lo_all _)))))))
theorem Major.vfcmpNe (d : BitVec 3) (a : BitVec 5) (b : BitVec 5) (k : BitVec 3) (t : BitVec 3) : Major.Statement (.vfcmpNe d a b k t) := fun _ =>
  (hi_append _ (1#5) 21 6).trans ((hi_append _ t 18 6).trans ((hi_append _ k 15 6).trans ((hi_append _ b 10 6).trans ((hi_append _ a 5 6).trans ((hi_append _ d 2 6).trans ((hi_append _ (0#2) 0 6).trans (lo_all _)))))))
theorem Major.vfcmpLt (d : BitVec 3) (a : BitVec 5) (b : BitVec 5) (k : BitVec 3) (t : BitVec 3) : Major.Statement (.vfcmpLt d a b k t) := fun _ =>
  (hi_append _ (2#5) 21 6).trans ((hi_append _ t 18 6).trans ((hi_append _ k 15 6).trans ((hi_append _ b 10 6).trans ((hi_append _ a 5 6).trans ((hi_append _ d 2 6).trans ((hi_append _ (0#2) 0 6).trans (lo_all _)))))))
theorem Major.vfcmpLe (d : BitVec 3) (a : BitVec 5) (b : BitVec 5) (k : BitVec 3) (t : BitVec 3) : Major.Statement (.vfcmpLe d a b k t) := fun _ =>
  (hi_append _ (3#5) 21 6).trans ((hi_append _ t 18 6).trans ((hi_append _ k 15 6).trans ((hi_append _ b 10 6).trans ((hi_append _ a 5 6).trans ((hi_append _ d 2 6).trans ((hi_append _ (0#2) 0 6).trans (lo_all _)))))))
theorem Major.vfcmpUn (d : BitVec 3) (a : BitVec 5) (b : BitVec 5) (k : BitVec 3) (t : BitVec 3) : Major.Statement (.vfcmpUn d a b k t) := fun _ =>
  (hi_append _ (4#5) 21 6).trans ((hi_append _ t 18 6).trans ((hi_append _ k 15 6).trans ((hi_append _ b 10 6).trans ((hi_append _ a 5 6).trans ((hi_append _ d 2 6).trans ((hi_append _ (0#2) 0 6).trans (lo_all _)))))))
theorem Major.vredsumWrap (d : BitVec 5) (a : BitVec 5) (s : BitVec 5) (k : BitVec 3) (t : BitVec 3) : Major.Statement (.vredsumWrap d a s k t) := fun _ =>
  (hi_append _ (0#5) 21 6).trans ((hi_append _ t 18 6).trans ((hi_append _ k 15 6).trans ((hi_append _ s 10 6).trans ((hi_append _ a 5 6).trans ((hi_append _ d 0 6).trans (lo_all _))))))
theorem Major.vredsumSat (d : BitVec 5) (a : BitVec 5) (s : BitVec 5) (k : BitVec 3) (t : BitVec 3) : Major.Statement (.vredsumSat d a s k t) := fun _ =>
  (hi_append _ (1#5) 21 6).trans ((hi_append _ t 18 6).trans ((hi_append _ k 15 6).trans ((hi_append _ s 10 6).trans ((hi_append _ a 5 6).trans ((hi_append _ d 0 6).trans (lo_all _))))))
theorem Major.vredmin (d : BitVec 5) (a : BitVec 5) (s : BitVec 5) (k : BitVec 3) (t : BitVec 3) : Major.Statement (.vredmin d a s k t) := fun _ =>
  (hi_append _ (2#5) 21 6).trans ((hi_append _ t 18 6).trans ((hi_append _ k 15 6).trans ((hi_append _ s 10 6).trans ((hi_append _ a 5 6).trans ((hi_append _ d 0 6).trans (lo_all _))))))
theorem Major.vredmax (d : BitVec 5) (a : BitVec 5) (s : BitVec 5) (k : BitVec 3) (t : BitVec 3) : Major.Statement (.vredmax d a s k t) := fun _ =>
  (hi_append _ (3#5) 21 6).trans ((hi_append _ t 18 6).trans ((hi_append _ k 15 6).trans ((hi_append _ s 10 6).trans ((hi_append _ a 5 6).trans ((hi_append _ d 0 6).trans (lo_all _))))))
theorem Major.vfredsum (d : BitVec 5) (a : BitVec 5) (s : BitVec 5) (k : BitVec 3) (t : BitVec 3) : Major.Statement (.vfredsum d a s k t) := fun _ =>
  (hi_append _ (4#5) 21 6).trans ((hi_append _ t 18 6).trans ((hi_append _ k 15 6).trans ((hi_append _ s 10 6).trans ((hi_append _ a 5 6).trans ((hi_append _ d 0 6).trans (lo_all _))))))
theorem Major.vfredmax (d : BitVec 5) (a : BitVec 5) (s : BitVec 5) (k : BitVec 3) (t : BitVec 3) : Major.Statement (.vfredmax d a s k t) := fun _ =>
  (hi_append _ (5#5) 21 6).trans ((hi_append _ t 18 6).trans ((hi_append _ k 15 6).trans ((hi_append _ s 10 6).trans ((hi_append _ a 5 6).trans ((hi_append _ d 0 6).trans (lo_all _))))))
theorem Major.vslideup (d : BitVec 5) (a : BitVec 5) (b : BitVec 5) (k : BitVec 3) (t : BitVec 3) : Major.Statement (.vslideup d a b k t) := fun _ =>
  (hi_append _ (0#5) 21 6).trans ((hi_append _ t 18 6).trans ((hi_append _ k 15 6).trans ((hi_append _ b 10 6).trans ((hi_append _ a 5 6).trans ((hi_append _ d 0 6).trans (lo_all _))))))
theorem Major.vslidedn (d : BitVec 5) (a : BitVec 5) (b : BitVec 5) (k : BitVec 3) (t : BitVec 3) : Major.Statement (.vslidedn d a b k t) := fun _ =>
  (hi_append _ (1#5) 21 6).trans ((hi_append _ t 18 6).trans ((hi_append _ k 15 6).trans ((hi_append _ b 10 6).trans ((hi_append _ a 5 6).trans ((hi_append _ d 0 6).trans (lo_all _))))))
theorem Major.vperm (d : BitVec 5) (a : BitVec 5) (b : BitVec 5) (k : BitVec 3) (t : BitVec 3) : Major.Statement (.vperm d a b k t) := fun _ =>
  (hi_append _ (2#5) 21 6).trans ((hi_append _ t 18 6).trans ((hi_append _ k 15 6).trans ((hi_append _ b 10 6).trans ((hi_append _ a 5 6).trans ((hi_append _ d 0 6).trans (lo_all _))))))
theorem Major.vcomp (d : BitVec 5) (a : BitVec 5) (k : BitVec 3) (t : BitVec 3) : Major.Statement (.vcomp d a k t) := fun _ =>
  (hi_append _ (3#5) 21 6).trans ((hi_append _ t 18 6).trans ((hi_append _ k 15 6).trans ((hi_append _ (0#5) 10 6).trans ((hi_append _ a 5 6).trans ((hi_append _ d 0 6).trans (lo_all _))))))
theorem Major.vexpand (d : BitVec 5) (a : BitVec 5) (k : BitVec 3) (t : BitVec 3) : Major.Statement (.vexpand d a k t) := fun _ =>
  (hi_append _ (4#5) 21 6).trans ((hi_append _ t 18 6).trans ((hi_append _ k 15 6).trans ((hi_append _ (0#5) 10 6).trans ((hi_append _ a 5 6).trans ((hi_append _ d 0 6).trans (lo_all _))))))
theorem Major.vbcast (d : BitVec 5) (a : BitVec 5) (k : BitVec 3) (t : BitVec 3) : Major.Statement (.vbcast d a k t) := fun _ =>
  (hi_append _ (5#5) 21 6).trans ((hi_append _ t 18 6).trans ((hi_append _ k 15 6).trans ((hi_append _ (0#5) 10 6).trans ((hi_append _ a 5 6).trans ((hi_append _ d 0 6).trans (lo_all _))))))
theorem Major.vext (d : BitVec 5) (a : BitVec 5) (b : BitVec 5) (t : BitVec 3) : Major.Statement (.vext d a b t) := fun _ =>
  (hi_append _ (6#5) 21 6).trans ((hi_append _ t 18 6).trans ((hi_append _ (0#3) 15 6).trans ((hi_append _ b 10 6).trans ((hi_append _ a 5 6).trans ((hi_append _ d 0 6).trans (lo_all _))))))
theorem Major.vins (d : BitVec 5) (a : BitVec 5) (b : BitVec 5) (t : BitVec 3) : Major.Statement (.vins d a b t) := fun _ =>
  (hi_append _ (7#5) 21 6).trans ((hi_append _ t 18 6).trans ((hi_append _ (0#3) 15 6).trans ((hi_append _ b 10 6).trans ((hi_append _ a 5 6).trans ((hi_append _ d 0 6).trans (lo_all _))))))
theorem Major.vquantI8 (d : BitVec 5) (a : BitVec 5) (b : BitVec 5) (k : BitVec 3) (t : BitVec 3) : Major.Statement (.vquantI8 d a b k t) := fun _ =>
  (hi_append _ (0#5) 21 6).trans ((hi_append _ t 18 6).trans ((hi_append _ k 15 6).trans ((hi_append _ b 10 6).trans ((hi_append _ a 5 6).trans ((hi_append _ d 0 6).trans (lo_all _))))))
theorem Major.vquantI4 (d : BitVec 5) (a : BitVec 5) (b : BitVec 5) (k : BitVec 3) (t : BitVec 3) : Major.Statement (.vquantI4 d a b k t) := fun _ =>
  (hi_append _ (1#5) 21 6).trans ((hi_append _ t 18 6).trans ((hi_append _ k 15 6).trans ((hi_append _ b 10 6).trans ((hi_append _ a 5 6).trans ((hi_append _ d 0 6).trans (lo_all _))))))
theorem Major.vquantTern (d : BitVec 5) (a : BitVec 5) (b : BitVec 5) (k : BitVec 3) (t : BitVec 3) : Major.Statement (.vquantTern d a b k t) := fun _ =>
  (hi_append _ (2#5) 21 6).trans ((hi_append _ t 18 6).trans ((hi_append _ k 15 6).trans ((hi_append _ b 10 6).trans ((hi_append _ a 5 6).trans ((hi_append _ d 0 6).trans (lo_all _))))))
theorem Major.vdeqNq4 (d : BitVec 5) (a : BitVec 5) (b : BitVec 5) (k : BitVec 3) (t : BitVec 3) : Major.Statement (.vdeqNq4 d a b k t) := fun _ =>
  (hi_append _ (8#5) 21 6).trans ((hi_append _ t 18 6).trans ((hi_append _ k 15 6).trans ((hi_append _ b 10 6).trans ((hi_append _ a 5 6).trans ((hi_append _ d 0 6).trans (lo_all _))))))
theorem Major.vdeqE2m1 (d : BitVec 5) (a : BitVec 5) (b : BitVec 5) (k : BitVec 3) (t : BitVec 3) : Major.Statement (.vdeqE2m1 d a b k t) := fun _ =>
  (hi_append _ (9#5) 21 6).trans ((hi_append _ t 18 6).trans ((hi_append _ k 15 6).trans ((hi_append _ b 10 6).trans ((hi_append _ a 5 6).trans ((hi_append _ d 0 6).trans (lo_all _))))))
theorem Major.vdeqTern (d : BitVec 5) (a : BitVec 5) (b : BitVec 5) (k : BitVec 3) (t : BitVec 3) : Major.Statement (.vdeqTern d a b k t) := fun _ =>
  (hi_append _ (10#5) 21 6).trans ((hi_append _ t 18 6).trans ((hi_append _ k 15 6).trans ((hi_append _ b 10 6).trans ((hi_append _ a 5 6).trans ((hi_append _ d 0 6).trans (lo_all _))))))
theorem Major.vquantPi (d : BitVec 5) (a : BitVec 5) (b : BitVec 5) (k : BitVec 3) (t : BitVec 3) (w : BitVec 3) : Major.Statement (.vquantPi d a b k t w) := fun _ =>
  (hi_append _ w 23 6).trans ((hi_append _ (2#2) 21 6).trans ((hi_append _ t 18 6).trans ((hi_append _ k 15 6).trans ((hi_append _ b 10 6).trans ((hi_append _ a 5 6).trans ((hi_append _ d 0 6).trans (lo_all _)))))))
theorem Major.vld (d : BitVec 5) (a : BitVec 5) (k : BitVec 3) (t : BitVec 3) : Major.Statement (.vld d a k t) := fun _ =>
  (hi_append _ (0#5) 21 6).trans ((hi_append _ t 18 6).trans ((hi_append _ k 15 6).trans ((hi_append _ (0#5) 10 6).trans ((hi_append _ a 5 6).trans ((hi_append _ d 0 6).trans (lo_all _))))))
theorem Major.vst (d : BitVec 5) (a : BitVec 5) (k : BitVec 3) (t : BitVec 3) : Major.Statement (.vst d a k t) := fun _ =>
  (hi_append _ (1#5) 21 6).trans ((hi_append _ t 18 6).trans ((hi_append _ k 15 6).trans ((hi_append _ (0#5) 10 6).trans ((hi_append _ a 5 6).trans ((hi_append _ d 0 6).trans (lo_all _))))))
theorem Major.vlds (d : BitVec 5) (a : BitVec 5) (b : BitVec 5) (k : BitVec 3) (t : BitVec 3) : Major.Statement (.vlds d a b k t) := fun _ =>
  (hi_append _ (0#5) 21 6).trans ((hi_append _ t 18 6).trans ((hi_append _ k 15 6).trans ((hi_append _ b 10 6).trans ((hi_append _ a 5 6).trans ((hi_append _ d 0 6).trans (lo_all _))))))
theorem Major.vsts (d : BitVec 5) (a : BitVec 5) (b : BitVec 5) (k : BitVec 3) (t : BitVec 3) : Major.Statement (.vsts d a b k t) := fun _ =>
  (hi_append _ (1#5) 21 6).trans ((hi_append _ t 18 6).trans ((hi_append _ k 15 6).trans ((hi_append _ b 10 6).trans ((hi_append _ a 5 6).trans ((hi_append _ d 0 6).trans (lo_all _))))))
theorem Major.vldx (d : BitVec 5) (a : BitVec 5) (i : BitVec 5) (k : BitVec 3) (t : BitVec 3) : Major.Statement (.vldx d a i k t) := fun _ =>
  (hi_append _ (0#5) 21 6).trans ((hi_append _ t 18 6).trans ((hi_append _ k 15 6).trans ((hi_append _ i 10 6).trans ((hi_append _ a 5 6).trans ((hi_append _ d 0 6).trans (lo_all _))))))
theorem Major.vstx (d : BitVec 5) (a : BitVec 5) (i : BitVec 5) (k : BitVec 3) (t : BitVec 3) : Major.Statement (.vstx d a i k t) := fun _ =>
  (hi_append _ (1#5) 21 6).trans ((hi_append _ t 18 6).trans ((hi_append _ k 15 6).trans ((hi_append _ i 10 6).trans ((hi_append _ a 5 6).trans ((hi_append _ d 0 6).trans (lo_all _))))))
theorem Major.vgl (d : BitVec 5) (a : BitVec 5) (i : BitVec 5) (k : BitVec 3) (t : BitVec 3) : Major.Statement (.vgl d a i k t) := fun _ =>
  (hi_append _ (2#5) 21 6).trans ((hi_append _ t 18 6).trans ((hi_append _ k 15 6).trans ((hi_append _ i 10 6).trans ((hi_append _ a 5 6).trans ((hi_append _ d 0 6).trans (lo_all _))))))
theorem Major.vsc (d : BitVec 5) (a : BitVec 5) (i : BitVec 5) (k : BitVec 3) (t : BitVec 3) : Major.Statement (.vsc d a i k t) := fun _ =>
  (hi_append _ (3#5) 21 6).trans ((hi_append _ t 18 6).trans ((hi_append _ k 15 6).trans ((hi_append _ i 10 6).trans ((hi_append _ a 5 6).trans ((hi_append _ d 0 6).trans (lo_all _))))))
theorem Major.vapnd (s : BitVec 5) (a : BitVec 5) (d : BitVec 5) (k : BitVec 3) (t : BitVec 3) : Major.Statement (.vapnd s a d k t) := fun _ =>
  (hi_append _ (0#5) 21 6).trans ((hi_append _ t 18 6).trans ((hi_append _ k 15 6).trans ((hi_append _ d 10 6).trans ((hi_append _ a 5 6).trans ((hi_append _ s 0 6).trans (lo_all _))))))
theorem Major.vldp (d : BitVec 5) (a : BitVec 5) (b : BitVec 5) (k : BitVec 3) (t : BitVec 3) : Major.Statement (.vldp d a b k t) := fun _ =>
  (hi_append _ (1#5) 21 6).trans ((hi_append _ t 18 6).trans ((hi_append _ k 15 6).trans ((hi_append _ b 10 6).trans ((hi_append _ a 5 6).trans ((hi_append _ d 0 6).trans (lo_all _))))))
theorem Major.vstp (d : BitVec 5) (a : BitVec 5) (b : BitVec 5) (k : BitVec 3) (t : BitVec 3) : Major.Statement (.vstp d a b k t) := fun _ =>
  (hi_append _ (2#5) 21 6).trans ((hi_append _ t 18 6).trans ((hi_append _ k 15 6).trans ((hi_append _ b 10 6).trans ((hi_append _ a 5 6).trans ((hi_append _ d 0 6).trans (lo_all _))))))
theorem Major.vldsp (d : BitVec 5) (a : BitVec 5) (k : BitVec 3) (t : BitVec 3) : Major.Statement (.vldsp d a k t) := fun _ =>
  (hi_append _ (3#5) 21 6).trans ((hi_append _ t 18 6).trans ((hi_append _ k 15 6).trans ((hi_append _ (0#5) 10 6).trans ((hi_append _ a 5 6).trans ((hi_append _ d 0 6).trans (lo_all _))))))
theorem Major.vstsp (d : BitVec 5) (a : BitVec 5) (k : BitVec 3) (t : BitVec 3) : Major.Statement (.vstsp d a k t) := fun _ =>
  (hi_append _ (4#5) 21 6).trans ((hi_append _ t 18 6).trans ((hi_append _ k 15 6).trans ((hi_append _ (0#5) 10 6).trans ((hi_append _ a 5 6).trans ((hi_append _ d 0 6).trans (lo_all _))))))
theorem Major.padd (d : BitVec 5) (a : BitVec 5) (b : BitVec 5) (w : BitVec 5) : Major.Statement (.padd d a b w) := fun _ =>
  (hi_append _ (0#6) 20 6).trans ((hi_append _ w 15 6).trans ((hi_append _ b 10 6).trans ((hi_append _ a 5 6).trans ((hi_append _ d 0 6).trans (lo_all _)))))
theorem Major.psub (d : BitVec 5) (a : BitVec 5) (b : BitVec 5) (w : BitVec 5) : Major.Statement (.psub d a b w) := fun _ =>
  (hi_append _ (1#6) 20 6).trans ((hi_append _ w 15 6).trans ((hi_append _ b 10 6).trans ((hi_append _ a 5 6).trans ((hi_append _ d 0 6).trans (lo_all _)))))
theorem Major.pmul (d : BitVec 5) (a : BitVec 5) (b : BitVec 5) (w : BitVec 5) : Major.Statement (.pmul d a b w) := fun _ =>
  (hi_append _ (2#6) 20 6).trans ((hi_append _ w 15 6).trans ((hi_append _ b 10 6).trans ((hi_append _ a 5 6).trans ((hi_append _ d 0 6).trans (lo_all _)))))
theorem Major.pcmp (d : BitVec 5) (a : BitVec 5) (b : BitVec 5) (w : BitVec 5) : Major.Statement (.pcmp d a b w) := fun _ =>
  (hi_append _ (3#6) 20 6).trans ((hi_append _ w 15 6).trans ((hi_append _ b 10 6).trans ((hi_append _ a 5 6).trans ((hi_append _ d 0 6).trans (lo_all _)))))
theorem Major.pand (d : BitVec 5) (a : BitVec 5) (b : BitVec 5) (w : BitVec 5) : Major.Statement (.pand d a b w) := fun _ =>
  (hi_append _ (4#6) 20 6).trans ((hi_append _ w 15 6).trans ((hi_append _ b 10 6).trans ((hi_append _ a 5 6).trans ((hi_append _ d 0 6).trans (lo_all _)))))
theorem Major.por (d : BitVec 5) (a : BitVec 5) (b : BitVec 5) (w : BitVec 5) : Major.Statement (.por d a b w) := fun _ =>
  (hi_append _ (5#6) 20 6).trans ((hi_append _ w 15 6).trans ((hi_append _ b 10 6).trans ((hi_append _ a 5 6).trans ((hi_append _ d 0 6).trans (lo_all _)))))
theorem Major.pxor (d : BitVec 5) (a : BitVec 5) (b : BitVec 5) (w : BitVec 5) : Major.Statement (.pxor d a b w) := fun _ =>
  (hi_append _ (6#6) 20 6).trans ((hi_append _ w 15 6).trans ((hi_append _ b 10 6).trans ((hi_append _ a 5 6).trans ((hi_append _ d 0 6).trans (lo_all _)))))
theorem Major.pnot (d : BitVec 5) (a : BitVec 5) (w : BitVec 5) : Major.Statement (.pnot d a w) := fun _ =>
  (hi_append _ (7#6) 20 6).trans ((hi_append _ w 15 6).trans ((hi_append _ (0#5) 10 6).trans ((hi_append _ a 5 6).trans ((hi_append _ d 0 6).trans (lo_all _)))))
theorem Major.psel (d : BitVec 5) (a : BitVec 5) (b : BitVec 5) (w : BitVec 5) : Major.Statement (.psel d a b w) := fun _ =>
  (hi_append _ (8#6) 20 6).trans ((hi_append _ w 15 6).trans ((hi_append _ b 10 6).trans ((hi_append _ a 5 6).trans ((hi_append _ d 0 6).trans (lo_all _)))))
theorem Major.pshl (d : BitVec 5) (a : BitVec 5) (b : BitVec 5) (w : BitVec 5) : Major.Statement (.pshl d a b w) := fun _ =>
  (hi_append _ (9#6) 20 6).trans ((hi_append _ w 15 6).trans ((hi_append _ b 10 6).trans ((hi_append _ a 5 6).trans ((hi_append _ d 0 6).trans (lo_all _)))))
theorem Major.pshr (d : BitVec 5) (a : BitVec 5) (b : BitVec 5) (w : BitVec 5) : Major.Statement (.pshr d a b w) := fun _ =>
  (hi_append _ (10#6) 20 6).trans ((hi_append _ w 15 6).trans ((hi_append _ b 10 6).trans ((hi_append _ a 5 6).trans ((hi_append _ d 0 6).trans (lo_all _)))))
theorem Major.pcopy (d : BitVec 5) (a : BitVec 5) (w : BitVec 5) : Major.Statement (.pcopy d a w) := fun _ =>
  (hi_append _ (11#6) 20 6).trans ((hi_append _ w 15 6).trans ((hi_append _ (0#5) 10 6).trans ((hi_append _ a 5 6).trans ((hi_append _ d 0 6).trans (lo_all _)))))
theorem Major.pfill (d : BitVec 5) (b : BitVec 5) (w : BitVec 5) : Major.Statement (.pfill d b w) := fun _ =>
  (hi_append _ (12#6) 20 6).trans ((hi_append _ w 15 6).trans ((hi_append _ b 10 6).trans ((hi_append _ (0#5) 5 6).trans ((hi_append _ d 0 6).trans (lo_all _)))))
theorem Major.plock (d : BitVec 5) : Major.Statement (.plock d) := fun _ =>
  (hi_append _ (0#21) 5 6).trans ((hi_append _ d 0 6).trans (lo_all _))
theorem Major.punlock (d : BitVec 5) : Major.Statement (.punlock d) := fun _ =>
  (hi_append _ (1#21) 5 6).trans ((hi_append _ d 0 6).trans (lo_all _))
theorem Major.pprog (d : BitVec 5) (a : BitVec 5) (n : BitVec 10) : Major.Statement (.pprog d a n) := fun _ =>
  (hi_append _ (2#6) 20 6).trans ((hi_append _ n 10 6).trans ((hi_append _ a 5 6).trans ((hi_append _ d 0 6).trans (lo_all _))))
theorem Major.rowcp (d : BitVec 5) (s : BitVec 5) : Major.Statement (.rowcp d s) := fun _ =>
  (hi_append _ (0#16) 10 6).trans ((hi_append _ s 5 6).trans ((hi_append _ d 0 6).trans (lo_all _)))
theorem Major.rowmaj (x : BitVec 5) (y : BitVec 5) (z : BitVec 5) : Major.Statement (.rowmaj x y z) := fun _ =>
  (hi_append _ (1#6) 20 6).trans ((hi_append _ z 15 6).trans ((hi_append _ y 10 6).trans ((hi_append _ x 5 6).trans ((hi_append _ (0#5) 0 6).trans (lo_all _)))))
theorem Major.rownot (d : BitVec 5) (s : BitVec 5) : Major.Statement (.rownot d s) := fun _ =>
  (hi_append _ (2#16) 10 6).trans ((hi_append _ s 5 6).trans ((hi_append _ d 0 6).trans (lo_all _)))
theorem Major.rowshl (d : BitVec 5) (s : BitVec 5) (c : BitVec 5) : Major.Statement (.rowshl d s c) := fun _ =>
  (hi_append _ (3#6) 20 6).trans ((hi_append _ c 15 6).trans ((hi_append _ (0#5) 10 6).trans ((hi_append _ s 5 6).trans ((hi_append _ d 0 6).trans (lo_all _)))))
theorem Major.rowshr (d : BitVec 5) (s : BitVec 5) (c : BitVec 5) : Major.Statement (.rowshr d s c) := fun _ =>
  (hi_append _ (4#6) 20 6).trans ((hi_append _ c 15 6).trans ((hi_append _ (0#5) 10 6).trans ((hi_append _ s 5 6).trans ((hi_append _ d 0 6).trans (lo_all _)))))
theorem Major.plant (a : BitVec 5) (b : BitVec 5) (n : BitVec 3) : Major.Statement (.plant a b n) := fun _ =>
  (hi_append _ (0#8) 18 6).trans ((hi_append _ n 15 6).trans ((hi_append _ b 10 6).trans ((hi_append _ a 5 6).trans ((hi_append _ (0#5) 0 6).trans (lo_all _)))))
theorem Major.plantChained (d : BitVec 3) (a : BitVec 5) (b : BitVec 5) (n : BitVec 3) (m : BitVec 2) : Major.Statement (.plantChained d a b n m) := fun _ =>
  (hi_append _ (0#5) 21 6).trans ((hi_append _ m 19 6).trans ((hi_append _ (1#1) 18 6).trans ((hi_append _ n 15 6).trans ((hi_append _ b 10 6).trans ((hi_append _ a 5 6).trans ((hi_append _ d 2 6).trans ((hi_append _ (0#2) 0 6).trans (lo_all _))))))))
theorem Major.fold (d : BitVec 3) (a : BitVec 5) (b : BitVec 5) (m : BitVec 2) : Major.Statement (.fold d a b m) := fun _ =>
  (hi_append _ (0#6) 20 6).trans ((hi_append _ m 18 6).trans ((hi_append _ (0#3) 15 6).trans ((hi_append _ b 10 6).trans ((hi_append _ a 5 6).trans ((hi_append _ d 2 6).trans ((hi_append _ (0#2) 0 6).trans (lo_all _)))))))
theorem Major.fread (d : BitVec 5) (a : BitVec 5) (b : BitVec 5) (y : BitVec 2) (s : BitVec 1) (n : BitVec 3) : Major.Statement (.fread d a b y s n) := fun _ =>
  (hi_append _ n 23 6).trans ((hi_append _ (0#2) 21 6).trans ((hi_append _ s 20 6).trans ((hi_append _ y 18 6).trans ((hi_append _ (1#3) 15 6).trans ((hi_append _ b 10 6).trans ((hi_append _ a 5 6).trans ((hi_append _ d 0 6).trans (lo_all _))))))))
theorem Major.fclr (d : BitVec 3) : Major.Statement (.fclr d) := fun _ =>
  (hi_append _ (512#21) 5 6).trans ((hi_append _ d 2 6).trans ((hi_append _ (0#2) 0 6).trans (lo_all _)))
theorem Major.bkadd (d : BitVec 5) (a : BitVec 5) (b : BitVec 5) (t : BitVec 3) (f : BitVec 1) : Major.Statement (.bkadd d a b t f) := fun _ =>
  (hi_append _ (0#4) 22 6).trans ((hi_append _ f 21 6).trans ((hi_append _ t 18 6).trans ((hi_append _ (0#3) 15 6).trans ((hi_append _ b 10 6).trans ((hi_append _ a 5 6).trans ((hi_append _ d 0 6).trans (lo_all _)))))))
theorem Major.bkred (d : BitVec 5) (a : BitVec 5) (b : BitVec 5) (t : BitVec 3) (f : BitVec 1) : Major.Statement (.bkred d a b t f) := fun _ =>
  (hi_append _ (0#4) 22 6).trans ((hi_append _ f 21 6).trans ((hi_append _ t 18 6).trans ((hi_append _ (1#3) 15 6).trans ((hi_append _ b 10 6).trans ((hi_append _ a 5 6).trans ((hi_append _ d 0 6).trans (lo_all _)))))))
theorem Major.bkcx (d : BitVec 5) (a : BitVec 5) (b : BitVec 5) (t : BitVec 3) (f : BitVec 1) : Major.Statement (.bkcx d a b t f) := fun _ =>
  (hi_append _ (0#4) 22 6).trans ((hi_append _ f 21 6).trans ((hi_append _ t 18 6).trans ((hi_append _ (2#3) 15 6).trans ((hi_append _ b 10 6).trans ((hi_append _ a 5 6).trans ((hi_append _ d 0 6).trans (lo_all _)))))))
theorem Major.bksax (d : BitVec 5) (a : BitVec 5) (b : BitVec 5) (t : BitVec 3) : Major.Statement (.bksax d a b t) := fun _ =>
  (hi_append _ (16#5) 21 6).trans ((hi_append _ t 18 6).trans ((hi_append _ (3#3) 15 6).trans ((hi_append _ b 10 6).trans ((hi_append _ a 5 6).trans ((hi_append _ d 0 6).trans (lo_all _))))))
theorem Major.lfork (d : BitVec 5) : Major.Statement (.lfork d) := fun _ =>
  (hi_append _ (0#21) 5 6).trans ((hi_append _ d 0 6).trans (lo_all _))
theorem Major.ljoin (a : BitVec 5) : Major.Statement (.ljoin a) := fun _ =>
  (hi_append _ (1#16) 10 6).trans ((hi_append _ a 5 6).trans ((hi_append _ (0#5) 0 6).trans (lo_all _)))
theorem Major.vissue (a : BitVec 5) (k : BitVec 3) : Major.Statement (.vissue a k) := fun _ =>
  (hi_append _ (2#8) 18 6).trans ((hi_append _ k 15 6).trans ((hi_append _ (0#5) 10 6).trans ((hi_append _ a 5 6).trans ((hi_append _ (0#5) 0 6).trans (lo_all _)))))
theorem Major.cspawn (a : BitVec 5) : Major.Statement (.cspawn a) := fun _ =>
  (hi_append _ (3#16) 10 6).trans ((hi_append _ a 5 6).trans ((hi_append _ (0#5) 0 6).trans (lo_all _)))
theorem Major.cjoin (a : BitVec 5) : Major.Statement (.cjoin a) := fun _ =>
  (hi_append _ (4#16) 10 6).trans ((hi_append _ a 5 6).trans ((hi_append _ (0#5) 0 6).trans (lo_all _)))
theorem Major.barArrive (g : BitVec 16) : Major.Statement (.barArrive g) := fun _ =>
  (hi_append _ g 10 6).trans ((hi_append _ (0#10) 0 6).trans (lo_all _))
theorem Major.barWait (g : BitVec 16) : Major.Statement (.barWait g) := fun _ =>
  (hi_append _ g 10 6).trans ((hi_append _ (1#10) 0 6).trans (lo_all _))
theorem Major.barSet (a : BitVec 5) (g : BitVec 16) : Major.Statement (.barSet a g) := fun _ =>
  (hi_append _ g 10 6).trans ((hi_append _ (2#5) 5 6).trans ((hi_append _ a 0 6).trans (lo_all _)))
theorem Major.aqPut (d : BitVec 5) (a : BitVec 5) (b : BitVec 5) : Major.Statement (.aqPut d a b) := fun _ =>
  (hi_append _ (0#11) 15 6).trans ((hi_append _ b 10 6).trans ((hi_append _ a 5 6).trans ((hi_append _ d 0 6).trans (lo_all _))))
theorem Major.aqGet (d : BitVec 5) (a : BitVec 5) (b : BitVec 5) : Major.Statement (.aqGet d a b) := fun _ =>
  (hi_append _ (256#11) 15 6).trans ((hi_append _ b 10 6).trans ((hi_append _ a 5 6).trans ((hi_append _ d 0 6).trans (lo_all _))))
theorem Major.aqSig (a : BitVec 5) (b : BitVec 5) : Major.Statement (.aqSig a b) := fun _ =>
  (hi_append _ (512#11) 15 6).trans ((hi_append _ b 10 6).trans ((hi_append _ a 5 6).trans ((hi_append _ (0#5) 0 6).trans (lo_all _))))
theorem Major.aqColl (a : BitVec 5) (b : BitVec 5) : Major.Statement (.aqColl a b) := fun _ =>
  (hi_append _ (768#11) 15 6).trans ((hi_append _ b 10 6).trans ((hi_append _ a 5 6).trans ((hi_append _ (0#5) 0 6).trans (lo_all _))))
theorem Major.aqLease (d : BitVec 5) (a : BitVec 5) (b : BitVec 5) : Major.Statement (.aqLease d a b) := fun _ =>
  (hi_append _ (1024#11) 15 6).trans ((hi_append _ b 10 6).trans ((hi_append _ a 5 6).trans ((hi_append _ d 0 6).trans (lo_all _))))
theorem Major.halt : Major.Statement (.halt) := fun _ =>
  (hi_append _ (262144#26) 0 6).trans (lo_all _)
theorem Major.tret : Major.Statement (.tret) := fun _ =>
  (hi_append _ (1#26) 0 6).trans (lo_all _)
theorem Major.fenceSv : Major.Statement (.fenceSv) := fun _ =>
  (hi_append _ (16#26) 0 6).trans (lo_all _)
theorem Major.fenceVs : Major.Statement (.fenceVs) := fun _ =>
  (hi_append _ (17#26) 0 6).trans (lo_all _)
theorem Major.fenceVv : Major.Statement (.fenceVv) := fun _ =>
  (hi_append _ (18#26) 0 6).trans (lo_all _)
theorem Major.fenceSys : Major.Statement (.fenceSys) := fun _ =>
  (hi_append _ (19#26) 0 6).trans (lo_all _)
theorem Major.drainPln : Major.Statement (.drainPln) := fun _ =>
  (hi_append _ (32#26) 0 6).trans (lo_all _)
theorem Major.drainSpm : Major.Statement (.drainSpm) := fun _ =>
  (hi_append _ (33#26) 0 6).trans (lo_all _)
theorem Major.drainFold : Major.Statement (.drainFold) := fun _ =>
  (hi_append _ (34#26) 0 6).trans (lo_all _)
theorem Major.drainBk : Major.Statement (.drainBk) := fun _ =>
  (hi_append _ (35#26) 0 6).trans (lo_all _)
theorem Major.drainAq : Major.Statement (.drainAq) := fun _ =>
  (hi_append _ (36#26) 0 6).trans (lo_all _)
theorem Major.idle : Major.Statement (.idle) := fun _ =>
  (hi_append _ (48#26) 0 6).trans (lo_all _)
theorem Major.cend : Major.Statement (.cend) := fun _ =>
  (hi_append _ (5#26) 0 6).trans (lo_all _)
theorem Major.deviceReset : Major.Statement (.deviceReset) := fun h => absurd h Bool.false_ne_true
theorem Major.resetReleased : Major.Statement (.resetReleased) := fun h => absurd h Bool.false_ne_true
theorem Major.verify : Major.Statement (.verify) := fun h => absurd h Bool.false_ne_true
theorem Major.init : Major.Statement (.init) := fun h => absurd h Bool.false_ne_true
theorem Major.bootcmd : Major.Statement (.bootcmd) := fun h => absurd h Bool.false_ne_true
theorem Major.attestationQuote : Major.Statement (.attestationQuote) := fun h => absurd h Bool.false_ne_true
theorem Major.certificatePieceFirst : Major.Statement (.certificatePieceFirst) := fun h => absurd h Bool.false_ne_true
theorem Major.certificatePieceNext : Major.Statement (.certificatePieceNext) := fun h => absurd h Bool.false_ne_true
theorem Major.attestationCommandDone : Major.Statement (.attestationCommandDone) := fun h => absurd h Bool.false_ne_true
theorem Major.linkTraining : Major.Statement (.linkTraining) := fun h => absurd h Bool.false_ne_true
theorem Major.portLinkDown : Major.Statement (.portLinkDown) := fun h => absurd h Bool.false_ne_true
theorem Major.renewal : Major.Statement (.renewal) := fun h => absurd h Bool.false_ne_true
theorem Major.claim : Major.Statement (.claim) := fun h => absurd h Bool.false_ne_true
theorem Major.release : Major.Statement (.release) := fun h => absurd h Bool.false_ne_true
theorem Major.leaseLapse : Major.Statement (.leaseLapse) := fun h => absurd h Bool.false_ne_true
theorem Major.doorbell : Major.Statement (.doorbell) := fun h => absurd h Bool.false_ne_true
theorem Major.queueEnable : Major.Statement (.queueEnable) := fun h => absurd h Bool.false_ne_true
theorem Major.queueDisable : Major.Statement (.queueDisable) := fun h => absurd h Bool.false_ne_true
theorem Major.queueReset : Major.Statement (.queueReset) := fun h => absurd h Bool.false_ne_true
theorem Major.registerWrite : Major.Statement (.registerWrite) := fun h => absurd h Bool.false_ne_true
theorem Major.launchRecordHead : Major.Statement (.launchRecordHead) := fun h => absurd h Bool.false_ne_true
theorem Major.signalReread : Major.Statement (.signalReread) := fun h => absurd h Bool.false_ne_true
theorem Major.signalPoll : Major.Statement (.signalPoll) := fun h => absurd h Bool.false_ne_true
theorem Major.admission : Major.Statement (.admission) := fun h => absurd h Bool.false_ne_true
theorem Major.copyDescriptorComplete : Major.Statement (.copyDescriptorComplete) := fun h => absurd h Bool.false_ne_true
theorem Major.continuationPop : Major.Statement (.continuationPop) := fun h => absurd h Bool.false_ne_true
theorem Major.awaitedCondition : Major.Statement (.awaitedCondition) := fun h => absurd h Bool.false_ne_true
theorem Major.strandEnd : Major.Statement (.strandEnd) := fun h => absurd h Bool.false_ne_true
theorem Major.launchRetirement : Major.Statement (.launchRetirement) := fun h => absurd h Bool.false_ne_true
theorem Major.completionRecord : Major.Statement (.completionRecord) := fun h => absurd h Bool.false_ne_true
theorem Major.weirClk : Major.Statement (.weirClk) := fun h => absurd h Bool.false_ne_true
theorem Major.pulseFrame : Major.Statement (.pulseFrame) := fun h => absurd h Bool.false_ne_true
theorem Major.preemptionRequest : Major.Statement (.preemptionRequest) := fun h => absurd h Bool.false_ne_true
theorem Major.preemption : Major.Statement (.preemption) := fun h => absurd h Bool.false_ne_true
theorem Major.looplateCount : Major.Statement (.looplateCount) := fun h => absurd h Bool.false_ne_true
theorem Major.vectorFaultDump : Major.Statement (.vectorFaultDump) := fun h => absurd h Bool.false_ne_true
theorem Major.ctxtabWrite : Major.Statement (.ctxtabWrite) := fun h => absurd h Bool.false_ne_true
theorem Major.ctxidWrite : Major.Statement (.ctxidWrite) := fun h => absurd h Bool.false_ne_true
theorem Major.fctlWrite : Major.Statement (.fctlWrite) := fun h => absurd h Bool.false_ne_true
theorem Major.hdmtWrite : Major.Statement (.hdmtWrite) := fun h => absurd h Bool.false_ne_true
theorem Major.arfWrite : Major.Statement (.arfWrite) := fun h => absurd h Bool.false_ne_true
theorem Major.castpoolWrite : Major.Statement (.castpoolWrite) := fun h => absurd h Bool.false_ne_true
theorem Major.migrationCopy : Major.Statement (.migrationCopy) := fun h => absurd h Bool.false_ne_true
theorem Major.migrationIdle : Major.Statement (.migrationIdle) := fun h => absurd h Bool.false_ne_true
theorem Major.migrationLineCopy : Major.Statement (.migrationLineCopy) := fun h => absurd h Bool.false_ne_true
theorem Major.pageWalk : Major.Statement (.pageWalk) := fun h => absurd h Bool.false_ne_true
theorem Major.atsTranslationCompletion : Major.Statement (.atsTranslationCompletion) := fun h => absurd h Bool.false_ne_true
theorem Major.pageRequestGroupResponse : Major.Statement (.pageRequestGroupResponse) := fun h => absurd h Bool.false_ne_true
theorem Major.atsInvalidationRequest : Major.Statement (.atsInvalidationRequest) := fun h => absurd h Bool.false_ne_true
theorem Major.invalidationCompletion : Major.Statement (.invalidationCompletion) := fun h => absurd h Bool.false_ne_true
theorem Major.hostSnoop : Major.Statement (.hostSnoop) := fun h => absurd h Bool.false_ne_true
theorem Major.hdmAccess : Major.Statement (.hdmAccess) := fun h => absurd h Bool.false_ne_true
theorem Major.bankSlot : Major.Statement (.bankSlot) := fun h => absurd h Bool.false_ne_true
theorem Major.refreshDeadline : Major.Statement (.refreshDeadline) := fun h => absurd h Bool.false_ne_true
theorem Major.scratchpadRefresh : Major.Statement (.scratchpadRefresh) := fun h => absurd h Bool.false_ne_true
theorem Major.thermalSample : Major.Statement (.thermalSample) := fun h => absurd h Bool.false_ne_true
theorem Major.lockGrant : Major.Statement (.lockGrant) := fun h => absurd h Bool.false_ne_true
theorem Major.lockRelease : Major.Statement (.lockRelease) := fun h => absurd h Bool.false_ne_true
theorem Major.planeInstructionComplete : Major.Statement (.planeInstructionComplete) := fun h => absurd h Bool.false_ne_true
theorem Major.plantLatchLoadComplete : Major.Statement (.plantLatchLoadComplete) := fun h => absurd h Bool.false_ne_true
theorem Major.foldComplete : Major.Statement (.foldComplete) := fun h => absurd h Bool.false_ne_true
theorem Major.bankOperationComplete : Major.Statement (.bankOperationComplete) := fun h => absurd h Bool.false_ne_true
theorem Major.operationCompletion : Major.Statement (.operationCompletion) := fun h => absurd h Bool.false_ne_true
theorem Major.aqueductMessage : Major.Statement (.aqueductMessage) := fun h => absurd h Bool.false_ne_true
theorem Major.transferFailure : Major.Statement (.transferFailure) := fun h => absurd h Bool.false_ne_true
theorem Major.peerLeaseExpiry : Major.Statement (.peerLeaseExpiry) := fun h => absurd h Bool.false_ne_true
theorem Major.castFetch : Major.Statement (.castFetch) := fun h => absurd h Bool.false_ne_true
theorem Major.collectiveStepTimeout : Major.Statement (.collectiveStepTimeout) := fun h => absurd h Bool.false_ne_true
theorem Major.timeSyncExchange : Major.Statement (.timeSyncExchange) := fun h => absurd h Bool.false_ne_true
theorem Major.syncLoss : Major.Statement (.syncLoss) := fun h => absurd h Bool.false_ne_true
theorem Major.suspendArm : Major.Statement (.suspendArm) := fun h => absurd h Bool.false_ne_true
theorem Major.resumeArm : Major.Statement (.resumeArm) := fun h => absurd h Bool.false_ne_true
theorem Major.suspendCancel : Major.Statement (.suspendCancel) := fun h => absurd h Bool.false_ne_true
theorem Major.stopping : Major.Statement (.stopping) := fun h => absurd h Bool.false_ne_true
theorem Major.suspendAbandoned : Major.Statement (.suspendAbandoned) := fun h => absurd h Bool.false_ne_true
theorem Major.saving : Major.Statement (.saving) := fun h => absurd h Bool.false_ne_true
theorem Major.restoring : Major.Statement (.restoring) := fun h => absurd h Bool.false_ne_true
theorem Major.currentHold : Major.Statement (.currentHold) := fun h => absurd h Bool.false_ne_true
theorem Major.capHold : Major.Statement (.capHold) := fun h => absurd h Bool.false_ne_true
theorem Major.energyApportion : Major.Statement (.energyApportion) := fun h => absurd h Bool.false_ne_true
theorem Major.monitorUpdate : Major.Statement (.monitorUpdate) := fun h => absurd h Bool.false_ne_true
theorem Major.illegalInstruction : Major.Statement (.illegalInstruction) := fun h => absurd h Bool.false_ne_true
theorem Major.codeEndFault : Major.Statement (.codeEndFault) := fun h => absurd h Bool.false_ne_true
theorem Major.cacheEviction : Major.Statement (.cacheEviction) := fun h => absurd h Bool.false_ne_true
theorem Major.logicalLeaseExpiry : Major.Statement (.logicalLeaseExpiry) := fun h => absurd h Bool.false_ne_true

end Sys2Proof.Laws
end

