-- ==== Sys2Proof/Tests/Slice0.lean ====
section
/-! SUPPORT. Tests: words of the spec's encodings and what they decode to, ill-formed instructions, small steps with
results worked out by hand from the rules, and for every statement a state and operands that meet its hypotheses. -/
namespace Sys2Proof.Tests
open Sys2Proof Sys2Proof.Machine Sys2Proof.Claims

set_option Elab.async false

/-! ### Small states -/

/-- A privileged strand of eight lane groups, in the boot context. -/
def u0 : Strand := { pc := 0x1000, word := 7, cur := true, bind := { codeBase := 0x1000, codeSize := 0x1000 } }

/-- The machine after reset with one strand, in slot 0. -/
def one (t : Strand) : State := { State.reset with strands := [(0, t)] }

/-- The same with bytes in memory from an address on, lowest first. -/
def withBytes (s : State) (a : Nat) (l : List Nat) : State :=
  { s with mem := l.zipIdx.filterMap fun e => if e.1 = 0 then none else some (a + e.2, BitVec.ofNat 8 e.1) }

/-- The one strand with registers. -/
def regs (l : List (Nat × Word)) : Strand := { u0 with g := l }

theorem migOf_nil (s : State) (h : s.basins = []) (x : Nat) : s.migOf x = [] := by
  unfold State.migOf; rw [h]; rfl

theorem inPool_nil (s : State) (h : s.basins = []) (x : Nat) : s.inPool x = false := by
  unfold State.inPool State.basin; rw [h]; rfl

/-- A result that goes on with a value and a state. -/
def okIs {α : Type} [DecidableEq α] (x : Res α) (a : α) (s : State) : Bool :=
  match x with
  | .ok b t => decide (b = a ∧ t = s)
  | _ => false

theorem of_okIs {α : Type} [DecidableEq α] {x : Res α} {a : α} {s : State} (h : okIs x a s = true) : x = .ok a s := by
  unfold okIs at h
  split at h
  · obtain ⟨rfl, rfl⟩ := of_decide_eq_true h; rfl
  · exact absurd h Bool.false_ne_true

theorem reaches {s : State} {va : Word} {k : Access} {p : Place} (h : okIs (s.translate va k) p s = true)
    (hv : va.toNat < 2 ^ 48) : Reaches s va k p := ⟨of_okIs h, hv⟩

theorem plainAt (s : State) (pa : Nat) (hb : s.basins = []) (hd : isDevMem pa = true) (he : s.errs = [])
    (hg : s.granted = []) (hc : s.copies = []) : PlainAt s pa := by
  exact ⟨hd, inPool_nil s hb pa, migOf_nil s hb pa, by simp [he], by simp [State.leased, State.leaseRuns, hg], by simp [hc]⟩

/-! ### Witnesses: scalar instructions -/

/-- RoundingIsCorrect: every mode, every format, a significand above zero. -/
theorem witness_RoundingIsCorrect : (∀ mode ∈ List.range 5, mode ≤ 4) ∧ 0 < 1 := by decide

/-- FloatSpecialOperands: a significand above zero. -/
theorem witness_FloatSpecialOperands : 0 < 1 := by decide

/-- FloatArithmeticIsExact: 1, its negative, 0 and 2: sums, products, quotients and roots that are zero and that are not. -/
theorem witness_FloatArithmeticIsExact :
    let r (x : FVal) : ℝ := ratOf x
    let one := FVal.fin false 1 0
    let neg := FVal.fin true 1 0
    let nil := FVal.fin true 0 5
    let two := FVal.fin false 1 1
    r one + r one ≠ 0 ∧ r one + r neg = 0 ∧ r one - r neg ≠ 0 ∧ r one - r one = 0 ∧ r one * r two ≠ 0 ∧ r nil * r one = 0 ∧
      r two ≠ 0 ∧ r nil = 0 ∧ 0 < r two ∧ r one * r one + r two ≠ 0 ∧ r one * r neg + r one = 0 := by
  norm_num [ratOf]

/-- ScalarFloatCompare: two numbers, a number and a NaN in either place, two NaNs. -/
theorem witness_ScalarFloatCompare :
    let nan (s : State) (r : BitVec 5) : Bool := ((FFmt.ofCode 2).read (s.getG r).toNat).isNan
    let a := one (regs [(1, 0x3F800000), (2, 0x40000000)])
    let b := one (regs [(1, 0x7FC00000), (2, 0x7F800001)])
    nan a 1 = false ∧ nan a 2 = false ∧ nan b 1 = true ∧ nan b 2 = true ∧
      nan (one (regs [(1, 0x7FC00000)])) 1 = true ∧ nan (one (regs [(1, 0x7FC00000)])) 2 = false := by decide +kernel

/-- ScalarFloatConvert: the three shapes of a conversion, and a NaN, an infinity and a number as its source. -/
theorem witness_ScalarFloatConvert :
    (8 : BitVec 4).getLsbD 3 = true ∧ (0 : BitVec 4).getLsbD 3 = false ∧ (FFmt.ofCode 2).read 0x7F800000 = .inf false ∧
      (FFmt.ofCode 2).read 0x7FC00000 = .nan false ∧ (FFmt.ofCode 2).read 0x3F800000 = .fin false (2 ^ 23) (-23) := by
  decide +kernel

/-- LoopSetPushesOrOverflows: a count of zero; five entries; six entries. -/
theorem witness_LoopSetPushesOrOverflows :
    let e : LoopEntry := ⟨0, 4, 1, 0⟩
    (one u0).getG 1 = 0 ∧ (one (regs [(1, 1)])).getG 1 ≠ 0 ∧
      (one { regs [(1, 1)] with loops := List.replicate 5 e }).self.loops.length < 6 ∧
      (one { regs [(1, 1)] with loops := List.replicate 6 e }).self.loops.length = 6 := by decide +kernel

/-- LoopBreakPopsOrFaults: no break, a break of an empty stack, a break of an entry. -/
theorem witness_LoopBreakPopsOrFaults :
    ¬ (one u0).getG 1 ≠ 0 ∧ (one (regs [(1, 1)])).getG 1 ≠ 0 ∧ (one (regs [(1, 1)])).self.loops = [] ∧
      (one { u0 with loops := [⟨0, 4, 1, 0⟩] }).self.loops = ⟨0, 4, 1, 0⟩ :: [] ∧ (one u0).getG 1 = 0 := by decide +kernel

/-- LoopRunsItsCount: the least and the greatest count. -/
theorem witness_LoopRunsItsCount : 0 < 1 ∧ 0 < 2 ^ 64 - 1 ∧ 2 ^ 64 - 1 < 2 ^ 64 ∧ (4 : Word) ≠ 8 ∧ 0 + 1 < 2 := by decide

/-- A `vadd` behind the instruction at 0x1000, and a count. -/
def frameState (c : Word) : State :=
  { one (regs [(1, c)]) with mem := [(0x1004, 0x40), (0x1005, 0x3E), (0x1006, 0x05), (0x1007, 0x88)] }

theorem wordAt_frame : wordAt (frameState 0) 0x1004 = 0x88053E40 := by decide +kernel

theorem inCode_frame (c : Word) : (frameState c).inCode 0x1004 = true := by
  show (frameState 0).inCode 0x1004 = true; decide +kernel
theorem inBoot_frame (c : Word) : (frameState c).inBoot (frameState c).self.ctxid = true := rfl
theorem plainAt_frame (c : Word) : PlainAt (frameState c) 0x1004 := plainAt _ _ rfl (by decide +kernel) rfl rfl rfl
theorem fetches_frame (c : Word) : Fetches (frameState c) 0x1004 0x88053E40 :=
  ⟨inBoot_frame c, inCode_frame c, plainAt_frame c, by decide +kernel, wordAt_frame⟩

/-- RframeCapturesItsWords: one word, behind the instruction; any count, so 0, 1, 65,535 and 65,536. -/
theorem witness_RframeCapturesItsWords (c : Word) :
    (∀ k, (h : k < [(0x88053E40 : BitVec 32)].length) →
      Fetches (frameState c) ((frameState c).self.pc + 4 + BitVec.ofNat 64 (4 * k)) [(0x88053E40 : BitVec 32)][k] ∧
        capturable [(0x88053E40 : BitVec 32)][k] = true) ∧
      (frameState c).self.pc = 0x1000 ∧ (frameState c).self.loops = [] ∧ (frameState c).self.resume = none ∧
      (frameState c).getG 1 = c := by
  refine ⟨fun k h => ?_, rfl, rfl, rfl, rfl⟩
  obtain rfl : k = 0 := by simpa using h
  exact ⟨fetches_frame c, by show capturable 0x88053E40 = true; decide +kernel⟩

/-- Trap statements: outside a handler, in both modes, with a place in the weir's queue and a line served for it, and with
none. -/
theorem witness_Traps :
    (one u0).self.exl = false ∧ (one { u0 with cur := false }).self.exl = false ∧ (one u0).self.cur = true ∧
      (∀ e ∈ ((one u0).core 0).queue, e.slot ≠ 0) ∧ (one u0).peer = [] := by decide +kernel

/-- A strand in a handler with a child, which has a child; a strand of no kin; a launch that has not faulted. -/
def doubled : State :=
  { one { u0 with exl := true, children := [⟨1, 0, 8⟩] } with
    strands := [(0, { u0 with exl := true, children := [⟨1, 0, 8⟩] }), (1, { u0 with children := [⟨2, 0, 8⟩], parent := some 0 }),
                (2, { u0 with parent := some 1 }), (3, { u0 with st := .wait .event })]
    annex := { launches := [{ id := 0, queue := 0, recno := 0, ctx := 0, bind := {}, phase := .running, live := 1 }] } }

/-- The same with a condition ring of eight entries. -/
def ringed : State := { doubled with basins := [(0, { crLog2n := 3, crBase := 0x10000 })] }

/-- DoubleTrapEndsTheStrand: the children at both depths, a strand of no kin, a launch; a ring with room and no ring; a dump area
that cannot be written, in and out of a handler. -/
theorem witness_DoubleTrap :
    doubled.self.exl = true ∧ doubled.cur < 1536 ∧ doubled.granted = [] ∧ doubled.myBasin = 0 ∧
      1 ∈ generation doubled 0 ∧ 2 ∈ generation doubled 1 ∧ (∀ i ∈ List.range 8, 3 ∉ generation doubled i) ∧
      (doubled.annex.launches.map (·.status)) = [1] ∧ (doubled.basin 0).crLog2n = 0 ∧
      (let b := ringed.basin ringed.myBasin
       b.crLog2n = 3 ∧ rangeIn 0 (b.crBase.toNat * 4096) (64 * 8) = true ∧ (b.crTail - b.crHead).toNat ≠ 8) ∧
      (one u0).self.exl = false ∧
      (let s := { one u0 with cores := [(0, { xframe := [(0, 1)] })] }; s.self.areaOk (s.xframeOf s.cur) = false) := by
  decide +kernel

theorem witness_DoubleTrapMigrations : (∀ x, doubled.migOf x = []) ∧ ∀ x, ringed.migOf x = [] := ⟨migOf_nil _ rfl, fun _ => rfl⟩

/-- DoubleTrapEndsTheStrand, the end: a dump that ends badly in its turn; a child of a parent that goes on, of one that ends too;
a record with no counter, and one whose counter's address is not aligned. -/
theorem witness_DoubleTrapEnds :
    let d : Strand := { u0 with st := .dumping, exl := true }
    let x : Strand := { u0 with st := .ended, doubled := some 0x20 }
    let kin (p : Strand) : State := { one p with strands := [(0, p), (1, { x with parent := some 0 })], inp := { unit := 1 } }
    (one d).strand 0 = some d ∧ (one d).inp.unit = 0 ∧ Lit (one d) 0 ∧ (one d).ops = [] ∧
      (∃ c ∈ ({ u0 with children := [⟨1, 0, 8⟩] } : Strand).children, c.slot = (kin u0).inp.unit) ∧
      (kin x).strand 0 = some x ∧ (one x).self.parent = none ∧ x.join = 0 ∧
      (match State.joinCounter (one { x with join := 4 }) 4 with | .trap c _ _ => decide (c = causeAccess) | _ => false) = true := by
  unfold Lit; decide +kernel

/-- PrivilegedInstructionsTrapInUserMode: user mode, and a privileged register. -/
theorem witness_PrivilegedInstructions :
    (one { u0 with cur := false }).self.cur = false ∧ sysPrivileged 0xC0 = true := by decide +kernel

/-- IdleWaitsForItsEvents: no event, an event, and a request told to a strand that waits. -/
theorem witness_Idle :
    (one u0).self.idleDone = false ∧ (one { u0 with idleDone := true }).self.idleDone = true ∧
      ({ u0 with st := .wait .event } : Strand).preq = none := by decide +kernel

/-- SrdReadsTheRegisterMaps: no float and no fold command outstanding; boundary indices. -/
theorem witness_Srd : (one u0).busyIn 0 [5] = false ∧ (one u0).busyIn 0 [6] = false ∧ (one u0).cur < 1536 ∧ 5 < 6 ∧ 23 < 24 ∧
    63 < 64 := by decide +kernel

/-- SwrThenSrdOfSharedRegisters: every masked register is one; the mode. -/
theorem witness_Swr : writeMask 0x18 = some 0x000FFFFFFFFFF000 ∧ writeMask 0xDA = some 0x000FFFFFFFE00001 ∧
    (one u0).self.cur = true := by decide +kernel

/-- A region of one 2 MiB plane page. -/
def desc0 : Desc := ⟨0x10000, 0x200000, 1, 0, 1, false, false, 8, 4, 16, 0, 0, 0, [2, 3]⟩

/-- The one strand with an engine command outstanding. -/
def busy (w : Work) : State := { one u0 with ops := [{ id := 1, slot := 0, tag := 0, work := w, groups := [] }], nextId := 2 }

/-- DrainsWaitForTheirEngine: nothing outstanding, and for each engine a command. -/
theorem witness_Drains :
    (∀ k ∈ ([0, 1, 2, 3, 4, 5, 6] : List Nat), ¬ ∃ o ∈ (one u0).ops, o.slot = (one u0).cur ∧ ∃ x ∈ o.work.kinds, x ∈ [k]) ∧
      ∀ p ∈ ([(0, .pcal desc0), (1, .plant desc0 0 1 true false 0 0), (2, .fold desc0 0 0 0 0 [] 1), (3, .bank .add 2 false [] [] 0),
          (4, .sig 0 0 0 false), (5, .bank .add 0 true [] [] 0), (6, .fold desc0 0 0 0 0 [] 1)] : List (Nat × Work)),
        Outstanding (busy p.2) [p.1] := by
  unfold Outstanding; decide +kernel

/-- WaitcComparesTheFourCounts: a count at its field, a field of 15, and a count above its field. -/
theorem witness_Waitc :
    let holds (t : Strand) (l c k m : BitVec 4) : Prop := (t.cntL ≤ l.toNat ∨ l = 15) ∧ (t.cntS ≤ c.toNat ∨ c = 15) ∧
      (t.cntC ≤ k.toNat ∨ k = 15) ∧ (t.cntT ≤ m.toNat ∨ m = 15)
    holds { u0 with cntL := 3, cntT := 99 } 3 0 0 15 ∧ ¬ holds { u0 with cntL := 3 } 2 0 0 0 := by decide +kernel

/-! ### Witnesses: scalar memory, vitrine pages, caches -/

/-- A strand outside the boot context whose core's TLBs, the scalar one and the eight slices, map an ordinary page, two plane
pages, a vitrine page, a page of peer 3 and a vitrine page of it, each at the address of its frame. -/
def mapped (t : Strand) : State :=
  { one t with
    ctxtabWritten := true
    tlb := (List.range 9).flatMap fun u =>
      [⟨u, 0, false, 0x10000, 4096, 0x1003F, 0, none⟩, ⟨u, 0, false, 0x200000, 2097152, 0x20023F, 0, none⟩,
       ⟨u, 0, false, 0x400000, 2097152, 0x40023F, 0, none⟩, ⟨u, 0, false, 0x20000, 65536, 0x2053F, 0, none⟩,
       ⟨u, 0, false, 0x30000, 65536, 0x0030000000030B3F, 0, none⟩,
       ⟨u, 0, false, 0x60000, 65536, 0x0030000000060BBF, 5, none⟩] }

/-- The same with a host page, while the lease of port 0 is live and its link is up. -/
def hosted (t : Strand) : State :=
  { mapped t with
    tlb := (List.range 9).map fun u => ⟨u, 0, false, 0x50000, 4096, 0x5083F, 0, some 7⟩
    ats := (List.range 9).map fun u => ⟨u, 0, 7, 0, 0x50000, 4096, 0x50000, true, true⟩
    annex := { active := 1, expiry := 9, linkUp := [0] } }

/-- The same with a state, an accession pointer and a generation of the vitrine page. -/
def vitrine (t : Strand) (st : BitVec 2) (ptr : Nat) (gen : BitVec 16) : State := { mapped t with frames := [(2, ⟨st, ptr, gen⟩)] }

/-- The kinds of access of the scalar loads and stores. -/
def scalarAccesses : List Access := [.read, .write, .link false, .link true]

/-- ScalarLoadsReadMemory, ScalarStoresWriteMemory, LoadLinkedStoreConditional: the first and the last dword of a page in
the boot context, and a dword of a mapped page. -/
theorem witness_ScalarAccesses (k : Access) (hk : k ∈ scalarAccesses) :
    Reaches (one (regs [(1, 0x2000)])) 0x2000 k (.dev 0x2000) ∧ Reaches (one (regs [(1, 0x2000)])) 0x2FF8 k (.dev 0x2FF8) ∧
      Reaches (mapped u0) 0x10FF8 k (.dev 0x10FF8) := by
  simp only [scalarAccesses, List.mem_cons, List.not_mem_nil, or_false] at hk
  rcases hk with rfl | rfl | rfl | rfl <;>
    exact ⟨⟨rfl, by decide +kernel⟩, ⟨rfl, by decide +kernel⟩, ⟨rfl, by decide +kernel⟩⟩

theorem roomAt (s : State) (h1 : s.cache = []) (h2 : s.copies = []) (h3 : s.peer = []) : CachesHaveRoom s := by
  intro u b
  simp only [State.residents, h1, h2, h3, List.filter_nil, List.map_nil, List.append_nil, List.length_nil, unitLines]
  split <;> omega

theorem witness_ScalarLoadsReadMemory (k : Access) (hk : k ∈ scalarAccesses) :
    let s := one (regs [(1, 0x2000)])
    s.cur < 1536 ∧ address s 1 0xFF8 = 0x1FF8 ∧ address s 1 0x7F8 = 0x27F8 ∧ address s 1 0 = 0x2000 ∧
      Reaches s 0x2000 k (.dev 0x2000) ∧ PlainAt s 0x2000 ∧ s.self.resumed = false ∧ CachesHaveRoom s ∧
      0x2000 % 4096 = (0x2000 : Word).toNat % 4096 ∧
      (∀ f ∈ loadForms 3 1 0, (0x2000 : Word).toNat % f.2.1 = 0) ∧ ∀ f ∈ storeForms 3 1 0, (0x2000 : Word).toNat % f.2 = 0 :=
  ⟨by decide +kernel, by decide +kernel, by decide +kernel, by decide +kernel, (witness_ScalarAccesses k hk).1,
    plainAt _ _ rfl (by decide +kernel) rfl rfl rfl, rfl, roomAt _ rfl rfl rfl, by decide, by decide, by decide⟩

/-- LoadLinkedStoreConditional: a link on the line, and none. -/
theorem witness_LoadLinked : ({ u0 with slink := some (0x2000 / 64) } : Strand).slink = some (0x2000 / 64) ∧
    (one u0).self.slink ≠ some (0x2000 / 64) ∧ 0x2000 % 8 = 0 := by decide +kernel

/-- ScalarAccessChecksItsAddress: the least and the greatest address beyond 48 bits, and an odd address within. -/
theorem witness_ScalarAccessChecksItsAddress :
    (0x0001000000000000 : Word).extractLsb' 48 16 ≠ 0 ∧ (0xFFFFFFFFFFFFFFFF : Word).extractLsb' 48 16 ≠ 0 ∧
      (0x0000FFFFFFFFFFFF : Word).extractLsb' 48 16 = 0 ∧ ∀ n ∈ ([2, 4, 8] : List Nat), (0x0000FFFFFFFFFFFF : Word).toNat % n ≠ 0 := by
  decide +kernel

/-- BootContextHolesFault: a hole (bank 384 of basin 0), the reservoir, and the first address behind device memory. -/
theorem witness_BootContextHolesFault :
    (one u0).inBoot u0.ctxid = true ∧ ∀ a ∈ ([0xC00000000, 0xB05000000, 0xC000000000] : List Nat),
      isDevMem a = false ∧ isSpad a = false ∧ a < 2 ^ 48 ∧ a % 8 = 0 := by decide +kernel

/-- ScalarHostAccesses: the last dword of a host page, a line of it that the reservoir holds and one that it does not. -/
theorem witness_ScalarHostAccesses (t : Strand) (h : t = regs [(1, 0x50FF8)]) :
    let s := hosted t
    let held : State := { s with resv := [(0x50FC0 / 64, ⟨1, false, false, false, 0⟩)] }
    address s 1 0 = 0x50FF8 ∧ s.self.resumed = false ∧
      Reaches s 0x50FF8 .read (.host 0x50FF8) ∧ Reaches s 0x50FF8 .write (.host 0x50FF8) ∧
      Reaches held 0x50FF8 .read (.host 0x50FF8) ∧ s.hostAway 0x50FF8 false = false ∧ s.hostAway 0x50FF8 true = false ∧
      held.hostAway 0x50FF8 true = false ∧ s.leased (hostLine 0x50FF8) = false ∧
      ((s.fillResv (0x50FF8 / 64)).resv.find (0x50FF8 / 64)).map (·.poisoned) = some false ∧
      ((held.fillResv (0x50FF8 / 64)).resv.find (0x50FF8 / 64)).map (·.poisoned) = some false := by
  subst h
  exact ⟨by decide +kernel, rfl, reaches (by decide +kernel) (by decide), reaches (by decide +kernel) (by decide),
    reaches (by decide +kernel) (by decide), by decide +kernel, by decide +kernel, by decide +kernel, by decide +kernel,
    by decide +kernel, by decide +kernel⟩

/-- ScalarPeerAccesses: the last dword of a peer's page and of its vitrine page, with a cast of it, a copy of the line, and nothing;
no answer yet, and one. -/
theorem witness_ScalarPeerAccesses :
    let s := mapped u0
    let c : Cast := ⟨0, some 3, 6, 5, 9, [], 0⟩
    let l : PeerLine := ⟨3, 0xFFF, 7, false, none, 0, 99, 0⟩
    Reaches s 0x3FFF8 .read (.peer 3 0x3FFF8 false 0) ∧ Reaches s 0x3FFF8 .write (.peer 3 0x3FFF8 false 0) ∧
      Reaches s 0x6FFF8 .read (.peer 3 0x6FFF8 true 5) ∧
      ({ s with casts := [c] } : State).findCast 0 (some 3) (0x6FFF8 / 65536) 5 = some c ∧
      s.findCast 0 (some 3) (0x6FFF8 / 65536) 5 = none ∧ (s.basin s.myBasin).poolOn = false ∧
      ({ s with peer := [l], aqSync := true } : State).findPeer 3 (0x3FFF8 / 64) = some l ∧ s.findPeer 3 (0x3FFF8 / 64) = none ∧
      s.self.answers = [] ∧ ({ u0 with answers := [(1, 0, 0)] } : Strand).answers ≠ [] ∧
      s.leased (peerLineKey 3 0x3FFF8) = false :=
  ⟨reaches (by decide +kernel) (by decide), reaches (by decide +kernel) (by decide), reaches (by decide +kernel) (by decide),
    by decide +kernel, by decide +kernel, by decide +kernel, by decide +kernel, by decide +kernel, by decide +kernel,
    by decide +kernel, by decide +kernel⟩

/-- VitrineLoads: an OPEN page, a stale one and a FREE one; and, for a strand of another basin with a cast pool, a cast of the
SEALED page and none. -/
theorem witness_VitrineLoads :
    let s := vitrine u0 1 9 0
    let far : State := { s with cur := 128, strands := [(128, u0)], frames := [(2, ⟨2, 9, 0⟩)], basins := [(1, { poolEn := true })]
                                tlb := [⟨144, 0, false, 0x20000, 65536, 0x2053F, 0, none⟩] }
    let c : Cast := ⟨1, none, 2, 0, 9, [], 0⟩
    let near : State := { far with casts := [c] }
    (Reaches s 0x20008 .read (.vitrine 0x20008 0) ∧ (s.frame 2).gen = 0 ∧ (s.frame 2).state ≠ 0 ∧ s.errs = [] ∧
      s.myBasin = paBasin 0x20008) ∧
    (Reaches far 0x20008 .read (.vitrine 0x20008 0) ∧ far.myBasin ≠ paBasin 0x20008 ∧ (far.basin far.myBasin).poolOn = true ∧
      far.findCast far.myBasin none 2 0 = none) ∧
    (Reaches near 0x20008 .read (.vitrine 0x20008 0) ∧ near.findCast near.myBasin none 2 0 = some c) ∧
    (vitrine u0 1 0 5).frame 2 = ⟨1, 0, 5⟩ ∧ (vitrine u0 0 0 0).frame 2 = ⟨0, 0, 0⟩ := by
  refine ⟨⟨reaches (by decide +kernel) (by decide), ?_⟩, ⟨reaches (by decide +kernel) (by decide), ?_⟩,
    ⟨reaches (by decide +kernel) (by decide), ?_⟩, ?_⟩ <;> decide +kernel

/-- A machine with the first and the last row of the scratchpad of core 0 expired. -/
def stale (t : Strand) : State := { one t with cores := [(0, { rowDead := [(0, true), (49151, true)] })] }

/-- ScratchpadLoads, ScratchpadStores: the first and the last dword of a scratchpad; a row that is not expired, one that is, and
the two settings of EXPTE. -/
theorem witness_ScratchpadAccesses :
    (∀ k ∈ ([.read, .write] : List Access), okIs ((one u0).translate 0x10000000000 k) (.spad 0 0) (one u0) = true ∧
      okIs ((one u0).translate 0x100002FFFF8 k) (.spad 0 0x2FFFF8) (one u0) = true ∧
      okIs ((stale u0).translate 0x10000000000 k) (.spad 0 0) (stale u0) = true) ∧
    0x100002FFFF8 < 2 ^ 48 ∧ (one u0).self.resumed = false ∧ (one u0).vec = false ∧ (one u0).leased (2 ^ 40 / 64) = false ∧
    (one u0).expired 0 0 = false ∧ (stale u0).expired 0 0 = true ∧ (stale u0).self.expte = false ∧
    (stale { u0 with expte := true }).self.expte = true ∧ (stale u0).self.exl = false := by
  decide +kernel

/-- VitrineAppend: a stale generation, a FREE frame, a sealed one, a dword that does not fit by one byte, one that fits. -/
theorem witness_VitrineAppend :
    (Reaches (vitrine u0 1 0 5) 0x20000 .append (.vitrine 0x20000 0) ∧ (vitrine u0 1 0 5).frame 2 = ⟨1, 0, 5⟩) ∧
    (Reaches (vitrine u0 0 0 0) 0x20000 .append (.vitrine 0x20000 0) ∧ (vitrine u0 0 0 0).frame 2 = ⟨0, 0, 0⟩) ∧
    (Reaches (vitrine u0 2 8 0) 0x20000 .append (.vitrine 0x20000 0) ∧ (vitrine u0 2 8 0).frame 2 = ⟨2, 8, 0⟩) ∧
    (Reaches (vitrine u0 1 65529 0) 0x20000 .append (.vitrine 0x20000 0) ∧ 65536 < (65529 + 8 - 1) / 8 * 8 + 8) ∧
    (Reaches (vitrine u0 1 65521 0) 0x20000 .append (.vitrine 0x20000 0) ∧ (65521 + 8 - 1) / 8 * 8 + 8 ≤ 65536) ∧
    ∀ x, (vitrine u0 1 65521 0).migOf x = [] :=
  ⟨⟨⟨rfl, by decide⟩, rfl⟩, ⟨⟨rfl, by decide⟩, rfl⟩, ⟨⟨rfl, by decide⟩, rfl⟩, ⟨⟨rfl, by decide⟩, by decide⟩,
    ⟨⟨rfl, by decide⟩, by decide⟩, migOf_nil _ rfl⟩

/-- VitrineSealAndQuery: an OPEN page and a SEALED one. -/
theorem witness_VitrineSealAndQuery (st : BitVec 2) (h : st = 1 ∨ st = 2) :
    let x := vitrine u0 st 9 0
    (x.frame 2).gen = 0 ∧ (x.frame 2).state ≠ 0 ∧ Reaches x 0x20000 .append (.vitrine 0x20000 0) ∧
      Reaches x 0x20000 .query (.vitrine 0x20000 0) ∧ x.castFor (.vitrine 0x20000 0) = none := by
  rcases h with rfl | rfl <;> exact ⟨rfl, by decide, ⟨rfl, by decide⟩, ⟨rfl, by decide⟩, rfl⟩

/-- FencesComplete, and the other instructions of a charge: an empty weir queue with room, and one already admitted. -/
theorem witness_WeirOpen :
    WeirOpen (one u0) [] ∧ WeirOpen (one u0) [(4, 1)] ∧ WeirOpen { one u0 with clk := 3 } [(0, 4096)] ∧
      WeirOpen (one { u0 with weirPass := some 1 }) [(0, 4096)] := by
  unfold WeirOpen; decide +kernel

/-- FencesComplete: a dirty line of the reservoir, with its link up and down. -/
theorem witness_FenceSys :
    let s : State := { one u0 with resv := [(5, ⟨1, true, false, true, 0⟩)] }
    s.resv.find 5 = some ⟨1, true, false, true, 0⟩ ∧ s.awayPort (fun _ => true) = some 0 ∧
      ({ s with annex := { linkUp := [0] } } : State).awayPort (fun _ => true) = none := by
  decide +kernel

/-- CacheMaintenanceReachesTheHome: no byte; a range from and to beyond 2^48 by one byte; two bytes in two lines. -/
theorem witness_CacheMaintenance :
    (one u0).getG 2 = 0 ∧ 2 ^ 48 ≤ ((one (regs [(1, 0x1000000000000), (2, 1)])).getG 1).toNat ∧
      2 ^ 48 < 0xFFFFFFFFFFFF + 2 ∧ (0xFFFFFFFFFFFF + 1 ≤ 2 ^ 48) := by decide +kernel

theorem witness_CacheRange :
    let s : State := { one (regs [(1, 0x203F), (2, 2)]) with cache := [(0x80, ⟨7, 0, 0⟩)] }
    (s.getG 1).toNat + (s.getG 2).toNat ≤ 2 ^ 48 ∧ s.inBoot s.self.ctxid = true ∧
      (∀ x, 0x203F ≤ x → x < 0x203F + 2 → isDevMem x = true ∧ s.inPool x = false) ∧ ∀ x, s.migOf x = [] := by
  refine ⟨by decide +kernel, by decide +kernel, ?_, migOf_nil _ rfl⟩
  intro x h1 h2
  obtain rfl | rfl : x = 0x203F ∨ x = 0x2040 := by omega
  · exact ⟨by decide +kernel, inPool_nil _ rfl _⟩
  · exact ⟨by decide +kernel, inPool_nil _ rfl _⟩

/-- TlbinvDropsWhatItNames: privileged mode, no engine command and no strand that waits for a peer; the TLB holds what may be
named; other strands wait for a walk, one of them with a request that it yields to at a branch, and one holds places. -/
theorem witness_Tlbinv :
    let w : Strand := { u0 with st := .wait (.ats [0] 5 false) }
    let y : Strand := { w with preq := some 0, loops := [⟨0x1000, 0x1004, 1, 0⟩] }
    let s : State := { mapped u0 with strands := [(0, u0), (1, w), (2, y), (3, { u0 with placed := [(0, .dev 0)] })] }
    s.self.cur = true ∧ s.self.st = .run ∧ s.ops = [] ∧ s.tlb ≠ [] ∧ (∀ e ∈ s.strands, ¬ WaitsForPeer e.2) ∧
      s.strand 1 = some w ∧ w.yields = false ∧ w.answers = [] := by
  refine ⟨rfl, rfl, rfl, List.cons_ne_nil _ _, ?_, rfl, rfl, rfl⟩
  intro e he
  simp only [List.mem_cons, List.not_mem_nil, or_false] at he
  rcases he with rfl | rfl | rfl | rfl <;> simp [WaitsForPeer, u0]

/-- VfreeAdvancesTheGeneration: a misaligned address, a hole, and an OPEN, a SEALED and a FREE frame. -/
theorem witness_Vfree :
    (one u0).self.cur = true ∧ 0x2FFFF % 65536 ≠ 0 ∧ 0xC00000000 % 65536 = 0 ∧ isDevMem 0xC00000000 = false ∧
      0x20000 % 65536 = 0 ∧ isDevMem 0x20000 = true ∧ (vitrine u0 1 9 3).frame 2 = ⟨1, 9, 3⟩ ∧ (vitrine u0 1 9 3).frame 4 = {} := by
  decide +kernel

/-- Every access of the boot context may also lie in a cast pool, which the access trap of `vfree` names. -/
theorem witness_VfreePool :
    let s : State := { one u0 with basins := [(0, { poolEn := true })] }
    isDevMem 0x20000 = true ∧ s.inPool 0x20000 = true ∧ s.inPool 0x2000000 = false := by decide +kernel

/-! ### Witnesses: vector instructions -/

/-- A strand of 32,768 vector bits with VN elements. -/
def vec (vn : Nat) : Strand := { u0 with sw := 3, vn := vn, k := [(1, 0b1011)] }

/-- Vector register, mask and float instructions, reductions and permutations: as many elements as VLEN holds at each
width, by active elements (none, all, some), by VN, and for a mask instruction. -/
theorem witness_VReady :
    (∀ w ∈ ([8, 16, 32, 64] : List Nat), ∀ cls ∈ ([0, 1, 2, 3, 5, 12, 15] : List Nat),
      VReady (one (vec (32768 / w))) [(cls, 32768 / w)] w) ∧
    VReady (one (vec 0)) [(0, actives (one (vec 0)) 0)] 64 ∧ VReady (one (vec 4)) [(0, actives (one (vec 4)) 1)] 64 ∧
    VReady (one (vec 512)) [(0, actives (one (vec 512)) 0)] 64 ∧ actives (one (vec 4)) 1 = 3 ∧ actives (one (vec 512)) 0 = 512 ∧
    VReady (one (vec 4096)) [(4, 1)] 0 ∧ VReady (one (vec 4096)) [(14, 1)] 0 ∧ (1 : BitVec 3) ≠ 0 := by
  unfold VReady WeirOpen actives isActive; decide +kernel

/-- VectorIntegerForms, StaticConditionsTrap, VectorMergeExtendNarrow: the last amount of a shift and the first beyond it,
and widths on either side of each other and equal. -/
theorem witness_Widths :
    (7 : BitVec 5).toNat < widthOf 0 ∧ (31 : BitVec 5).toNat < widthOf 2 ∧ widthOf 0 ≤ (8 : BitVec 5).toNat ∧
      widthOf 4 < widthOf 1 ∧ widthOf 1 < widthOf 3 ∧ widthOf 1 ≤ widthOf 5 ∧ widthOf 7 ≤ widthOf 3 := by decide +kernel

/-- LengthFaultChangesNothing: one element more than VLEN holds, of each group of forms, with no static condition broken. -/
theorem witness_LengthFault :
    (one (vec 513)).self.vlen < (one (vec 513)).self.vn * widthOf 3 ∧
      (one { u0 with vn := 513 }).self.vlen < (one { u0 with vn := 513 }).self.vn * widthOf 0 ∧
      (one (vec 1025)).self.vlen < (one (vec 1025)).self.vn * (FFmt.ofCode 2).width ∧
      (∀ i ∈ oneWidthForms 1 2 3 7 1 2 3, staticOk i = true) ∧ (∀ i ∈ oneFormatForms 1 2 3 1 2 2 1, staticOk i = true) ∧
      (∀ p ∈ mixedForms 1 2 3 1 2 2 1 2 0, (one (vec 1025)).self.vlen < (one (vec 1025)).self.vn * p.2 ∧
        (staticOk p.1 = true ∨ p.1 ∈ [Instr.vnarrowWrap 1 2 1 1 2, Instr.vnarrowSat 1 2 1 1 2])) ∧
      (∀ p ∈ mixedForms 1 2 3 1 2 1 2 2 0, (one (vec 1025)).self.vlen < (one (vec 1025)).self.vn * p.2 ∧
        (staticOk p.1 = true ∨ p.1 ∈ [Instr.vsext 1 2 2 1 1, Instr.vzext 1 2 2 1 1])) := by decide +kernel

/-- MaskInstructions: no bit set below VN, and a first bit at place 0 and at the last place. -/
theorem witness_MaskInstructions :
    (∀ i, i < 4 → maskBit (one { vec 4 with k := [(1, 0xF0)] }) 1 i = false) ∧ maskBit (one (vec 4)) 1 0 = true ∧
      maskBit (one { vec 4 with k := [(1, 8)] }) 1 3 = true ∧ ∀ j, j < 3 → maskBit (one { vec 4 with k := [(1, 8)] }) 1 j = false := by
  decide +kernel

/-- ExpAndRsqrtSpecialOperands, VectorFloatForms: the ends of the ranges, and a type code that has the operation. -/
theorem witness_ExpAndRsqrt : 2 < 3 ∧ 0 < 1 ∧ 2 ^ 12 - 1 < 2 ^ 12 ∧ (2 : BitVec 3) ≠ 3 := by decide

/-- ReductionTreeIsThePairwiseTree: lists that fill their leaves, and one that does not. -/
theorem witness_ReductionTree : ([] : List (Option Elem)).length ≤ 2 ^ 0 ∧ (List.replicate 4 (none : Option Elem)).length ≤ 2 ^ 2 ∧
    (List.replicate 5 (none : Option Elem)).length ≤ 2 ^ 3 := by decide +kernel

/-- QuantisedElementIsNearest: the ranges of the formats. -/
theorem witness_QuantisedElement : ((-128 : Int) ≤ 0 ∧ (0 : Int) ≤ 127) ∧ ((-1 : Int) ≤ 0 ∧ (0 : Int) ≤ 1) := by decide

/-- QuantiseAndDequantise: the type codes of `vdeq` and of every vector float form. -/
theorem witness_Quantise :
    ((0 : BitVec 3) = 0 ∨ (0 : BitVec 3) = 2) ∧ ((2 : BitVec 3) = 0 ∨ (2 : BitVec 3) = 2) ∧
      VReady (one (vec 1024)) [(2, actives (one (vec 1024)) 0)] (FFmt.ofCode 2).width := by
  unfold VReady WeirOpen actives isActive; decide +kernel

/-- VectorConfiguration: the launch's only slice width, a fork child at its own width, and widths below and above. -/
theorem witness_VectorConfiguration :
    let b : Binding := { swMin := 1, swMax := 2 }
    (b.swMin ≤ (1 : BitVec 2) ∧ (1 : BitVec 2) ≤ b.swMax) ∧ (b.swMin ≤ (2 : BitVec 2) ∧ (2 : BitVec 2) ≤ b.swMax) ∧
      (0 : BitVec 2) < b.swMin ∧ b.swMax < (3 : BitVec 2) ∧ u0.children = [] ∧ u0.parent = none ∧
      ({ u0 with parent := some 1, sw := 1 } : Strand).sw = 1 := by decide +kernel

/-- SplitThenJoinIsTheIdentity: the greatest image and the greatest mask. -/
theorem witness_SplitThenJoin :
    1 ≤ 3 ∧ 3 ≤ 3 ∧ 8 ≤ 8 ∧ (BitVec.allOnes 32768).toNat < 2 ^ (512 * 2 ^ 3 * 8) ∧ 64 ∈ ([8, 16, 32, 64] : List Nat) ∧
      (BitVec.allOnes 4096).toNat < 2 ^ 4096 ∧ (1 : VReg).toNat < 2 ^ (512 * 2 ^ 1 * 1) := by
  refine ⟨by decide, by decide, by decide, ?_, by decide, ?_, by decide +kernel⟩
  · exact (BitVec.allOnes 32768).isLt
  · exact (BitVec.allOnes 4096).isLt

/-! ### Witnesses: forks, continuations, barriers, vissue -/

/-- Several strands. -/
def many (l : List (Nat × Strand)) : State := { State.reset with strands := l }

/-- LforkSplitsTheStrand: one lane group; no FREE slot; slot 1 and slot 7 the lowest FREE one. -/
theorem witness_Lfork :
    (one { u0 with lgc := 0 }).self.lgc = 0 ∧ u0.lgc ≠ 0 ∧
      (∀ n, n < 8 → ((many ((List.range 8).map fun n => (n, u0))).strand n).isSome = true) ∧
      ((one u0).strand (one u0).cur).isSome = true ∧ (one u0).strand 1 = none ∧ (∀ m, m < 1 → ((one u0).strand m).isSome = true) ∧
      (many ((List.range 7).map fun n => (n, u0))).strand 7 = none ∧
      (∀ m, m < 7 → ((many ((List.range 7).map fun n => (n, u0))).strand m).isSome = true) := by decide +kernel

/-- LjoinRecombines: a fork child ends; a strand that is none; a number that names no child; a child that runs, and one in
JOIN with nothing outstanding. -/
theorem witness_Ljoin :
    let p : Strand := { u0 with lgc := 2, children := [⟨1, 4, 8⟩], g := [(1, 2), (2, 3)] }
    let c : Strand := { u0 with lgc := 2, parent := some 0 }
    let s := many [(0, p), (1, c)]
    let z := many [(0, p), (1, { c with st := .join })]
    s.getG 3 = 0 ∧ ((many [(0, c)]).self.parent.isSome = true ∧ (many [(0, c)]).self.children = []) ∧ u0.parent = none ∧
      s.self.children = [⟨1, 4, 8⟩] ∧ s.getG 1 ≠ 0 ∧ (s.getG 2).toNat ≠ 1 % 8 + 1 ∧ (s.getG 1).toNat = 1 % 8 + 1 ∧
      s.strand 1 = some c ∧ 1 ≠ s.cur ∧ c.st ≠ .join ∧ (z.strand 1).map (·.st) = some .join ∧ ∀ o ∈ z.ops, o.slot ≠ 1 := by
  decide +kernel

/-- A record at 0x2000 of priority 3 and `b` at its byte 0x18, a counter of 1 at 0x3000 with the record's address behind it, and
queue 3 of basin 0 with the ring `q`. -/
def record (a : Word) (b : Nat) (q : ContQueue) : State :=
  { one { regs [(1, a)] with weirPass := some 1 } with
    mem := [(0x2000, 0x10), (0x2018, BitVec.ofNat 8 b), (0x2019, 3), (0x3000, 1), (0x3009, 0x20)]
    basins := [(0, { cq := [(3, q)] })] }

theorem plainRecord (a : Word) (b : Nat) (q : ContQueue) (pa : Nat) (h : isDevMem pa = true)
    (hp : (record a b q).inPool pa = false) : PlainAt (record a b q) pa :=
  ⟨h, hp, rfl, fun _ h => absurd h List.not_mem_nil, rfl, fun _ h => absurd h List.not_mem_nil⟩

theorem spaceAt (s : State) (h1 : s.cache = []) (h2 : s.copies = []) (h3 : s.peer = []) : CachesHaveSpace s := by
  intro u b
  simp only [State.residents, h1, h2, h3, List.filter_nil, List.map_nil, List.append_nil, List.length_nil, unitLines]
  split <;> omega

/-- CspawnPushesARecord, CjoinDecrementsAndCendEnds: what each record, counter and pointer needs to be read. -/
theorem witness_Readable (a : Word) (b : Nat) (q : ContQueue)
    (h : (a, b, q) ∈ ([0x2000, 0x3000] : List Word).flatMap fun a => ([3, 4] : List Nat).flatMap fun b =>
      ([{}, { base := 4, log2n := 1, tail := 1 }, { base := 4, log2n := 1, tail := 2 }] : List ContQueue).map fun q => (a, b, q)) :
    Readable (record a b q) 0x2000 0x2000 ∧ Readable (record a b q) 0x3000 0x3000 ∧ Readable (record a b q) 0x3008 0x3008 ∧
      Reaches (record a b q) 0x3000 .write (.dev 0x3000) ∧ (∀ x, (record a b q).migOf x = []) ∧
      afterWeir (record a b q) [] = record a b q ∧ WeirOpen (record a b q) [] ∧ CachesHaveSpace (record a b q) ∧
      (record a b q).self.resumed = false ∧ (record a b q).self.st = .run ∧ (record a b q).leased 0x101 = false := by
  simp only [List.flatMap_cons, List.flatMap_nil, List.map_cons, List.map_nil, List.cons_append, List.nil_append,
    List.append_nil, List.mem_cons, List.not_mem_nil, or_false, Prod.mk.injEq] at h
  rcases h with h | h | h | h | h | h | h | h | h | h | h | h <;> obtain ⟨rfl, rfl, rfl⟩ := h <;>
    exact ⟨⟨reaches (by decide +kernel) (by decide), rfl, plainRecord _ _ _ _ (by decide) (by decide +kernel)⟩,
      ⟨reaches (by decide +kernel) (by decide), rfl, plainRecord _ _ _ _ (by decide) (by decide +kernel)⟩,
      ⟨reaches (by decide +kernel) (by decide), rfl, plainRecord _ _ _ _ (by decide) (by decide +kernel)⟩,
      reaches (by decide +kernel) (by decide), fun _ => rfl, rfl, .inl rfl, spaceAt _ rfl rfl rfl, rfl, rfl, rfl⟩

/-- CspawnPushesARecord: an address that is no multiple of 32; a record that breaks a limit; a disabled and a full ring; a
ring with room for one entry, which the entry of a strand that is about to push takes. -/
theorem witness_Cspawn :
    let q : ContQueue := { base := 4, log2n := 1, tail := 1 }
    let full : ContQueue := { base := 4, log2n := 1, tail := 2 }
    let r := record 0x2000
    (0x2001 : Word).toNat % 32 ≠ 0 ∧ (0x2000 : Word).toNat % 32 = 0 ∧
      recordOk (recordAt (r 4 q) 0x2000) = false ∧ recordOk (recordAt (r 3 q) 0x2000) = true ∧
      ¬ RingHasRoom (r 3 {}) (recordAt (r 3 {}) 0x2000) ∧ ¬ RingHasRoom (r 3 full) (recordAt (r 3 full) 0x2000) ∧
      RingHasRoom (r 3 q) (recordAt (r 3 q) 0x2000) ∧ entryOf (ringOf (r 3 q) (recordAt (r 3 q) 0x2000)) / 64 = 0x101 := by
  refine ⟨by decide, by decide, by decide +kernel, by decide +kernel, ?_, ?_, ?_, by decide +kernel⟩
  all_goals unfold RingHasRoom; decide +kernel

/-- CjoinDecrementsAndCendEnds: an address that is no multiple of 8; counters of 2, 0 and 1; the record's address behind the last,
and one that is no multiple of 32. -/
theorem witness_Cjoin :
    let q : ContQueue := { base := 4, log2n := 1, tail := 1 }
    let s := record 0x3000 3 q
    (0x3004 : Word).toNat % 8 ≠ 0 ∧ (0x3000 : Word).toNat % 8 = 0 ∧ s.cur < 1536 ∧ leRead s.byteAt 0x3000 4 = 1 ∧
      leRead s.byteAt 0x3008 8 = 0x2000 ∧ leRead s.byteAt 0x2008 4 = 0 ∧
      leRead ({ s with mem := [(0x3000, 2), (0x3008, 1)] } : State).byteAt 0x3000 4 = 2 ∧
      (BitVec.ofNat 64 (leRead ({ s with mem := [(0x3000, 1), (0x3008, 1)] } : State).byteAt 0x3008 8)).toNat % 32 ≠ 0 := by
  decide +kernel

/-- CjoinDecrementsAndCendEnds: a counter of a peer, before its owner has answered and with an answer of 2. -/
theorem witness_CjoinPeer :
    let s : State := { mapped { regs [(1, 0x30000)] with weirPass := some 1 } with peer := [] }
    let t : Strand := { s.self with answers := [(0, (2, 0))] }
    Reaches s 0x30000 .write (.peer 3 0x30000 false 0) ∧ Reaches s 0x30000 .read (.peer 3 0x30000 false 0) ∧
      s.self.joining = none ∧ s.self.answers = [] ∧ WeirOpen s [] ∧ afterWeir s [] = s ∧ t.answers = [(0, (2, 0))] ∧
      (2 : Word) ≠ 1 ∧ t.joining = none ∧ t.resumed = false :=
  ⟨reaches (by decide +kernel) (by decide), reaches (by decide +kernel) (by decide), rfl, rfl, .inl rfl, rfl, rfl, by decide, rfl, rfl⟩

/-- A barrier group of core 0 and core 1 in generation 5, with the arrivals of core 0 and of core 1. -/
def barrier (t : Strand) (a b : Nat) (owner : Option (BitVec 16)) : State :=
  { one { t with barRec := [(1, 5), (2, 4)] } with
    groups := [(0, ⟨owner, 0x100, none, 5, Table.set 0 (Table.set 0 [] 0 a) 1 b⟩), (1, ⟨some 0, 0x100, none, 5, []⟩),
      (2, ⟨some 0, 0x100, none, 5, []⟩)] }

/-- BarriersArriveAndWait: another owner; a core that is no member; a full count; room with the others full, and with
another open; a wait for a generation that runs, that has passed, and with no arrival recorded. -/
theorem witness_Barriers :
    let g (s : State) : BarGroup := s.group (groupKey s.myCore 0)
    let room (s : State) : Prop := (g s).counts.get 0 s.myCore < arrivals (g s).members
    let done (s : State) : Prop := ∀ c, c < 192 → isMember (g s).members c = true →
      (Table.set 0 (g s).counts s.myCore ((g s).counts.get 0 s.myCore + 1)).get 0 c = arrivals (g s).members
    (g (barrier u0 0 0 (some 7))).owner ≠ some u0.ctxid ∧ isMember 0x100 2 = false ∧ isMember 0x100 0 = true ∧
      (g (barrier u0 1 0 (some 0))).owner = some u0.ctxid ∧ ¬ room (barrier u0 1 0 (some 0)) ∧ room (barrier u0 0 1 (some 0)) ∧
      done (barrier u0 0 1 (some 0)) ∧ ¬ done (barrier u0 0 0 (some 0)) ∧
      (barrier u0 0 0 (some 0)).self.barRec.find 1 = some 5 ∧ ((barrier u0 0 0 (some 0)).group 1).gen = 5 ∧
      (barrier u0 0 0 (some 0)).self.barRec.find 2 = some 4 ∧ ((barrier u0 0 0 (some 0)).group 2).gen ≠ 4 ∧
      (barrier u0 0 0 (some 0)).self.barRec.find 0 = none ∧ (79 : BitVec 16).toNat < 80 := by decide +kernel

/-- BarSetTakesEffect: bits that no operand may have; a rectangle beyond the launch's for user mode; the operand that frees
a group; an unowned group, one without arrivals, and one with an arrival. -/
theorem witness_BarSet :
    memberBits 0x500 = false ∧ memberBits 0x20000 = false ∧ memberBits 0x100 = true ∧ memberBits 0x10100 = true ∧
      memberLimits 0x100 { w := 1, h := 1 } 0 0 = false ∧ memberLimits 0x100 {} 0 0 = true ∧ (0x10100 : Word).getLsbD 16 = true ∧
      (0x100 : Word).getLsbD 16 = false ∧ ((barrier u0 0 0 none).group 0).owner = none ∧
      ((barrier u0 0 0 (some 0)).group 1).counts = [] ∧ ((barrier u0 1 0 (some 0)).group 0).counts ≠ [] ∧
      (one { u0 with cur := false }).self.cur = false := by decide +kernel

/-- VissueGroupsItsWords: no active element, and three active elements of two distinct words. -/
theorem witness_Vissue :
    VReady (one (vec 4)) [(15, actives (one (vec 4)) 1)] 32 ∧
      ((List.range (vec 4).vn).filter fun i => isActive (one (vec 4)) 1 i) = [0, 1, 3] ∧
      ((List.range (vec 0).vn).filter fun i => isActive (one (vec 0)) 1 i) = [] := by
  unfold VReady WeirOpen actives isActive; decide +kernel

/-- VissueMarksIllegalWords: a word that no `vissue` issues at the head; no word left without a mark, and with one under
ITE. -/
theorem witness_VissueMarks :
    let i : Issue := ⟨[(0, 1)], [], u0.capture, 0, false, false⟩
    i.inner = [] ∧ i.todo = (0, 1) :: [] ∧ issueWordOf 0 1 = none ∧ i.admitted = false ∧
      ({ i with todo := [] } : Issue).todo = [] ∧ ({ i with todo := [] }.marked && (one u0).self.ite) = false ∧
      ({ i with todo := [], marked := true } : Issue).marked = true ∧ (one { u0 with ite := true }).self.ite = true := by
  decide +kernel

/-! ### Witnesses: vector memory, engine commands -/

theorem quiet_refl (s : State) : Quiet s s := .inl rfl

theorem afterWeir_pass (s : State) (ch : Charge) (h : s.self.weirPass.isSome = true) : afterWeir s ch = s := if_pos h

theorem describes {s : State} {va : Word} {k : Access} {d : Desc} (h : (streaming s).readDesc va k = .ok d (streaming s)) :
    Describes s va k d (streaming s) := ⟨h, rfl⟩

theorem ite_lt (vn i : Nat) (s : State) (k : BitVec 3) (h : isActive s k i = true) (hv : s.self.vn = vn) : i < vn := by
  unfold isActive at h
  have := of_decide_eq_true (Bool.and_eq_true_iff.mp h).1
  omega

theorem elementsAt_two (s : State) (k t : BitVec 3) (acc : Access) (f : Nat → Word) (pa : Nat → Nat) (hv : s.self.vn = 2)
    (hb : s.basins = []) (he : s.errs = []) (hg : s.granted = []) (hc : s.copies = [])
    (h : ∀ i, i < 2 → (f i).toNat < 2 ^ 48 ∧
      pa i % 4096 = (f i).toNat % 4096 ∧ isDevMem (pa i) = true ∧ (f i).toNat % (widthOf t / 8) = 0)
    (a b : Word) (ha : f 0 = a) (hb' : f 1 = b)
    (h0 : (streaming s).translate a acc = .ok (.dev (pa 0)) (streaming s))
    (h1 : (streaming s).translate b acc = .ok (.dev (pa 1)) (streaming s)) :
    ElementsAt s k t acc f pa := fun i hi => by
  have hi := ite_lt 2 i s k hi hv
  obtain ⟨h2, h3, h4, h5⟩ := h i hi
  refine ⟨⟨?_, h2⟩, h3, plainAt s _ hb h4 he hg hc, h5⟩
  obtain rfl | rfl : i = 0 ∨ i = 1 := by omega
  · rw [ha]; exact h0
  · rw [hb']; exact h1

/-- Two elements, their index vector, a base address and a stride of zero; the weir has let the instruction pass. -/
def pair : Strand := { u0 with vn := 2, weirPass := some 1, g := [(1, 0x2FF8)], v := [(2, 8 * 2 ^ 32)] }

/-- VectorLoadsReadTheirElements, VectorStoresWriteTheirElements, VectorStoreConditional: unit, strided (every element at
one address) and indexed elements on either side of a page's end. -/
theorem witness_ElementsAt (acc : Access) (ha : acc ∈ ([.read, .write, .link false, .link true] : List Access)) :
    ElementsAt (one pair) 0 3 acc (elementAt (one pair) 1 3 .unit) (fun i => 0x2FF8 + 8 * i) ∧
      ElementsAt (one pair) 0 3 acc (elementAt (one pair) 1 3 (.stride 2)) (fun _ => 0x2FF8) ∧
      ElementsAt (one pair) 1 2 acc (elementAt (one pair) 1 2 (.index 2)) (fun i => 0x2FF8 + 8 * i) := by
  simp only [List.mem_cons, List.not_mem_nil, or_false] at ha
  rcases ha with rfl | rfl | rfl | rfl <;>
  exact ⟨elementsAt_two _ _ _ _ _ _ rfl rfl rfl rfl rfl (by decide +kernel) 0x2FF8 0x3000 (by decide +kernel) (by decide +kernel) rfl rfl,
    elementsAt_two _ _ _ _ _ _ rfl rfl rfl rfl rfl (by decide +kernel) 0x2FF8 0x2FF8 (by decide +kernel) (by decide +kernel) rfl rfl,
    elementsAt_two _ _ _ _ _ _ rfl rfl rfl rfl rfl (by decide +kernel) 0x2FF8 0x3000 (by decide +kernel) (by decide +kernel) rfl rfl⟩

theorem slicesRoom (s : State) (h1 : s.cache = []) (h2 : s.copies = []) (h3 : s.peer = []) (h : s.self.vn ≤ 4096) : SlicesHaveRoom s := by
  intro u b hu
  simp only [State.residents, h1, h2, h3, List.filter_nil, List.map_nil, List.append_nil, List.length_nil, unitLines, if_neg hu]
  omega

theorem witness_VectorAccessReady : (one pair).cur < 1536 ∧ (∀ w ∈ ([32, 64] : List Nat), ∀ cls ∈ ([6, 7, 8] : List Nat),
    VReady (one pair) [(cls, actives (one pair) 0)] w) ∧ (one pair).self.weirPass.isSome = true ∧ (1 : BitVec 3) ≠ 0 ∧
    (one pair).self.resumed = false := by
  unfold VReady WeirOpen actives isActive; decide +kernel

theorem witness_SlicesHaveRoom : SlicesHaveRoom (one pair) := slicesRoom _ rfl rfl rfl (by decide +kernel)

/-- Three elements, at offsets 0, 0x10000 and 0x30000 from an address: on a vitrine page, a peer's page and a host page. -/
def mixed : State :=
  let s := hosted { pair with vn := 3, g := [(1, 0x20000)], v := [(2, 0x10000 * 2 ^ 32 + 0x30000 * 2 ^ 64)] }
  { s with tlb := (mapped u0).tlb ++ s.tlb, frames := [(2, ⟨1, 9, 0⟩)], peer := [⟨3, 0x30000 / 64, 7, false, none, 1, 99, 0⟩], aqSync := true }

/-- Where they lie. -/
def mixedAt (i : Nat) : Place := if i = 0 then .vitrine 0x20000 0 else if i = 1 then .peer 3 0x30000 false 0 else .host 0x50000

/-- VectorLoadsElsewhere: an access that reaches the three kinds of page. -/
theorem witness_VectorLoadsElsewhere :
    ∃ val : Nat → Nat, VReady mixed [(8, actives mixed 0)] 64 ∧ afterWeir mixed [(8, actives mixed 0)] = mixed ∧
      ∀ i, isActive mixed 0 i = true → Reaches (streaming mixed) (elementAt mixed 1 3 (.index 2) i) .read (mixedAt i) ∧
        pageOffset (mixedAt i) = (elementAt mixed 1 3 (.index 2) i).toNat % 4096 ∧
        (elementAt mixed 1 3 (.index 2) i).toNat % 8 = 0 ∧ Serves (streaming mixed) (mixedAt i) 8 (val i) := by
  refine ⟨fun i => if i = 0 then leRead (fun x => if x % 65536 < 9 then mixed.byteAt x else 0) 0x20000 8
      else if i = 1 then leRead (fun x => lineByte 7 x) 0 8 else leRead (hostNow mixed) 0x50000 8, ?_, rfl, fun i hi => ?_⟩
  · unfold VReady WeirOpen actives isActive; decide +kernel
  have hi := ite_lt 3 i mixed 0 hi rfl
  obtain rfl | rfl | rfl : i = 0 ∨ i = 1 ∨ i = 2 := by omega
  · refine ⟨reaches (by decide +kernel) (by decide +kernel), by decide +kernel, by decide +kernel, .inr ?_⟩
    exact ⟨fun h => absurd h.2 (by decide +kernel), by decide +kernel, by decide +kernel, by decide +kernel, rfl⟩
  · refine ⟨reaches (by decide +kernel) (by decide +kernel), by decide +kernel, by decide +kernel, .inr ⟨by decide, ?_⟩⟩
    exact ⟨⟨3, 0x30000 / 64, 7, false, none, 1, 99, 0⟩, by decide +kernel, rfl, rfl⟩
  · refine ⟨reaches (by decide +kernel) (by decide +kernel), by decide +kernel, by decide +kernel, by decide +kernel, ?_, rfl⟩
    intro l h
    rw [show ((streaming mixed).fillResv (0x50000 / 64)).resv.find (0x50000 / 64) = some ⟨0, false, false, false, 0⟩ by decide +kernel] at h
    obtain rfl := Option.some.inj h; rfl

/-- VectorStoresElsewhere: two dwords at the end of a host page, and of a peer's page before its owner has answered and then. -/
theorem witness_VectorStoresElsewhere :
    let h := hosted { pair with g := [(1, 0x50FF0)] }
    let p := mapped { pair with g := [(1, 0x3FFF0)] }
    (VReady h [(7, actives h 0)] 64 ∧ VReady p [(7, actives p 0)] 64 ∧ h.granted = [] ∧ h.self.resumed = false) ∧
    (∀ i, i < 2 → okIs ((streaming h).translate (elementAt h 1 3 .unit i) .write) (.host (0x50FF0 + 8 * i)) (streaming h) = true ∧
      (elementAt h 1 3 .unit i).toNat = 0x50FF0 + 8 * i ∧ (streaming h).hostAway (0x50FF0 + 8 * i) true = false) ∧
    (∀ i, i < 2 → okIs ((streaming p).translate (elementAt p 1 3 .unit i) .write) (.peer 3 (0x3FFF0 + 8 * i) false 0) (streaming p) = true ∧
      (elementAt p 1 3 .unit i).toNat = 0x3FFF0 + 8 * i) ∧
    isActive p 0 0 = true ∧ p.self.answers = [] ∧ ({ p.self with answers := [(0, 0, 0)] } : Strand).answers ≠ [] := by
  unfold VReady WeirOpen actives isActive; decide +kernel

/-- ScratchpadTransfers: the last two dwords of a scratchpad, no line of a peer, no lease; rows that are expired without
EXPTE, and rows that are not. -/
theorem witness_ScratchpadTransfers :
    let t : Strand := { pair with g := [(1, 0x2FFFF0)] }
    (∀ i, i < 2 → (elementAt (one t) 1 3 .unit i).toNat % 8 = 0 ∧ (elementAt (one t) 1 3 .unit i).toNat + 8 ≤ 3145728) ∧
      (one t).peer = [] ∧ (one t).granted = [] ∧ 0 < (one t).deadline 0 ∧ ((one t).core 0).spPast = [] ∧ (one t).self.resumed = false ∧ (stale t).self.expte = false ∧
      (stale t).expired 0 (0x2FFFF0 / 64) = true ∧ (one t).expired 0 (0x2FFFF0 / 64) = false ∧
      VReady (one t) [(6, actives (one t) 0)] 64 ∧ VReady (one t) [(7, actives (one t) 0)] 64 := by
  unfold VReady WeirOpen actives isActive; decide +kernel

/-- A plane descriptor's image. -/
def image (vbase npage rowbase kind width stack elems scale : Nat) : BitVec 512 :=
  BitVec.ofNat 512 (vbase + npage * 2 ^ 64 + rowbase * 2 ^ 80 + kind * 2 ^ 96 + width * 2 ^ 104 + stack * 2 ^ 112 +
    elems * 2 ^ 128 + scale * 2 ^ 192)

/-- The page at 0x10000 in the L2 slices that own its lines: descriptors of 8, 4 and 1 unsigned planes and of one of another shape, a row micro-op
behind the address 0x10100, an e2m1 region with its scale bytes, a collective and its group table. -/
def lab (t : Strand) : State :=
  { mapped t with
    ptabEn := true, ptabBase := 3, mem := [(0x1801F, 0x80)]
    cache := [(0x400, ⟨image 0x200000 1 0 1 8 4 16 0, 1, 0⟩), (0x401, ⟨image 0x200000 1 32 1 4 4 16 0, 2, 0⟩),
      (0x402, ⟨image 0x200000 1 64 1 4 4 16 0, 3, 0⟩), (0x403, ⟨image 0x200000 1 96 1 1 4 16 0, 4, 0⟩),
      (0x404, ⟨BitVec.ofNat 512 ((encode (.rowcp 24 0)).toNat * 2 ^ 32), 5, 0⟩),
      (0x405, ⟨image 0x400000 1 0 4 5 1 16 0x10200, 6, 0⟩),
      (0x406, ⟨image 0x400000 1 0 1 4 2 16 0, 7, 0⟩), (0x407, ⟨image 0x200000 1 128 2 2 4 16 0, 8, 0⟩), (0x408, ⟨0, 1, 0⟩), (0x409, ⟨0, 2, 0⟩), (0x40A, ⟨0, 3, 0⟩),
      (0x40B, ⟨0, 4, 0⟩),
      (0x40C, ⟨BitVec.ofNat 512 (0x200 + 2 * 2 ^ 32 + 2 ^ 64 + 2 ^ 96 + 0x10400 * 2 ^ 128 + 0x10440 * 2 ^ 192 + 0x10480 * 2 ^ 256 +
        0x10340 * 2 ^ 320 + 0x104C0 * 2 ^ 384), 5, 0⟩),
      (0x40D, ⟨BitVec.ofNat 512 (3 * 2 ^ 128 + 0x30000 * 2 ^ 192), 6, 0⟩)] }

def dA : Desc := ⟨0x10040, 0x200000, 1, 32, 1, false, false, 4, 4, 16, 0, 0, 0, [2, 3]⟩
def dB : Desc := ⟨0x10080, 0x200000, 1, 64, 1, false, false, 4, 4, 16, 0, 0, 0, [2, 3]⟩
def dS : Desc := ⟨0x100C0, 0x200000, 1, 96, 1, false, false, 1, 4, 16, 0, 0, 0, [2, 3]⟩
def dE : Desc := ⟨0x10140, 0x400000, 1, 0, 4, false, false, 5, 1, 16, 0x10200, 0, 0, [4, 5]⟩
def dT : Desc := ⟨0x101C0, 0x200000, 1, 128, 2, false, false, 2, 4, 16, 0, 0, 0, [2, 3]⟩
def dX : Desc := ⟨0x10180, 0x400000, 1, 0, 1, false, false, 4, 2, 16, 0, 0, 0, [4, 5]⟩

/-- A strand that the weir lets pass, at 0x10100. -/
def u1 : Strand := { u0 with pc := 0x10100, weirPass := some 1, vn := 2, bind := { codeBase := 0x10000, codeSize := 0x1000 } }

set_option maxRecDepth 20000 in
theorem describes_desc0 : Describes (lab u1) 0x10000 .read desc0 (streaming (lab u1)) := describes rfl
set_option maxRecDepth 20000 in
theorem describes_desc0_write : Describes (lab u1) 0x10000 .write desc0 (streaming (lab u1)) := describes rfl
set_option maxRecDepth 20000 in
theorem describes_dA : Describes (lab u1) 0x10040 .read dA (streaming (lab u1)) := describes rfl
set_option maxRecDepth 20000 in
theorem describes_dB : Describes (lab u1) 0x10080 .read dB (streaming (lab u1)) := describes rfl
set_option maxRecDepth 20000 in
theorem describes_dS : Describes (lab u1) 0x100C0 .read dS (streaming (lab u1)) := describes rfl
set_option maxRecDepth 20000 in
theorem describes_dE : Describes (lab u1) 0x10140 .read dE (streaming (lab u1)) := describes rfl
set_option maxRecDepth 20000 in
theorem describes_dX : Describes (lab u1) 0x10180 .read dX (streaming (lab u1)) := describes rfl

set_option maxRecDepth 20000 in
theorem describes_dT : Describes (lab u1) 0x101C0 .read dT (streaming (lab u1)) := describes rfl

/-- PlaneTransfers: a region read and written, its last element and the first beyond it, no lock, checked cells. -/
theorem witness_PlaneTransfers :
    Describes (lab u1) 0x10000 .read desc0 (streaming (lab u1)) ∧ Describes (lab u1) 0x10000 .write desc0 (streaming (lab u1)) ∧
      (∀ ch, afterWeir (lab u1) ch = lab u1) ∧ (lab u1).self.descRead = none ∧ (∀ x, (lab u1).migOf x = []) ∧
      desc0.subs.Nodup ∧ 14 + 1 < desc0.elems ∧ desc0.elems ≤ 15 + 1 ∧
      (lab u1).banks = [] ∧ (lab u1).ops = [] ∧ (lab u1).self.resumed = false ∧ (lab u1).granted = [] ∧
      (lab u1).checkOf (rowPa 2 0) 1 = 0 ∧ VReady (lab u1) [(6, 2)] 64 ∧ VReady (lab u1) [(7, 2)] 64 := by
  refine ⟨describes_desc0, describes_desc0_write, fun ch => afterWeir_pass _ ch (by decide +kernel), rfl, migOf_nil _ rfl, ?_⟩
  unfold VReady WeirOpen; decide +kernel

/-- VectorAppend: no active element; one dword too many for the page, and a record that ends with it. -/
theorem witness_VectorAppend :
    let t : Strand := { u1 with k := [(1, 0)] }
    ((List.range t.vn).filter (isActive (vitrine t 1 0 0) 1)) = [] ∧ ((List.range t.vn).filter (isActive (vitrine t 1 0 0) 0)) = [0, 1] ∧
      (Reaches (streaming (vitrine t 1 65521 0)) 0x20000 .append (.vitrine 0x20000 0) ∧
        (vitrine t 1 65521 0).frame 2 = ⟨1, 65521, 0⟩ ∧ 65536 < (65521 + 8 - 1) / 8 * 8 + 8 * 2) ∧
      (Reaches (streaming (vitrine t 1 65513 0)) 0x20000 .append (.vitrine 0x20000 0) ∧
        (vitrine t 1 65513 0).frame 2 = ⟨1, 65513, 0⟩ ∧ (65513 + 8 - 1) / 8 * 8 + 8 * 2 ≤ 65536) ∧
      (∀ x, (vitrine t 1 65513 0).migOf x = []) ∧ VReady (vitrine t 1 0 0) [(7, 0)] 64 := by
  refine ⟨by decide +kernel, by decide +kernel, ⟨⟨rfl, by decide⟩, rfl, by decide⟩, ⟨⟨rfl, by decide⟩, rfl, by decide⟩,
    migOf_nil _ rfl, ?_⟩
  unfold VReady WeirOpen; decide +kernel

/-- PlaneInstructionsAreAccepted: four regions of one shape, a product that just fits, a ternary region, a region of another
shape, and widths that are one too great. -/
theorem witness_PlaneInstructions :
    Describes (lab u1) 0x10000 .write desc0 (streaming (lab u1)) ∧
      Describes (streaming (lab u1)) 0x10040 .read dA (streaming (lab u1)) ∧
      Describes (streaming (lab u1)) 0x10080 .read dB (streaming (lab u1)) ∧
      Describes (streaming (lab u1)) (0x10080 + 64) .read dS (streaming (lab u1)) ∧
      Describes (streaming (lab u1)) 0x10180 .read dX (streaming (lab u1)) ∧
      Describes (streaming (lab u1)) 0x101C0 .read dT (streaming (lab u1)) ∧ SameShape desc0 dT ∧ dT.kind = 2 ∧ dA.width ≠ 1 ∧
      desc0.width < dA.width + 5 ∧ (SameShape desc0 dA ∧ SameShape desc0 dB ∧ SameShape desc0 dS) ∧
      ¬ SameShape desc0 dX ∧ dA.kind = 1 ∧ dB.kind = 1 ∧ dS.width = 1 ∧ 8 ≤ desc0.width ∧ desc0.width < 9 ∧
      dA.width + 4 ≤ desc0.width ∧ (lab u1).self.parked = none := by
  refine ⟨describes_desc0_write, describes_dA, describes_dB, describes_dS, describes_dX, describes_dT, ?_⟩
  unfold SameShape; decide +kernel

/-- Accepts: the weir is open for every charge, and nothing is parked. -/
theorem witness_EngineReady (ws : List Work) : EngineReady (lab u1) (streaming (lab u1)) ws :=
  ⟨by decide +kernel, .inl (by decide +kernel)⟩

set_option maxRecDepth 20000 in
/-- LocksCalibrationAndBlocksAreAccepted: a block of one row micro-op that names row 1,023 of the data rows, and 1,024. -/
theorem witness_Blocks :
    let w := encode (.rowcp 24 0)
    Reads (lab u1) ((lab u1).self.pc + 4) w ∧ (lab u1).vec = false ∧
      governable w = true ∧ (lab u1).self.loops = [] ∧ (lab u1).self.cur = true ∧ decodeWord w = some (.rowcp 24 0) ∧
      (∀ c ∈ codesNamed (.rowcp 24 0), c.toNat < 24 → 1023 + c.toNat ≤ 1023) ∧
      ¬ ∀ c ∈ codesNamed (.rowcp 24 0), c.toNat < 24 → 1024 + c.toNat ≤ 1023 := by
  refine ⟨⟨by decide +kernel, rfl⟩, rfl, ?_⟩
  decide +kernel

/-- A `pprog` on a group that its bank has opened. -/
def block : State :=
  { one u0 with
    rowCtx := some (1, 0)
    comp := [(2, ⟨List.replicate 6 1⟩)]
    ops := [{ id := 1, slot := 0, tag := 0, work := .pprog desc0 100 [], groups := [⟨0, [2, 3], true, 0, []⟩] }] }

/-- RowOperations: no block; a block's group, no margin error, six compute rows, and legal row micro-ops at the last data
row and among the compute rows. -/
theorem witness_RowOperations :
    (one u0).rowCtx = none ∧ block.rowCtx.isSome = true ∧ block.rowGroup.isSome = true ∧
      (∀ p, block.rowGroup = some p → p.1.margins = [] ∧ p.2.subs.Nodup ∧ ∀ m ∈ p.2.subs, (block.comp.get {} m).rows.length = 6) ∧
      block.inp.amounts = [] ∧ (∀ x, block.migOf x = []) ∧
      (∀ f ∈ ([.rowcp 0 23, .rowcp 24 0, .rownot 28 0, .rowmaj 24 25 28, .rowshl 27 0 1, .rowshr 0 31 31] : List Instr),
        rowLegal f = true ∧ ∀ e ∈ codesNamed f, e.toNat < 24 → 1000 + e.toNat ≤ 1023) := by
  refine ⟨rfl, rfl, rfl, ?_, rfl, migOf_nil _ rfl, by decide +kernel⟩
  intro p hp
  obtain rfl := (Option.some.inj hp).symm
  exact ⟨rfl, by decide, by decide +kernel⟩

/-- A plant header with its planes in the scratchpad: element row 1, accumulators from 2 on. -/
def planted (h : Nat) : State :=
  { lab u1 with mem := (0x1801F, 0x80) :: (List.range 8).filterMap fun i =>
      if h / 256 ^ i % 256 = 0 then none else some (2 ^ 40 + i, BitVec.ofNat 8 (h / 256 ^ i)) }

set_option maxRecDepth 20000 in
/-- PlantsAndFoldsAreAccepted: a broadcast operand, and one plane for each subarray; folds on an unsigned region and on an
e2m1 region with its scale bytes, the accumulators up to the last one; each way in which a fold does not fit. -/
theorem witness_Plants :
    PlantBlock (streaming (planted 0x0000000100000002)) 0 8 1 0x0000000100000002 ∧ PlantBlock (streaming (planted 0)) 0 1 1 0 ∧
      Describes (planted 0x0000000100000002) 0x10000 .read desc0 (streaming (planted 0x0000000100000002)) ∧
      Describes (planted 0) 0x10000 .read desc0 (streaming (planted 0)) ∧
      desc0.basin = (lab u1).myBasin ∧ ((lab u1).strand (lab u1).cur).isSome = true := by
  refine ⟨?_, ?_, describes rfl, describes rfl, by decide +kernel, by decide +kernel⟩
  all_goals unfold PlantBlock; decide +kernel

set_option maxRecDepth 20000 in
theorem readScales_dE : (streaming (lab u1)).readScales dE 0 =
    .ok (List.replicate 256 0) ((streaming (lab u1)).setSelf { u1 with faultElem := 255 }) := by rfl

theorem witness_Folds :
    dE.basin = (lab u1).myBasin ∧ 0 < dE.stack ∧
      4095 + foldSpan dE 2 ≤ 4096 ∧ 3 < desc0.stack ∧ 4094 + foldSpan desc0 0 ≤ 4096 ∧ 4096 < 4095 + foldSpan desc0 0 ∧
      desc0.stack ≤ 4 ∧ 2 ^ 28 - 1 < 2 ^ 28 ∧ 2 ^ 28 ≤ 2 ^ 28 := by decide +kernel

theorem witness_FoldFits :
    FoldFits (streaming (lab u1)) (streaming (lab u1)) desc0 0 3 4094 [] ∧
      FoldFits (streaming (lab u1)) ((streaming (lab u1)).setSelf { u1 with faultElem := 255 }) dE 2 0 4095 (List.replicate 256 0) := by
  refine ⟨⟨by decide +kernel, by decide +kernel, by decide +kernel, ?_⟩, ⟨witness_Folds.1, by decide +kernel, witness_Folds.2.2.1, ?_⟩⟩
  · rw [if_neg (by decide +kernel)]; exact ⟨rfl, rfl⟩
  · rw [if_pos (by decide +kernel)]; exact ⟨readScales_dE, .inr rfl⟩

/-- AccumulatorsAreReadAndCleared: the last accumulators, and one beyond; no fold outstanding. -/
theorem witness_Accumulators :
    (one (vec 512)).busyIn (one (vec 512)).cur [6] = false ∧ (1 : BitVec 2) ≠ 3 ∧ 3584 + 512 ≤ 4096 ∧ 4096 < 3585 + 512 ∧
      VReady (one (vec 512)) [(12, 512)] 64 ∧ VReady (one (vec 512)) [(12, 1)] 0 := by
  unfold VReady WeirOpen; decide +kernel

/-- BankOperationsAreAccepted: two elements and their partners in one bank; and none. -/
theorem witness_BankOperations :
    let s := one { u0 with g := [(1, 0x2000), (2, 0x3000), (3, 2)] }
    (∀ j, j < 2 → BankElement s (0x2000 + BitVec.ofNat 64 (j * 4)) 32 true (0x2000 + 4 * j) ∧
      BankElement s (0x3000 + BitVec.ofNat 64 (j * 4)) 32 false (0x3000 + 4 * j) ∧
      (0x2000 + 4 * j) / 2 ^ 27 = (0x3000 + 4 * j) / 2 ^ 27) ∧
      (s.getG 3).toNat % 2 ^ 32 = 2 ∧ (s.getG 4).toNat % 2 ^ 32 = 0 := by
  refine ⟨fun j hj => ?_, by decide +kernel, by decide +kernel⟩
  obtain rfl | rfl : j = 0 ∨ j = 1 := by omega
  all_goals
    exact ⟨⟨⟨rfl, by decide⟩, fun _ => ⟨rfl, by decide⟩, by decide, by decide +kernel⟩,
      ⟨⟨rfl, by decide⟩, fun _ => ⟨rfl, by decide⟩, by decide, by decide +kernel⟩, by decide⟩

/-- AqueductCommandsAreAccepted, LeasedCopiesAreReleased: a line of peer 3 and a local line, the least and the greatest
count, misaligned addresses, and a collective of two ranks. -/
theorem witness_Aqueduct :
    let y := streaming (lab u1)
    y.remoteRange 0x30000 64 .write = .ok [(3, 0x30000)] y ∧ y.remoteRange 0x30000 64 .read = .ok [(3, 0x30000)] y ∧
      y.remoteRange 0x30000 8 .write = .ok [(3, 0x30000)] y ∧ y.localRange 0x10000 64 .read = .ok ⟨0, [0x10000]⟩ y ∧
      y.localRange 0x10000 64 .write = .ok ⟨0, [0x10000]⟩ y ∧ afterWeir (lab u1) [(14, 1)] = lab u1 :=
  ⟨rfl, rfl, rfl, rfl, rfl, rfl⟩

theorem witness_AqueductOperands :
    (0x30000 : Word).toNat % 64 = 0 ∧ 64 ≤ 64 ∧ 2 ^ 24 ≤ 2 ^ 24 ∧ (0x10001 : Word).toNat % 64 ≠ 0 ∧ (lab u1).self.parked = none ∧
      VReady (lab u1) [(14, 1)] 0 := by
  unfold VReady WeirOpen; decide +kernel

/-- The descriptor of a collective at 0x10300. -/
def collDesc : Nat := leRead (lab u1).byteAt 0x10300 64

set_option maxRecDepth 20000 in
/-- CollectivesAreAccepted: an address that is no multiple of 64; a descriptor within its limits and ones that break them (op 3, an
ALG of 3, a root that a reduction does not have, a group of 1, a TMO of 0); WORK that overlaps SEND. -/
theorem witness_CollectiveDescriptor :
    (0x10301 : Word).toNat % 64 ≠ 0 ∧ (0x10300 : Word).toNat % 64 = 0 ∧ CollDescOk collDesc ∧
      (∀ d ∈ ([3, 3 * 2 ^ 16, 2 ^ 24] : List Nat), ¬ CollDescOk (collDesc + d)) ∧ ¬ CollDescOk (collDesc - 2 ^ 32) ∧
      ¬ CollDescOk (collDesc - 2 ^ 96) ∧ Overlap 0x10400 64 0x10400 32 ∧ ¬ Overlap 0x10480 8 0x10400 4 := by
  refine ⟨by decide, by decide, ?_, ?_, ?_, ?_, ⟨0x10400, by decide, by decide, by decide, by decide⟩, ?_⟩
  · unfold CollDescOk; decide +kernel
  · unfold CollDescOk; decide +kernel
  · unfold CollDescOk; decide +kernel
  · unfold CollDescOk; decide +kernel
  · rintro ⟨x, h1, h2, h3, h4⟩; omega

/-- CollectivesAreAccepted: the reads of the descriptor and of the group, and the ranges, of a collective of two ranks; entries with
a reserved bit, and a peer without the switch. -/
theorem witness_Collective :
    okIs ((streaming (lab u1)).localRead 0x10300 64) collDesc (streaming (lab u1)) = true ∧
      okIs ((streaming (lab u1)).readGroup (fieldAt collDesc 0x28 8) 2) [(0, 0), (3, 0x30000)] (streaming (lab u1)) = true := by
  constructor <;> decide +kernel

theorem witness_CollectiveRanges :
    let r (o n : Nat) (k : Access) := (streaming (lab u1)).localRange (BitVec.ofNat 64 (fieldAt collDesc o 8)) n k
    okIs (r 0x10 4 .read) ⟨0x400, [0x10000]⟩ (streaming (lab u1)) = true ∧
      okIs (r 0x18 4 .write) ⟨0x440, [0x10000]⟩ (streaming (lab u1)) = true ∧
      okIs (r 0x20 8 .write) ⟨0x480, [0x10000]⟩ (streaming (lab u1)) = true ∧
      okIs (r 0x30 24 .write) ⟨0x4C0, [0x10000]⟩ (streaming (lab u1)) = true := by
  refine ⟨?_, ?_, ?_, ?_⟩ <;> decide +kernel

theorem witness_CollectivePeers :
    (streaming (lab u1)).remoteRange 0x30000 8 .write = .ok [(3, 0x30000)] (streaming (lab u1)) ∧
      (0 : Word).toNat / 2 ^ 12 = 0 ∧ (3 : Word).toNat / 2 ^ 12 = 0 ∧ (0x1003 : Word).toNat / 2 ^ 12 ≠ 0 ∧
      (lab u1).self.parked = none ∧ ((lab u1).peerEntry 3).getLsbD 62 = false :=
  ⟨rfl, by decide, by decide, by decide, rfl, by decide +kernel⟩

theorem witness_CollectiveSwitch : (({ lab u1 with mem := [(0x1801F, 0xC0)] } : State).peerEntry 3).getLsbD 62 = true := by
  decide +kernel

theorem devMem_low (x : Nat) (hx : x < 2 ^ 20) : isDevMem x = true := by
  have h1 : x / 2 ^ 36 = 0 := by omega
  have h2 : x / 2 ^ 27 % 512 = 0 := by omega
  have h3 : x / 2 ^ 20 % 128 = 0 := by omega
  have h4 : x < 2 ^ 40 := by omega
  unfold isDevMem inReservoir paBasin paBank paSub
  rw [h1, h2, h3, decide_eq_true h4]
  rfl

/-- An area of any size up to 1 MiB from address 0 on is device memory. -/
theorem devRange_low (n : Nat) (h : n ≤ 2 ^ 20) : devRange 0 n = true := by
  unfold devRange
  by_cases h0 : n = 0
  · simp [h0]
  · have h1 : (n + 2 ^ 20 - 1) / 2 ^ 20 = 1 := by omega
    rw [h1]
    simp only [devRange.go, Nat.zero_mul, Nat.add_zero, devMem_low 0 (by decide), devMem_low (0 + n - 1) (by omega), Bool.and_self, Bool.or_true]

theorem witness_areaOk (t : Strand) (h : t.vlen ≤ 32768) : t.areaOk 0 = true := by
  have hs : t.areaSize ≤ 2 ^ 20 := by
    have : Config.vframeSize t.lgc.toNat t.sw.toNat ≤ 98304 := Nat.min_le_right _ _
    unfold Strand.areaSize; omega
  simp [Strand.areaOk, devRange_low _ hs]

/-- VsaveThenVrestore: privileged mode, an area at address 0, nothing outstanding, eight lane groups. -/
theorem witness_Vsave :
    (one u0).self.cur = true ∧ (one u0).self.areaOk ((one u0).getG 1).toNat = true ∧ (one u0).busyIn 0 [0, 1, 2, 3, 4] = false ∧
      (one u0).self.lgc.toNat ≤ 3 ∧ (one u0).granted = [] ∧ (one u0).inBoot (one u0).self.ctxid = true ∧ (one u0).cur / 8 < 256 ∧
      ∀ p, (one u0).migOf p = [] :=
  ⟨by decide +kernel, witness_areaOk _ (by decide +kernel), by decide +kernel, by decide +kernel, rfl, by decide +kernel,
    by decide +kernel, migOf_nil _ rfl⟩

/-! ### Witnesses: bring-up, the lease, queues and launches -/

/-- A result that goes on with a value and a state of which a Boolean holds. -/
def okB {α : Type} (x : Res α) (P : α → State → Bool) : Bool :=
  match x with
  | .ok a z => P a z
  | _ => false

theorem of_okB {α : Type} {x : Res α} {P : α → State → Bool} (h : okB x P = true) :
    ∃ a z, x = .ok a z ∧ P a z = true := by
  cases x with
  | ok a z => exact ⟨a, z, rfl, h⟩
  | trap c v z => exact absurd h Bool.false_ne_true
  | wait w z => exact absurd h Bool.false_ne_true

/-- A result that is a trap. -/
def isTrap {α : Type} (x : Res α) : Bool :=
  match x with
  | .trap _ _ _ => true
  | _ => false

theorem of_isTrap {α : Type} {x : Res α} (h : isTrap x = true) : ∃ c v z, x = .trap c v z := by
  cases x with
  | ok a z => exact absurd h Bool.false_ne_true
  | trap c v z => exact ⟨c, v, z, rfl⟩
  | wait w z => exact absurd h Bool.false_ne_true

/-- A device with its annex and what a step brings. -/
def dev (a : Annex) (i : Input) : State := { State.reset with annex := a, inp := i }

/-- The annex in RUN with port 0 up. -/
def up : Annex := { bootState := 3, linkUp := [0], inc0 := 4 }

/-- A message of port 0. -/
def from0 (v : Word) : Input := { port := 0, inc := 4, value := v }

/-- BringUpSteps: each state from which a step leads on, and the recovery command. -/
theorem witness_BringUp :
    (dev { bootState := 1 } {}).annex.bootState = 1 ∧ (dev {} {}).annex.bootState = 0 ∧ (dev { bootState := 2 } {}).inp.amounts = [] ∧
      FromHost (dev { up with bootState := 4 } (from0 1)) ∧ (from0 1).value = 1 := by
  unfold FromHost; decide +kernel

/-- BringUpSteps, VERIFY: every image passes its checks or fails one; which ones pass is left open. -/
theorem witness_Verify (s : State) : (∀ k, k < 4 → checkPasses s k) ∨ ∃ k, k < 4 ∧ ¬ checkPasses s k := by
  by_cases h : ∀ k, k < 4 → checkPasses s k
  · exact .inl h
  · simp only [Classical.not_forall] at h
    obtain ⟨k, hk, hp⟩ := h
    exact .inr ⟨k, hk, hp⟩

/-- BringUpSteps, VERIFY: the version check under a counter of 0 passes for every image. -/
theorem witness_VerifyVersion : checkPasses (dev { bootState := 1 } {}) 2 := Nat.zero_le _

/-- AttestationAndLinks: a mailbox at rest, with each command in progress, and a width and a speed that just suffice. -/
theorem witness_Attestation :
    let s (c : Nat) : State := dev { up with mailbox := Table.set 0 [] 0xF8 (BitVec.ofNat 8 c) } (from0 0)
    FromHost (s 0) ∧ mailAt (s 0) 0xF8 8 ∉ ([1, 3, 4] : List Nat) ∧ mailAt (s 2) 0xF8 8 ∉ ([1, 3, 4] : List Nat) ∧
      mailAt (s 1) 0xF8 8 = 1 ∧ mailAt (s 3) 0xF8 8 = 3 ∧ mailAt (s 4) 0xF8 8 = 4 ∧ 8 ≤ 8 ∧ 32 ≤ 32 ∧
      (dev {} (from0 0)).annex.linkUp.contains (dev {} (from0 0)).inp.port = false ∧ ¬ Holds (s 0) 0 ∧
      Holds (dev { up with active := 1, expiry := 1 } (from0 0)) 0 := by
  unfold FromHost Holds; decide +kernel

/-- A later piece of the certificate: only a certificate of more than 192 bytes has one, and its length is left open. -/
theorem witness_CertificatePiece (h : 192 < Config.certLength) : 0 < 1 ∧ 1 * 192 < Config.certLength := ⟨by decide, by omega⟩

/-- HostLeaseChangesHands: a lease that the port holds, that the other port holds, that nobody holds, and one that has run out;
admissible and inadmissible writes of it. -/
theorem witness_HostLease :
    let live := dev { up with active := 1, expiry := 50 } (from0 (2 ^ 62 + 100000))
    let other := dev { up with active := 2, expiry := 50 } (from0 (2 ^ 62 + 100000))
    let free := dev up (from0 (2 ^ 62 + 1))
    let old : State := { live with clk := 50 * 1100 }
    FromHost live ∧ live.annex.bootState = 3 ∧ Holds live 0 ∧ Admissible live 0 (2 ^ 62 + 100000) ∧ Admissible live 0 (2 ^ 62 + 1) ∧
      ¬ Admissible live 0 (2 ^ 62 + 100001) ∧ (2 ^ 62 + 100001 : Word).extractLsb' 62 2 ≠ 0 ∧ free.annex.active = 0 ∧
      Admissible free 0 (2 ^ 62 + 1) ∧ free.agenda = [] ∧ (5 : Word).extractLsb' 62 2 = 0 ∧
      Holds other ((0 : BitVec 1) ^^^ 1) ∧ FromHost other ∧ (¬ Holds free 0 ∧ ¬ Holds free (0 ^^^ 1) ∧ ¬ Admissible free 0 0) ∧
      old.annex.active ≠ 0 ∧ old.annex.expiry ≤ old.us ∧ Admissible old 0 (2 ^ 62 + 51) ∧ FromHost old := by
  unfold FromHost Holds Admissible; decide +kernel

/-- The annex in RUN with port 0 the holder of the lease. -/
def owner : Annex := { up with active := 1, expiry := 1000 }

/-- QueuesAndRegisterWrites: a write of the owner, queues enabled and disabled, the written bits, a context that is read and
one that is not, accesses of each size and place, the size of a window, and a register of a strand in privileged mode. -/
theorem witness_Queues :
    OwnerWrites (dev owner (from0 1)) ∧ ((dev owner (from0 1)).annex.queues.get {} 0).en = false ∧
      ((dev { owner with queues := [(0, { en := true })] } (from0 1)).annex.queues.get {} 0).en = true ∧
      (1 : Word).getLsbD 0 = true ∧ (2 : Word).getLsbD 1 = true ∧ (0 : Word).getLsbD 0 = false ∧
      (dev owner (from0 1)).inBoot 0 = true ∧ (dev owner (from0 1)).inBoot 5 = false ∧ ((dev owner (from0 1)).ctxDesc 5).isSome = false ∧
      OwnerWrites (dev owner { from0 1 with off := 0x40, canRead := false, size := 8 }) ∧
      FromHost (dev owner { from0 1 with off := 0x30, canRead := true, size := 8 }) ∧
      FromHost (dev owner { from0 1 with off := 0x34, size := 8 }) ∧ (0x34 % 8 ≠ 0) ∧ FromHost (dev owner { from0 1 with size := 4 }) ∧
      FromHost (dev owner { from0 128 with part := 2 }) ∧ ({ one u0 with inp := { part := 1, code := 0xC5 } } : State).strand 0 = some u0 ∧
      u0.cur = true := by
  unfold OwnerWrites FromHost Holds; decide +kernel

/-- A launch record: one core, the code at 0x10000, the area table at 0x50000, the completion record at 0x6000. -/
def recordBytes : List (Nat × Byte) :=
  [(0x20000, 1), (0x20003, 0x30), (0x20006, 1), (0x20007, 1), (0x2000A, 1), (0x20010, 4), (0x2002A, 5), (0x20031, 0x60)]

/-- A queue with that record at its head. -/
def queued (ctx : BitVec 16) : State :=
  { dev { owner with queues := [(0, { base := 0x400, ctx := ctx, en := true, tail := 1 })] } {} with mem := recordBytes }

/-- The record at the head of `queued 0`, as a number. -/
def recordValue : Nat := recordBytes.foldl (fun v e => v + e.2.toNat * 256 ^ (e.1 - 0x20000)) 0

/-- The same record held by the annex, whose check waits. -/
def held0 : Launch := { parseLaunch 0 0 0 0 recordValue with phase := .reading, raw := recordValue }

/-- A queue of context 0 with that launch. -/
def reading (l : Launch) : State := { queued 0 with annex := { (queued 0).annex with launches := [l] } }

/-- RecordsBecomeRunnable: a queue whose head is read, and its record. -/
theorem witness_RecordSlot : ∃ z, AnnexDoes (queued 0) 0 0 0 (fun s => s.readSlot ((queued 0).annex.queues.get {} 0)) recordValue z := by
  have h : okB ((queued 0).asAnnex (annexSlot 0 0) 0 (fun s => s.readSlot ((queued 0).annex.queues.get {} 0)))
      (fun v _ => decide (v = recordValue)) = true := by decide +kernel
  obtain ⟨v, z, he, hv⟩ := of_okB h
  obtain rfl := of_decide_eq_true hv
  exact ⟨z, he⟩

/-- A slot that cannot be read. -/
theorem witness_RecordTrap :
    ∃ c v z, (queued 5).asAnnex (annexSlot 0 0) 5 (fun s => s.readSlot ((queued 5).annex.queues.get {} 0)) = .trap c v z :=
  of_isTrap (by decide +kernel)

/-- A held record that no code refuses, with no signal, and one with code 1. -/
theorem witness_RecordChecked :
    (∃ areas copies w m, AnnexDoes (reading held0) 0 0 0 (fun s => s.examine held0.raw held0.bind) (0, areas, copies) w ∧
      w.launchOf 0 = some m ∧ m.sigs = [] ∧ w.strand (annexSlot m.id m.queue) = none) ∧
    ∃ code areas copies w, AnnexDoes (reading { held0 with raw := 0 }) 0 0 0 (fun s => s.examine 0 held0.bind) (code, areas, copies) w ∧
      code ≠ 0 := by
  constructor
  · have h : okB ((reading held0).asAnnex (annexSlot 0 0) 0 (fun s => s.examine held0.raw held0.bind))
        (fun r w => decide (r.1 = 0) && match w.launchOf 0 with
          | some m => decide (m.sigs = [] ∧ w.strand (annexSlot m.id m.queue) = none)
          | none => false) = true := by decide +kernel
    obtain ⟨⟨code, areas, copies⟩, w, he, hp⟩ := of_okB h
    obtain ⟨hr, hm⟩ := (Bool.and_eq_true _ _).mp hp
    split at hm
    · next m hl => exact ⟨areas, copies, w, m, he.trans (by rw [show code = 0 from of_decide_eq_true hr]), hl, of_decide_eq_true hm⟩
    · exact absurd hm Bool.false_ne_true
  · have h : okB ((reading { held0 with raw := 0 }).asAnnex (annexSlot 0 0) 0 (fun s => s.examine 0 held0.bind))
        (fun r _ => decide (r.1 ≠ 0)) = true := by decide +kernel
    obtain ⟨r, w, he, hp⟩ := of_okB h
    exact ⟨r.1, r.2.1, r.2.2, w, he, of_decide_eq_true hp⟩

theorem witness_RecordFresh : ∀ s ∈ ([queued 0, queued 5] : List State),
    s.annex.bootState = 3 ∧ (s.annex.queues.get {} 0).en = true ∧ (s.annex.queues.get {} 0).err = false ∧
      (s.annex.queues.get {} 0).head ≠ (s.annex.queues.get {} 0).tail ∧ s.annex.launches = [] := by decide +kernel

theorem witness_RecordKept : (reading held0).headIn 0 .reading = some held0 := by decide +kernel

/-- A launch of core 0 in the boot context. -/
def launch0 : Launch := { id := 3, queue := 0, recno := 0, ctx := 0, bind := { launch := 3, w := 1, h := 1 }, compl := 0x6000 }

/-- The annex with a launch in queue 0. -/
def with0 (l : Launch) : State := dev { owner with queues := [(0, { en := true })], launches := [l] } { unit := 3 }

/-- A head that waits for a signal at 0x7000. -/
def signalled (v : Word) : Launch := { launch0 with sigs := [(0x7000, false, v)] }

/-- RecordsBecomeRunnable: a head that waits for a signal, and the read of one. -/
theorem witness_Signals (v : Word) :
    (with0 (signalled v)).headIn 0 .waiting = some (signalled v) ∧ (signalled v).phase = .waiting ∧
      signalled v ∈ (with0 (signalled v)).annex.launches := ⟨rfl, rfl, List.mem_singleton.2 rfl⟩

theorem witness_SignalRead : ∃ v z, (queued 0).readWide 0x20000 8 = .ok v z ∧ v ≠ 0 := by
  have h : okB ((queued 0).readWide 0x20000 8) (fun v _ => decide (v ≠ 0)) = true := by decide +kernel
  obtain ⟨v, z, he, hv⟩ := of_okB h
  exact ⟨v, z, he, of_decide_eq_true hv⟩

theorem witness_SignalMatches :
    ∃ z, AnnexDoes (with0 (signalled 0)) 3 0 0 (fun s => s.readSignals (signalled 0).sigs) true z := by
  have h : okB ((with0 (signalled 0)).asAnnex (annexSlot 3 0) 0 (fun s => s.readSignals (signalled 0).sigs))
      (fun b _ => b) = true := by decide +kernel
  obtain ⟨b, z, he, hb⟩ := of_okB h
  obtain rfl : b = true := hb
  exact ⟨z, he⟩

theorem witness_SignalDiffers :
    ∃ z, AnnexDoes (with0 (signalled 1)) 3 0 0 (fun s => s.readSignals (signalled 1).sigs) false z := by
  have h : okB ((with0 (signalled 1)).asAnnex (annexSlot 3 0) 0 (fun s => s.readSignals (signalled 1).sigs))
      (fun b _ => !b) = true := by decide +kernel
  obtain ⟨b, z, he, hb⟩ := of_okB h
  cases b with
  | false => exact ⟨z, he⟩
  | true => exact absurd hb Bool.false_ne_true

/-- RefusalCodesApply: a device one of whose links, to which a line must go, is down. -/
def away (l : Launch) : State := { reading l with resv := [(5, ⟨1, true, false, true, 1⟩)] }

theorem noCode (area : Nat → Option Nat) (h : area 0 = some 0) (c : Nat) : ¬ CodeApplies recordValue 1 area (fun _ => none) c := by
  rintro (h1 | ⟨-, i, a, hi, ha, h2⟩ | ⟨-, ⟨j, d, h1, -⟩ | ⟨h1, -⟩⟩ | ⟨-, ⟨i, hi, h1⟩ | ⟨j, h1, -⟩⟩)
  · rcases c with _ | _ | _ | _ | _ | _ | _ | _ | _ | c
    · exact h1
    all_goals first | exact h1 | (simp only [Breaks] at h1; exact absurd h1 (by decide +kernel))
  · obtain rfl : i = 0 := by omega
    rw [h] at ha
    obtain rfl := Option.some.inj ha
    simp at h2
  · exact h1.1 (by decide +kernel)
  · exact h1.1 (by decide +kernel)
  · obtain rfl : i = 0 := by omega
    rw [h] at h1
    exact absurd h1 (by simp)
  · exact h1.1 (by decide +kernel)

/-- RefusalCodesApply: a record to which no code applies, with its one area read; one to which code 2 applies and not code 1;
and a signal whose read faults. -/
theorem witness_RefusalCodes :
    let l : Launch := { held0 with bind := { held0.bind with w := 1, h := 1 } }
    let wide : Launch := { l with raw := recordValue + 24 * 256 ^ 6 }
    let hole : Launch := { l with phase := .waiting, sigs := [(0xC00000000, false, 0)] }
    (∀ x ∈ ([l, wide, hole] : List Launch), (away x).launchOf x.id = some x ∧ (away x).strand (annexSlot x.id x.queue) = none ∧
      ((away x).awayPort fun _ => true).isSome = true) ∧
    (away l).headIn 0 .reading = some l ∧ (away wide).headIn 0 .reading = some wide ∧ (away hole).headIn 0 .waiting = some hole ∧
    fieldAt l.raw 0x38 8 = 0 ∧ l.sigs = [] ∧
    okIs ((annexView (away l) l).readWide (BitVec.ofNat 64 (fieldAt l.raw 0x28 8)) 16) 0 (annexView (away l) l) = true ∧
    isTrap ((annexView (away hole) hole).readWide 0xC00000000 8) = true := by
  decide +kernel

theorem witness_RefusalLowest :
    let v := recordValue + 24 * 256 ^ 6
    Breaks v 2 ∧ ¬ Breaks v 1 ∧ ¬ Breaks v 0 := by
  simp only [Breaks]; decide +kernel

/-- AdmissionStartsTheRoots: a runnable head that fits, without and with an early copy; one whose core is taken; one behind a
head whose core is taken; and one whose core is reserved for the head of a stopped queue. -/
theorem witness_Admission :
    let l : Launch := { launch0 with phase := .runnable none }
    let e : Launch := { l with copies := [⟨0x2000, 0x3000, 1, false⟩, ⟨0x2000, 0x3000, 1, true⟩] }
    let second : Launch := { l with id := 4, queue := 1, bind := { l.bind with launch := 4, x0 := 1 } }
    let two : State := { dev { owner with queues := [(0, { en := true }), (1, { en := true })], launches := [l, second] } {} with
                           strands := [(0, u0)], nextId := 9 }
    let held : Launch := { l with id := 5, queue := 2, phase := .runnable (some 1) }
    let barred : State := dev { owner with queues := [(0, { en := true }), (2, { en := true, err := true })], launches := [l, held] } {}
    (∀ x ∈ ([l, e] : List Launch), (with0 x).runnables = [x] ∧ (with0 x).reservedFrom x = false ∧ (with0 x).fits x = true ∧
      x.bind.cores.Nodup ∧ (with0 x).inBoot x.ctx = true ∧ (with0 x).annex.bootState = 3 ∧
      ((with0 x).annex.launches.map (·.id)).Nodup ∧ x.place = none) ∧
    (∀ d ∈ l.copies, d.late = true) ∧ (∃ d ∈ e.copies, d.late = false) ∧ (with0 l).annex.suspState < 2 ∧
    ({ with0 l with strands := [(0, u0)] } : State).fits l = false ∧
    (two.runnables = [l, second] ∧ two.fits l = false ∧ two.fits second = true ∧ two.reservedFrom second = false ∧
      (two.annex.launches.map (·.id)).Nodup ∧ ∀ c ∈ l.bind.cores, c ∉ second.bind.cores) ∧
    barred.runnables = [l] ∧ barred.reservedFrom l = true := by
  decide +kernel

/-- CopiesMoveTheirBytes: the only descriptor of phase 0, one of two, the last one of phase 1, and a launch that has ended. -/
theorem witness_Copies :
    let d : CopyDesc := ⟨0x2000, 0x2001, 1, false⟩
    let l (c : List CopyDesc) (p : Phase) : Launch := { launch0 with copies := c, phase := p, slots := [0] }
    let a := l [d] .copying
    let b := l [d, d] .copying
    let e := l [{ d with late := true }] .leaving
    (∀ x ∈ ([a, b, e] : List Launch), (with0 x).launchOf (with0 x).inp.unit = some x ∧ x.id = (with0 x).inp.unit ∧ x.copied = 0 ∧
      x.ctx = 0 ∧ (with0 x).strand (annexSlot x.id x.queue) = none ∧ x.slots.Nodup ∧ (∀ n ∈ x.slots, n < 1536) ∧
        ∀ y ∈ (with0 x).strands, y.1 < 1536 → y.2.bind.launch ≠ x.id) ∧
      a.copies.drop a.next = d :: [] ∧ b.copies.drop b.next = d :: [d] ∧ e.copies.drop e.next = { d with late := true } :: [] ∧
      (0x2000 + 1 ≤ 0x2001) ∧ isDevMem 0x2000 = true ∧ isDevMem 0x2001 = true ∧ (l [] .running).live = 0 := by decide +kernel

/-- The boot context with nothing in the way of an access. -/
theorem witness_Calm (l : Launch) : Calm (with0 l) :=
  ⟨rfl, rfl, rfl, rfl, migOf_nil _ rfl, inPool_nil _ rfl⟩

/-- RecordsStartAndStrandsEnd: a record of one lane group in queue 0 of basin 0, and a strand that has ended. -/
theorem witness_Pops :
    let s : State := { with0 { launch0 with phase := .running } with
      inp := { unit := 0 }, mem := [(0x4000, 0x10), (0x4020, 3), (0x4035, 1), (0x4036, 1)]
      basins := [(0, { cq := [(0, { base := 4, log2n := 1, tail := 1 })] })] }
    let b := bindingOf (s.readCo 0x4020 32) { launch0 with phase := .running }
    0 < 12 ∧ s.inBoot b.ctx = true ∧ s.annex.suspState < 2 ∧ s.popQueue 0 = some 0 ∧ b.launch = 3 ∧ (s.launchOf b.launch).isSome = true ∧
      s.placeFor 0 b (fieldAt (s.readCo 0x4000 32) 0x18 1 % 4) = some (0, 0) := by decide +kernel

theorem witness_StrandEnd :
    let u : Strand := { u0 with st := .ended }
    (one u).strand 0 = some u ∧ u.doubled = none ∧ u.children = [] ∧ u.parent = none ∧ u.join = 0 ∧ ∀ o ∈ (one u).ops, o.slot ≠ 0 := by
  decide +kernel

/-- A strand that has ended with the counter at 0x3000, or behind a record at 0x2000 of priority 3. -/
def joined (b : Nat) (q : ContQueue) : State := { record 0x3000 b q with strands := [(0, { u0 with st := .ended, join := 0x3000 })] }

theorem plainJoined (b : Nat) (q : ContQueue) (pa : Nat) (h : isDevMem pa = true) (hp : (joined b q).inPool pa = false) :
    PlainAt (joined b q) pa :=
  ⟨h, hp, rfl, fun _ h => absurd h List.not_mem_nil, rfl, fun _ h => absurd h List.not_mem_nil⟩

/-- StrandsEndWithTheirCounter: a counter that is read and written, its pointer and its record; the checks of the record and of its
ring are those of CjoinDecrementsAndCendEnds. -/
theorem witness_StrandEndCounter (b : Nat) (q : ContQueue)
    (h : (b, q) ∈ ([3, 4] : List Nat).flatMap fun b =>
      ([{}, { base := 4, log2n := 1, tail := 1 }] : List ContQueue).map fun q => (b, q)) :
    Readable (joined b q) 0x2000 0x2000 ∧ Readable (joined b q) 0x3000 0x3000 ∧ Readable (joined b q) 0x3008 0x3008 ∧
      Reaches (joined b q) 0x3000 .write (.dev 0x3000) ∧ (∀ x, (joined b q).migOf x = []) ∧ CachesHaveSpace (joined b q) ∧
      (joined b q).leased 0x101 = false ∧ leRead (joined b q).byteAt 0x3000 4 = 1 ∧ leRead (joined b q).byteAt 0x3008 8 = 0x2000 := by
  simp only [List.flatMap_cons, List.flatMap_nil, List.map_cons, List.map_nil, List.cons_append, List.nil_append,
    List.append_nil, List.mem_cons, List.not_mem_nil, or_false, Prod.mk.injEq] at h
  rcases h with h | h | h | h <;> obtain ⟨rfl, rfl⟩ := h <;>
    exact ⟨⟨reaches (by decide +kernel) (by decide), rfl, plainJoined _ _ _ (by decide) (by decide +kernel)⟩,
      ⟨reaches (by decide +kernel) (by decide), rfl, plainJoined _ _ _ (by decide) (by decide +kernel)⟩,
      ⟨reaches (by decide +kernel) (by decide), rfl, plainJoined _ _ _ (by decide) (by decide +kernel)⟩,
      reaches (by decide +kernel) (by decide), fun _ => rfl, spaceAt _ rfl rfl rfl, rfl, by decide +kernel, by decide +kernel⟩

theorem witness_StrandEndJoined :
    let s := joined 3 {}
    let u : Strand := { u0 with st := .ended, join := 0x3000 }
    s.strand 0 = some u ∧ u.doubled = none ∧ u.children = [] ∧ u.parent = none ∧ u.join ≠ 0 ∧ u.exl = false ∧ u.resumed = false ∧
      s.ops = [] ∧ u.join.toNat % 8 = 0 ∧ (0x3004 : Word).toNat % 8 ≠ 0 ∧ s.cur = 0 := by decide +kernel

/-- CompletionRecordIsWritten: a retired launch with and without its vector. -/
theorem witness_Completion :
    ∀ q ∈ ([true, false] : List Bool),
      let l : Launch := { launch0 with phase := .retired, slots := [0], irq := q }
      (with0 l).launchOf (with0 l).inp.unit = some l ∧ l.ctx = 0 ∧ (with0 l).strand (annexSlot l.id l.queue) = none ∧ l.slots ≠ [] ∧
        l.compl.toNat % 128 = 0 ∧ isDevMem l.compl.toNat = true ∧ l.compl.toNat < 2 ^ 48 ∧ l.irq = q ∧ (with0 l).hostCopies = [] ∧
        l.charged = 0 ∧ (with0 l).awayPort (fun _ => true) = none ∧
        (with0 l).annex.linkUp.contains (with0 l).leasePort = true ∧
        (with0 l).annex.active ≠ 0 ∧ (with0 l).us < (with0 l).annex.expiry ∧ (with0 l).leasePort = 0 := by decide +kernel

/-! ### Witnesses: waits, requests, faults, weirs, register writes -/

/-- AwaitedConditionsWakeTheirStrand: for each wait a state that ends it and one that does not. -/
theorem witness_Awaits :
    let w (a : Await) : Strand := { u0 with st := .wait a }
    (∀ a ∈ ([.engines [0], .counts 0 0 0 0, .event, .barrier 0 5, .boundary 0 5, .child 1, .weir, .lease 7, .peer 0 1 0, .writeBack 0,
        .link, .fill 1 2, .bank 1 1, .ats [0] 2 false] : List Await), (one (w a)).strand (one (w a)).inp.unit = some (w a)) ∧
      (∀ o ∈ (one u0).ops, o.slot = 0 → ∀ k ∈ o.work.kinds, k ∉ [0]) ∧
      (∃ o ∈ (busy (.pcal desc0)).ops, o.slot = 0 ∧ ∃ k ∈ o.work.kinds, k ∈ [0]) ∧
      u0.cntL ≤ 0 ∧ ¬ ({ u0 with cntL := 1 } : Strand).cntL ≤ 0 ∧ u0.idleDone = false ∧ ({ u0 with idleDone := true } : Strand).idleDone = true ∧
      ((barrier u0 0 0 none).group 0).gen = 5 ∧ ((one u0).group 0).gen ≠ 5 ∧
      u0.weirPass = none ∧ ({ u0 with weirPass := some 1 } : Strand).weirPass.isSome = true ∧
      (one u0).leased 7 = false ∧ ({ one u0 with granted := [⟨1, 7, 0, 0⟩] } : State).leased 7 = true ∧
      (∃ i, i < 1 ∧ u0.answers.find i = none) ∧ (∀ i, i < 1 → (({ u0 with answers := [(0, 9, 0)] } : Strand).answers.find i).isSome = true) ∧
      (many [(0, u0), (1, u0)]).awaitHolds 0 u0 (.child 1) = false ∧
      (many [(0, u0), (1, { u0 with st := .join })]).awaitHolds 0 u0 (.child 1) = true ∧
      (dev up {}).annex.linkUp.contains 0 = true ∧ (dev up {}).annex.linkUp.contains 1 = false := by decide +kernel

/-- PreemptionRequestsAreHonoured: core 191; a strand in WAIT and one in RUN outside every loop, at a loop's boundary and
inside its body; a strand in a handler, one with an instruction begun, one in a clk that is not enabled; a request of 2^20 clk. -/
theorem witness_Preemption :
    let v : Word := 0xBF0081
    let p : Strand := { u0 with preq := some 0 }
    v.toNat / 2 ^ 16 % 2 ^ 8 < 192 ∧ v.getLsbD (1528 % 8) = true ∧ 1528 / 8 = 191 ∧
      p.preq.isSome = true ∧ p.exl = false ∧ p.inside = none ∧ p.doubled = none ∧ p.vq = [] ∧ p.answers = [] ∧ p.st = .run ∧
      p.midway = false ∧ p.loops = [] ∧ (one p).strand (one p).inp.unit = some p ∧ Lit (one p) 0 ∧
      ¬ Lit { one p with quads := [(0, { eff := 0xFFFE })] } 0 ∧ ({ p with exl := true } : Strand).exl = true ∧
      ({ p with answers := [(0, 0, 0)] } : Strand).midway = true ∧ ({ p with st := .wait .event } : Strand).yields = true ∧
      0 + 2 ^ 20 ≤ 2 ^ 20 ∧ u0.preqLate = false ∧ ({ u0 with st := .wait .event } : Strand).st = .wait .event ∧
      (loopBoundary 0x1010 [⟨0x1000, 0x1010, 3, 0⟩]).2.2 = true ∧ (loopBoundary 0x1004 [⟨0x1000, 0x1010, 3, 0⟩]).2.2 = false := by
  unfold Lit; decide +kernel

/-- A strand that waits for a peer. -/
theorem witness_WaitsForPeer : WaitsForPeer { u0 with st := .wait (.peer 0 1 0) } := Or.inl ⟨0, 1, 0, rfl⟩

/-- A strand whose code range goes on where no memory is, and one whose range lies beyond 2^48. -/
def wild (base : Nat) : Strand := { u0 with bind := { codeBase := base, codeSize := 0x10000 } }

/-- FetchFaultsAreTaken: a word of zeros in the code range, the addresses on either side of the range, an address of the
range that the boot context does not map, and one beyond 2^48. -/
theorem witness_FetchFaults :
    Fetches (one u0) 0x1FFC 0 ∧ decodeWord 0 = none ∧ (one u0).inCode 0x2000 = false ∧ (one u0).inCode 0xFFC = false ∧
      (one (wild 0xC00000000)).inCode 0xC00000000 = true ∧ isDevMem 0xC00000000 = false ∧ (one u0).inBoot u0.ctxid = true ∧
      (one (wild 0x1000000000000)).inCode 0x1000000000000 = true ∧ (0x1000000000000 : Word).extractLsb' 48 16 ≠ 0 ∧
      (∀ x ∈ ([one u0, one (wild 0xC00000000)] : List State), x.inp.unit = 0 ∧ (x.core 0).turnEnd ≤ x.clk ∧ x.runsAt 0 = true ∧
        (x.core 0).lastSlot = 7 ∧ x.self.inside = none ∧ x.self.answers = [] ∧ x.self.resumed = false ∧ x.self.exl = false) ∧
      Lit (one u0) 0 := by
  have h : wordAt (one u0) 0x1FFC = 0 := by decide +kernel
  exact ⟨⟨by decide +kernel, by decide +kernel, plainAt _ _ rfl (by decide +kernel) rfl rfl rfl, by decide +kernel, h⟩,
    by decide +kernel, by decide +kernel, by decide +kernel, by decide +kernel, by decide +kernel, by decide +kernel,
    by decide +kernel, by decide +kernel, by decide +kernel, by unfold Lit; decide +kernel⟩

/-- VectorFaultsAreDumped: one record and 256 records, an area at address 0. -/
theorem witness_Dump :
    ∀ n ∈ ([1, 256] : List Nat),
      let u : Strand := { u0 with st := .dumping, faults := List.replicate n ⟨0x07, 0, 0xFF, 0, 0, 0, 0, 0, 0, 0⟩ }
      (one u).strand 0 = some u ∧ (∀ o ∈ (one u).ops, o.slot ≠ 0) ∧ u.exl = false ∧ (∀ f ∈ u.faults, f.cause ≠ 0x08) ∧
        u.faults.length ≤ 256 ∧ (one u).granted = [] ∧ (((one u).core 0).xframe.get 0 0).toNat = 0 ∧ u.vlen ≤ 32768 := by decide +kernel

/-- WeirsAdmitAndFramesLatch: one entry, with room to the last token and without, in a clk in which no register of the weir
was written; no lease that ends; no entry, and a launch whose counters are far from their end. -/
theorem witness_Weirs :
    let c (cap : BitVec 32) : Core := { queue := [⟨0, [(4, 1)]⟩], cap := cap, drain := 0, level := 256 }
    let w (cap : BitVec 32) : State := { one u0 with cores := [(0, c cap)] }
    let room (k : Core) : Prop := 256 = 0 ∨ k.level + 256 * 1 ≤ 256 * k.cap.toNat ∨ k.level = 0
    ((w 2).core 0).queue = [⟨0, [(4, 1)]⟩] ∧ ((w 2).core 0).weirWas = none ∧ 0 / 8 = 0 ∧ room (c 2) ∧ ¬ room (c 1) ∧
      ({ u0 with preq := some 0, st := .wait .weir } : Strand).yields = true ∧ ({ u0 with st := .wait .weir } : Strand).yields = false ∧
      (w 2).annex.active = 0 ∧ (w 2).deferred = [] ∧ ((w 2).quads.map (·.1)).Nodup ∧ (w 2).annex.suspState < 3 ∧
      (∀ x ∈ [launch0.busy, launch0.tpat, launch0.ttherm, launch0.tcurr, launch0.thost, launch0.tweir], x + 1 < 2 ^ 64) := by
  decide +kernel

/-- No entry in the queue of any other core, or of any core. -/
theorem witness_WeirQueues (j : Nat) : ((one u0).core j).queue = [] ∧ NoLapse (one u0) 1 ∧ NoLapse (one u0) 16 :=
  ⟨rfl, ⟨.inl rfl, rfl, .inl rfl⟩, ⟨.inl rfl, rfl, .inl rfl⟩⟩

/-- RegisterWritesWithEffects: a strand in privileged mode, the registers of view 0 and 15, no bank command outstanding; a
migration that may start, one that may not, and one under way, at its first and at its last line. -/
theorem witness_RegisterWrites :
    let m : Migration := { old := 0x100, new := 0x200 }
    (one u0).strand 0 = some u0 ∧ u0.cur = true ∧ 15 < 16 ∧ (one u0).busyIn 0 [5] = false ∧ 11 < 12 ∧ 3 < 4 ∧
      (one u0).migStarts 11 3 m = true ∧ (one u0).migStarts 11 3 { m with new := 0x100 } = false ∧
      ({ m with size := 3 } : Migration).size = 3 ∧ ({ m with state := 1, prog := 4032 } : Migration).state = 1 ∧ 4032 + 64 = 4096 ∧
      u0.vq = [] ∧ u0.inside = none ∧ u0.midway = false ∧ ({ u0 with inside := some (.frame [] 0 0 0 1 0 0) } : Strand).inside ≠ none ∧
      (one u0).migOf (0x200 * 4096) = [] ∧ (one u0).resv = [] ∧
      (one u0).leased (0x200 * 4096 / 64) = false ∧ (0 % 64 = 0) ∧ 4032 % 64 = 0 ∧ (one u0).errs = [] := by decide +kernel

/-! ### Witnesses: walks, the host's translations and accesses, evictions -/

/-- A walk's tables: the descriptor of context 0 at 0x3000, the root at 0x10000, and a leaf at level 2 or 3. -/
def tables (l : List (Nat × Byte)) : State :=
  { one u0 with
    ctxtabBase := 3, ctxtabWritten := true, inp := { unit := 0, addr := 0x200000 }
    mem := [(0x3002, 1), (0x10000, 1), (0x10001, 0x10), (0x10002, 1), (0x11000, 1), (0x11001, 0x20), (0x11002, 1)] ++ l }

def table (j : Nat) : Nat := 0x10000 + 0x1000 * j

/-- WalksFillTranslations: leaves of 2 MiB, 64 KiB and 4 KiB. -/
theorem witness_Walks :
    let s2 := tables [(0x12008, 3), (0x1200A, 0x40)]
    let s3 (l : List (Nat × Byte)) : State := tables ([(0x12008, 1), (0x12009, 0x30), (0x1200A, 1)] ++ l)
    let ok (s : State) (k : Nat) (p : BitVec 64) (size : Nat) : Prop :=
      s.strand s.inp.unit = some u0 ∧ u0.st = .run ∧ s.inp.addr.toNat < 2 ^ 48 ∧ s.ctxtabWritten = true ∧ s.errs = [] ∧
        s.findTlb u0.ctxid s.inp.addr.toNat = none ∧ s.ctxDesc u0.ctxid = some ⟨0x10000, none⟩ ∧
        WalksTo s 0x10000 s.inp.addr.toNat k p size ∧ OrdinaryRange s (frameOf p) size
    ok s2 2 0x400003 2097152 ∧ ok (s3 [(0x13000, 3), (0x13001, 1), (0x13002, 2)]) 3 0x20103 65536 ∧
      ok (s3 [(0x13000, 3), (0x13001, 0x50)]) 3 0x5003 4096 := by
  unfold WalksTo OrdinaryRange
  refine ⟨⟨rfl, rfl, ?_, rfl, rfl, ?_, ?_, ⟨rfl, table, ?_⟩, ?_⟩, ⟨rfl, rfl, ?_, rfl, rfl, ?_, ?_, ⟨rfl, table, ?_⟩, ?_⟩,
    ⟨rfl, rfl, ?_, rfl, rfl, ?_, ?_, ⟨rfl, table, ?_⟩, ?_⟩⟩ <;> decide +kernel

/-- A root entry that is not valid: the walk faults. -/
theorem witness_WalkFault :
    let s : State := { tables [] with mem := [(0x3002, 1)] }
    s.ctxDesc u0.ctxid = some ⟨0x10000, none⟩ ∧ s.isTableMem 0x10000 = true ∧
      (entryAt s 0x10000 s.inp.addr.toNat 0).getLsbD 0 = false := by decide +kernel

/-- A translation of a page, and a strand that waits for the host's. -/
def pageEntry : TlbEntry := ⟨0, 0, false, 0x5000, 4096, 0, 0, none⟩
def atsWaiter (w : Bool) : Strand := { u0 with st := .wait (.ats [0] 5 w) }
def atsState (w : Bool) (l : List TlbEntry) : State :=
  { many [(0, atsWaiter true), (1, atsWaiter false), (128, atsWaiter true)] with
    annex := owner, tlb := l, inp := { unit := 0, inc := 4, addr := 0x5000, canWrite := w } }

/-- HostTranslationsComeAndGo: a strand that waits for the host's answer, with another of its basin that shares it, one of another
basin, its page in a TLB and without, an answer that grants and one that refuses; alone; an invalidation, with 31 and with 32 before
it, and one to be completed, with the link up and down, and with a place of a host page held. -/
theorem witness_HostTranslations :
    (∀ w ∈ [true, false], ∀ l ∈ ([[pageEntry], []] : List (List TlbEntry)),
      FromHost (atsState w l) ∧ Holds (atsState w l) 0 ∧ (atsState w l).strand 0 = some (atsWaiter true) ∧
        (∀ e ∈ (atsState w l).strands, (atsState w l).strand e.1 = some e.2) ∧
        (atsState w l).inp.addr.toNat / 4096 = 5 ∧ (∀ x ∈ (atsState w l).tlb, x.size = 4096) ∧ (atsState w l).inp.canWrite = w) ∧
      pageEntry.ctx = (atsWaiter true).ctxid ∧ pageEntry.vbase ≤ 5 * 4096 ∧ 5 * 4096 < pageEntry.vbase + pageEntry.size ∧
      Shares 0 (atsWaiter true) 5 true 1 (atsWaiter false) [0] false ∧ ¬ (128 / 128 = 0 / 128) ∧ (atsWaiter true).yields = false ∧
      ((List.replicate 31 ((0 : BitVec 1), (9 : BitVec 32))).filter fun e => e.1 = (0 : BitVec 1)).length < 32 ∧
      32 ≤ ((List.replicate 32 ((0 : BitVec 1), (9 : BitVec 32))).filter fun e => e.1 = (0 : BitVec 1)).length ∧
      ({ atsState true [] with atsInvs := [(0, 9)] } : State).atsInvs = (0, 9) :: [] ∧
      (atsState true []).annex.linkUp.contains 0 = true ∧ (dev {} {}).annex.linkUp.contains 0 = false ∧
      (0x50000, Place.host 0x50000) ∈ ({ u0 with placed := [(0x50000, .host 0x50000)] } : Strand).placed ∧ u0.placed = [] := by
  unfold FromHost Holds Shares; decide +kernel

/-- A strand that alone shares its request. -/
def atsAlone : State := { one (atsWaiter true) with annex := owner, inp := { inc := 4, addr := 0x5000, canWrite := true } }

theorem witness_HostTranslationAlone :
    (∀ m c us w', atsAlone.strand m = some c → Shares 0 (atsWaiter true) 5 true m c us w' → m = 0) ∧
      atsAlone.strand 0 = some (atsWaiter true) := by
  refine ⟨fun m c us w' h _ => ?_, rfl⟩
  by_contra hm
  have : atsAlone.strand m = none := if_neg (Ne.symm hm)
  rw [this] at h
  exact absurd h (by simp)

/-- PageAnswersArePosted: a request that its answer names, in RUN and in RETAIN. -/
theorem witness_PageAnswers :
    let r : PageReq := ⟨7, 0, 4, 0, 0x9000⟩
    let s (c : Nat) (z : BitVec 3) : State := { State.reset with
      annex := { up with suspState := z }, pageReqs := [r], inp := { inc := 4, tag := 7, code := c } }
    (∀ c, 2 ≤ c → c ≤ 4 → ∀ z ∈ ([0, 4, 5] : List (BitVec 3)),
      FromHost (s c z) ∧ r ∈ (s c z).pageReqs ∧ (∀ x ∈ (s c z).pageReqs, x.tag = r.tag → x = r) ∧ (s c z).inp.tag = r.tag ∧
        (s c z).inp.ctx = r.ctx ∧ (s c z).inp.inc = r.inc ∧ (s c z).inp.port = r.port ∧ (s c z).granted = [] ∧
        (s c z).pageHeld = [] ∧ ∀ x, (s c z).migOf x = []) ∧
      (s 2 0).annex.suspState ≠ 4 ∧ (s 2 4).annex.suspState = 4 := by
  refine ⟨fun c h1 h2 z hz => ⟨⟨rfl, rfl⟩, List.mem_singleton.2 rfl, ?_, rfl, rfl, rfl, rfl, rfl, rfl, migOf_nil _ rfl⟩, ?_, ?_⟩
  · intro x hx _; exact List.mem_singleton.1 hx
  · show (0 : BitVec 3) ≠ 4
    decide
  · rfl

/-- HostAccessesAndEvictions: a host in RUN; the first and the last line of the window and the first beyond it; the window
without a table and with one, at an entry that is valid and one that is not; a line of the reservoir with dirty data,
clean, and absent; a copy that a host holds of no line snooped. -/
theorem witness_HostAccess :
    let s : State := { State.reset with annex := up, inp := { inc := 4, addr := 0x40 } }
    let v : State := { s with hdmt := [(0, 1)], hdmtWritten := [(0, true)], mem := [(0x1000, 1), (0x1002, 0x40)] }
    let w : State := { v with mem := [] }
    FromHost s ∧ s.annex.linkUp.contains 0 = true ∧ (s.inp.inc = s.incOf 0) ∧ ¬ (5 = s.incOf 0) ∧ s.annex.bootState = 3 ∧
      s.annex.suspState ≠ 4 ∧ s.annex.suspState ≠ 5 ∧ s.errs = [] ∧ s.hostCopies = [] ∧
      s.annex.hdmGib.get 128 0 * 2 ^ 30 = 2 ^ 37 ∧ isDevMem 0 = true ∧ isDevMem (2 ^ 20) = true ∧
      s.hdmtWritten.get false 0 = false ∧ v.hdmtWritten.get false 0 = true ∧ (v.hdmt.get 0 0).toNat * 4096 = 0x1000 ∧
      isDevMem 0x1000 = true ∧ v.readCo 0x1000 8 = 0x400001 ∧ 0x400001 % 2 ^ 21 = 1 ∧ 0x400001 < 2 ^ 52 ∧ isDevMem 0x400000 = true ∧
      isDevMem (0x400000 + 2 ^ 20) = true ∧ v.inPool 0x400000 = false ∧ v.inPool (0x400000 + 2 ^ 20) = false ∧
      w.readCo 0x1000 8 % 2 = 0 ∧ s.leased 1 = false ∧ s.resv.find 1 = none ∧
      (∀ d ∈ [true, false], ({ s with resv := [(1, ⟨5, d, false, true, 0⟩)] } : State).resv.find 1 = some ⟨5, d, false, true, 0⟩) := by
  unfold FromHost; decide +kernel

theorem witness_HostAccessUnmigrated (x : Nat) : ({ State.reset with annex := up } : State).migOf x = [] := migOf_nil _ rfl x

/-- CopiesLeaveTheCaches: a dirty line, a clean copy, a cast and a leased copy, each there to be taken. -/
theorem witness_Evictions :
    let c : CLine := ⟨5, 9, 0⟩
    let p : PeerLine := ⟨3, 1, 0, false, none, 0, 0, 0⟩
    let k : Cast := ⟨0, none, 4, 0, 0, [], 0⟩
    let s : State := { State.reset with
      cache := [(1, c)], copies := [(2048 * 1 + 9, ⟨5, 0, 0⟩)], peer := [p], casts := [k], inp := { addr := 0x40, part := 9 } }
    let z : State := { s with inp := { addr := 0x40, part := 0, code := 1 } }
    s.inp.code = 0 ∧ s.cache.find (s.inp.addr.toNat / 64) = some c ∧ c.holder = s.inp.part ∧ c.holder ≠ z.inp.part ∧
      s.inp.part < 1728 ∧ z.inp.code = 1 ∧ z.peer[z.inp.part]? = some p ∧ p.once = none ∧ z.casts[z.inp.part]? = some k ∧
      k.dev = none ∧ (s.awayPort fun l => l = 1) = none ∧
      (({ s with resv := [(1, ⟨5, true, false, true, 0⟩)] } : State).awayPort fun l => l = 1).isSome = true := by decide +kernel

/-! ### Witnesses: banks, refresh, temperature, locks, completions -/

/-- An operation of the engines with one group in bank 0, open at a row op. -/
def grouped (w : Work) (subs : List Nat) (pos : Nat) : EngineOp :=
  { id := 1, slot := 0, tag := 0, work := w, groups := [⟨0, subs, true, pos, []⟩] }

/-- The one strand with a command in bank 0. -/
def banked (o : EngineOp) : State := { one u0 with ops := [o], nextId := 2, inp := { unit := 1 } }

/-- The machine at a slot of bank 0. -/
def atBank (s : State) : State := { s with inp := { unit := 0, part := 0 }, annex := { s.annex with bootState := 3 } }

/-- A command of `padd` on two element rows of subarrays 2 and 3. -/
def addWork : Work :=
  .plane .add 2 { desc0 with width := 2, stack := 2 } { desc0 with width := 2, rowbase := 8 } { desc0 with width := 2, rowbase := 16 } desc0 0

theorem noDemand (z : State) (basin k : Nat) (h : (z.banks.get {} k).fifo = []) (d : Demand) : ¬ DemandGoes z basin k d :=
  fun h' => by
    have := h'.1
    rw [h] at this
    exact absurd this (by simp)

theorem goes (z : State) (d : Demand) (h : (z.banks.get {} 0).fifo.head? = some d) (hl : (z.basin 0).locks = [])
    (h8 : 8 ≤ (z.banks.get {} 0).begun ∨ z.bankHead 0 = none) : DemandGoes z 0 0 d := by
  refine ⟨h, fun ⟨l, h', _⟩ => ?_, h8.imp_right fun hn o g ho => ?_⟩
  · rw [hl] at h'; exact absurd h' List.not_mem_nil
  · rw [hn] at ho; exact absurd ho (by simp)

/-- GroupSlot: a slot of a bank in whose FIFO nothing waits. -/
theorem witness_GroupSlot (o : EngineOp) (h : o ∈ [grouped addWork [2, 3] 0, grouped (.fold desc0 7 1 0 0 [] 1) [2, 3] 0,
    grouped (.plant desc0 0 1 true false 0 0) [2, 3] 0]) : GroupSlot (atBank (banked o)) := by
  simp only [List.mem_cons, List.not_mem_nil, or_false] at h
  rcases h with rfl | rfl | rfl <;>
    exact ⟨by decide, by decide, rfl, by decide +kernel, noDemand _ _ _ (by decide +kernel)⟩

/-- BankSlotsServeRefreshesAndDemands: a machine before READY; a refresh that is due, with an open group behind it and with none;
nothing to do. -/
theorem witness_BankSlots :
    let s := atBank (banked (grouped addWork [2, 3] 0))
    let due : State := { s with banks := [(0, { due := 1 })] }
    let idle := atBank (one u0)
    s.inp.unit < 12 ∧ s.inp.part < 384 ∧ (one u0).annex.bootState ≠ 3 ∧ s.annex.bootState = 3 ∧
      ((atSlot due).banks.get {} 0).due ≠ 0 ∧ (atSlot due).bankHead 0 = some (grouped addWork [2, 3] 0, ⟨0, [2, 3], true, 0, []⟩) ∧
      (atSlot { idle with banks := [(0, { due := 1 })] }).bankHead 0 = none ∧
      (atSlot idle).bankHead 0 = none ∧ ((atSlot idle).banks.get {} 0).due = 0 ∧ ((atSlot idle).banks.get {} 0).fifo = [] := by
  decide +kernel

/-- BankSlotsServeRefreshesAndDemands: a read of a row's line at the head of the FIFO, which a strand waits for, with no group open;
one that nobody waits for any more; a write; one that has seen eight slots of an open group. -/
theorem witness_Demands :
    let read : Demand := ⟨5, some 0, 2 ^ 15, 1, none⟩
    let write : Demand := ⟨5, some 0, 2 ^ 15, 1, some 1⟩
    let w : Strand := { u0 with st := .wait (.bank 5 1) }
    let bank (d : Demand) (n : Nat) : State :=
      { atBank (one w) with banks := [(0, { fifo := [d], begun := n })] }
    let late : State := { atBank (banked (grouped addWork [2, 3] 0)) with banks := [(0, { fifo := [read], begun := 8 })] }
    (∀ d ∈ [read, write], DemandGoes (atSlot (bank d 0)) 0 0 d) ∧ DemandGoes (atSlot late) 0 0 read ∧
      (bank read 0).strand 0 = some w ∧ 5 ≤ read.id ∧ read.id < 5 + 1 ∧ (bank read 0).errs = [] ∧ write.write = some 1 ∧
      late.strand 0 = some u0 ∧ u0.st = .run := by
  refine ⟨fun d hd => ?_, goes _ _ (by decide +kernel) (by decide +kernel) (by decide +kernel), by decide +kernel⟩
  simp only [List.mem_cons, List.not_mem_nil, or_false] at hd
  rcases hd with rfl | rfl <;> exact goes _ _ (by decide +kernel) (by decide +kernel) (by decide +kernel)

/-- BankSlotsRunRowOps: the first and the last row op of a `padd`, of an open group and of one not opened; a `plant` at the head,
and a command chained to one that is not done. -/
theorem witness_RowOpSlots :
    let n := addWork.program.length
    let first := atBank (banked (grouped addWork [2, 3] 0))
    let last := atBank (banked (grouped addWork [2, 3] (n - 1)))
    let shut (o : EngineOp) : EngineOp := { o with groups := [⟨0, [2, 3], false, 0, []⟩] }
    let plant := shut (grouped (.plant desc0 0 1 true false 0 0) [2, 3] 0)
    let chained : EngineOp := { shut (grouped (.fold desc0 7 1 0 0 [] 1) [2, 3] 0) with id := 2, after := some 1 }
    let chain : State := { atBank (banked { plant with groups := [] }) with ops := [{ plant with groups := [] }, chained] }
    (atSlot (atBank (banked (shut (grouped addWork [2, 3] 0))))).bankHead 0 =
        some (shut (grouped addWork [2, 3] 0), ⟨0, [2, 3], false, 0, []⟩) ∧
      (atSlot first).bankHead 0 = some (grouped addWork [2, 3] 0, ⟨0, [2, 3], true, 0, []⟩) ∧
      (atSlot last).bankHead 0 = some (grouped addWork [2, 3] (n - 1), ⟨0, [2, 3], true, n - 1, []⟩) ∧
      (atSlot (atBank (banked plant))).bankHead 0 = some (plant, ⟨0, [2, 3], false, 0, []⟩) ∧
      (atSlot chain).bankHead 0 = some (chained, ⟨0, [2, 3], false, 0, []⟩) ∧ ((atSlot chain).op 1).isSome = true ∧
      (grouped addWork [2, 3] 0).margins = [] ∧ (grouped addWork [2, 3] 0).after = none ∧ first.inp.amounts = [] ∧ [2, 3].Nodup ∧
      (∀ m ∈ [2, 3], (first.comp.get {} m).rows.length = 6) ∧ 0 + 1 < n ∧ n - 1 + 1 = n := by decide +kernel

/-- FoldSlotsReadTheirRows: an open group of a fold, at its first and at its last row. -/
theorem witness_FoldSlots :
    ∀ p ∈ [0, desc0.width - 1],
      let o := grouped (.fold desc0 7 1 0 0 [] 1) [2, 3] p
      let s := atBank (banked o)
      (atSlot s).bankHead 0 = some (o, ⟨0, [2, 3], true, p, []⟩) ∧ o.margins = [] ∧
        s.inp.amounts = [] ∧ p < desc0.width := by decide +kernel

/-- RefreshDeadlinesComeDue: a deadline that has come and one that has not, in the first and in the last bank. -/
theorem witness_Deadlines :
    11 < 12 ∧ 383 < 384 ∧ ({ nextAt := 12288 } : Bank).nextAt ≤ 1 * 12288 ∧ 0 * 12288 < ({ nextAt := 12288 } : Bank).nextAt := by decide

/-- ScratchpadRowsAreRefreshed: a slot that has come and one that has not; an ephemeral bank; rows young, expired, and
expired and reported. -/
theorem witness_Scratchpad :
    let c (e : BitVec 48) (r : Bool) (due : List Nat) : Core :=
      { eph := e, spNext := [(47, 50000)], rowReported := [(1024 * 47, r)], rowDue := due }
    let s (clk : Nat) (e : BitVec 48) (r : Bool) (due : List Nat) : State := { State.reset with
      clk := clk, cores := [(191, c e r due)], inp := { unit := 191, part := 47 }, annex := { bootState := 3 } }
    (s 0 0 false []).inp.unit < 192 ∧ (s 0 0 false []).inp.part < 48 ∧ (s 0 0 false []).clk < ((s 0 0 false []).core 191).spNext.get 0 47 ∧
      (s 0 0 false []).annex.bootState = 3 ∧ State.reset.annex.bootState ≠ 3 ∧ ((s 0 0 false []).core 191).rowDue = [] ∧
      ((s 60000 (2 ^ 47) false [1024 * 47 + 9]).core 191).rowDue = [1024 * 47 + 9] ∧ (1024 * 47 + 9) / 1024 = 47 ∧
      ((s 60000 0 false [5]).core 191).rowDue = [5] ∧ 5 / 1024 ≠ 47 ∧
      (∀ r ∈ [true, false], ((s 60000 0 r []).core 191).spNext.get 0 47 ≤ (s 60000 0 r []).clk ∧
        ((s 60000 0 r []).core 191).eph.getLsbD 47 = false ∧ (s 60000 0 r []).rowLast 191 (1024 * 47) 50000 = none ∧
        ((s 60000 0 r []).core 191).spPast.get [] 47 = [] ∧ (0 + 44000 ≤ 50000) ∧
        ((s 60000 0 r []).core 191).rowReported.get false (1024 * 47) = r) ∧
      ((s 60000 (2 ^ 47) false []).core 191).eph.getLsbD 47 = true ∧
      ({ s 60000 0 false [] with spInit := 40000 } : State).rowLast 191 (1024 * 47) 50000 = some 50000 ∧ 50000 < 40000 + 44000 := by
  decide +kernel

/-- TemperaturesSetIntervalsAndLimits: 28 samples, among them a fault, readings at and past both ends, and good ones. -/
theorem witness_Temperatures :
    let p : List SensorSample := ⟨-641, false⟩ :: ⟨-640, false⟩ :: ⟨2400, false⟩ :: ⟨2401, false⟩ :: ⟨400, true⟩ :: List.replicate 23 ⟨400, false⟩
    let s : State := { State.reset with annex := up, inp := { samples := p } }
    s.inp.unit < 12 ∧ s.annex.bootState = 3 ∧ (s.basin 0).nextSample ≤ s.clk ∧
      s.clk < (({ s with basins := [(0, { nextSample := 1 })] } : State).basin 0).nextSample ∧ s.inp.samples.length = 28 ∧ (p.getD 0 ⟨0, false⟩).temp.toInt < -640 ∧ 2400 < (p.getD 3 ⟨0, false⟩).temp.toInt ∧
      (p.getD 4 ⟨0, false⟩).fault = true ∧ (-640 ≤ (p.getD 1 ⟨0, false⟩).temp.toInt ∧ (p.getD 2 ⟨0, false⟩).temp.toInt ≤ 2400) ∧
      (((s.basin 0).sensors.get {} 1).failed = false ∧ ((s.basin 0).sensors.get {} 1).recent.length < 9999) := by decide +kernel

/-- The one strand with a command and locks held. -/
def lockState (w : Work) (l : List Lock) : State := { busy w with basins := [(0, { locks := l })], inp := { unit := 1 } }
def lockOp (w : Work) : EngineOp := { id := 1, slot := 0, tag := 0, work := w, groups := [] }
def otherLock : Lock := ⟨5, 0, [2]⟩

/-- LocksAreGrantedAndReleased: a `plock` that is free, one behind another strand's lock. -/
theorem witness_Locks :
    (lockState (.plock desc0) []).admitWaiting.op 1 = some (lockOp (.plock desc0)) ∧ (lockOp (.plock desc0)).held = false ∧
      (lockState (.plock desc0) []).admitWaiting.acceptedBefore (lockOp (.plock desc0)) = [] ∧
      (∀ l ∈ ((lockState (.plock desc0) []).basin desc0.basin).locks, l.slot ≠ 0 → ∀ x ∈ desc0.subs, x ∉ l.subs) ∧
      (¬ ∀ l ∈ ((lockState (.plock desc0) [otherLock]).basin desc0.basin).locks, l.slot ≠ 0 → ∀ x ∈ desc0.subs, x ∉ l.subs) ∧
      ((lockState (.plock desc0) []).basin desc0.basin).locks.length < 64 ∧ (lockState (.plock desc0) []).admitWaiting.banks = [] ∧
      ((lockState (.plock desc0) []).admitWaiting.ops.map (·.slot)) = [0] := by
  decide +kernel

/-- A `punlock` with no earlier command of its strand, of a lock that is held and of one that is not; an earlier command on
the subarrays. -/
theorem witness_Unlocks :
    let k : Lock := ⟨0, 0, [3, 2]⟩
    (lockState (.punlock desc0) []).op 1 = some (lockOp (.punlock desc0)) ∧
      (∀ p ∈ (lockState (.punlock desc0) []).ops, ¬ p.id < 1) ∧
      ((lockState (.punlock desc0) [otherLock, k]).basin desc0.basin).locks = [otherLock] ++ k :: [] ∧
      (k.slot = 0 ∧ ∀ x, x ∈ k.subs ↔ x ∈ desc0.subs) ∧ otherLock.slot ≠ 0 ∧
      ∃ l, addWork.fountain = some l ∧ ∃ x ∈ l, x ∈ desc0.subs := by
  refine ⟨by decide +kernel, by decide +kernel, rfl, ⟨rfl, fun x => ?_⟩, by decide, _, rfl, 2, by decide +kernel, by decide +kernel⟩
  show x ∈ [3, 2] ↔ x ∈ [2, 3]
  simp [or_comm]

/-- EngineCommandsComplete: plane commands with no group left and with one; a fold whose additions, one past the range, and
poison are known. -/
theorem witness_EngineCompletions :
    let fold (t : Nat) : EngineOp := { grouped (.fold desc0 t 0 0 0 [] 1) [] 0 with
      groups := [], adds := [(0, 2 ^ 39), (4095, -1)], poisons := [4095] }
    (∀ w ∈ ([addWork, .pprog desc0 0 [], .pcal desc0] : List Work), ({ grouped w [] 0 with groups := [] } : EngineOp).groups = [] ∧
      (grouped w [2] 0).groups ≠ [] ∧ (banked (grouped w [2] 0)).op (banked (grouped w [2] 0)).inp.unit = some (grouped w [2] 0)) ∧
    (∀ t ∈ [0, 7], (banked (fold t)).op 1 = some (fold t) ∧ (fold t).groups = [] ∧ (fold t).margins = [] ∧ t < 8 ∧
      (banked (fold t)).acceptedBefore (fold t) = [] ∧
      ((fold t).adds.map (·.1)).Nodup ∧ (∀ e ∈ (fold t).adds, e.1 < 4096) ∧ ∀ k ∈ (fold t).poisons, k < 4096) := by
  decide +kernel

/-- PlantRowsLand: a `plant` on two subarrays at its first row and at its last, whole and row by row. -/
theorem witness_Plants7 :
    ∀ p ∈ [0, 15],
      let o := grouped (.plant desc0 0 1 true false 0 0) [2, 3] p
      let s (c : Nat) : State := { banked o with inp := { unit := 1, part := 0, code := c } }
      (∀ c ∈ [0, 1], (s c).admitWaiting.op 1 = some o ∧ (s c).admitWaiting.bankHead 0 = some (o, ⟨0, [2, 3], true, p, []⟩) ∧
        (s c).strand o.slot = some u0) ∧ 1 ≤ 1 ∧ 1 ≤ 8 ∧ [2, 3].Nodup ∧ p < 16 * 1 := by decide +kernel

/-- BankOperationsComplete: two elements apart from each other, of integers and of floats; one sum. -/
theorem witness_BankCompletions :
    let ds : List Nat := [0x10000, 0x10004]
    let xs : List Nat := [0x20000, 0x20004]
    let apart (l : List Nat) : Prop := l.Pairwise fun a b => a + 4 ≤ b ∨ b + 4 ≤ a
    (∀ p ∈ ([(.add, false, 2), (.add, true, 2), (.sax, true, 2), (.cx, false, 2), (.cx, true, 2), (.red, false, 2), (.red, true, 2)] : List (BankOp × Bool × BitVec 3)),
      let o : EngineOp := { grouped (.bank p.1 p.2.2 p.2.1 ds xs 0) [] 0 with groups := [] }
      (banked o).op (banked o).inp.unit = some o ∧ (banked o).errs = [] ∧ (banked o).strand o.slot = some u0 ∧
        (∀ q ∈ (banked o).ops, q.id < o.id → q.work.bankCells = []) ∧ (∀ a ∈ ds ++ xs, (banked o).leased (a / 64) = false) ∧
        (∃ a ∈ ds ++ xs, ({ banked o with granted := [⟨1, 0x20000 / 64, 0, 0⟩] } : State).leased (a / 64) = true) ∧
        (if p.2.1 then (FFmt.ofCode p.2.2.toNat).width else widthOf p.2.2) / 8 = 4) ∧
      ds.length = xs.length ∧ apart (ds ++ xs) ∧ xs ≠ [] ∧ xs.length ≤ 2 ^ 1 := by decide +kernel

/-- PlaneAdditionAndSubtractionAreExact: regions of eight rows that lie apart, in the first columns. -/
theorem witness_PlaneAddition :
    let d : Desc := { desc0 with width := 8, rowbase := 0 }
    let a : Desc := { desc0 with width := 8, rowbase := 8, kind := 3 }
    let b : Desc := { desc0 with width := 8, rowbase := 1016, kind := 4 }
    (State.reset.comp.get {} 2).rows.length = 6 ∧ 8 ≤ d.width ∧ 1 ≤ a.width ∧ 1 ≤ b.width ∧
      a.kind ∈ ([0, 1, 3, 4] : List (BitVec 3)) ∧ b.kind ∈ ([0, 1, 3, 4] : List (BitVec 3)) ∧ d.rowbase + 8 ≤ 1024 ∧ a.rowbase + 8 ≤ 1024 ∧
      b.rowbase + 8 ≤ 1024 ∧ d.rowbase + d.width ≤ a.rowbase ∧ d.rowbase + d.width ≤ b.rowbase ∧ 8191 < 8192 ∧
      d.xseg.getLsbD (8191 / 64) = false := by decide +kernel

/-! ### Witnesses: the Aqueduct -/

/-- The peer 3 of this device, with incarnation 9, in a table at 0x8000. -/
def peered (b : AqBody) : State :=
  { one u0 with
    inp := { unit := 1, msg := some ⟨3, 9, b⟩ }, ptabBase := 1, ptabEn := true, annex := up
    mem := [(0x8018, 9), (0x801F, 0x80)] }

/-- The same with a strand, an engine command and what the device has sent. -/
def peeredWith (b : AqBody) (t : Strand) (ops : List EngineOp) (out : List Out) : State :=
  { peered b with strands := [(0, t)], ops := ops, out := out }

/-- A frame of the peered device. -/
def framed (b : AqBody) (st : BitVec 2) : State := { peered b with frames := [(4, ⟨st, 100, 7⟩)] }

/-- OwnersServe, and every statement of a message: the sender is known, and not known with the table off; RUN, not READY and
RETAIN; a line with and without a lease on it; the time in step and not; addresses that no peer may name. -/
theorem witness_Peers :
    ∀ b ∈ ([.readLine 0x40000 true [1] none 5, .readLine 0x40000 false [] none 5, .writeLine 0x40000 0 1 5,
        .writeLines [(0x40000, 0, 1), (0x40040, 0, 0)] 5, .readLines [(0x40000, [1], none), (0x40040, [2], none)] 5,
        .storeLines [(0x40000, 0, 1, 6), (0x40040, 0, 0, 7)] 5, .homeCommand 0x40004 0 6 4 [] 0 5, .homeCommand 0x40000 0 7 4 [] 0 5, .addDword 0x40008 1 5, .homeCommand 0x40000 0 3 0 [] 0 5,
        .homeCommand 0x40000 0 4 0 (List.replicate 72 1) 6 5, .homeCommand 0x40000 7 5 0 [] 0 5, .releaseLease [4]] : List AqBody),
      (peered b).inp.msg = some ⟨3, 9, b⟩ ∧ Admitted (peered b) ⟨3, 9, b⟩ ∧ ¬ Admitted { peered b with ptabEn := false } ⟨3, 9, b⟩ ∧
        FabricOn (peered b) ∧ ¬ FabricOn { peered b with annex := {} } ∧ ¬ FabricOn { peered b with annex := { up with suspState := 4 } } ∧
        ({ peered b with aqSync := true } : State).aqSync = true ∧ (peered b).aqSync = false ∧
        (peered b).leased (0x40000 / 64) = false ∧
        ({ peered b with granted := [⟨5, 0x40000 / 64, 0, 0⟩] } : State).leased (0x40000 / 64) = true ∧
        (peered b).isTableMem 0x40000 = true ∧ (peered b).isTableMem (2 ^ 45) = false ∧ isSpad (2 ^ 45) = false := by
  unfold Admitted FabricOn; decide +kernel

theorem witness_PeerLines (b : AqBody) : OpenLine (peered b) 0x40000 ∧ OpenLine (peered b) 0x40040 := by
  refine ⟨⟨by decide +kernel, inPool_nil _ rfl _, rfl, rfl, migOf_nil _ rfl⟩, by decide +kernel, inPool_nil _ rfl _, rfl, rfl,
    migOf_nil _ rfl⟩

/-- OwnersServe: lines that are apart, links that are, a link that is held, and a counter of one among others. -/
theorem witness_PeerNodup :
    ([(0x40000, 0, 1), (0x40040, 0, 0)].map fun (e : BitVec 52 × BitVec 512 × BitVec 64) => lineAt e.1).Nodup ∧
      ([(0x40000, 0, 1, 6), (0x40040, 0, 0, 7)].map fun (e : BitVec 52 × BitVec 512 × BitVec 64 × Nat) => lineAt e.1).Nodup ∧
      (([((0x40000 : BitVec 52), [1], (none : Option (BitVec 16))), (0x40040, [2], none)].map fun e => e.2.1).flatten).Nodup ∧
      (0x40004 : BitVec 52).toNat / 8 * 8 = 0x40000 ∧
      (∀ v ∈ [0, 1, 2], leRead (withBytes (one u0) 0x40000 [v]).byteAt 0x40000 4 = v) := by decide +kernel

/-- OwnersServe: an OPEN and a SEALED frame of generation 7, and a FREE one. -/
theorem witness_PeerFrames (b : AqBody) (st : BitVec 2) :
    (framed b st).isTableMem 0x40000 = true ∧ (framed b st).frame (0x40000 / 65536) = ⟨st, 100, 7⟩ ∧ (framed b st).errs = [] ∧
      ∀ x, (framed b st).migOf x = [] := ⟨rfl, rfl, rfl, migOf_nil _ rfl⟩

/-- A link of the peer on a line. -/
def linkState : State := { peered (.releaseLease []) with rlinks := [(3, 6, 0x40000 / 64)] }

theorem witness_PeerLinks :
    0x40000 % 64 = 0 ∧ (List.replicate 72 (1 : Byte)).length = 72 ∧ linkState.rlinks.contains (3, 6, 0x40000 / 64) = true ∧
      (peered (.releaseLease [])).rlinks = [] ∧ ((List.replicate 72 (1 : Byte)).getD (64 + 0 / 8) 0).getLsbD (0 % 8) = true := by
  decide +kernel

/-- A strand that waits for one message of the peer. -/
def asking : Strand := { u0 with st := .wait (.peer 5 1 0) }

/-- AnswersReachTheirStrand: a strand that waits for a value and for a line of the peer. -/
theorem witness_Askers :
    ∀ b ∈ ([.homeResult 5 1 0, .ack 5, .nack 5 3, .nack 5 6, .lineData 5 1 (some 9) false, .lineData 5 1 none true] : List AqBody),
      let s := peeredWith b asking [] [.aq 3 0 0 [] (.readLine 0x40000 true [] none 5)]
      s.inp.msg = some ⟨3, 9, b⟩ ∧ Admitted s ⟨3, 9, b⟩ ∧ FabricOn s ∧ s.asker 5 = some (0, asking, 0) ∧ s.strand 0 = some asking ∧
        s.askedLine 5 = some (0x40000 / 64) ∧ 5 < 2 ^ 64 ∧ s.tokSpan 5 = 1 ∧ (∀ e ∈ s.strands, e.2.waitsCast 3 5 = false) ∧
        (s.residents 0 (s.bankFor 0 (0x40000 / 64))).length < unitLines 0 := by
  unfold Admitted FabricOn; decide +kernel

/-- A walk that waits for a generation, and a strand that waits for two conditional stores. -/
def walking : Strand := { u0 with st := .wait (.fill 5 0x40) }
def askingTwo : Strand := { u0 with st := .wait (.peer 5 2 0) }

/-- AnswersReachTheirStrand: a walk. -/
theorem witness_Walkers :
    ∀ b ∈ ([.homeResult 5 7 0, .homeResult 5 7 9, .nack 5 3, .nack 5 4] : List AqBody),
      let s := peeredWith b walking [] []
      s.inp.msg = some ⟨3, 9, b⟩ ∧ Admitted s ⟨3, 9, b⟩ ∧ FabricOn s ∧ s.asker 5 = some (0, walking, 0) ∧ s.strand 0 = some walking ∧
        s.tokSpan 5 = 1 ∧ (∀ e ∈ s.strands, e.2.waitsCast 3 5 = false) := by
  unfold Admitted FabricOn; decide +kernel

/-- AnswersReachTheirStrand: two conditional stores, and two lines together. -/
theorem witness_AskersTogether :
    (let s := peeredWith (.storeResults 5 [true, false]) askingTwo [] []
     s.asker 5 = some (0, askingTwo, 0) ∧ s.asker 6 = some (0, askingTwo, 1)) ∧
      (let b : AqBody := .linesData 5 [(1, false), (2, true)]
       let s := peeredWith b asking [] [.aq 3 0 0 [] (.readLines [(0x40000, [], none), (0x40040, [], none)] 5)]
       s.inp.msg = some ⟨3, 9, b⟩ ∧ s.asker 5 = some (0, asking, 0) ∧ s.askedLines 5 = [0x1000, 0x1001]) ∧
      [0x1000, 0x1001].Nodup ∧ [((1 : BitVec 512), false), (2, true)].length = [0x1000, 0x1001].length := by
  decide +kernel

/-- A line of a transfer and a transfer with nothing in the banks. -/
def aqLine (s d : Bool) : AqLine := ⟨0x40000, 0x10000, s, d⟩
def moving (w : Work) : EngineOp := { id := 1, slot := 0, tag := 0, work := w, groups := [] }

/-- TransfersProceed: lines to send, to be acknowledged and done. -/
theorem witness_Transfers :
    (∀ l ∈ ([[aqLine true true], [aqLine false false], [aqLine true false]] : List (List AqLine)),
      ∀ w ∈ ([.put 3 l, .get 3 l] : List Work), ({ busy w with inp := { unit := 1 } } : State).op 1 = some (moving w)) ∧
      (∀ y ∈ [aqLine true true], y.done = true) ∧ [aqLine false false][0]? = some (aqLine false false) ∧
      (aqLine false false).sent = false ∧ (∃ y ∈ [aqLine false false], y.done = false) ∧
      (∀ y ∈ [aqLine true false].set 0 (aqLine true true), y.done = true) ∧
      (∃ y ∈ [aqLine true false, aqLine false false].set 0 (aqLine true true), y.done = false) ∧
      (aqLine true true).here < 2 ^ 40 := by decide +kernel

/-- A transfer's answers, and a signal with nothing before it, sent, and acknowledged. -/
theorem witness_TransferAnswers :
    (∀ b ∈ ([.ack (2 ^ 64 * (1 + 1) + 0), .lineData (2 ^ 64 * (1 + 1) + 0) 5 none false] : List AqBody),
      ∀ w ∈ ([.put 3 [aqLine true false], .get 3 [aqLine true false], .sig 3 0x40000 1 true] : List Work),
        let s := peeredWith b u0 [moving w] []
        s.op s.inp.unit = some (moving w) ∧ Admitted s ⟨3, 9, b⟩ ∧ FabricOn s ∧ s.inp.msg = some ⟨3, 9, b⟩ ∧
          s.leased (0x10000 / 64) = false ∧ s.strand 0 = some u0 ∧
          ({ s with granted := [⟨5, 0x10000 / 64, 0, 0⟩] } : State).leased (0x10000 / 64) = true) ∧
      ({ busy (.sig 3 0x40000 1 false) with inp := { unit := 1 } } : State).op 1 = some (moving (.sig 3 0x40000 1 false)) ∧
      (∀ p ∈ (busy (.sig 3 0x40000 1 false)).ops, p.slot = 0 → ¬ p.id < 1) ∧
      (∃ p ∈ [moving (.put 3 []), { moving (.sig 3 0x40000 1 false) with id := 2 }], p.slot = 0 ∧ p.id < 2 ∧ p.work = .put 3 []) := by
  unfold Admitted FabricOn; decide +kernel

/-- FailuresLeasesAndCasts: a transfer of each kind that may fail, one that may not. -/
theorem witness_Failures :
    ∀ w ∈ ([.put 3 [aqLine true false], .get 3 [aqLine true false], .sig 3 0 0 true] : List Work),
      let s (c clk : Nat) : State := { busy w with clk := clk, inp := { unit := 1, code := c } }
      MayFail (s 1 11000000) (moving w) 1 0 ∧ ¬ MayFail (s 1 10999999) (moving w) 1 0 ∧ MayFail (s 4 0) (moving w) 4 0 ∧
        (s 1 0).inp.part ≠ 1 ∧ (s 1 0).op 1 = some (moving w) ∧ (s 1 0).strand 0 = some u0 := by
  intro w hw
  simp only [List.mem_cons, List.not_mem_nil, or_false] at hw
  rcases hw with rfl | rfl | rfl <;> simp only [MayFail, moving] <;> decide +kernel

/-- FailuresLeasesAndCasts: a strand that waits for a peer, a walk that does, and one that waits for a cast, with each answer. -/
theorem witness_FailedAnswers :
    (let t : Strand := { u0 with st := .wait (.fill 5 0x40), sentAt := 0 }
     let s (clk : Nat) : State := { one t with clk := clk, inp := { unit := 0, part := 1, code := 1 } }
     (s 0).strand 0 = some t ∧ (s 0).asker 5 = some (0, t, 0) ∧ (s 0).clk < t.sentAt + 11000000 ∧
       t.sentAt + 11000000 ≤ (s 11000000).clk) ∧
    (let t : Strand := { u0 with st := .wait (.cast 3 4 7 0x40000 5) }
     let s := peeredWith (.nack 5 4) t [] []
     s.inp.msg = some ⟨3, 9, .nack 5 4⟩ ∧ FabricOn s ∧ Admitted s ⟨3, 9, .nack 5 4⟩ ∧ s.asker 5 = none ∧ s.tokSpan 5 = 1 ∧
       Table.sorted s.strands = true ∧ s.strand 0 = some t) ∧
    (let s : State := { one { asking with sentAt := 0 } with clk := 11000000, inp := { unit := 0, part := 1, code := 1 } }
     s.inp.part = 1 ∧ s.strand 0 = some asking ∧ asking.answers = [] ∧ s.asker 5 = some (0, asking, 0) ∧
       asking.sentAt + 11000000 ≤ s.clk) ∧
      (∀ a ∈ ([.sealed 7 1 [0xAA], .notSealed 7 true, .notSealed 7 false, .notSealed 8 true, .sealed 8 0 [], .failed] : List CastAnswer),
        let u : Strand := { u0 with st := .wait (.cast 3 4 7 0x40000 5) }
        let s : State := { peeredWith (.castData 5 a) u [] [] with inp := { unit := 0, inc := 9, cast := some a, code := 2, msg := some ⟨3, 9, .castData 5 a⟩ } }
        s.inp.cast = some a ∧ s.strand s.inp.unit = some u ∧ FabricOn s ∧ Admitted s ⟨3, s.inp.inc, .castData 5 a⟩ ∧
          ¬ Admitted { s with ptabEn := false } ⟨3, s.inp.inc, .castData 5 a⟩ ∧ Table.sorted s.strands = true ∧
          s.inp.msg = some ⟨3, 9, .castData 5 a⟩) := by
  unfold Admitted FabricOn; decide +kernel

/-- TimeIsSynchronised: READY and not; 100 ns and 101 ns; the second and the third exchange; 8 ms without one, and a clk less. -/
theorem witness_Time :
    let s (g c : Nat) (y : Bool) : State := { State.reset with aqGood := g, aqSync := y, annex := up, inp := { code := c } }
    (s 1 100 false).annex.bootState = 3 ∧ State.reset.annex.bootState ≠ 3 ∧
      (s 1 100 false).inp.code ≤ 100 ∧ 1 + 1 < 3 ∧ ¬ 2 + 1 < 3 ∧ (s 2 100 false).aqSync = false ∧ 100 < (s 2 101 false).inp.code ∧
      (s 5 0 true).aqSync = true ∧ 8800000 ≤ ({ s 5 0 true with clk := 8800000 } : State).clk - 0 ∧
      ({ s 5 0 true with clk := 8799999 } : State).clk - 0 < 8800000 := by decide

/-- An integer allreduce of two ranks by a ring, two elements each, after its last step. -/
def coll0 : Coll :=
  { op := 0, ty := 2, ft := false, red := 0, alg := 0, root := 0, n := 2, rank := 0, count := 2, tmo := 1, seq := 7,
    send := ⟨0, [0x10000]⟩, recv := ⟨0, [0x30000]⟩, work := ⟨0, [0x20000]⟩, devs := [0, 3], works := [⟨0, []⟩, ⟨0, [0x50000]⟩]
    status := ⟨0, [0x40000]⟩, contrib := [0, 1], incs := [(1, 9)], step := 2, sentStep := 2, since := 0, got := [] }

/-- The same at its first step, which it has not begun, and which it has; with 40 elements, whose pieces take two lines. -/
def collNew : Coll := { coll0 with step := 0, sentStep := 0 }
def collSent : Coll := { coll0 with step := 0, sentStep := 1 }
def collWide : Coll := { collSent with count := 40 }

/-- FailuresLeasesAndCasts: what a collective sends to its next rank may fail, and a lease that this device granted holds it. -/
theorem witness_CollFails :
    let s : State := { busy (.coll collSent) with clk := 11000000, inp := { unit := 1, code := 1, len := 1 } }
    MayFail s (moving (.coll collSent)) 1 1 ∧ s.op 1 = some (moving (.coll collSent)) ∧ s.strand 0 = some u0 := by
  simp only [MayFail, moving]; decide +kernel

/-- CollectivesProceed: a step to begin; its line of this rank's WORK, the only one, and the first of two. -/
theorem witness_CollectivesProceed :
    (∀ x ∈ [collNew, collSent, collWide], (busy (.coll x)).op 1 = some (moving (.coll x)) ∧ x.step < x.steps ∧ 2 ≤ x.n ∧ x.rank < x.n ∧
        x.work = ⟨0x20000 % 4096, [0x20000 / 4096 * 4096]⟩ ∧ 0x20000 % 4096 + elemSize x * (x.n * x.count) ≤ 4096 ∧
        x.send = ⟨0x10000 % 4096, [0x10000 / 4096 * 4096]⟩ ∧ 0x10000 % 4096 + elemSize x * x.count ≤ 4096 ∧
        0x10000 + elemSize x * x.count ≤ 0x20000) ∧
      collNew.sentStep < collNew.step + 1 ∧ collNew.gives 1 = some ⟨1, [1]⟩ ∧ collSent.takes 1 = some ⟨1, [0]⟩ ∧
      collNew.lines 1 ≠ [] ∧ collSent.lines 1 = [0x20000 / 64] ∧ collWide.lines 1 = [0x802, 0x803] ∧
      ({ collNew with alg := 2 } : Coll).gives 1 = some ⟨2, [0]⟩ ∧ ({ collNew with alg := 2 } : Coll).takes 1 = none ∧
      collSent.combines 1 = true ∧ coll0.combines 2 = false ∧
      (∀ x ∈ [collSent, collWide],
        let b : AqBody := .collLine 7 1 1 (64 * 0x802) 0 0
        let s := peeredWith b u0 [moving (.coll x)] []
        s.op 1 = some (moving (.coll x)) ∧ s.inp.msg = some ⟨3, 9, b⟩ ∧ Admitted s ⟨3, 9, b⟩ ∧ FabricOn s ∧ x.sentStep = x.step + 1 ∧
          (∀ y ∈ s.ops, y = moving (.coll x)) ∧ s.granted = [] ∧ s.errs = [] ∧ s.hostCopies = [] ∧ x.seq = 7 ∧
          (64 * 0x802 : BitVec 52).toNat < 2 ^ 40) := by
  unfold Admitted FabricOn; decide +kernel

theorem witness_CollectivesAlone (x : Coll) : ∀ y, (busy (.coll x)).migOf y = [] := migOf_nil _ rfl

/-- CollectivesEnd: a collective that has taken its last step, and one that has waited 1 µs and a clk for its first message;
a lease on the record's line; the abort of rank 1. -/
theorem witness_CollectivesEnd :
    let s (x : Coll) (clk : Nat) : State := { busy (.coll x) with clk := clk, inp := { unit := 1 } }
    (∀ x ∈ [coll0, collSent], (s x 0).op (s x 0).inp.unit = some (moving (.coll x)) ∧ (s x 0).strand 0 = some u0 ∧
        x.n ≤ 256 ∧ x.devs.length = x.n ∧ x.rank < x.n ∧ (s x 0).errs = [] ∧ x.status = ⟨0x40000 % 4096, [0x40000 / 4096 * 4096]⟩ ∧
        x.work = ⟨0x20000 % 4096, [0x20000 / 4096 * 4096]⟩ ∧ x.recv = ⟨0x30000 % 4096, [0x30000 / 4096 * 4096]⟩ ∧
        0x40000 < 2 ^ 39 ∧ 0x40000 % 4096 + 16 + 4 * x.n = 24 ∧ elemSize x * x.count = 8) ∧
      coll0.steps ≤ coll0.step ∧ (s coll0 0).granted = [] ∧ (s coll0 0).hostCopies = [] ∧
      ({ s coll0 0 with granted := [⟨3, 0x40000 / 64, 0, 0⟩] } : State).leased (0x40000 / 64) = true ∧
      collSent.takes (collSent.step + 1) = some ⟨1, [0]⟩ ∧ collSent.sentStep = collSent.step + 1 ∧
      (s collSent 1101).annex.suspState < 2 ∧ collSent.since + 1100 * collSent.tmo < (s collSent 1101).clk ∧
      (s collSent 1100).clk ≤ collSent.since + 1100 * collSent.tmo ∧
      (let b : AqBody := .collAbort 7
       let x := peeredWith b u0 [moving (.coll collSent)] []
       x.inp.msg = some ⟨3, 9, b⟩ ∧ FabricOn x ∧ Admitted x ⟨3, 9, b⟩ ∧ (∀ y ∈ x.ops, y = moving (.coll collSent)) ∧ x.granted = [] ∧
         collSent.devs.Nodup ∧ collSent.devs[1]? = some 3) := by
  unfold Admitted FabricOn; decide +kernel

theorem witness_CollectivesEndApart :
    (∀ x, 0x40000 ≤ x ∧ x < 0x40000 + 24 → ¬ (0x20000 ≤ x ∧ x < 0x20000 + 8) ∧ ¬ (0x30000 ≤ x ∧ x < 0x30000 + 8)) ∧
      (∀ x, 0x20000 ≤ x ∧ x < 0x20000 + 8 → ¬ (0x30000 ≤ x ∧ x < 0x30000 + 8)) := by
  constructor <;> intro x h <;> omega

/-- CollectivesComputeTheirResult: two ranks, by the ring and by the tree, for each operation: the ranks' own elements, and
what their WORK holds of them at the start. -/
theorem witness_CollectivesCompute (a op : Nat) (h : a < 2) (ho : op ≤ 2) :
    let c : Coll := { coll0 with alg := a, op := op, root := 1 }
    let xs (r j : Nat) : Word := BitVec.ofNat 64 (2 * r + j % 2)
    let W (r j : Nat) : Word := if op = 2 then xs (j / c.count) (j % c.count) else xs r j
    2 ≤ c.n ∧ c.n ≤ 256 ∧ c.alg < 2 ∧ c.op ≤ 2 ∧ 1 ≤ c.count ∧ c.root < c.n ∧ c.ft = false ∧
      (∀ r j, r < c.n → j < c.count → (c.op = 0 ∨ (c.op = 1 ∧ r = c.root) → W r j = xs r j) ∧
        (c.op = 2 → W r (r * c.count + j) = xs r j)) := by
  refine ⟨Nat.le_refl 2, (by decide : 2 ≤ 256), h, ho, (by decide : 1 ≤ 2), (by decide : 1 < 2), rfl, fun r j hr hj => ⟨fun hc => ?_, fun hc => ?_⟩⟩
  · have hop : op ≠ 2 := by rcases hc with hc | hc <;> (simp only [] at hc; omega)
    simp only [if_neg hop]
  · have hj' : j < 2 := hj
    have hop : op = 2 := hc
    simp only [if_pos hop, coll0]
    rw [show (r * 2 + j) / 2 = r by omega, show (r * 2 + j) % 2 = j by omega]

theorem witness_CollectivesElements (r j : Nat) (h : r < 2) :
    (BitVec.ofNat 64 (2 * (r % 2) + j % 2)).toNat < 2 ^ 32 ∧ widthOf coll0.ty = 32 := by
  refine ⟨?_, rfl⟩
  simp only [BitVec.toNat_ofNat]; omega

/-! ### Words: every word constructor, and the encodings that the spec itself writes out -/

/-- Every word of a list decodes to the instruction beside it, and is the encoding of it. -/
def decodes (l : List (BitVec 32 × Instr)) : Bool := l.all fun p => decodeWord p.1 = some p.2 && encode p.2 = p.1

/-- Every instruction of a list is ill-formed, and the decoder refuses its word. -/
def refuses (l : List Instr) : Bool := l.all fun i => !i.wellFormed && (decodeWord (encode i)).isNone

theorem test_decode_integer : decodes [
      (0b000001_11110_01001_00000_00000000000, .add 30 9 0),
      (0b000001_10100_01100_10010_00000000001, .sub 20 12 18),
      (0b000001_11001_10011_10111_00000000010, .and 25 19 23),
      (0b000001_00101_11000_10111_00000000011, .or 5 24 23),
      (0b000001_10010_11100_10010_00000000100, .xor 18 28 18),
      (0b000001_11001_00001_01111_00000000101, .andn 25 1 15),
      (0b000001_00011_11110_01110_00000000110, .sll 3 30 14),
      (0b000001_00010_11011_10001_00000000111, .srl 2 27 17),
      (0b000001_01111_00001_10001_00000001000, .sra 15 1 17),
      (0b000001_11101_00010_00110_00000001001, .slt 29 2 6),
      (0b000001_11111_01101_11011_00000001010, .sltn 31 13 27),
      (0b000001_00111_00000_01110_00000001011, .min 7 0 14),
      (0b000001_00101_00110_10011_00000001100, .max 5 6 19),
      (0b000001_01110_01010_01100_00000001101, .minn 14 10 12),
      (0b000001_00111_00010_11000_00000001110, .maxn 7 2 24),
      (0b000001_11100_11000_10111_00000001111, .mul 28 24 23),
      (0b000001_00011_10000_10101_00000010000, .mulh 3 16 21),
      (0b000001_10001_01100_11111_00000010001, .mulhn 17 12 31),
      (0b000001_01110_00101_11001_00000010010, .div 14 5 25),
      (0b000001_10011_00000_10111_00000010011, .divn 19 0 23),
      (0b000001_11011_01111_01101_00000010100, .rem 27 15 13),
      (0b000001_10101_11000_00100_00000010101, .remn 21 24 4),
      (0b000001_10110_01110_0000000000010110, .clz 22 14),
      (0b000001_10001_10001_0000000000010111, .ctz 17 17),
      (0b000001_00000_00000_0000000000011000, .popc 0 0),
      (0b000001_10101_11011_000_00_00000011001, .sext 21 27 0),
      (0b000001_10010_01001_000_00_00000011010, .zext 18 9 0),
      (0b000010_11101_00011_1000100100111111, .addi 29 3 35135),
      (0b000011_01100_10111_1100110100010101, .andi 12 23 52501),
      (0b000100_01011_11101_0100101010010110, .ori 11 29 19094),
      (0b000101_01101_01110_0010111110000001, .xori 13 14 12161),
      (0b000110_10010_10111_0000000000_100010, .slli 18 23 34),
      (0b000110_00111_00010_0100000000_101001, .srli 7 2 41),
      (0b000110_11100_01111_1000000000_011111, .srai 28 15 31),
      (0b000111_01001_11111_0111011111100111, .slti 9 31 30695),
      (0b001000_01000_11011_1100000001001101, .sltni 8 27 49229),
      (0b001001_01011_11100_0001000100111001, .ldih 11 28 4409),
      (0b001010_10101_00000_0010011100100110, .adpc 21 10022)] = true := by
  decide +kernel

theorem test_decode_scalar_float_and_control : decodes [
      (0b001011_11100_00010_10001_0000_010_01_00, .fadd 28 2 17 2 1),
      (0b001011_01010_10100_00000_0001_000_01_00, .fsub 10 20 0 0 1),
      (0b001011_11001_10010_11111_0010_100_01_00, .fmul 25 18 31 4 1),
      (0b001011_00000_00101_11110_0011_011_10_00, .fdiv 0 5 30 3 2),
      (0b001011_00111_01100_000000100_100_00_00, .fsqrt 7 12 4 0),
      (0b001011_10101_11111_00000_0101_001_10_00, .fma 21 31 0 1 2),
      (0b001011_10000_01011_00100_0110000_11_00, .fmin 16 11 4 3),
      (0b001011_10000_10001_00011_0111000_01_00, .fmax 16 17 3 1),
      (0b001011_01010_11011_11011_1000000_10_10, .fcmp 10 27 27 2 2),
      (0b001011_01101_01100_0_1000_1001_010_0000, .fcvt 13 12 8 2 0),
      (0b001011_00101_10111_000001010000_00_00, .fclass 5 23 0),
      (0b001100_00011_10011_1011101011010010, .beq 3 19 47826),
      (0b001101_10100_11000_0011101111111101, .bne 20 24 15357),
      (0b001110_01110_01000_0011011101111101, .blt 14 8 14205),
      (0b001111_11010_10011_0101111110100000, .bge 26 19 24480),
      (0b010000_01010_10100_1001101011100011, .bltn 10 20 39651),
      (0b010001_10000_10110_1111001101110111, .bgen 16 22 62327),
      (0b010010_01111101111001100000101000, .jal 33003560),
      (0b010011_11111_000000000000000000000, .jr 31),
      (0b010011_10101_00001_0110100010011011, .lpSet 21 26779),
      (0b010011_00000_000100000000000000000, .lpBrk 0),
      (0b010011_10101_000100000000000000001, .lpBrkZ 21),
      (0b010011_10011_00011_1110_0101_1100_0010, .rframe 19 14 5 12 2),
      (0b01001100000001000000000000000000, .halt)] = true := by
  decide +kernel

theorem test_decode_scalar_memory : decodes [
      (0b010100_00000_10111_000110110100_0000, .ldB 0 23 436),
      (0b010100_01010_00011_000111100100_0001, .ldBn 10 3 484),
      (0b010100_10010_10011_101100100001_0010, .ldH 18 19 2849),
      (0b010100_10010_01101_100100010100_0011, .ldHn 18 13 2324),
      (0b010100_01011_01011_011001011001_0100, .ldW 11 11 1625),
      (0b010100_00101_00100_010011101011_0101, .ldWn 5 4 1259),
      (0b010100_01010_11100_111110010000_0110, .ldD 10 28 3984),
      (0b010100_10010_10011_001110001100_0111, .gl 18 19 908),
      (0b010101_10110_11001_111001111111_0000, .stB 22 25 3711),
      (0b010101_01100_01011_010111011110_0001, .stH 12 11 1502),
      (0b010101_10101_10110_101100000010_0010, .stW 21 22 2818),
      (0b010101_01101_00110_001000110000_0011, .stD 13 6 560),
      (0b010110_00111_10101_11110_00000000000, .sc 7 21 30),
      (0b010110_01010_11100_01001_001000000_01, .apnd 10 28 9 1),
      (0b01011000000_01001_0000001000000000, .seal 9),
      (0b010110_10001_00111_0000001100000000, .sealq 17 7)] = true := by
  decide +kernel

theorem test_decode_system : decodes [
      (0b011001_01001_00000_0000000011000101, .srd 9 197),
      (0b01101000000_00100_0000000011000101, .swr 4 197),
      (0b011011_1111110110_0000000000000000, .svc 1014),
      (0b01101100000000000000000000000001, .tret),
      (0b01101100000000000000000000010000, .fenceSv),
      (0b01101100000000000000000000010001, .fenceVs),
      (0b01101100000000000000000000010010, .fenceVv),
      (0b01101100000000000000000000010011, .fenceSys),
      (0b01101100000000000000000000100000, .drainPln),
      (0b01101100000000000000000000100001, .drainSpm),
      (0b01101100000000000000000000100010, .drainFold),
      (0b01101100000000000000000000100011, .drainBk),
      (0b01101100000000000000000000100100, .drainAq),
      (0b01101100000000000000000000110000, .idle),
      (0b0111000000000000_1111_1100_0011_0011, .waitc 15 12 3 3),
      (0b01110100000_01010_11010_00000000000, .cclean 10 26),
      (0b01110100000_01111_11111_00000000001, .cinval 15 31),
      (0b01110100000_01010_01100_00000000010, .tlbinv 10 12),
      (0b01110100000_10111_0000000000000011, .pcal 23),
      (0b01111000000_10001_0000000000000000, .vsave 17),
      (0b01111000000_01001_0000000000000001, .vrestore 9),
      (0b01111000000_01010_0000000000000010, .vfree 10)] = true := by
  decide +kernel

theorem test_decode_vector_masks : decodes [
      (0b100000_00111_01100_000_01_000_001_00000, .vsetn 7 12 1 1),
      (0b100000_00001_11110_000_01_000_010_00001, .vsetnFloat 1 30 1 2),
      (0b100000_10101_000000000000000000010, .vgetn 21),
      (0b1000000000000000_00110_00000000011, .vslip 6),
      (0b10000100_101_00_100_00_100_00000000000, .kand 5 4 4),
      (0b10000100_011_00_111_00_101_00000000001, .kor 3 7 5),
      (0b10000100_110_00_111_00_101_00000000010, .kxor 6 7 5),
      (0b10000100_001_00_101_00_001_00000000011, .kandn 1 5 1),
      (0b10000100_101_00_101_0000000000000100, .knot 5 5),
      (0b10000100_010_00_101_0000000000000101, .kmov 2 5),
      (0b100001_01110_00_011_0000000000000110, .kpop 14 3),
      (0b100001_00101_00_001_0000000000000111, .kfirst 5 1),
      (0b10000100_011_11001_0000000000001000, .kset 3 25),
      (0b10000100_100_00_101_00110_00000001001, .kshl 4 5 6),
      (0b10000100_111_00_110_10001_00000001010, .kshr 7 6 17)] = true := by
  decide +kernel

theorem test_decode_vector_integer : decodes [
      (0b100010_00101_11111_00000_110_101_00000, .vadd 5 31 0 6 5),
      (0b100010_10001_01010_01001_011_101_00001, .vsub 17 10 9 3 5),
      (0b100010_00111_10111_00100_010_001_00010, .vrsub 7 23 4 2 1),
      (0b100010_00000_10001_00010_100_011_00011, .vmul 0 17 2 4 3),
      (0b100010_11011_10101_10001_001_101_00100, .vmulh 27 21 17 1 5),
      (0b100010_01110_00001_01011_010_001_00101, .vmulhn 14 1 11 2 1),
      (0b100010_01111_10011_11010_101_011_00110, .vmadd 15 19 26 5 3),
      (0b100010_01000_00111_00011_001_110_00111, .vmin 8 7 3 1 6),
      (0b100010_10001_00001_00001_001_000_01000, .vmax 17 1 1 1 0),
      (0b100010_00011_01001_00000_000_010_01001, .vminn 3 9 0 0 2),
      (0b100010_00110_00101_10110_101_100_01010, .vmaxn 6 5 22 5 4),
      (0b100010_11101_01011_10000_110_110_01011, .vand 29 11 16 6 6),
      (0b100010_10010_10000_11110_100_001_01100, .vor 18 16 30 4 1),
      (0b100010_11011_10110_11001_000_000_01101, .vxor 27 22 25 0 0),
      (0b100010_10001_01110_00000_011_100_01110, .vsll 17 14 0 3 4),
      (0b100010_10111_01100_01010_101_011_01111, .vsrl 23 12 10 5 3),
      (0b100010_10110_10000_11011_110_001_10000, .vsra 22 16 27 6 1),
      (0b100010_10111_10101_10010_101_001_10001, .vsadd 23 21 18 5 1),
      (0b100010_01000_11010_11010_001_001_10010, .vssub 8 26 26 1 1),
      (0b100010_01010_10011_01110_001_100_10011, .vadc 10 19 14 1 4),
      (0b100010_10011_11110_11001_011_111_10100, .vsbc 19 30 25 3 7),
      (0b100010_01001_01000_11000_011_101_10101, .vmerge 9 8 24 3 5),
      (0b100010_00001_10010_00000_010_111_10110, .vmov 1 18 2 7),
      (0b100010_01001_01011_00_001_000_110_10111, .vsext 9 11 1 0 6),
      (0b100010_11110_00001_00_100_111_010_11000, .vzext 30 1 4 7 2),
      (0b100010_01110_01101_00000_111_111_11001, .vclz 14 13 7 7),
      (0b100010_11111_11111_00000_011_011_11010, .vpopc 31 31 3 3),
      (0b100011_10011_01101_00011_000_110_00000, .vsllImm 19 13 3 0 6),
      (0b100011_10110_11101_11111_001_111_00001, .vsrlImm 22 29 31 1 7),
      (0b100011_01101_00001_10110_000_110_00010, .vsraImm 13 1 22 0 6),
      (0b10010000_011_01100_00010_101_110_00000, .vcmpEq 3 12 2 5 6),
      (0b10010000_010_00001_11011_000_110_00001, .vcmpNe 2 1 27 0 6),
      (0b10010000_011_10101_00100_000_010_00010, .vcmpLt 3 21 4 0 2),
      (0b10010000_001_10101_00110_011_111_00011, .vcmpLe 1 21 6 3 7),
      (0b10010000_110_11000_10100_001_101_00100, .vcmpLtn 6 24 20 1 5),
      (0b10010000_011_11100_01101_110_101_00101, .vcmpLen 3 28 13 6 5),
      (0b100101_00100_11100_00_100_011_000_00000, .vnarrowWrap 4 28 4 3 0),
      (0b100101_11101_00110_00_000_100_110_00001, .vnarrowSat 29 6 0 4 6)] = true := by
  decide +kernel

theorem test_decode_vector_float : decodes [
      (0b100110_11011_00101_01100_110_000_00000, .vfadd 27 5 12 6 0),
      (0b100110_10100_01011_11011_011_011_00001, .vfsub 20 11 27 3 3),
      (0b100110_01000_01111_11011_100_010_00010, .vfmul 8 15 27 4 2),
      (0b100110_10111_01001_00000_001_000_00011, .vfdiv 23 9 0 1 0),
      (0b100110_11110_11000_00000_100_000_00100, .vfsqrt 30 24 4 0),
      (0b100110_10110_10011_00000_010_010_00101, .vfma 22 19 0 2 2),
      (0b100110_00001_10010_01001_010_010_00110, .vfnma 1 18 9 2 2),
      (0b100110_01111_10110_00101_100_000_00111, .vfmin 15 22 5 4 0),
      (0b100110_01000_10001_11111_001_000_01000, .vfmax 8 17 31 1 0),
      (0b100110_11100_00110_00000_000_010_01001, .vfexp2 28 6 0 2),
      (0b100110_00110_00011_00000_111_010_01010, .vfrsqrt 6 3 7 2),
      (0b100110_01011_01100_000_01_111_010_10000, .vfcvt 11 12 1 7 2),
      (0b100110_10000_01001_00_000_111_001_10001, .vfcvtIntToFloat 16 9 0 7 1),
      (0b100110_00010_10110_000_01_110_001_10010, .vfcvtFloatToInt 2 22 1 6 1),
      (0b10011100_101_01111_00110_011_011_00000, .vfcmpEq 5 15 6 3 3),
      (0b10011100_011_01110_10000_000_011_00001, .vfcmpNe 3 14 16 0 3),
      (0b10011100_111_01010_00001_001_000_00010, .vfcmpLt 7 10 1 1 0),
      (0b10011100_101_10001_01000_111_010_00011, .vfcmpLe 5 17 8 7 2),
      (0b10011100_000_01010_11001_001_000_00100, .vfcmpUn 0 10 25 1 0)] = true := by
  decide +kernel

theorem test_decode_vector_reductions : decodes [
      (0b101000_10000_01001_11001_110_101_00000, .vredsumWrap 16 9 25 6 5),
      (0b101000_00100_01100_01111_111_110_00001, .vredsumSat 4 12 15 7 6),
      (0b101000_00111_00110_01101_101_101_00010, .vredmin 7 6 13 5 5),
      (0b101000_01111_11101_00001_101_011_00011, .vredmax 15 29 1 5 3),
      (0b101000_10001_11100_00101_111_000_00100, .vfredsum 17 28 5 7 0),
      (0b101000_01111_11011_01100_011_001_00101, .vfredmax 15 27 12 3 1),
      (0b101001_01011_11001_01001_011_000_00000, .vslideup 11 25 9 3 0),
      (0b101001_01010_00110_10100_110_011_00001, .vslidedn 10 6 20 6 3),
      (0b101001_00010_00101_11001_001_000_00010, .vperm 2 5 25 1 0),
      (0b101001_10011_11000_00000_000_001_00011, .vcomp 19 24 0 1),
      (0b101001_10100_00011_00000_100_011_00100, .vexpand 20 3 4 3),
      (0b101001_01001_10010_00000_011_001_00101, .vbcast 9 18 3 1),
      (0b101001_10101_01111_00000_000_110_00110, .vext 21 15 0 6),
      (0b101001_10000_00111_11100_000_001_00111, .vins 16 7 28 1),
      (0b101010_11100_10101_11100_111_000_00000, .vquantI8 28 21 28 7 0),
      (0b101010_00100_10001_01011_100_011_00001, .vquantI4 4 17 11 4 3),
      (0b101010_10000_00100_11111_011_010_00010, .vquantTern 16 4 31 3 2),
      (0b101010_00100_11011_11011_110_001_01000, .vdeqNq4 4 27 27 6 1),
      (0b101010_10101_01001_00110_010_011_01001, .vdeqE2m1 21 9 6 2 3),
      (0b101010_01001_11100_01100_010_011_01010, .vdeqTern 9 28 12 2 3),
      (0b101010_11110_11001_10100_110_001_10_001, .vquantPi 30 25 20 6 1 1)] = true := by
  decide +kernel

theorem test_decode_vector_memory : decodes [
      (0b101110_11100_10110_00000_100_001_00000, .vld 28 22 4 1),
      (0b101110_11111_01010_00000_001_011_00001, .vst 31 10 1 3),
      (0b101111_01011_01011_10001_001_110_00000, .vlds 11 11 17 1 6),
      (0b101111_10110_01111_01100_010_100_00001, .vsts 22 15 12 2 4),
      (0b110000_10000_00000_11010_101_101_00000, .vldx 16 0 26 5 5),
      (0b110000_11011_10111_10000_100_111_00001, .vstx 27 23 16 4 7),
      (0b110000_10010_01001_00011_111_001_00010, .vgl 18 9 3 7 1),
      (0b110000_01111_01101_10110_100_111_00011, .vsc 15 13 22 4 7),
      (0b110001_00001_10011_00010_010_100_00000, .vapnd 1 19 2 2 4),
      (0b110001_10001_00101_10010_010_111_00001, .vldp 17 5 18 2 7),
      (0b110001_00001_10100_10011_000_100_00010, .vstp 1 20 19 0 4),
      (0b110001_10000_00001_00000_100_111_00011, .vldsp 16 1 4 7),
      (0b110001_01010_11110_00000_110_000_00100, .vstsp 10 30 6 0)] = true := by
  decide +kernel

theorem test_decode_planes : decodes [
      (0b110100_00100_10111_01001_00010_000000, .padd 4 23 9 2),
      (0b110100_11111_01111_01000_01111_000001, .psub 31 15 8 15),
      (0b110100_10101_01110_00000_00010_000010, .pmul 21 14 0 2),
      (0b110100_11011_10101_10000_00110_000011, .pcmp 27 21 16 6),
      (0b110100_11110_10000_01000_01000_000100, .pand 30 16 8 8),
      (0b110100_10000_10111_10100_00100_000101, .por 16 23 20 4),
      (0b110100_10101_00100_00100_00011_000110, .pxor 21 4 4 3),
      (0b110100_01001_11010_00000_01010_000111, .pnot 9 26 10),
      (0b110100_10001_01100_11010_01000_001000, .psel 17 12 26 8),
      (0b110100_00011_10000_00011_01110_001001, .pshl 3 16 3 14),
      (0b110100_00100_01100_00100_00110_001010, .pshr 4 12 4 6),
      (0b110100_01111_11110_00000_01000_001011, .pcopy 15 30 8),
      (0b110100_01011_00000_01000_01010_001100, .pfill 11 8 10),
      (0b110101_11000_000000000000000000000, .plock 24),
      (0b110101_00100_000000000000000000001, .punlock 4),
      (0b110101_00001_10011_0000000000_000010, .pprog 1 19 0),
      (0b110110_10100_11010_0000000000000000, .rowcp 20 26),
      (0b11011000000_00010_01110_00101_000001, .rowmaj 2 14 5),
      (0b110110_01111_00111_0000000000000010, .rownot 15 7),
      (0b110110_00111_10001_00000_01000_000011, .rowshl 7 17 8),
      (0b110110_01110_01011_00000_10111_000100, .rowshr 14 11 23)] = true := by
  decide +kernel

theorem test_decode_fold_and_banks : decodes [
      (0b11100000000_00100_01010_001_00000000, .plant 4 10 1),
      (0b11100000_101_00010_01000_010_1_10_00000, .plantChained 5 2 8 2 2),
      (0b11100100_010_10001_11110_000_01_000000, .fold 2 17 30 1),
      (0b111001_00011_00010_01101_001_10_0_00_110, .fread 3 2 13 2 0 6),
      (0b11100100_100_000000000001000000000, .fclr 4),
      (0b111010_11000_10101_01000_000_110_0_0000, .bkadd 24 21 8 6 0),
      (0b111010_11111_11100_01010_001_000_0_0000, .bkred 31 28 10 0 0),
      (0b111010_10001_11111_00111_010_101_0_0000, .bkcx 17 31 7 5 0),
      (0b111010_01010_10011_00000_011_011_10000, .bksax 10 19 0 3)] = true := by
  decide +kernel

theorem test_decode_strands_and_aqueduct : decodes [
      (0b111011_10100_000000000000000000000, .lfork 20),
      (0b11101100000_10111_0000000000000001, .ljoin 23),
      (0b11101100000_11110_00000_111_00000010, .vissue 30 7),
      (0b11101100000_11010_0000000000000011, .cspawn 26),
      (0b11101100000_10111_0000000000000100, .cjoin 23),
      (0b11101100000000000000000000000101, .cend),
      (0b1111000000000000_0000000000001101, .barArrive 13),
      (0b1111000000000001_0000000000001110, .barWait 14),
      (0b111100_00110_00010_0000000000001111, .barSet 6 15),
      (0b111101_00011_11100_01110_00000000000, .aqPut 3 28 14),
      (0b111101_01011_11010_01101_00100000000, .aqGet 11 26 13),
      (0b11110100000_01011_01001_01000000000, .aqSig 11 9),
      (0b11110100000_11010_10110_01100000000, .aqColl 26 22),
      (0b111101_11101_01111_00100_10000000000, .aqLease 29 15 4)] = true := by
  decide +kernel

/-- Encodings that the spec writes beside their assembly text (07_scalar.md to 15_interruption.md). -/
theorem test_spec_words_1 : decodes [
      (0x04642800, .add 3 4 5),
      (0x05C63815, .remn 14 6 7),
      (0x24A01235, .ldih 5 0 0x1235),
      (0x08A59ABC, .addi 5 5 0x9ABC),
      (0x2CC74409, .fcmp 6 7 8 2 1),
      (0x2CC7149A, .fcvt 6 7 2 1 10),
      (0x2C642A88, .fma 3 4 5 0 2),
      (0x4FE00000, .jr 31),
      (0x80A60080, .vsetn 5 6 0 4),
      (0x84210802, .kxor 1 1 1),
      (0x88088040, .vadd 0 8 16 0 2),
      (0x8929488D, .vxor 9 9 9 0 4),
      (0x88821993, .vadc 4 2 3 1 4),
      (0x90221842, .vcmpLt 1 2 3 0 2),
      (0xA0C20041, .vredsumSat 6 2 0 0 2),
      (0xECC00000, .lfork 6),
      (0xEC060001, .ljoin 6),
      (0xEC060003, .cspawn 6),
      (0xEC060004, .cjoin 6),
      (0xEC000005, .cend),
      (0xEC010002, .vissue 1 0),
      (0x70000000, .waitc 0 0 0 0),
      (0x70002FF0, .waitc 2 15 15 0),
      (0x5103FFC4, .ldW 8 3 0xFFC),
      (0x55230070, .stB 9 3 7),
      (0xB8460040, .vld 2 6 0 2),
      (0xBC864021, .vsts 4 6 8 0 1),
      (0xC0A74BC0, .vldx 5 7 9 3 6),
      (0xC4260043, .vldsp 1 6 0 2),
      (0xC4663801, .vldp 3 6 7 0 0)] = true := by
  decide +kernel

/-- Encodings that the spec writes beside their assembly text (07_scalar.md to 15_interruption.md). -/
theorem test_spec_words_2 : decodes [
      (0x74063800, .cclean 6 7),
      (0x74063801, .cinval 6 7),
      (0x74063802, .tlbinv 6 7),
      (0xD0C741C0, .padd 6 7 8 7),
      (0xD0C741C1, .psub 6 7 8 7),
      (0xD12741C2, .pmul 9 7 8 7),
      (0xD0C741C3, .pcmp 6 7 8 7),
      (0xD0C741C4, .pand 6 7 8 7),
      (0xD0C741C6, .pxor 6 7 8 7),
      (0xD0C700C7, .pnot 6 7 3),
      (0xD0C741C8, .psel 6 7 8 7),
      (0xD0C741C9, .pshl 6 7 8 7),
      (0xD0C741CA, .pshr 6 7 8 7),
      (0xD0C700CB, .pcopy 6 7 3),
      (0xD0C04BCC, .pfill 6 9 15),
      (0xD4C70D42, .pprog 6 7 53),
      (0xDB000000, .rowcp 24 0),
      (0xD818CEC1, .rowmaj 24 25 27),
      (0xDBBA0002, .rownot 29 26),
      (0xDB2500C3, .rowshl 25 5 3),
      (0xD4C00000, .plock 6),
      (0xD4C00001, .punlock 6),
      (0x74060003, .pcal 6),
      (0xE0463B80, .plantChained 2 6 7 3 0),
      (0xE0463BC0, .plantChained 2 6 7 3 2),
      (0xE4474000, .fold 2 7 8 0),
      (0xE4600102, .fread 3 0 0 0 0 2),
      (0xE4400200, .fclr 2),
      (0xE8C74010, .bkadd 6 7 8 0 1),
      (0x51060007, .gl 8 6 0)] = true := by
  decide +kernel

/-- Encodings that the spec writes beside their assembly text (07_scalar.md to 15_interruption.md). -/
theorem test_spec_words_3 : decodes [
      (0x59265000, .sc 9 6 10),
      (0xC08628E2, .vgl 4 6 5 0 7),
      (0xC0862AE3, .vsc 4 6 5 2 7),
      (0x59265103, .apnd 9 6 10 3),
      (0xC4464840, .vapnd 2 6 9 0 2),
      (0x58060200, .seal 6),
      (0x59260300, .sealq 9 6),
      (0xF0000005, .barArrive 5),
      (0xF0010005, .barWait 5),
      (0xF0C20005, .barSet 6 5),
      (0xF0000043, .barArrive 67),
      (0xF4C74000, .aqPut 6 7 8),
      (0xF4C74100, .aqGet 6 7 8),
      (0xF4074200, .aqSig 7 8),
      (0xF4074300, .aqColl 7 8),
      (0xF4C74400, .aqLease 6 7 8),
      (0x64C000C1, .srd 6 0xC1),
      (0x680700C3, .swr 7 0xC3),
      (0x6C050000, .svc 5),
      (0x6C000001, .tret),
      (0x6C000030, .idle),
      (0x78060000, .vsave 6),
      (0x78060001, .vrestore 6),
      (0x78060002, .vfree 6)] = true := by
  decide +kernel

/-- An ill-formed term for each check of `wellFormed`, which the decoder refuses. -/
theorem test_illformed_1 : refuses [
      .sext 0 0 3,
      .zext 0 0 3,
      .fadd 0 0 0 5 0,
      .fadd 0 0 0 6 0,
      .fsub 0 0 0 5 0,
      .fmul 0 0 0 5 0,
      .fdiv 0 0 0 5 0,
      .fsqrt 0 0 5 0,
      .fma 0 0 0 5 0,
      .fcvt 1 2 4 0 2,
      .fcvt 1 2 2 0 5,
      .fcvt 1 2 8 0 9,
      .fcvt 1 2 2 6 10,
      .lpSet 0 1,
      .srd 0 7,
      .swr 0 7,
      .swr 0 4,
      .swr 0 90,
      .vsetnFloat 0 0 0 4,
      .vslip 8,
      .vadc 0 0 0 0 0,
      .vsbc 0 0 0 0 0,
      .vfadd 0 0 0 0 4,
      .vfsub 0 0 0 0 4,
      .vfmul 0 0 0 0 4,
      .vfdiv 0 0 0 0 4,
      .vfsqrt 0 0 0 4,
      .vfma 0 0 0 0 4,
      .vfnma 0 0 0 0 4,
      .vfmin 0 0 0 0 4,
      .vfmax 0 0 0 0 4,
      .vfexp2 0 0 0 4,
      .vfrsqrt 0 0 0 4,
      .vfcvt 0 0 0 0 4,
      .vfcvtIntToFloat 0 0 0 0 4,
      .vfcmpEq 0 0 0 0 4,
      .vfcmpNe 0 0 0 0 4,
      .vfcmpLt 0 0 0 0 4,
      .vfcmpLe 0 0 0 0 4,
      .vfcmpUn 0 0 0 0 4] = true := by
  decide +kernel

/-- An ill-formed term for each check of `wellFormed`, which the decoder refuses. -/
theorem test_illformed_2 : refuses [
      .vfredsum 0 0 0 0 4,
      .vfredmax 0 0 0 0 4,
      .vquantI8 0 0 0 0 4,
      .vquantI4 0 0 0 0 4,
      .vquantTern 0 0 0 0 4,
      .vdeqNq4 0 0 0 0 4,
      .vdeqE2m1 0 0 0 0 4,
      .vdeqTern 0 0 0 0 4,
      .vquantPi 0 0 0 0 4 0,
      .vsc 0 0 0 0 0,
      .padd 0 0 0 16,
      .psub 0 0 0 16,
      .pmul 0 0 0 16,
      .pcmp 0 0 0 16,
      .pand 0 0 0 16,
      .por 0 0 0 16,
      .pxor 0 0 0 16,
      .pnot 0 0 16,
      .psel 0 0 0 16,
      .pshl 0 0 0 16,
      .pshr 0 0 0 16,
      .pcopy 0 0 16,
      .pfill 0 0 16,
      .rowshl 0 0 0,
      .rowshr 0 0 0,
      .plantChained 0 0 0 0 3,
      .fold 0 0 0 3,
      .fread 1 0 0 3 0 0,
      .fread 1 0 1 0 0 0,
      .fread 1 0 1 2 1 0,
      .bkadd 0 0 0 5 1,
      .bkred 0 0 0 5 1,
      .bkcx 0 0 0 5 1,
      .bksax 0 0 0 4,
      .barArrive 80,
      .barWait 80,
      .barSet 0 80] = true := by
  decide +kernel

/-! ### Small steps: results that the spec itself works out -/

/-- The state after a word is run, or the same state. -/
def after (w : BitVec 32) (s : State) : State :=
  match decodeWord w with
  | some i => match exec i s with
    | .next t => t
    | _ => s
  | none => s

/-- A strand with registers, run through a word: one register of the result. -/
def gives (i : Instr) (l : List (Nat × Word)) (d : BitVec 5) : Word := (after (encode i) (one (regs l))).getG d

/-- The division table of R220. -/
theorem test_div : gives (.div 3 1 2) [(1, 7), (2, -2)] 3 = -3 ∧ gives (.div 3 1 2) [(1, -7), (2, 2)] 3 = -3 ∧
    gives (.div 3 1 2) [(1, 2 ^ 63), (2, -1)] 3 = 0x8000000000000000 ∧ gives (.div 3 1 2) [(1, 5)] 3 = -1 := by decide +kernel
theorem test_rem : gives (.rem 3 1 2) [(1, 7), (2, -2)] 3 = 1 ∧ gives (.rem 3 1 2) [(1, -7), (2, 2)] 3 = -1 ∧
    gives (.rem 3 1 2) [(1, 2 ^ 63), (2, -1)] 3 = 0 ∧ gives (.rem 3 1 2) [(1, 5)] 3 = 5 := by decide +kernel
theorem test_divn : gives (.divn 3 1 2) [(1, -1), (2, 2)] 3 = 0x7FFFFFFFFFFFFFFF ∧ gives (.divn 3 1 2) [(1, 5)] 3 = -1 ∧
    gives (.remn 3 1 2) [(1, -1), (2, 2)] 3 = 1 := by decide +kernel

/-- The constants of R223. -/
theorem test_ldih : (after 0x24A01235 (one u0)).getG 5 = 0x12350000 ∧
    (after 0x08A59ABC (one (regs [(5, 0x12350000)]))).getG 5 = 0x12349ABC ∧ gives (.addi 5 5 40000) [] 5 = -25536 := by decide +kernel

/-- A source that is also the destination, a wrap, a shift by 64, and the register that reads zero. -/
theorem test_add_wraps : gives (.add 1 1 1) [(1, 2 ^ 63 + 1)] 1 = 2 ∧ gives (.add 0 1 1) [(1, 1)] 0 = 0 := by decide +kernel
theorem test_shift_uses_six_bits : gives (.sll 3 1 2) [(1, 5), (2, 64)] 3 = 5 ∧ gives (.sra 3 1 2) [(1, 2 ^ 63), (2, 63)] 3 = -1 := by
  decide +kernel

/-- The flags of a strand as FCTL shows them: NV, DZ, OF, UF, NX from bit 4 down (R53). -/
def flagsAfter (w : BitVec 32) (l : List (Nat × Word)) : BitVec 5 := (after w (one (regs l))).self.fflags

/-- The table of R229, with its words' source and destination codes. -/
theorem test_fcvt : gives (.fcvt 6 7 2 1 10) [(7, 0x4F32D05E)] 6 = 0x7FFFFFFF ∧ gives (.fcvt 6 7 2 1 14) [(7, 0x4F32D05E)] 6 = 0xB2D05E00 ∧
    gives (.fcvt 6 7 2 1 10) [(7, 0xBFC00000)] 6 = -1 ∧ gives (.fcvt 6 7 2 0 10) [(7, 0xBFC00000)] 6 = -2 ∧
    gives (.fcvt 6 7 2 0 10) [(7, 0x7FC00000)] 6 = 0 := by decide +kernel
theorem test_fcvt_flags : flagsAfter 0x2CC7149A [(7, 0x4F32D05E)] = flagsAfter (encode (.fcvt 6 7 2 0 10)) [(7, 0x7FC00000)] ∧
    flagsAfter (encode (.fcvt 6 7 2 1 14)) [(7, 0x4F32D05E)] = 0 := by decide +kernel

/-- One rounding against two (R229's worked example). -/
theorem test_fma_rounds_once : (after 0x2C642A88 (one (regs [(3, 0xBF800002), (4, 0x3F800001), (5, 0x3F800001)]))).getG 3 = 0x28800000 ∧
    flagsAfter 0x2C642A88 [(3, 0xBF800002), (4, 0x3F800001), (5, 0x3F800001)] = 0 := by decide +kernel
theorem test_fmul_rounds : gives (.fmul 9 4 5 0 2) [(4, 0x3F800001), (5, 0x3F800001)] 9 = 0x3F800002 ∧
    flagsAfter (encode (.fmul 9 4 5 0 2)) [(4, 0x3F800001), (5, 0x3F800001)] = 1 := by decide +kernel

/-- An f32 tie and a b16 flush (R49). -/
theorem test_fadd_tie : (∀ m ∈ ([0, 1, 2] : List (BitVec 3)), gives (.fadd 3 1 2 m 2) [(1, 0x3F800000), (2, 0x33800000)] 3 = 0x3F800000) ∧
    ∀ m ∈ ([3, 4] : List (BitVec 3)), gives (.fadd 3 1 2 m 2) [(1, 0x3F800000), (2, 0x33800000)] 3 = 0x3F800001 := by decide +kernel
theorem test_b16_flush : gives (.fcvt 3 1 2 0 0) [(1, 0x00400000)] 3 = 0 ∧ flagsAfter (encode (.fcvt 3 1 2 0 0)) [(1, 0x00400000)] = 3 := by
  decide +kernel

/-- Branches count from themselves (R230). -/
theorem test_branch : (after (encode (.bltn 1 2 0xFFFF)) (one (regs [(1, 1), (2, -1)]))).self.pc = 0xFFC ∧
    (after (encode (.blt 1 2 0xFFFF)) (one (regs [(1, 1), (2, -1)]))).self.pc = 0x1004 := by decide +kernel

/-- A byte stored is the low one, and a word loaded is sign-extended (R318). -/
theorem test_store_byte : let t := after 0x55230070 (one (regs [(3, 0x2000), (9, 0x1234)]))
    t.byteAt 0x2007 = 0x34 ∧ t.byteAt 0x2008 = 0 := by decide +kernel
theorem test_load_word : (after 0x5103FFC4 (withBytes (one (regs [(3, 0x2008)])) 0x2004 [0xFE, 0xFF, 0xFF, 0xFF])).getG 8 = -2 := by
  decide +kernel

/-- A service call enters the handler with its number in XVAL (R447, R450). -/
theorem test_svc : let t := after 0x6C050000 { one u0 with xvec := 0x400 }
    t.self.xval = 5 ∧ t.self.exl = true ∧ t.self.cur = true ∧ t.self.pc = 0x1000 := by decide +kernel

/-- A strand of one vector instruction, past the weir. -/
def vstrand (vn : Nat) (v : List (Nat × VReg)) : Strand := { u0 with vn := vn, v := v, weirPass := some 1 }

/-- The examples of R257 and R260. -/
theorem test_vssub : let t := (after (encode (.vssub 3 1 2 0 4)) (one (vstrand 1 [(1, 3), (2, 5)]))).self
    t.v.get 0 3 = 0 ∧ t.sat = true := by decide +kernel
theorem test_vsub : let t := (after (encode (.vsub 3 1 2 0 4)) (one (vstrand 1 [(1, 3), (2, 5)]))).self
    t.v.get 0 3 = 254 ∧ t.sat = false := by decide +kernel

/-- The INT32 reduction that overflows midway (R56 to R60's worked example), and the one further step of a start value. -/
def eight : VReg := 2000000000 + 2000000000 * 2 ^ 32 + 2294967296 * 2 ^ 64 + 2294967296 * 2 ^ 96 + 100 * 2 ^ 128 + 200 * 2 ^ 160 +
  300 * 2 ^ 192 + 400 * 2 ^ 224

theorem test_vredsum_sat : let t := after 0xA0C20041 (one (vstrand 8 [(2, eight)]))
    t.getG 6 = 999 ∧ t.self.sat = true := by decide +kernel
theorem test_vredsum_start : (after (encode (.vredsumSat 6 2 8 0 2)) (one { vstrand 8 [(2, eight)] with g := [(8, -999)] })).getG 6 = 0 := by
  decide +kernel

/-- Quantise and dequantise (R269, R270). -/
theorem test_vquant : let t := (after (encode (.vquantI4 1 0 5 0 2)) (one (vstrand 4
      [(0, 0x40266666 + 0xBE800000 * 2 ^ 32 + 0x42C80000 * 2 ^ 64 + 0x7FC00000 * 2 ^ 96), (5, 0x40000000)]))).self
    (t.v.get 0 1).extractLsb' 0 16 = (0x0705 : BitVec 16) ∧ t.sat = true := by decide +kernel
theorem test_vdeq : (((after (encode (.vdeqE2m1 2 1 6 0 0)) (one (vstrand 4 [(1, 0x1D87), (6, 0x3E80)]))).self).v.get 0 2).extractLsb' 0 64 =
    (0x3E00BF4000003FC0 : BitVec 64) := by decide +kernel

/-- The carry out of a limb lands in the mask (R258). -/
theorem test_vadc : let t := (after 0x88821993 (one (vstrand 2 [(2, 0x01FF), (3, 0x0101)]))).self
    t.v.get 0 4 = 0x0200 ∧ t.k.get 0 1 = 1 := by decide +kernel

/-- An instruction placed where the first fetch of a strand started by nothing but reset would be runs as the first one. -/
theorem test_first_instruction :
    (match step (State.reset.withFetchWord 32 0x08210001) with
      | .next t => t.getG 1
      | _ => 0) = 1 := by decide +kernel

/-! ### Witnesses: suspend, power, the machine as a whole -/

/-- A device of the owner in a state of SUSPSTAT, with a suspend area in every basin, and a time of 5 s. -/
def suspended (st : BitVec 3) (cmd : BitVec 2) (deep : Bool) : State :=
  { State.reset with
    annex := { owner with suspState := st, suspCmd := cmd, suspDeep := deep }, aqSec := 5, inp := from0 1
    basins := (List.range 12).map fun k => (k, { suspV := true, suspBase := BitVec.ofNat 31 (32768 * k + 16) }) }

/-- SuspendAndResume: writes of the owner in every state, with and without the areas; a time that has come and one that has
not; an armed suspend, a resume in either retention, the states of saving and restoring. -/
theorem witness_Suspend :
    (∀ st ∈ ([0, 1, 2, 3, 4, 5, 6] : List (BitVec 3)), OwnerWrites (suspended st 0 false) ∧ (suspended st 0 false).annex.suspState = st ∧
      (∀ k, k < 12 → ((suspended st 0 false).basin k).suspV = true)) ∧
      (∃ k, k < 12 ∧ (({ suspended 0 0 false with basins := [] } : State).basin k).suspV = false) ∧
      suspNs (suspended 1 1 false) ≤ (suspended 1 1 false).aqNow ∧
      ¬ suspNs { suspended 1 1 false with aqSec := 0, annex := { owner with suspTime := 1 } } ≤
          ({ suspended 1 1 false with aqSec := 0, annex := { owner with suspTime := 1 } } : State).aqNow ∧
      (suspended 1 1 false).annex.suspCmd = 1 ∧ (suspended 4 2 false).annex.suspCmd = 2 ∧ (suspended 6 0 true).annex.heldReplies = [] ∧
      (suspended 6 0 true).annex.suspDeep = true ∧ (suspended 3 0 false).granted = [] ∧
      suspNs (suspended 2 0 false) + 4 * 10 ^ 9 ≤ (suspended 2 0 false).aqNow ∧
      ({ suspended 2 0 false with aqSec := 3 } : State).aqNow < suspNs { suspended 2 0 false with aqSec := 3 } + 4 * 10 ^ 9 := by
  unfold OwnerWrites FromHost Holds; decide +kernel

/-- A device that has stopped, with a strand in JOIN, one that waits, one in RUN outside every loop and a parent that has ended
before its child, and a collective between two steps; and one that has not, with a strand in a trap handler. -/
theorem witness_Stopped :
    AllStopped { suspended 2 0 false with
      strands := [(0, { u0 with st := .join }), (1, { u0 with st := .wait .event }), (2, u0),
        (3, { u0 with st := .ended, children := [⟨1, 0, 8⟩] })]
      ops := [moving (.coll collNew)] } ∧
      ¬ AllStopped { suspended 2 0 false with strands := [(0, { u0 with exl := true })] } := by
  constructor
  · refine ⟨?_, fun o h => ?_⟩
    · intro e he
      simp only [List.mem_cons, List.not_mem_nil, or_false] at he
      rcases he with rfl | rfl | rfl | rfl
      · exact .inl rfl
      · exact .inr (.inl ⟨rfl, rfl, by simp [u0], .inl ⟨⟨.event, rfl⟩, by simp [WaitsForPeer], rfl⟩⟩)
      · exact .inr (.inl ⟨rfl, rfl, by simp [u0], .inr ⟨rfl, .inl rfl, rfl, rfl, rfl, rfl, rfl, rfl⟩⟩)
      · exact .inr (.inr ⟨rfl, _, _, rfl, .inl ⟨_, rfl, by simp⟩⟩)
    · rw [List.mem_singleton.1 h]
      exact ⟨collNew, rfl, by decide⟩
  · intro h
    rcases h.1 (0, { u0 with exl := true }) (List.mem_singleton.2 rfl) with h | h | h
    · exact absurd h (by decide)
    · exact absurd h.1 (by decide)
    · exact absurd h.1 (by decide)

/-- SuspendAndResume: every area in its own basin's memory; no lease on the areas, and links that are up. -/
theorem witness_AreasInOrder :
    AreasInOrder { suspended 3 0 false with strands := [(0, { u0 with lgc := 3 })] } ∧
      (let s : State := { suspended 3 0 false with resv := [(7, { data := 1, dirty := true, port := 1, poisoned := false, owned := true })] }
       s.granted = [] ∧ ((s.annex.linkUp.contains 1 = false ∧ ∃ e ∈ s.resv, e.2.dirty = true ∧ e.2.port = 1) ∧
         ∀ e ∈ ({ s with resv := [] } : State).resv, e.2.dirty = true → s.annex.linkUp.contains e.2.port = true)) := by
  refine ⟨⟨by decide +kernel, fun x => ?_, by decide +kernel⟩, by decide +kernel⟩
  simp [State.migOf, suspended, List.range, List.range.loop]

/-- SuspendAndResume: bytes in and out of a suspend area, and a byte that RETTAB keeps. -/
theorem witness_Areas :
    InArea (suspended 3 0 false) 0 (16 * 2 ^ 21) ∧ ¬ InArea (suspended 3 0 false) 0 (16 * 2 ^ 21 - 1) ∧
      ¬ InArea (suspended 3 0 false) 0 (16 * 2 ^ 21 + 96 * 2 ^ 20) ∧
      (let s : State := { suspended 6 0 true with basins := [(0, { rettab := 1, suspBase := 16 })], mem := [(0x1000, 1)] }
       isDevMem 0x1000 = true ∧ (s.readCo 0x1000 16).testBit 0 = true ∧ s.kept 0 1 = false) := by
  unfold InArea; decide +kernel

/-- PowerIsGoverned: READY and not; 150 A and 150.001 A; no cap, a power above it, within 95 % and below; a comparison that
may be made and one that may not; the monitor entries. -/
theorem witness_Power :
    let s (a : Annex) (mw : Nat) : State := { State.reset with annex := { a with bootState := 3 }, inp := { code := mw } }
    let c : Annex := { up with cap := 200 }
    State.reset.annex.bootState ≠ 3 ∧ (s c 0).annex.bootState = 3 ∧ (s c 0).inp.unit < 12 ∧ 150000 < (s c 150001).inp.code ∧
      (s c 150000).inp.code ≤ 150000 ∧ c.nextCompare ≤ (s c 0).clk ∧
      (s { c with nextCompare := 1 } 0).clk < ({ c with nextCompare := 1 } : Annex).nextCompare ∧ up.cap = 0 ∧ c.cap ≠ 0 ∧
      384 < 386 ∧ (({} : Meter).period ≠ some 0) ∧ ((⟨5, some 0, 0⟩ : Meter).period = some ((s c 0).clk / 1100)) ∧
      c.nextMeter ≤ (s c 0).clk ∧ (s c 0).clk < ({ c with nextMeter := 1 } : Annex).nextMeter ∧
      1000 * c.cap.toNat < (s c 200001).inp.code ∧ (s c 200000).inp.code ≤ 1000 * c.cap.toNat ∧
      95 * (1000 * c.cap.toNat) ≤ 100 * (s c 190000).inp.code ∧ 100 * (s c 189999).inp.code < 95 * (1000 * c.cap.toNat) ∧
      c.capLow ≠ 9 ∧ ({ c with capLow := 9 } : Annex).capLow = 9 ∧ (384 < 386 ∧ 28 ≤ 31 % 32) := by decide

/-- StepRunsTheDecodedInstruction: a turn of slot 0 at the head of the agenda, whose front end takes it, and the word at its
pc; a frame in which the quad is off; a front end that goes before the vector queue; and a strand in WAIT. -/
theorem witness_Turn :
    let s : State := withBytes (one u0) 0x1000 [1, 0, 0x21, 8]
    let b : State := { s.tick 3 with agenda := [] }
    TurnOf { s with agenda := [⟨3, .slot 0⟩] } 0 { ({ s with agenda := [⟨3, .slot 0⟩] } : State).tick 3 with agenda := [] } ∧
      FrontTakes b 0 ∧ ¬ Lit { b with quads := [(0, { eff := 0 })] } 0 ∧ b.annex.suspState = 0 ∧ 0 < 1536 ∧ b.strand 0 = some u0 ∧
      u0.doubled = none ∧ u0.st = .run ∧ u0.inside = none ∧ u0.vq = [] ∧ u0.preq = none ∧ u0.answers = [] ∧ u0.resumed = false ∧
      u0.exl = false ∧ u0.midway = false ∧ u0.owesG = false ∧ deferrable (.addi 1 1 1) = false ∧
      deferrable (.vadd 5 7 0 6 5) = true ∧ decodeWord 0x08210001 = some (.addi 1 1 1) := by
  intro s b
  have hr : b.runsAt 0 = true := by decide +kernel
  refine ⟨.inl ⟨3, [], rfl, rfl⟩, ⟨by unfold Lit; decide +kernel, by decide +kernel, hr, 0, by decide, by decide +kernel,
      fun k hk => absurd hk (Nat.not_lt_zero k)⟩, by unfold Lit; decide +kernel, by decide +kernel, by decide, by decide +kernel, ?_⟩
  decide +kernel

theorem witness_TurnFetches : Fetches (withBytes (one u0) 0x1000 [1, 0, 0x21, 8]) 0x1000 0x08210001 := by
  have h : wordAt (withBytes (one u0) 0x1000 [1, 0, 0x21, 8]) 0x1000 = 0x08210001 := by decide +kernel
  exact ⟨by decide +kernel, by decide +kernel, plainAt _ _ rfl (by decide +kernel) rfl rfl rfl, by decide +kernel, h⟩

theorem witness_NoTurn : State.reset.agenda = [] ∧ State.reset.nextTurn = none ∧ (State.reset.tick 1).nextTurn = none ∧
    (∀ e ∈ State.reset.cores, e.2.queue = []) ∧ Table.wf {} State.reset.quads = true ∧ (∀ e ∈ State.reset.quads, e.2.latch = e.2) ∧
    State.reset.annex.active = 0 ∧ State.reset.deferred = [] := by decide +kernel

/-- The turn of an empty agenda: slot 0 is next, and is taken. -/
theorem witness_DefaultTurn : (one u0).agenda = [] ∧ (one u0).nextTurn.isSome = true := by decide +kernel

/-- EncodingsRoundTrip: the greatest operands of a word, and the rows that have no word. -/
theorem witness_Encodings : (Instr.fma 31 31 31 7 3).isWord = true ∧ (Instr.fma 31 31 31 7 3).wellFormed = true ∧
    Instr.isWord .init = false := by decide +kernel

/-- EveryStepKeepsTheInvariant: the state after reset, and one with a strand that owns eight lane groups. -/
theorem witness_Inv : Claims.Inv State.reset ∧ Claims.Inv (one (vec 4096)) := by
  unfold Claims.Inv LanesKept; decide +kernel

end Sys2Proof.Tests
end

section
/-! SUPPORT. What device reset leaves (R28, R463). -/
namespace Sys2Proof.Machine
open Sys2Proof

/-- After reset both memories are in their canonical form and no strand stands in a slot. -/
theorem reset_inv : Claims.Inv State.reset :=
  ⟨reset_memWf.1, reset_memWf.2, fun _ he => absurd he (List.not_mem_nil), fun _ hx => absurd hx (List.not_mem_nil)⟩

end Sys2Proof.Machine

open Sys2Proof.Machine in
/-- Settles O59: every table of the reset state is empty, so that each register reads as its declared default. -/
theorem resetLeavesTheSpecsValues : Obligations.ResetLeavesTheSpecsValues := by
  unfold Obligations.ResetLeavesTheSpecsValues
  refine ⟨rfl, fun _ => rfl, rfl, rfl, rfl, rfl, rfl, rfl, rfl, fun _ => ⟨rfl, rfl, rfl, rfl⟩, rfl, rfl, rfl, rfl, rfl,
    rfl, rfl, rfl, fun _ => rfl, fun _ => rfl, fun _ => ⟨rfl, rfl, rfl, rfl, fun _ => rfl⟩, fun _ => ⟨rfl, rfl, rfl⟩,
    fun _ => ⟨rfl, rfl, rfl⟩, fun _ => ⟨rfl, rfl⟩, reset_inv⟩
end

section
/-! SUPPORT. Time (R28, R292, R293, R474): what passes in one clk and up to a frame boundary, when no lease and no
synchronisation ends. -/
namespace Sys2Proof.Machine
open Sys2Proof Sys2Proof.Claims

/-- A key that no entry has is not found. -/
theorem Table.find_eq_none_of_not_mem {α : Type} (t : Table α) (k : Nat) (h : k ∉ t.map (·.1)) :
    Table.find k t = none := by
  induction t with
  | nil => rfl
  | cons e r ih =>
    simp only [List.map_cons, List.mem_cons, not_or] at h
    rw [Table.find, if_neg (Ne.symm h.1), ih h.2]

/-! ### Leases and synchronisation -/

theorem noLapse_mono {s : State} {m n : Nat} (h : NoLapse s n) (hm : m ≤ n) : NoLapse s m := by
  obtain ⟨hl, hd, hs⟩ := h
  have hdiv : (s.clk + m) / 1100 ≤ (s.clk + n) / 1100 := Nat.div_le_div_right (by omega)
  exact ⟨hl.imp id (by omega), hd, hs.imp id (by omega)⟩

theorem noLapse_elapse {s : State} {n : Nat} (m k : Nat) (h : NoLapse s n) (hm : m + k = n) :
    NoLapse (s.elapse m) k := by
  subst hm
  obtain ⟨hl, hd, hs⟩ := h
  refine ⟨hl.imp id fun hl => ?_, hd, hs.imp id fun hs => ?_⟩
  · simpa [State.elapse, Nat.add_assoc] using hl
  · simpa [State.elapse, Nat.add_assoc] using hs

theorem lapse_of_noLapse {s : State} (h : NoLapse s 0) : s.lapse = s := by
  obtain ⟨hl, -, -⟩ := h
  refine if_neg ?_
  simp only [Bool.and_eq_true, decide_eq_true_eq, not_and, BitVec.not_le]
  intro ha
  have hlt : s.clk / 1100 < s.annex.expiry.toNat := hl.resolve_left ha
  have hexp := s.annex.expiry.isLt
  have hus : s.us.toNat = s.clk / 1100 := Nat.mod_eq_of_lt (by omega)
  simpa [BitVec.lt_def, hus] using hlt

theorem syncEnds_of_noLapse {s : State} (h : NoLapse s 0) : s.syncEnds = s := by
  obtain ⟨-, -, hs⟩ := h
  refine if_neg ?_
  simp only [Bool.and_eq_true, decide_eq_true_eq, not_and, Nat.not_le]
  intro ha
  have : s.clk + 0 < s.aqLast + 8800000 := hs.resolve_left (by simp [ha])
  omega

/-! ### Frames (R293) -/

/-- Every listed quad of a table latched. -/
def latchAll (l : Table Quad) : Table Quad := l.foldl (fun t e => Table.set {} t e.1 e.2.latch) l

/-- A clk that begins a frame latches the patterns of every quad. -/
def State.frameBegins (s : State) : State := { s with quads := if s.clk % 16 = 0 then latchAll s.quads else s.quads }

theorem frameBegins_boundary {s : State} (h : s.clk % 16 = 0) :
    s.frameBegins = { s with quads := latchAll s.quads } := by rw [State.frameBegins, if_pos h]

theorem frameBegins_inside {s : State} (h : s.clk % 16 ≠ 0) : s.frameBegins = s := by
  rw [State.frameBegins, if_neg h]

theorem foldl_setQuad_latch (l : Table Quad) (s : State) :
    l.foldl (fun s e => s.setQuad e.1 e.2.latch) s =
      { s with quads := l.foldl (fun t e => Table.set {} t e.1 e.2.latch) s.quads } := by
  induction l generalizing s with
  | nil => rfl
  | cons e r ih => exact ih (s.setQuad e.1 e.2.latch)

/-- With nothing to end, a clk begins with its frames, and then the weirs admit. -/
theorem clkBegins_eq {s : State} (h : NoLapse s 0) :
    s.clkBegins = s.cores.foldl (fun s e => s.weirClk e.1) s.frameBegins := by
  have hf : (if s.clk % 16 = 0 then s.quads.foldl (fun s e => s.setQuad e.1 e.2.latch) s else s) = s.frameBegins := by
    split
    · next hb => exact (foldl_setQuad_latch s.quads s).trans (frameBegins_boundary hb).symm
    · next hb => exact (frameBegins_inside hb).symm
  unfold State.clkBegins
  simp only [lapse_of_noLapse h, syncEnds_of_noLapse h, hf]
  rfl

theorem latch_default : Quad.latch {} = {} := by decide +kernel

/-- In a table with one entry per key, each listed value is latched where it stands. -/
theorem get_foldl_latch (l t : Table Quad) (h : (l.map (·.1)).Nodup) (k : Nat) :
    (l.foldl (fun t e => Table.set {} t e.1 e.2.latch) t).get {} k =
      ((Table.find k l).map Quad.latch).getD (t.get {} k) := by
  induction l generalizing t with
  | nil => rfl
  | cons e r ih =>
    obtain ⟨hn, hr⟩ := List.nodup_cons.mp h
    rw [List.foldl_cons, ih _ hr, Table.get_set]
    by_cases hk : e.1 = k
    · have : Table.find k r = none := by
        rw [← hk]
        exact Table.find_eq_none_of_not_mem r e.1 hn
      simp [Table.find, hk, this]
    · simp [Table.find, hk, Ne.symm hk]

theorem latchAll_get (t : Table Quad) (h : (t.map (·.1)).Nodup) (k : Nat) :
    (latchAll t).get {} k = (t.get {} k).latch := by
  rw [latchAll, get_foldl_latch t t h, Table.get]
  cases Table.find k t with
  | none => exact latch_default.symm
  | some q => rfl

/-! ### EFF (R294) -/

/-- How many of the 16 cycles of a frame a pattern enables. -/
def onCycles (x : BitVec 16) : Nat := (List.range 16).countP fun i => x.getLsbD i

theorem popFrom_eq_countP (x n : Nat) : popFrom x n = (List.range n).countP fun i => x.testBit i := by
  induction n generalizing x with
  | zero => rfl
  | succ n ih =>
    rw [popFrom, ih, List.range_succ_eq_map, List.countP_cons, List.countP_map]
    have hs : (fun i => (x / 2).testBit i) = (fun i => x.testBit i) ∘ Nat.succ := by
      funext i; exact (Nat.testBit_succ x i).symm
    have h0 : x % 2 = if x.testBit 0 = true then 1 else 0 := by
      rw [Nat.testBit_zero]
      rcases Nat.mod_two_eq_zero_or_one x with h | h <;> simp [h]
    rw [hs, h0, Nat.add_comm]

theorem popFrom_eq_onCycles (x : BitVec 16) : popFrom x.toNat 16 = onCycles x := popFrom_eq_countP x.toNat 16

theorem getLsbD_clearBit (p : BitVec 16) (n i : Nat) :
    (p &&& ~~~(1#16 <<< n)).getLsbD i = (p.getLsbD i && !decide (i = n)) := by
  by_cases hi : i < 16
  · have hone : (decide (i < n) || !decide (i - n = 0)) = !decide (i = n) := by
      rcases Nat.lt_trichotomy i n with h | h | h
      · simp [h, Nat.ne_of_lt h]
      · simp [h]
      · simp [show ¬ i - n = 0 by omega, Nat.ne_of_gt h]
    simp [hi, hone]
  · simp [BitVec.getLsbD_of_ge p i (by omega)]

theorem countP_le_countP_ne {l : List Nat} (f : Nat → Bool) (n : Nat) :
    l.countP f ≤ l.countP (fun i => f i && !decide (i = n)) + l.count n := by
  induction l with
  | nil => simp
  | cons a r ih =>
    simp only [List.countP_cons, List.count_cons]
    have hstep : (if f a = true then 1 else 0) ≤
        (if (f a && !decide (a = n)) = true then 1 else 0) + if (a == n) = true then 1 else 0 := by
      by_cases ha : a = n
      · cases f a <;> simp [ha]
      · simp [ha]
    omega

theorem onCycles_le_clearBit (p : BitVec 16) (n : Nat) :
    onCycles p ≤ onCycles (p &&& ~~~(1#16 <<< n)) + 1 := by
  have hc := countP_le_countP_ne (l := List.range 16) (fun i => p.getLsbD i) n
  have h1 : (List.range 16).count n ≤ 1 := List.nodup_iff_count_le_one.mp List.nodup_range n
  simp only [onCycles, getLsbD_clearBit p n _]
  omega

/-- What EFF keeps of a pattern: the lowest `limit` of its enabled cycles. -/
def KeepsLowest (limit : Nat) (p r : BitVec 16) : Prop :=
  onCycles r = min (onCycles p) limit ∧ (∀ i, r.getLsbD i = true → p.getLsbD i = true) ∧
    ∀ i j, i < j → r.getLsbD j = true → p.getLsbD i = true → r.getLsbD i = true

theorem effOf_go_keepsLowest (limit n : Nat) (p : BitVec 16) (hn : n ≤ 16)
    (hp : ∀ i, n ≤ i → p.getLsbD i = false) : KeepsLowest limit p (effOf.go limit p n) := by
  induction n generalizing p with
  | zero =>
    have h0 : onCycles p = 0 := by unfold onCycles; simp [hp]
    exact ⟨by simp [effOf.go, h0], fun _ h => h, fun _ _ _ _ h => h⟩
  | succ n ih =>
    rw [effOf.go, popFrom_eq_onCycles]
    split
    · next hle => exact ⟨by omega, fun _ h => h, fun _ _ _ _ h => h⟩
    · next hgt =>
      have hbit := fun i => getLsbD_clearBit p n i
      have hz : ∀ i, n ≤ i → (p &&& ~~~(1#16 <<< n)).getLsbD i = false := by
        intro i hi
        rw [hbit i]
        by_cases h : i = n
        · simp [h]
        · simp [hp i (by omega)]
      obtain ⟨hcount, hsub, hlow⟩ := ih _ (by omega) hz
      have hone := onCycles_le_clearBit p n
      refine ⟨by omega, fun i hi => ?_, fun i j hij hj hi => hlow i j hij hj ?_⟩
      · have := hsub i hi
        simp only [hbit i, Bool.and_eq_true] at this
        exact this.1
      · have hjn : j < n := by
          by_contra hge
          exact Bool.false_ne_true ((hz j (by omega)).symm.trans (hsub j hj))
        simp [hbit i, hi, show i ≠ n by omega]

theorem effOf_keepsLowest (p : BitVec 16) (limit : Nat) : KeepsLowest limit p (effOf p limit) :=
  effOf_go_keepsLowest limit 16 p (Nat.le_refl 16) fun i hi => BitVec.getLsbD_of_ge p i hi

theorem latch_eq (q : Quad) : q.latch = { q with latched := q.pat, eff := q.latch.eff } := by
  dsimp only [Quad.latch]

theorem latch_keepsLowest (q : Quad) : KeepsLowest q.limit q.pat q.latch.eff := by
  dsimp only [Quad.latch]
  exact effOf_keepsLowest q.pat q.limit

/-! ### The weirs with nothing in their queues, and the clk up to a frame boundary -/

theorem weirClk_of_empty {s : State} {k : Nat} (h : (s.core k).queue = []) : s.weirClk k = s := by
  unfold State.weirClk; rw [h]; rfl

theorem foldl_weirClk_of_fixed {s : State} (h : ∀ j, s.weirClk j = s) (l : Table Core) :
    l.foldl (fun s e => s.weirClk e.1) s = s := by
  induction l with
  | nil => rfl
  | cons e r ih => rw [List.foldl_cons, h e.1, ih]

theorem clkBegins_of_empty {s : State} (h : NoLapse s 0) (hq : ∀ j, (s.core j).queue = []) :
    s.clkBegins = s.frameBegins :=
  (clkBegins_eq h).trans (foldl_weirClk_of_fixed (s := s.frameBegins) (fun j => weirClk_of_empty (hq j)) s.cores)

theorem quietClk_bounds (s : State) {n : Nat} (hn : 0 < n) : 0 < s.quietClk n ∧ s.quietClk n ≤ n := by
  unfold State.quietClk
  split
  · omega
  · simp only
    refine ⟨?_, Nat.min_le_left _ _⟩
    simp only [Nat.lt_min]
    refine ⟨hn, ?_, ?_, ?_⟩ <;> split <;> omega

/-- The clk up to and into the next frame, with every weir's queue empty: the frame begins, and launches count. -/
theorem pass_to_frame (fuel n : Nat) (s : State) (hf : n ≤ fuel) (hn : 0 < n) (h16 : n ≤ 16)
    (hb : (s.clk + n) % 16 = 0) (hl : NoLapse s n) (hq : ∀ j, (s.core j).queue = []) :
    ∃ a, s.pass fuel n = { s with clk := s.clk + n, quads := latchAll s.quads, annex := a } := by
  induction fuel generalizing n s with
  | zero => omega
  | succ fuel ih =>
    obtain ⟨h1, h2⟩ := quietClk_bounds s hn
    rw [State.pass, if_neg (by omega)]
    generalize s.quietClk n = m at h1 h2
    have hlm : NoLapse (s.elapse m) 0 := noLapse_elapse m 0 (noLapse_mono hl h2) rfl
    rw [clkBegins_of_empty hlm hq]
    by_cases hm : m = n
    · subst hm
      rw [frameBegins_boundary (s := s.elapse m) hb, Nat.sub_self]
      cases fuel with
      | zero => exact ⟨_, rfl⟩
      | succ f => exact ⟨_, rfl⟩
    · rw [frameBegins_inside (s := s.elapse m) (show (s.clk + m) % 16 ≠ 0 by omega)]
      have hclk : (s.elapse m).clk = s.clk + m := rfl
      obtain ⟨a, ha⟩ := ih (n - m) (s.elapse m) (by omega) (by omega) (by omega)
        (by rw [hclk, Nat.add_assoc, Nat.add_sub_cancel' h2]; exact hb) (noLapse_elapse m (n - m) hl (by omega)) hq
      refine ⟨a, ha.trans ?_⟩
      rw [hclk, Nat.add_assoc, Nat.add_sub_cancel' h2]
      rfl

end Sys2Proof.Machine
end

section
/-! SUPPORT. What a weir admits in a clk (R291, R292), and what a clk counts for a launch (R474). -/
namespace Sys2Proof.Machine
open Sys2Proof Sys2Proof.Claims

/-! ### Admission -/

/-- The charge of an instruction is the sum of its classes' charges. -/
theorem cost_eq_sum (c : Core) (ch : Charge) :
    c.cost ch = (ch.map fun x => min (x.2 * (c.wts.get 1 x.1).toNat) (2 ^ 32 - 1)).sum := by
  rw [List.sum_eq_foldl, List.foldl_map]
  rfl

theorem inForce_of_ne {c : Core} {clk : Nat} (h : c.weirWas.map (·.1) ≠ some clk) : c.inForce clk = c := by
  unfold Core.inForce
  split
  · next k cap w hw => exact if_neg fun hk => h (by rw [hw, ← hk]; rfl)
  · rfl

@[simp] theorem core_setCore (s : State) (k j : Nat) (c : Core) :
    (s.setCore k c).core j = if j = k then c else s.core j :=
  Table.get_set (α := Core) {} s.cores k j c

/-- What the weir asks before it admits a charge (R292, R476). -/
def HasRoom (s : State) (k : Nat) (ch : Charge) : Prop :=
  ¬ (s.clk < (s.basin (k / 16)).holdEnd ∨ s.clk % 16 < s.annex.h.toNat) ∧
    ((s.core k).cost ch = 0 ∨
      (s.core k).levelAt s.clk + 256 * (s.core k).cost ch ≤ 256 * (s.core k).cap.toNat ∨
      (s.core k).levelAt s.clk = 0)

/-- The core after its weir has admitted the only instruction in its queue, at a level. -/
def Core.emptied (c : Core) (clk level : Nat) : Core := { c with queue := [], level := level, levelClk := clk }

/-- The strand after its instruction has passed the weir, at the class-12 weight of that clk. -/
def Strand.passed (u : Strand) (w : Nat) : Strand :=
  { u with weirPass := some w, st := if u.st = .wait .weir then .run else u.st }

theorem admits_iff (c : Core) (cost : Nat) :
    c.admits cost = true ↔ cost = 0 ∨ c.level + 256 * cost ≤ 256 * c.cap.toNat ∨ c.level = 0 := by
  simp only [Core.admits, Bool.or_eq_true, decide_eq_true_eq, or_assoc]

theorem unblocked_iff (s : State) (k : Nat) (ch : Charge) :
    (s.held (k / 16) || !((s.core k).settle s.clk).admits ((s.core k).cost ch)) = false ↔ HasRoom s k ch := by
  rw [Bool.or_eq_false_iff, Bool.not_eq_false', admits_iff]
  refine and_congr ?_ Iff.rfl
  simp only [State.held, State.currentHold, State.capHold, Bool.or_eq_false_iff, decide_eq_false_iff_not, not_or]

/-- A strand that honours a request where it waits is not charged. -/
theorem letThrough_left {s : State} {n : Nat} {u : Strand} (ch : Charge) (hu : s.strand n = some u)
    (hst : u.st = .wait .weir) (hy : u.yields = true) : s.letThrough n ch = s := by
  unfold State.letThrough
  simp [hu, hst, hy]

/-- A charge raises the level of the strand's core, and the strand goes on. -/
theorem letThrough_passes {s : State} {n : Nat} {u : Strand} (ch : Charge) (hu : s.strand n = some u)
    (hy : ¬ (u.st = .wait .weir ∧ u.yields = true)) :
    let c := (s.core (n / 8)).settle s.clk
    let f := c.inForce s.clk
    ∃ a, s.letThrough n ch = { s.setStrand n (u.passed (f.wts.get 1 12).toNat) with
      cores := s.cores.set {} (n / 8) { c with level := c.level + 256 * f.cost ch }, annex := a } := by
  have hy' : (decide (u.st = .wait .weir) && u.yields) = false := by simpa using hy
  unfold State.letThrough
  simp only [hu, hy', Bool.false_eq_true, if_false]
  split
  · exact ⟨_, rfl⟩
  · exact ⟨_, rfl⟩

section
variable {s : State} {k : Nat} {e : WeirEntry} (hq : (s.core k).queue = [e])
  (hw : (s.core k).weirWas.map (·.1) ≠ some s.clk)
include hq hw

/-- One instruction in the queue: it is let through exactly when nothing blocks it. -/
theorem weirClk_single : s.weirClk k = if s.held (k / 16) ||
      !((s.core k).settle s.clk).admits ((s.core k).cost e.charge) then s
    else (s.setCore k ((s.core k).emptied s.clk ((s.core k).levelAt s.clk))).letThrough e.slot e.charge := by
  have hc : (((s.core k).settle s.clk).inForce s.clk) = (s.core k).settle s.clk := inForce_of_ne hw
  have hqs : ((s.core k).settle s.clk).queue = [e] := hq
  unfold State.weirClk
  rw [hq]
  simp only [List.length_singleton, State.admitHeads, hqs, hc]
  rfl

theorem weirClk_blocked (h : ¬ HasRoom s k e.charge) : s.weirClk k = s := by
  rw [weirClk_single hq hw, if_pos]
  rwa [← unblocked_iff, Bool.not_eq_false] at h

theorem weirClk_left {u : Strand} (hu : s.strand e.slot = some u) (h : HasRoom s k e.charge)
    (hst : u.st = .wait .weir) (hy : u.yields = true) :
    s.weirClk k = s.setCore k ((s.core k).emptied s.clk ((s.core k).levelAt s.clk)) := by
  rw [weirClk_single hq hw, (unblocked_iff s k _).mpr h, if_neg Bool.false_ne_true]
  exact letThrough_left _ hu hst hy

theorem weirClk_admitted {u : Strand} (hs : e.slot / 8 = k) (hu : s.strand e.slot = some u) (h : HasRoom s k e.charge)
    (hy : ¬ (u.st = .wait .weir ∧ u.yields = true)) :
    ∃ c a, s.weirClk k =
        { s.setStrand e.slot (u.passed ((s.core k).wts.get 1 12).toNat) with cores := c, annex := a } ∧
      ∀ j, Table.get {} c j = if j = k then
        (s.core k).emptied s.clk ((s.core k).levelAt s.clk + 256 * (s.core k).cost e.charge) else s.core j := by
  rw [weirClk_single hq hw, (unblocked_iff s k _).mpr h, if_neg Bool.false_ne_true]
  generalize (s.core k).levelAt s.clk = lv
  have hcore : ((s.setCore k ((s.core k).emptied s.clk lv)).core k).settle s.clk = (s.core k).emptied s.clk lv := by
    rw [core_setCore, if_pos rfl]
    simp [Core.settle, Core.levelAt, Core.emptied]
  have hforce : ((s.core k).emptied s.clk lv).inForce s.clk = (s.core k).emptied s.clk lv := inForce_of_ne hw
  obtain ⟨a, ha⟩ := letThrough_passes (s := s.setCore k ((s.core k).emptied s.clk lv)) e.charge hu hy
  simp only [State.setCore_clk, hs, hcore, hforce] at ha
  refine ⟨Table.set {} (s.setCore k ((s.core k).emptied s.clk lv)).cores k
    ((s.core k).emptied s.clk (lv + 256 * (s.core k).cost e.charge)), a, ha, fun j => ?_⟩
  rw [Table.get_set]
  refine ite_congr rfl (fun _ => rfl) fun hj => ?_
  exact (core_setCore s k j _).trans (if_neg hj)
end

/-- When one core alone holds instructions at its weir, what the weirs do in a clk is what that weir does. -/
theorem foldl_weirClk_single {s : State} {k : Nat} (hother : ∀ j, j ≠ k → (s.core j).queue = [])
    (hself : s.weirClk k = s ∨ ∀ j, ((s.weirClk k).core j).queue = []) {l : Table Core} (hk : k ∈ l.map (·.1)) :
    l.foldl (fun s e => s.weirClk e.1) s = s.weirClk k := by
  rcases hself with hself | hself
  · rw [hself]
    refine foldl_weirClk_of_fixed (fun j => ?_) l
    by_cases hj : j = k
    · rw [hj, hself]
    · exact weirClk_of_empty (hother j hj)
  · induction l with
    | nil => exact absurd hk List.not_mem_nil
    | cons e r ih =>
      by_cases he : e.1 = k
      · rw [List.foldl_cons, he]
        exact foldl_weirClk_of_fixed (fun j => weirClk_of_empty (hself j)) r
      · rw [List.foldl_cons, weirClk_of_empty (hother e.1 he)]
        exact ih ((List.mem_cons.mp hk).resolve_left (Ne.symm he))

/-- A core whose weir holds an instruction is listed. -/
theorem mem_cores_of_queue {s : State} {k : Nat} (h : (s.core k).queue ≠ []) : k ∈ s.cores.map (·.1) := by
  by_contra hk
  refine h ?_
  rw [State.core, Table.get, Table.find_eq_none_of_not_mem s.cores k hk]
  rfl

/-! ### One clk -/

/-- The state in which the weirs admit, in the clk after this one. -/
def State.nextClk (s : State) : State := (s.elapse 1).frameBegins

/-- No write of the device's own waited for a lease that has ended. -/
theorem tick_eq_pass {s : State} {n : Nat} (h : (s.pass n n).deferred = []) : s.tick n = s.pass n n :=
  if_pos (List.isEmpty_iff.mpr h)

/-- One clk in which no lease and no synchronisation ends: the weirs admit, and no write of the device's own is due. -/
theorem weirClk_eq {s w : State} (h : NoLapse s 1) (hw : s.cores.foldl (fun s e => s.weirClk e.1) s.nextClk = w)
    (hd : w.deferred = []) : exec .weirClk s = .next (w.elapse 0) := by
  have hquiet : s.quietClk 1 = 1 := by
    obtain ⟨h1, h2⟩ := quietClk_bounds s Nat.one_pos
    omega
  have hpass : s.pass 1 1 = w.elapse 0 := by
    rw [State.pass, if_neg Nat.one_ne_zero, hquiet, clkBegins_eq (noLapse_elapse 1 0 h rfl)]
    exact congrArg (State.elapse · 0) hw
  have hdef : (s.pass 1 1).deferred = [] := by rw [hpass]; exact hd
  exact congrArg Host.Outcome.next ((tick_eq_pass hdef).trans hpass)

/-- R292: one core's weir holds one instruction. -/
theorem weir_admits_its_head (s : State) (e : WeirEntry) (k : Nat) (u : Strand) :
    let c := s.core k
    let now := s.clk + 1
    let level := c.level - c.drain.toNat * (now - c.levelClk)
    let cost := (e.charge.map fun x => min (x.2 * (c.wts.get 1 x.1).toNat) (2 ^ 32 - 1)).sum
    let hold : Prop := now < (s.basin (k / 16)).holdEnd ∨ now % 16 < s.annex.h.toNat
    let room : Prop := ¬ hold ∧ (cost = 0 ∨ level + 256 * cost ≤ 256 * c.cap.toNat ∨ level = 0)
    c.queue = [e] → e.slot / 8 = k → s.strand e.slot = some u → (∀ j, j ≠ k → (s.core j).queue = []) →
    (c.weirWas.map (·.1)) ≠ some now → NoLapse s 1 →
    ∃ t, exec .weirClk s = .next t ∧ t.clk = now ∧ (∀ a, t.byteAt a = s.byteAt a) ∧
      (∀ m, m ≠ e.slot → t.strand m = s.strand m) ∧ (∀ j, j ≠ k → t.core j = s.core j) ∧
      (room → ¬ (u.st = .wait .weir ∧ u.yields = true) →
        (t.core k).queue = [] ∧ (t.core k).level = level + 256 * cost ∧ (t.core k).levelClk = now ∧
        t.strand e.slot = some { u with
          weirPass := some (c.wts.get 1 12).toNat, st := if u.st = .wait .weir then .run else u.st }) ∧
      (room → u.st = .wait .weir → u.yields = true →
        (t.core k).queue = [] ∧ (t.core k).level = level ∧ t.strand e.slot = some u) ∧
      (¬ room → t.core k = c ∧ t.strand e.slot = some u) := by
  intro c now level cost hold room hq hs hu hother hw hl
  have hdef : s.deferred = [] := hl.2.1
  have hcost : cost = c.cost e.charge := (cost_eq_sum c e.charge).symm
  have hroom : room ↔ HasRoom s.nextClk k e.charge := by
    simp only [room, hcost]
    exact Iff.rfl
  have hmem : k ∈ s.cores.map (·.1) := mem_cores_of_queue (by rw [hq]; simp)
  have hclk {w : State} (h : s.nextClk.weirClk k = w) (hself : w = s.nextClk ∨ ∀ j, (w.core j).queue = []) :=
    weirClk_eq (w := w) hl ((foldl_weirClk_single (s := s.nextClk) hother (by rw [h]; exact hself) hmem).trans h)
  by_cases hr : HasRoom s.nextClk k e.charge
  · by_cases hy : u.st = .wait .weir ∧ u.yields = true
    · obtain ⟨hst, hyl⟩ := hy
      have hcore (j : Nat) := core_setCore s.nextClk k j (c.emptied now level)
      refine ⟨_, hclk (weirClk_left (s := s.nextClk) hq hw hu hr hst hyl) (.inr fun j => ?_) hdef, rfl, fun _ => rfl,
        fun _ _ => rfl, fun j hj => (hcore j).trans (if_neg hj), fun _ hn => absurd ⟨hst, hyl⟩ hn, fun _ _ _ => ?_,
        fun hn => absurd (hroom.mpr hr) hn⟩
      · refine (congrArg Core.queue (hcore j)).trans ?_
        split
        · rfl
        · exact hother j ‹_›
      · have hk := (hcore k).trans (if_pos rfl)
        exact ⟨congrArg Core.queue hk, congrArg Core.level hk, hu⟩
    · obtain ⟨cs, a, hw', hcs⟩ := weirClk_admitted (s := s.nextClk) hq hw hs hu hr hy
      refine ⟨_, hclk hw' (.inr fun j => ?_) hdef, rfl, fun _ => rfl,
        fun m hm => (strand_setStrand s e.slot m _).trans (if_neg hm), fun j hj => (hcs j).trans (if_neg hj),
        fun _ _ => ?_, fun _ hst hyl => absurd ⟨hst, hyl⟩ hy, fun hn => absurd (hroom.mpr hr) hn⟩
      · refine (congrArg Core.queue (hcs j)).trans ?_
        split
        · rfl
        · exact hother j ‹_›
      · have hk := (hcs k).trans (if_pos rfl)
        rw [hcost]
        exact ⟨congrArg Core.queue hk, congrArg Core.level hk, congrArg Core.levelClk hk,
          (strand_setStrand s e.slot e.slot _).trans (if_pos rfl)⟩
  · refine ⟨_, hclk (weirClk_blocked (s := s.nextClk) hq hw hr) (.inl rfl) hdef, rfl, fun _ => rfl, fun _ _ => rfl,
      fun _ _ => rfl,
      fun h => absurd (hroom.mp h) hr, fun h => absurd (hroom.mp h) hr, fun _ => ⟨rfl, hu⟩⟩

/-! ### What a clk counts (R474) -/

theorem residues_zero (a r : Nat) : residues a 0 r = 0 := by simp [residues]

theorem residues_one (a r : Nat) (hr : r < 16) : residues a 1 r = if a % 16 = r then 1 else 0 := by
  unfold residues
  split <;> omega

theorem clkCount_zero (a : Nat) (f : Nat → Bool) : clkCount a 0 f = 0 := by
  simp only [clkCount, residues_zero, Nat.add_zero, ite_self]
  exact List.foldl_fixed' (fun _ => rfl) _

theorem clkCount_one (a : Nat) (f : Nat → Bool) : clkCount a 1 f = (f (a % 16)).toNat := by
  have hn (n : Nat) (h : n ≤ 16) : (List.range n).foldl (fun x r => if f r then x + residues a 1 r else x) 0 =
      if a % 16 < n then (f (a % 16)).toNat else 0 := by
    induction n with
    | zero => rfl
    | succ n ih =>
      rw [List.range_succ, List.foldl_append, ih (by omega), List.foldl_cons, List.foldl_nil,
        residues_one a n (by omega)]
      by_cases he : a % 16 = n
      · subst he
        cases f (a % 16) <;> simp
      · have hlt : a % 16 < n + 1 ↔ a % 16 < n := by omega
        simp [he, hlt]
  exact (hn 16 (Nat.le_refl 16)).trans (if_pos (Nat.mod_lt a (by decide)))

/-- No counter of a launch comes to its end in `n` more. -/
def Launch.roomFor (l : Launch) (n : Nat) : Prop :=
  ∀ x ∈ [l.busy, l.tpat, l.ttherm, l.tcurr, l.thost, l.tweir], x + n < 2 ^ 64

theorem roomFor_iff (l : Launch) (n : Nat) : l.roomFor n ↔ l.busy + n < 2 ^ 64 ∧ l.tpat + n < 2 ^ 64 ∧
    l.ttherm + n < 2 ^ 64 ∧ l.tcurr + n < 2 ^ 64 ∧ l.thost + n < 2 ^ 64 ∧ l.tweir + n < 2 ^ 64 := by
  simp [Launch.roomFor]

theorem sat64_of_lt {x : Nat} (h : x < 2 ^ 64) : sat64 x = x := by unfold sat64; omega

theorem add_toNat_lt {x n : Nat} (b : Bool) (h : x + (n + 1) < 2 ^ 64) : x + b.toNat + n < 2 ^ 64 := by
  have := Bool.toNat_le b
  omega

theorem sat64_add_toNat {x : Nat} (b : Bool) (h : x + 1 < 2 ^ 64) : sat64 (x + b.toNat) = x + b.toNat :=
  sat64_of_lt (add_toNat_lt (n := 0) b h)

theorem add_toNat_add (x n : Nat) (b : Bool) : x + b.toNat + n = x + (n + if b = true then 1 else 0) := by
  cases b with
  | false => simp
  | true => simp; omega

/-- No clk: nothing is counted. -/
theorem countClk_zero (s : State) (n : Nat) (u : Strand) {l : Launch} (h : l.roomFor 0) : s.countClk 0 n u l = l := by
  have h0 := (roomFor_iff l 0).mp h
  simp only [Nat.add_zero] at h0
  obtain ⟨h1, h2, h3, h4, h5, h6⟩ := h0
  have hcur (stop : Nat) : min s.clk stop - s.clk = 0 := by omega
  unfold State.countClk
  simp only [Nat.add_zero, hcur, Nat.sub_self, clkCount_zero, sat64_of_lt h1, sat64_of_lt h2, sat64_of_lt h3,
    sat64_of_lt h4, sat64_of_lt h5, sat64_of_lt h6, ite_self]

/-- A clk counts once for a strand in each counter whose condition holds in it. -/
theorem countClk_one (s : State) (n : Nat) (u : Strand) {l : Launch} (h : l.roomFor 1) :
    s.countClk 1 n u l = { l with
      busy := l.busy + 1
      tpat := l.tpat + (!(s.quad (quadOf (n / 8))).latched.getLsbD (s.clk % 16)).toNat
      ttherm := l.ttherm + ((s.quad (quadOf (n / 8))).latched.getLsbD (s.clk % 16) &&
        !(s.quad (quadOf (n / 8))).eff.getLsbD (s.clk % 16)).toNat
      tcurr := l.tcurr + (decide (u.st = .wait .weir) && decide (s.clk < (s.basin (n / 8 / 16)).holdEnd)).toNat
      thost := l.thost + (decide (u.st = .wait .weir) && !decide (s.clk < (s.basin (n / 8 / 16)).holdEnd) &&
        decide (s.clk % 16 < s.annex.h.toNat)).toNat
      tweir := l.tweir + (decide (u.st = .wait .weir) && !decide (s.clk < (s.basin (n / 8 / 16)).holdEnd) &&
        !decide (s.clk % 16 < s.annex.h.toNat)).toNat } := by
  obtain ⟨h1, h2, h3, h4, h5, h6⟩ := (roomFor_iff l 1).mp h
  have hcur : min (s.clk + 1) (s.basin (n / 8 / 16)).holdEnd - s.clk =
      (decide (s.clk < (s.basin (n / 8 / 16)).holdEnd)).toNat := by
    by_cases hc : s.clk < (s.basin (n / 8 / 16)).holdEnd
    · simp only [hc, decide_true, Bool.toNat_true]; omega
    · simp only [hc, decide_false, Bool.toNat_false]; omega
  unfold State.countClk
  simp only [coreOf, basinOf, hcur]
  generalize decide (s.clk < (s.basin (n / 8 / 16)).holdEnd) = curr
  have hhost : clkCount (s.clk + curr.toNat) (1 - curr.toNat) (fun r => decide (r < s.annex.h.toNat)) =
      (!curr && decide (s.clk % 16 < s.annex.h.toNat)).toNat := by
    cases curr with
    | true => exact clkCount_zero _ _
    | false => exact clkCount_one _ _
  rw [hhost]
  generalize decide (s.clk % 16 < s.annex.h.toNat) = host
  have hrest : 1 - curr.toNat - (!curr && host).toNat = (!curr && !host).toNat := by cases curr <;> cases host <;> rfl
  simp only [hrest, clkCount_one, sat64_of_lt h1, sat64_add_toNat _ h2, sat64_add_toNat _ h3, sat64_add_toNat _ h4,
    sat64_add_toNat _ h5, sat64_add_toNat _ h6]
  by_cases hw : u.st = .wait .weir
  · simp only [hw, if_true, decide_true, Bool.true_and]
  · simp only [hw, if_false, decide_false, Bool.false_and, Bool.toNat_false, Nat.add_zero]

/-- The launch with what a clk counts for each of some strands. -/
def State.tally (s : State) (strands : Table Strand) (l : Launch) : Launch :=
  let count (p : Nat → Strand → Bool) : Nat := strands.countP fun e => decide (e.2.bind.launch = l.id) && p e.1 e.2
  let quad (n : Nat) : Quad := s.quad (quadOf (n / 8))
  let lit (x : BitVec 16) : Bool := x.getLsbD (s.clk % 16)
  let curr (n : Nat) : Bool := decide (s.clk < (s.basin (n / 8 / 16)).holdEnd)
  let host : Bool := decide (s.clk % 16 < s.annex.h.toNat)
  let weir (u : Strand) : Bool := decide (u.st = .wait .weir)
  { l with
    busy := l.busy + count fun _ _ => true
    tpat := l.tpat + count fun n _ => !lit (quad n).latched
    ttherm := l.ttherm + count fun n _ => lit (quad n).latched && !lit (quad n).eff
    tcurr := l.tcurr + count fun n u => weir u && curr n
    thost := l.thost + count fun n u => weir u && !curr n && host
    tweir := l.tweir + count fun n u => weir u && !curr n && !host }

/-- What `n` clk add for some strands, one after the other. -/
def State.countAll (s : State) (n : Nat) (strands : Table Strand) (l : Launch) : Launch :=
  strands.foldl (fun l e => if e.2.bind.launch = l.id then s.countClk n e.1 e.2 l else l) l

theorem countAll_zero (s : State) (strands : Table Strand) {l : Launch} (h : l.roomFor 0) :
    s.countAll 0 strands l = l := by
  induction strands with
  | nil => rfl
  | cons e r ih =>
    rw [State.countAll, List.foldl_cons, countClk_zero s e.1 e.2 h, ite_self]
    exact ih

/-- The strands are counted one by one. -/
theorem countAll_one (s : State) (strands : Table Strand) {l : Launch} (h : l.roomFor strands.length) :
    s.countAll 1 strands l = s.tally strands l := by
  induction strands generalizing l with
  | nil => rfl
  | cons e r ih =>
    obtain ⟨h1, h2, h3, h4, h5, h6⟩ := (roomFor_iff l _).mp h
    simp only [List.length_cons] at h1 h2 h3 h4 h5 h6
    rw [State.countAll, List.foldl_cons]
    by_cases he : e.2.bind.launch = l.id
    · have hroom : l.roomFor 1 := (roomFor_iff l 1).mpr (by omega)
      rw [if_pos he, ← State.countAll, countClk_one s e.1 e.2 hroom, ih]
      · have hone (x n : Nat) : x + 1 + n = x + (n + 1) := by omega
        simp only [State.tally, List.countP_cons, he, decide_true, Bool.true_and, if_true, add_toNat_add, hone]
      · exact (roomFor_iff _ _).mpr ⟨by simp only; omega, add_toNat_lt _ h2, add_toNat_lt _ h3, add_toNat_lt _ h4,
          add_toNat_lt _ h5, add_toNat_lt _ h6⟩
    · rw [if_neg he, ← State.countAll, ih ((roomFor_iff l _).mpr (by omega))]
      simp only [State.tally, List.countP_cons, he, decide_false, Bool.false_and, Bool.false_eq_true, if_false,
        Nat.add_zero]

theorem tally_roomFor (s : State) {strands : Table Strand} {l : Launch} (h : l.roomFor strands.length) :
    (s.tally strands l).roomFor 0 := by
  obtain ⟨h1, h2, h3, h4, h5, h6⟩ := (roomFor_iff l _).mp h
  have hc {x : Nat} (p : Nat × Strand → Bool) (hx : x + strands.length < 2 ^ 64) :
      x + strands.countP p + 0 < 2 ^ 64 := by
    have := List.countP_le_length (p := p) (l := strands)
    omega
  exact (roomFor_iff _ 0).mpr ⟨hc _ h1, hc _ h2, hc _ h3, hc _ h4, hc _ h5, hc _ h6⟩

theorem elapse_launches {s : State} (n : Nat) (h : s.annex.suspState < 3) :
    (s.elapse n).annex.launches = s.annex.launches.map (s.countAll n s.strands) := if_pos h

/-- R474: no weir holds an instruction. -/
theorem clk_counts (s : State) (hq : ∀ j, (s.core j).queue = []) (hl : NoLapse s 1) (hsusp : s.annex.suspState < 3) :
    ∃ t, exec .weirClk s = .next t ∧ t.clk = s.clk + 1 ∧ t.strands = s.strands ∧ t.cores = s.cores ∧
      ∀ k (h : k < s.annex.launches.length),
        let l := s.annex.launches[k]
        (∀ x ∈ [l.busy, l.tpat, l.ttherm, l.tcurr, l.thost, l.tweir], x + s.strands.length < 2 ^ 64) →
        ∃ m, t.annex.launches[k]? = some m ∧ m.id = l.id ∧ Counted s l m := by
  have hdef : s.deferred = [] := hl.2.1
  refine ⟨_, weirClk_eq hl (foldl_weirClk_of_fixed (s := s.nextClk) (fun j => weirClk_of_empty (hq j)) _) hdef, rfl, rfl,
    rfl, fun k h => ?_⟩
  intro l hroom
  refine ⟨s.tally s.strands l, ?_, rfl, ⟨rfl, rfl, rfl, rfl, rfl, rfl⟩⟩
  rw [elapse_launches (s := s.nextClk) 0 hsusp]
  change ((s.elapse 1).annex.launches.map _)[k]? = _
  rw [elapse_launches 1 hsusp, List.map_map, List.getElem?_map, List.getElem?_eq_getElem h, Option.map_some,
    Function.comp_apply, countAll_one s s.strands hroom, countAll_zero _ _ (tally_roomFor s hroom)]

/-- R293, R294: no weir holds an instruction. -/
theorem frame_latches (s : State) (hq : ∀ j, (s.core j).queue = []) (hl : NoLapse s 16)
    (hn : (s.quads.map (·.1)).Nodup) :
    let ones16 (x : BitVec 16) : Nat := (List.range 16).countP fun i => x.getLsbD i
    ∃ t, exec .pulseFrame s = .next t ∧ t.clk = s.clk / 16 * 16 + 16 ∧ t.strands = s.strands ∧
      t.cores = s.cores ∧ ∀ k,
        let q := s.quad k
        let r := t.quad k
        r = { q with latched := q.pat, eff := r.eff } ∧ ones16 r.eff = min (ones16 q.pat) q.limit ∧
        (∀ i, i < 16 → r.eff.getLsbD i = true → q.pat.getLsbD i = true) ∧
        ∀ i j, i < j → r.eff.getLsbD j = true → q.pat.getLsbD i = true → r.eff.getLsbD i = true := by
  intro ones16
  obtain ⟨a, ha⟩ := pass_to_frame (16 - s.clk % 16) (16 - s.clk % 16) s (Nat.le_refl _) (by omega) (by omega)
    (by omega) (noLapse_mono hl (by omega)) hq
  have hdef : (s.pass (16 - s.clk % 16) (16 - s.clk % 16)).deferred = [] := by
    rw [ha]
    exact hl.2.1
  refine ⟨_, congrArg Host.Outcome.next ((tick_eq_pass hdef).trans ha), ?_, rfl, rfl, fun k => ?_⟩
  · show s.clk + (16 - s.clk % 16) = _
    omega
  have hk : Table.get {} (latchAll s.quads) k = (s.quad k).latch := latchAll_get s.quads hn k
  intro q r
  have hr : r = q.latch := hk
  have hones : ones16 = onCycles := rfl
  rw [hr, hones]
  obtain ⟨hcount, hsub, hlow⟩ := latch_keepsLowest q
  exact ⟨latch_eq q, hcount, fun i _ => hsub i, hlow⟩

theorem weirsAdmitAndFramesLatch : WeirsAdmitAndFramesLatch := fun s =>
  ⟨weir_admits_its_head s, clk_counts s, frame_latches s⟩

end Sys2Proof.Machine
end

section
/-! SUPPORT. Power, energy and the meters (R475, R476, R478). -/
namespace Sys2Proof.Machine
open Sys2Proof Sys2Proof.Claims

theorem whenReady_ready {s : State} (t : State) (h : s.annex.bootState = 3) : s.whenReady t = t :=
  if_pos (decide_eq_true h)

theorem whenReady_not {s : State} (t : State) (h : s.annex.bootState ≠ 3) : s.whenReady t = s :=
  if_neg (by simpa [State.ready] using h)

@[simp] theorem basin_setBasin (s : State) (b k : Nat) (x : Basin) :
    (s.setBasin b x).basin k = if k = b then x else s.basin k := Table.get_set (α := Basin) {} s.basins b k x

/-! ### The holds (R476) -/

theorem currentHold_low (s : State) (h : s.inp.code ≤ 150000) : exec .currentHold s = .next s :=
  congrArg Host.Outcome.next (if_neg (by simp [Nat.not_lt.mpr h]))

theorem currentHold_high (s : State) (h3 : s.annex.bootState = 3) (hu : s.inp.unit < 12) (hc : 150000 < s.inp.code) :
    exec .currentHold s =
      .next (s.setBasin s.inp.unit { s.basin s.inp.unit with holdEnd := s.clk + 1100 }) :=
  congrArg Host.Outcome.next ((if_pos (by simp [hu, hc])).trans (whenReady_ready _ h3))

/-- H rises by one, up to 15. -/
theorem succ_h (h : BitVec 4) : (if h = 15 then 15 else h + 1) = BitVec.ofNat 4 (min 15 (h.toNat + 1)) := by
  revert h; decide

/-- H falls by one, down to 0. -/
theorem pred_h (h : BitVec 4) : (if h = 0 then 0 else h - 1) = BitVec.ofNat 4 (h.toNat - 1) := by
  revert h; decide

/-- The annex with H and the count of comparisons below 95 % of the cap. -/
def Annex.holding (a : Annex) (h low : Nat) : Annex := { a with h := BitVec.ofNat 4 h, capLow := low }

theorem holding_same (a : Annex) (low : Nat) : a.holding a.h.toNat low = { a with capLow := low } := by
  rw [Annex.holding, BitVec.ofNat_toNat, BitVec.setWidth_eq]

theorem compareCap_noCap {a : Annex} (mw : Nat) (h : a.cap = 0) : a.compareCap mw = a.holding 0 0 := if_pos h

section
variable {a : Annex} {mw : Nat} (h0 : a.cap ≠ 0)
include h0

theorem compareCap_above (h : 1000 * a.cap.toNat < mw) : a.compareCap mw = a.holding (min 15 (a.h.toNat + 1)) 0 := by
  unfold Annex.compareCap
  simp only [succ_h]
  rw [if_neg h0, if_pos h, Annex.holding]

theorem compareCap_within (h : mw ≤ 1000 * a.cap.toNat) (hl : 95 * (1000 * a.cap.toNat) ≤ 100 * mw) :
    a.compareCap mw = a.holding a.h.toNat 0 := by
  rw [holding_same]
  unfold Annex.compareCap
  rw [if_neg h0, if_neg (Nat.not_lt.mpr h), if_neg (Nat.not_lt.mpr hl)]

theorem compareCap_below (h : 100 * mw < 95 * (1000 * a.cap.toNat)) (hn : a.capLow ≠ 9) :
    a.compareCap mw = a.holding a.h.toNat (a.capLow + 1) := by
  rw [holding_same]
  unfold Annex.compareCap
  rw [if_neg h0, if_neg (by omega), if_pos h, if_neg (by omega)]

theorem compareCap_tenth (h : 100 * mw < 95 * (1000 * a.cap.toNat)) (hn : a.capLow = 9) :
    a.compareCap mw = a.holding (a.h.toNat - 1) 0 := by
  unfold Annex.compareCap
  simp only [pred_h]
  rw [if_neg h0, if_neg (by omega), if_pos h, if_pos (by omega), Annex.holding]
end

theorem capHold_early (s : State) (h : s.clk < s.annex.nextCompare) : exec .capHold s = .next s :=
  congrArg Host.Outcome.next (if_neg (Nat.not_le.mpr h))

theorem capHold_due {s : State} {h low : Nat} (h3 : s.annex.bootState = 3) (hd : s.annex.nextCompare ≤ s.clk)
    (hc : s.annex.compareCap s.inp.code = s.annex.holding h low) :
    exec .capHold s = .next (annexTo s { s.annex with
      h := BitVec.ofNat 4 h, capLow := low, nextCompare := s.clk + 1100000 }) := by
  have he : exec .capHold s = .next (annexTo s { s.annex.compareCap s.inp.code with nextCompare := s.clk + 1100000 }) :=
    congrArg Host.Outcome.next ((if_pos hd).trans (whenReady_ready _ h3))
  rw [he, hc]
  rfl

/-! ### Energy (R475) -/

theorem energyApportion_early (s : State) (h : s.clk < s.annex.nextMeter) : exec .energyApportion s = .next s :=
  congrArg Host.Outcome.next (if_neg (Nat.not_le.mpr h))

theorem energyApportion_due (s : State) (h3 : s.annex.bootState = 3) (h : s.annex.nextMeter ≤ s.clk) :
    let total := s.inp.amounts.sum
    let sum := (s.annex.launches.map fun (l : Launch) => l.charged).sum
    exec .energyApportion s = .next (annexTo s { s.annex with
      nextMeter := s.clk + 1100, basinNj := s.annex.basinNj + total
      launches := s.annex.launches.map fun (l : Launch) =>
        { l with charged := 0, energy := if sum = 0 then l.energy else l.energy + total * l.charged / sum } }) := by
  simp only [List.sum_eq_foldl, List.foldl_map]
  exact congrArg Host.Outcome.next ((if_pos h).trans (whenReady_ready _ h3))

/-! ### The monitors (R478) -/

/-- An entry that a meter updates: a supply or process monitor, or one of the two energies. -/
def IsMeter (i : Nat) : Prop := i = 384 ∨ i = 385 ∨ (i < 384 ∧ 28 ≤ i % 32)

theorem meterPeriod_eq (i : Nat) : meterPeriod i = if i < 384 ∧ i % 32 = 30 then 1100000 else 1100 := by
  simp [meterPeriod]

theorem monitorValue_eq {i : Nat} (h : 28 ≤ i % 32) (v : Word) : monitorValue i v =
    if i % 32 < 30 then BitVec.ofNat 64 (v.toNat % 2 ^ 16) else BitVec.ofNat 64 (v.toNat % 2 ^ 32) := by
  have hand (k : Nat) (hk : k ≤ 64) : v &&& BitVec.ofNat 64 (2 ^ k - 1) = BitVec.ofNat 64 (v.toNat % 2 ^ k) := by
    apply BitVec.eq_of_toNat_eq
    have hpow : 2 ^ k ≤ 2 ^ 64 := Nat.pow_le_pow_right (by decide) hk
    have hpos : 0 < 2 ^ k := Nat.two_pow_pos k
    have hv : v.toNat % 2 ^ k < 2 ^ k := Nat.mod_lt _ hpos
    rw [BitVec.toNat_and, BitVec.toNat_ofNat, BitVec.toNat_ofNat, Nat.mod_eq_of_lt (by omega),
      Nat.mod_eq_of_lt (by omega), Nat.and_two_pow_sub_one_eq_mod]
  unfold monitorValue
  by_cases hi : i % 32 < 30
  · rw [if_pos hi, if_pos (by simp; omega)]
    exact hand 16 (by decide)
  · rw [if_neg hi, if_neg (by simp; omega)]
    exact hand 32 (by decide)

/-- The value that an entry takes at an update. -/
def State.meterReading (s : State) (i : Nat) : Word :=
  if i = 384 then BitVec.ofNat 64 (s.annex.basinNj / 1000)
  else if i = 385 then BitVec.ofNat 64 ((s.annex.annexNj + s.inp.value.toNat) / 1000)
  else if i % 32 < 30 then BitVec.ofNat 64 (s.inp.value.toNat % 2 ^ 16)
  else BitVec.ofNat 64 (s.inp.value.toNat % 2 ^ 32)

/-- The annex after an update: the energy of its own meter counts on. -/
def State.meterAnnex (s : State) (i : Nat) : Annex :=
  if i = 385 then { s.annex with annexNj := s.annex.annexNj + s.inp.value.toNat } else s.annex

theorem metered_eq (s : State) {i : Nat} (h : IsMeter i) :
    s.metered i = (s.meterReading i, { s with annex := s.meterAnnex i }) := by
  unfold State.metered State.meterReading State.meterAnnex
  by_cases h4 : i = 384
  · subst h4; rfl
  · by_cases h5 : i = 385
    · subst h5; rfl
    · obtain ⟨-, hi⟩ := (h.resolve_left h4).resolve_left h5
      simp only [h4, h5, if_false, monitorValue_eq hi]

theorem monitorUpdate_again (s : State)
    (h : (s.monitors.get {} s.inp.part).period = some (s.clk / meterPeriod s.inp.part)) :
    exec .monitorUpdate s = .next s := by
  refine congrArg Host.Outcome.next (if_neg fun hg => ?_)
  simp only [Bool.and_eq_true, decide_eq_true_eq] at hg
  exact hg.2 h

theorem monitorUpdate_due (s : State) (h3 : s.annex.bootState = 3) (hi : IsMeter s.inp.part)
    (h : (s.monitors.get {} s.inp.part).period ≠ some (s.clk / meterPeriod s.inp.part)) :
    exec .monitorUpdate s = .next { s with
      annex := s.meterAnnex s.inp.part
      monitors := s.monitors.set {} s.inp.part
        ⟨s.meterReading s.inp.part, some (s.clk / meterPeriod s.inp.part),
          (s.monitors.get {} s.inp.part).value⟩ } := by
  have hguard : ((decide (s.inp.part < 384) && decide (28 ≤ s.inp.part % 32) || decide (s.inp.part = 384) ||
      decide (s.inp.part = 385)) && decide ((s.monitors.get {} s.inp.part).period ≠
        some (s.clk / meterPeriod s.inp.part))) = true := by
    simp only [Bool.and_eq_true, Bool.or_eq_true, decide_eq_true_eq]
    exact ⟨by rcases hi with hi | hi | hi <;> simp [hi], h⟩
  refine congrArg Host.Outcome.next ((if_pos hguard).trans ((whenReady_ready _ h3).trans ?_))
  simp only [metered_eq s hi]

/-- Before READY the governor and the meters are idle (R115). -/
theorem governor_idle (s : State) (h : s.annex.bootState ≠ 3) :
    exec .currentHold s = .next s ∧ exec .capHold s = .next s ∧ exec .monitorUpdate s = .next s ∧
      exec .energyApportion s = .next s := by
  have hidle {p : Prop} [Decidable p] (t : State) : (if p then s.whenReady t else s) = s := by
    rw [whenReady_not t h, ite_self]
  exact ⟨congrArg Host.Outcome.next (hidle _), congrArg Host.Outcome.next (hidle _),
    congrArg Host.Outcome.next (hidle _), congrArg Host.Outcome.next (hidle _)⟩

theorem powerIsGoverned : PowerIsGoverned := by
  intro s
  refine ⟨governor_idle s, fun h3 hu hc => ?_, currentHold_low s,
    ⟨capHold_early s, fun h3 hd h0 => ?_, fun h3 hd h0 => ?_⟩, ⟨energyApportion_early s, energyApportion_due s⟩,
    fun hi => ⟨fun h => monitorUpdate_again s ?_, fun h3 h => ?_⟩⟩
  · refine ⟨_, currentHold_high s h3 hu hc, rfl, ?_, fun k hk => ?_⟩
    · rw [basin_setBasin, if_pos rfl]
    · rw [basin_setBasin, if_neg hk]
  · exact capHold_due h3 hd (compareCap_noCap _ h0)
  · exact ⟨fun hc => capHold_due h3 hd (compareCap_above h0 hc),
      fun hc hl => capHold_due h3 hd (compareCap_within h0 hc hl),
      fun hl hn => capHold_due h3 hd (compareCap_below h0 hl hn),
      fun hl hn => capHold_due h3 hd (compareCap_tenth h0 hl hn)⟩
  · rw [meterPeriod_eq]; exact h
  · rw [← meterPeriod_eq] at h
    refine ⟨_, monitorUpdate_due s h3 hi h, rfl, ?_, fun h5 => if_neg h5, fun h5 => if_pos h5, fun j hj => ?_⟩
    · rw [← meterPeriod_eq]
      exact (Table.get_set ..).trans (if_pos rfl)
    · exact (Table.get_set ..).trans (if_neg hj)

end Sys2Proof.Machine
end

section
/-! SUPPORT. What a write of memory and a condition report leave unchanged (R410, R461). -/
namespace Sys2Proof.Machine
open Sys2Proof Sys2Proof.Claims

theorem core_congr {s t : State} (h : t.cores = s.cores) (n : Nat) : t.core n = s.core n := by
  rw [State.core, h, ← State.core]

theorem quad_congr {s t : State} (h : t.quads = s.quads) (n : Nat) : t.quad n = s.quad n := by
  rw [State.quad, h, ← State.quad]

theorem basin_congr {s t : State} (h : t.basins = s.basins) (n : Nat) : t.basin n = s.basin n := by
  rw [State.basin, h, ← State.basin]

/-- Only what a write of memory reaches changes: the memory with its caches, check bits and copies, the links and hosts'
copies that it breaks, and the writes that wait for a lease. -/
def State.Stores (s t : State) : Prop :=
  t = { s with mem := t.mem, errs := t.errs, cache := t.cache, copies := t.copies, strands := t.strands
               rlinks := t.rlinks, hostCopies := t.hostCopies, out := t.out, deferred := t.deferred }

theorem stores_trans {s t u : State} (h : s.Stores t) (h' : t.Stores u) : s.Stores u :=
  Eq.trans h' (by rw [h])

theorem setByteAt_stores (s : State) (a : Nat) (b : Byte) : s.Stores (s.setByteAt a b) := by
  unfold State.setByteAt
  simp only
  split
  · rfl
  · rfl

theorem writeBytes_stores (n : Nat) (s : State) (a v : Nat) : s.Stores (s.writeBytes a n v) := by
  induction n generalizing s a v with
  | zero => rfl
  | succ n ih => exact stores_trans (setByteAt_stores s a _) (ih _ _ _)

theorem breakWhere_stores (s : State) (on : Nat → Bool) : s.Stores (s.breakWhere on) := rfl

theorem writeEach_stores (n v : Nat) (l : List Nat) (s : State) : s.Stores (s.writeEach n v l) := by
  induction l generalizing s with
  | nil => rfl
  | cons a r ih =>
    exact stores_trans (stores_trans (writeBytes_stores n s a v) (breakWhere_stores _ _)) (ih _)

theorem writeCo_stores (s : State) (a n v : Nat) : s.Stores (s.writeCo a n v) :=
  stores_trans (stores_trans (writeEach_stores n v _ s) (writeBytes_stores n _ a v)) (breakWhere_stores _ _)

theorem writeList_stores (l : List Byte) (s : State) (a : Nat) : s.Stores (s.writeList a l) := by
  induction l generalizing s a with
  | nil => rfl
  | cons b r ih => exact stores_trans (writeCo_stores s a 1 _) (ih _ _)

theorem ownWrite_stores (s : State) (a : Nat) (l : List Byte) : s.Stores (s.ownWrite a l) := by
  unfold State.ownWrite
  split
  · rfl
  · exact writeList_stores l s a

/-- Only what a condition report reaches changes: what a write of memory reaches, the annex, and the basins. -/
def State.Reports (s t : State) : Prop :=
  t = { s with mem := t.mem, errs := t.errs, cache := t.cache, copies := t.copies, strands := t.strands
               rlinks := t.rlinks, hostCopies := t.hostCopies, out := t.out, deferred := t.deferred
               annex := t.annex, basins := t.basins }

theorem reports_of_stores {s t : State} (h : s.Stores t) : s.Reports t := by
  unfold State.Reports
  rw [h]

theorem reports_trans {s t u : State} (h : s.Reports t) (h' : t.Reports u) : s.Reports u :=
  Eq.trans h' (by rw [h])

theorem raiseMsix_reports (s : State) (v : Nat) : s.Reports (s.raiseMsix v) ∧ (s.raiseMsix v).basins = s.basins := by
  unfold State.raiseMsix
  split
  · exact ⟨rfl, rfl⟩
  · split
    · exact ⟨rfl, rfl⟩
    · exact ⟨rfl, rfl⟩

/-- What a report does to the basins: its own basin's ring moves. -/
theorem report_eq (s : State) (b : Nat) (r : Report) : s.Reports (s.report b r) ∧
    ∃ lost tail, (s.report b r).basins = s.basins.set {} b { s.basin b with crLost := lost, crTail := tail } := by
  unfold State.report
  simp only
  generalize hz : State.wakeIdle _ b = z
  have hsz : s.Reports z ∧ z.basins = s.basins := by rw [← hz]; exact ⟨rfl, rfl⟩
  obtain ⟨hsz, hbz⟩ := hsz
  have hset (y : State) (hy : s.Reports y) (hb : y.basins = s.basins) (lost tail : BitVec 32) :
      let x := y.setBasin b { s.basin b with crLost := lost, crTail := tail }
      s.Reports x ∧ x.basins = s.basins.set {} b { s.basin b with crLost := lost, crTail := tail } :=
    ⟨reports_trans hy rfl, by rw [State.setBasin, hb]⟩
  split
  · obtain ⟨h1, h2⟩ := hset z hsz hbz (satInc (s.basin b).crLost) (s.basin b).crTail
    exact ⟨h1, _, _, h2⟩
  · have hst (a : Nat) (l : List Byte) := ownWrite_stores z a l
    obtain ⟨h1, h2⟩ := hset (z.ownWrite _ _) (reports_trans hsz (reports_of_stores (hst _ _)))
      ((congrArg State.basins (hst _ _) :).trans hbz) (s.basin b).crLost ((s.basin b).crTail + 1)
    split
    · obtain ⟨h3, h4⟩ := raiseMsix_reports (State.setBasin _ b _) 1
      exact ⟨reports_trans h1 h3, _, _, h4.trans h2⟩
    · exact ⟨h1, _, _, h2⟩

@[simp] theorem report_cores (s : State) (b : Nat) (r : Report) : (s.report b r).cores = s.cores :=
  (congrArg State.cores (report_eq s b r).1 :)

@[simp] theorem report_quads (s : State) (b : Nat) (r : Report) : (s.report b r).quads = s.quads :=
  (congrArg State.quads (report_eq s b r).1 :)

/-- Of the basins, only the report ring's counters of one change. -/
def RingMoves (b : Nat) (s t : State) : Prop :=
  (∀ k, k ≠ b → t.basin k = s.basin k) ∧
    ∃ lost tail, t.basin b = { s.basin b with crLost := lost, crTail := tail }

theorem ringMoves_refl (b : Nat) (s : State) : RingMoves b s s := ⟨fun _ _ => rfl, _, _, rfl⟩

theorem ringMoves_trans {b : Nat} {s t u : State} (h : RingMoves b s t) (h' : RingMoves b t u) : RingMoves b s u := by
  obtain ⟨hk, _, _, hb⟩ := h
  obtain ⟨hk', lost, tail, hb'⟩ := h'
  exact ⟨fun k h => (hk' k h).trans (hk k h), lost, tail, by rw [hb', hb]⟩

theorem report_ringMoves (s : State) (b : Nat) (r : Report) : RingMoves b s (s.report b r) := by
  obtain ⟨lost, tail, h⟩ := (report_eq s b r).2
  have hget (k : Nat) : (s.report b r).basin k =
      if k = b then { s.basin b with crLost := lost, crTail := tail } else s.basin k := by
    rw [State.basin, h, Table.get_set]
    rfl
  exact ⟨fun k hk => (hget k).trans (if_neg hk), lost, tail, (hget b).trans (if_pos rfl)⟩

end Sys2Proof.Machine
end

section
/-! SUPPORT. The temperature sensors and what they set (R36, R37, R462, R463). -/
namespace Sys2Proof.Machine
open Sys2Proof Sys2Proof.Claims

/-! ### Samples (R462) -/

/-- A basin's sensors with the samples of the ones that there are taken in. -/
def takenIn (t : Table Sensor) (l : List SensorSample) : Table Sensor :=
  (l.zipIdx.filter fun e => e.2 < 28).foldl (fun t e => t.set {} e.2 ((t.get {} e.2).sample e.1)) t

/-- The sensors that these samples find failed. -/
def foundFailed (t : Table Sensor) (l : List SensorSample) : List Nat :=
  ((l.zipIdx.filter fun e => e.2 < 28).filter fun e =>
    !((takenIn t l).get {} e.2).failed && sensorFails (takenIn t l) e.2 e.1).map (·.2)

/-- Some sensors marked as failed. -/
def marked (l : List Nat) (t : Table Sensor) : Table Sensor :=
  l.foldl (fun t n => t.set {} n { t.get {} n with failed := true }) t

/-- A basin's sensors after a sample. -/
def sampled (t : Table Sensor) (l : List SensorSample) : Table Sensor := marked (foundFailed t l) (takenIn t l)

theorem takeSamples_eq (s : State) (b : Nat) (l : List SensorSample) :
    s.takeSamples b l = (foundFailed (s.basin b).sensors l).foldl (fun s n => s.report b { kind := 7, index := n })
      (s.setBasin b { s.basin b with sensors := sampled (s.basin b).sensors l }) := rfl

theorem get_marked (l : List Nat) (t : Table Sensor) (n : Nat) :
    (marked l t).get {} n = { t.get {} n with failed := decide (n ∈ l) || (t.get {} n).failed } := by
  induction l generalizing t with
  | nil => simp [marked]
  | cons a r ih =>
    rw [marked, List.foldl_cons, ← marked, ih, Table.get_set]
    by_cases h : n = a
    · subst h; simp
    · simp [h]

theorem get_foldl_sample (l : List SensorSample) (i : Nat) (t : Table Sensor) (n : Nat) :
    ((l.zipIdx i).foldl (fun t e => Table.set {} t e.2 ((Table.get {} t e.2).sample e.1)) t).get {} n =
      if i ≤ n then ((l[n - i]?).map (t.get {} n).sample).getD (t.get {} n) else t.get {} n := by
  induction l generalizing i t with
  | nil => simp
  | cons p r ih =>
    rw [List.zipIdx_cons, List.foldl_cons, ih, Table.get_set]
    rcases Nat.lt_trichotomy n i with h | h | h
    · simp [show ¬ i + 1 ≤ n by omega, show ¬ i ≤ n by omega, show n ≠ i by omega]
    · subst h; simp
    · have hsucc : n - i = (n - (i + 1)) + 1 := by omega
      simp [show i + 1 ≤ n by omega, show i ≤ n by omega, show n ≠ i by omega, hsucc]

section
variable {t : Table Sensor} {l : List SensorSample} (hl : l.length = 28)
include hl

theorem filter_zipIdx : (l.zipIdx.filter fun e => e.2 < 28) = l.zipIdx := by
  refine List.filter_eq_self.mpr fun e he => ?_
  have := List.snd_lt_of_mem_zipIdx he
  exact decide_eq_true (by omega)

theorem get_takenIn {n : Nat} (h : n < l.length) : (takenIn t l).get {} n = (t.get {} n).sample l[n] := by
  rw [takenIn, filter_zipIdx hl, get_foldl_sample]
  simp [h]

theorem mem_foundFailed {n : Nat} (h : n < l.length) : n ∈ foundFailed t l ↔
    (t.get {} n).failed = false ∧ sensorFails (takenIn t l) n l[n] = true := by
  rw [foundFailed, filter_zipIdx hl]
  simp only [List.mem_map, List.mem_filter, List.mem_zipIdx_iff_getElem?, Bool.and_eq_true, Bool.not_eq_true']
  constructor
  · rintro ⟨⟨p, m⟩, ⟨hm, hf, hs⟩, rfl⟩
    rw [get_takenIn hl h] at hf
    simp only [List.getElem?_eq_getElem h, Option.some.injEq] at hm
    exact ⟨hf, by rw [hm]; exact hs⟩
  · rintro ⟨hf, hs⟩
    refine ⟨(l[n], n), ⟨List.getElem?_eq_getElem h, ?_, hs⟩, rfl⟩
    rw [get_takenIn hl h]
    exact hf

/-- A sensor after a sample: its reading, its last 10 s, and whether it has failed. -/
theorem get_sampled {n : Nat} (h : n < l.length) :
    (sampled t l).get {} n = { (t.get {} n).sample l[n] with
      failed := (t.get {} n).failed || sensorFails (takenIn t l) n l[n] } := by
  rw [sampled, get_marked, get_takenIn hl h]
  have hm := mem_foundFailed (t := t) hl h
  have hf : ((t.get {} n).sample l[n]).failed = (t.get {} n).failed := rfl
  rw [hf]
  cases hfail : (t.get {} n).failed <;> simp_all

theorem sensorFails_of_good {n : Nat} (h : n < l.length) (hf : l[n].fault = false) (h1 : -640 ≤ l[n].temp.toInt)
    (h2 : l[n].temp.toInt ≤ 2400) (hr : (t.get {} n).recent.length < 9999) :
    sensorFails (takenIn t l) n l[n] = false := by
  have hlen : ¬ 10000 ≤ ((takenIn t l).get {} n).recent.length := by
    rw [get_takenIn hl h]
    simp only [Sensor.sample, List.length_take, List.length_cons]
    omega
  simp only [sensorFails, hf, hlen, decide_false, Bool.false_and, Bool.or_false, Bool.false_or,
    Bool.or_eq_false_iff, decide_eq_false_iff_not]
  unfold deg
  omega
end

theorem sensorFails_of_bad {n : Nat} {p : SensorSample} (all : Table Sensor)
    (h : p.fault = true ∨ p.temp.toInt < -640 ∨ 2400 < p.temp.toInt) : sensorFails all n p = true := by
  simp only [sensorFails, Bool.or_eq_true, decide_eq_true_eq, or_assoc]
  exact h.imp id fun h => h.imp id .inl

end Sys2Proof.Machine
end

section
/-! SUPPORT. What the sensors of a basin set at a sample (R36, R37, R462, R463). -/
namespace Sys2Proof.Machine
open Sys2Proof Sys2Proof.Claims

/-! ### The hottest band, the refresh intervals and the retention deadline -/

/-- One of some sensors has failed or reads above a temperature. -/
def AnyAbove (all : Table Sensor) (l : List Nat) (y : Int) : Prop :=
  ∃ n ∈ l, (all.get {} n).failed = true ∨ y < (all.get {} n).temp.toInt

theorem anyAbove_iff (all : Table Sensor) (l : List Nat) (y : Int) :
    ((l.any fun n => (all.get {} n).failed) || l.any fun n => y < deg (all.get {} n).temp) = true ↔
      AnyAbove all l y := by
  simp only [Bool.or_eq_true, List.any_eq_true, decide_eq_true_eq, AnyAbove, ← exists_or, ← and_or_left]
  exact Iff.rfl

theorem anyAbove_mono {all : Table Sensor} {l : List Nat} {y z : Int} (hyz : z ≤ y) (h : AnyAbove all l y) :
    AnyAbove all l z := by
  obtain ⟨n, hn, h⟩ := h
  exact ⟨n, hn, h.imp id (by omega)⟩

theorem dieInterval_hot {all : Table Sensor} {d : Nat} (h : AnyAbove all [2 * d, 2 * d + 1] 1360) :
    dieInterval all d = 16 := if_pos ((anyAbove_iff all _ _).mpr h)

theorem dieInterval_cool {all : Table Sensor} {d : Nat} (h : ¬ AnyAbove all [2 * d, 2 * d + 1] 1360) :
    dieInterval all d = 32 := if_neg fun hc => h ((anyAbove_iff all _ _).mp hc)

theorem bandDeadline_hot {all : Table Sensor} (h : AnyAbove all [24, 25, 26, 27] 1360) : bandDeadline all = 11000 :=
  if_pos ((anyAbove_iff all _ _).mpr h)

theorem bandDeadline_warm {all : Table Sensor} (h : ¬ AnyAbove all [24, 25, 26, 27] 1360)
    (hw : AnyAbove all [24, 25, 26, 27] 880) : bandDeadline all = 22000 := by
  have hn : ¬ ([24, 25, 26, 27].any fun n => (all.get {} n).failed) = true := fun hf =>
    h ((anyAbove_iff all _ _).mp (Bool.or_eq_true_iff.mpr (.inl hf)))
  have hs := (Bool.or_eq_true_iff.mp ((anyAbove_iff all _ _).mpr hw)).resolve_left hn
  exact (if_neg fun hc => h ((anyAbove_iff all _ _).mp hc)).trans (if_pos hs)

theorem bandDeadline_cool {all : Table Sensor} (h : ¬ AnyAbove all [24, 25, 26, 27] 880) : bandDeadline all = 44000 :=
  (if_neg fun hc => h (anyAbove_mono (by decide) ((anyAbove_iff all _ _).mp hc))).trans
    (if_neg fun hs => h ((anyAbove_iff all _ _).mp (Bool.or_eq_true_iff.mpr (.inr hs))))

/-- The sensors as the intervals and the deadline take them: those failed that the sample before had found failed. -/
def bands (was all : Table Sensor) : Table Sensor :=
  all.map fun e => (e.1, { e.2 with failed := (was.get {} e.1).failed })

theorem get_bands {was all : Table Sensor} {n : Nat} (h : all.get {} n ≠ {}) :
    (bands was all).get {} n = { all.get {} n with failed := (was.get {} n).failed } := by
  have hm : Table.find n (bands was all) = (Table.find n all).map fun x => { x with failed := (was.get {} n).failed } :=
    Table.find_map (β := Sensor) all (fun k x => { x with failed := (was.get {} k).failed }) n
  rw [Table.get, hm]
  revert h
  rw [Table.get]
  cases Table.find n all with
  | none => exact fun h => absurd rfl h
  | some x => exact fun _ => rfl

/-- Writing a run of keys from 0 on. -/
theorem get_foldl_set_range {α : Type} [DecidableEq α] (d : α) (f : Nat → α) (n : Nat) (t : Table α) (k : Nat) :
    ((List.range n).foldl (fun t i => Table.set d t i (f i)) t).get d k = if k < n then f k else t.get d k := by
  induction n with
  | zero => rfl
  | succ n ih =>
    rw [List.range_succ, List.foldl_append, List.foldl_cons, List.foldl_nil, Table.get_set, ih]
    rcases Nat.lt_trichotomy k n with h | h | h
    · simp [Nat.ne_of_lt h, h, Nat.lt_succ_of_lt h]
    · simp [h]
    · simp [Nat.ne_of_gt h, show ¬ k < n by omega, show ¬ k < n + 1 by omega]

/-! ### Slot limits (R463) -/

/-- The hottest of some sensors' readings. -/
def hottestOf (l : List Sensor) : Option Int :=
  l.foldl (fun a x => some (max (a.getD (deg x.temp)) (deg x.temp))) none

theorem hottest_eq (all : Table Sensor) (l : List Nat) :
    hottest all l = hottestOf ((l.map fun n => all.get {} n).filter fun x => !x.failed) := rfl

theorem foldl_hottest (l : List Sensor) (a : Int) :
    ∃ m, l.foldl (fun a x => some (max (a.getD (deg x.temp)) (deg x.temp))) (some a) = some m ∧
      ∀ c, c ≤ m ↔ c ≤ a ∨ ∃ y ∈ l, c ≤ y.temp.toInt := by
  induction l generalizing a with
  | nil => exact ⟨a, rfl, fun c => by simp⟩
  | cons x r ih =>
    obtain ⟨m, hm, hc⟩ := ih (max a (deg x.temp))
    refine ⟨m, hm, fun c => ?_⟩
    rw [hc, le_max_iff, or_assoc, List.exists_mem_cons_iff]
    rfl

theorem hottestOf_spec {l : List Sensor} (h : l ≠ []) :
    ∃ m, hottestOf l = some m ∧ ∀ c, c ≤ m ↔ ∃ y ∈ l, c ≤ y.temp.toInt := by
  obtain ⟨x, r, rfl⟩ := List.exists_cons_of_ne_nil h
  obtain ⟨m, hm, hc⟩ := foldl_hottest r (max (deg x.temp) (deg x.temp))
  refine ⟨m, hm, fun c => ?_⟩
  rw [hc, max_self, List.exists_mem_cons_iff]
  rfl

theorem hottest_one_failed {all : Table Sensor} {n : Nat} (h : (all.get {} n).failed = true) :
    hottest all [n] = none := by
  rw [hottest_eq, List.map_singleton, List.filter_cons_of_neg (by rw [h]; decide)]
  rfl

theorem hottest_one {all : Table Sensor} {n : Nat} (h : (all.get {} n).failed = false) :
    hottest all [n] = some (all.get {} n).temp.toInt := by
  rw [hottest_eq, List.map_singleton, List.filter_cons_of_pos (by rw [h]; rfl)]
  exact congrArg some (max_self _)

theorem thermal_lost (q : Quad) {c a : Option Int} (h : c = none ∨ a = none) :
    q.thermal c a = { q with limit := max 1 (q.limit - 2), cool := 0 } := by
  rcases h with rfl | rfl
  · rfl
  · cases c <;> rfl

theorem thermal_hot (q : Quad) {c a : Int} (h : 1600 ≤ c ∨ 1472 ≤ a) :
    q.thermal (some c) (some a) = { q with limit := max 1 (q.limit - 2), cool := 0 } :=
  if_pos (by simpa using h)

theorem thermal_cool (q : Quad) {c a : Int} (hh : ¬ (1600 ≤ c ∨ 1472 ≤ a)) (h : c < 1520 ∧ a < 1408) :
    q.thermal (some c) (some a) = if q.cool = 9 then { q with limit := min 16 (q.limit + 1), cool := 0 }
      else { q with cool := q.cool + 1 } :=
  (if_neg (by simpa using hh)).trans ((if_pos (by simpa using h)).trans (by simp))

theorem thermal_between (q : Quad) {c a : Int} (hh : ¬ (1600 ≤ c ∨ 1472 ≤ a)) (h : ¬ (c < 1520 ∧ a < 1408)) :
    q.thermal (some c) (some a) = { q with cool := 0 } :=
  (if_neg (by simpa using hh)).trans (if_neg (by simpa using h))

/-- R463: what a quad's own sensor and those of the array dies make of its slot limit. -/
theorem thermal_hottest (all : Table Sensor) (n : Nat) (l : List Nat) (q : Quad) :
    let q' := q.thermal (hottest all [n]) (hottest all l)
    let own := all.get {} n
    let arrays : List Sensor := (l.map fun n => all.get {} n).filter fun y => !y.failed
    let lost : Prop := own.failed = true ∨ arrays = []
    let hot : Prop := 1600 ≤ own.temp.toInt ∨ ∃ y ∈ arrays, 1472 ≤ y.temp.toInt
    let cool : Prop := own.temp.toInt < 1520 ∧ ∀ y ∈ arrays, y.temp.toInt < 1408
    (lost ∨ hot → q' = { q with limit := max 1 (q.limit - 2), cool := 0 }) ∧
    (¬ lost → ¬ hot → cool → q' = if q.cool = 9 then { q with limit := min 16 (q.limit + 1), cool := 0 }
      else { q with cool := q.cool + 1 }) ∧
    (¬ lost → ¬ hot → ¬ cool → q' = { q with cool := 0 }) := by
  intro q' own arrays lost hot cool
  by_cases hlost : lost
  · refine ⟨fun _ => thermal_lost q ?_, fun h => absurd hlost h, fun h => absurd hlost h⟩
    refine hlost.imp hottest_one_failed fun ha => ?_
    rw [hottest_eq]
    exact congrArg hottestOf ha
  · obtain ⟨hown, harr⟩ := not_or.mp hlost
    obtain ⟨m, hm, hle⟩ := hottestOf_spec harr
    have hq : q' = q.thermal (some own.temp.toInt) (some m) := by
      simp only [q']
      rw [hottest_one (Bool.eq_false_iff.mpr hown), hottest_eq]
      exact congrArg (q.thermal _) hm
    have hhot : hot ↔ 1600 ≤ own.temp.toInt ∨ 1472 ≤ m := or_congr Iff.rfl (hle 1472).symm
    have hcool : cool ↔ own.temp.toInt < 1520 ∧ m < 1408 := by
      refine and_congr Iff.rfl ?_
      rw [← Int.not_le, hle]
      simp
    rw [hq, hhot, hcool]
    exact ⟨fun h => thermal_hot q (h.resolve_left hlost), fun _ => thermal_cool q, fun _ => thermal_between q⟩

/-! ### The deadline of the scratchpads (R37, R312) -/

theorem foldl_setCore (b : Nat) (f : State → Nat → Core) (l : List Nat) (hl : ∀ i ∈ l, i < 16) (s : State) :
    let t := l.foldl (fun s i => s.setCore (16 * b + i) (f s i)) s
    t.basins = s.basins ∧ t.quads = s.quads ∧ ∀ n, n / 16 ≠ b → t.core n = s.core n := by
  induction l generalizing s with
  | nil => exact ⟨rfl, rfl, fun _ _ => rfl⟩
  | cons i r ih =>
    obtain ⟨hb, hq, hc⟩ := ih (fun j hj => hl j (List.mem_cons_of_mem i hj)) (s.setCore (16 * b + i) (f s i))
    refine ⟨hb, hq, fun n hn => (hc n hn).trans ?_⟩
    have hi := hl i List.mem_cons_self
    rw [core_setCore, if_neg (by omega)]

/-- A core whose refresh controllers begin a new span, with the expired rows that they have found. -/
def State.respanned (s : State) (core : Nat) : Core :=
  { (List.range 48).foldl (fun c k => c.nextSpan k (s.spanOf core k s.clk)) (s.core core) with
    rowDue := (s.core core).rowDue ++ (List.range 48).flatMap (s.foundRows core) }

/-- The cores of a basin, each with a new span. -/
def State.respan (s : State) (b : Nat) : State :=
  (List.range 16).foldl (fun s i => s.setCore (16 * b + i) (s.respanned (16 * b + i))) s

theorem setDeadline_eq (s : State) (b d : Nat) : s.setDeadline b d =
    if (s.basin b).retention = d then s
    else (s.respan b).setBasin b { (s.respan b).basin b with retention := d } := by
  unfold State.setDeadline State.respan State.respanned
  rfl

theorem setDeadline_spec (s : State) (b d : Nat) :
    (s.setDeadline b d).quads = s.quads ∧ (∀ n, n / 16 ≠ b → (s.setDeadline b d).core n = s.core n) ∧
      ∀ k, (s.setDeadline b d).basin k = if k = b then { s.basin b with retention := d } else s.basin k := by
  rw [setDeadline_eq]
  split
  · next h =>
    refine ⟨rfl, fun _ _ => rfl, fun k => ?_⟩
    split
    · next hk => rw [hk, ← h]
    · rfl
  · obtain ⟨hb, hq, hc⟩ : (s.respan b).basins = s.basins ∧ (s.respan b).quads = s.quads ∧
        ∀ n, n / 16 ≠ b → (s.respan b).core n = s.core n :=
      foldl_setCore b (fun s i => s.respanned (16 * b + i)) (List.range 16) (fun i hi => List.mem_range.mp hi) s
    generalize s.respan b = z at hb hq hc
    refine ⟨hq, hc, fun k => ?_⟩
    rw [basin_setBasin]
    refine ite_congr rfl (fun _ => ?_) fun _ => basin_congr hb k
    exact congrArg (fun x : Basin => { x with retention := d }) (basin_congr hb b)

/-! ### A sample of a basin -/

/-- One quad's slot limit at a sample, with its report (R463). -/
def State.limitQuad (b : Nat) (all : Table Sensor) (a : Option Int) (s : State) (i : Nat) : State :=
  let q := s.quad (4 * b + i)
  let q' := q.thermal (hottest all [24 + i]) a
  if (q.limit = 16) ≠ (q'.limit = 16) then (s.setQuad (4 * b + i) q').report b { kind := 8, index := i }
  else s.setQuad (4 * b + i) q'

@[simp] theorem quad_setQuad (s : State) (n k : Nat) (q : Quad) :
    (s.setQuad n q).quad k = if k = n then q else s.quad k := Table.get_set (α := Quad) {} s.quads n k q

theorem limitQuad_spec (b : Nat) (all : Table Sensor) (a : Option Int) (s : State) (i : Nat) :
    let t := s.limitQuad b all a i
    t.cores = s.cores ∧ RingMoves b s t ∧
      ∀ k, t.quad k = if k = 4 * b + i then (s.quad (4 * b + i)).thermal (hottest all [24 + i]) a else s.quad k := by
  unfold State.limitQuad
  simp only
  generalize (s.quad (4 * b + i)).thermal (hottest all [24 + i]) a = q
  have hring : RingMoves b s (s.setQuad (4 * b + i) q) := ringMoves_refl b s
  split
  · exact ⟨report_cores _ _ _, ringMoves_trans hring (report_ringMoves _ _ _),
      fun k => (quad_congr (report_quads _ _ _) k).trans (quad_setQuad s _ k q)⟩
  · exact ⟨rfl, hring, fun k => quad_setQuad s _ k q⟩

theorem foldl_limitQuad (b : Nat) (all : Table Sensor) (a : Option Int) (s : State) (n : Nat) :
    let t := (List.range n).foldl (State.limitQuad b all a) s
    t.cores = s.cores ∧ RingMoves b s t ∧
      (∀ k, k < 4 * b ∨ 4 * b + n ≤ k → t.quad k = s.quad k) ∧
      ∀ i, i < n → t.quad (4 * b + i) = (s.quad (4 * b + i)).thermal (hottest all [24 + i]) a := by
  induction n with
  | zero => exact ⟨rfl, ringMoves_refl b s, fun _ _ => rfl, fun i hi => absurd hi (Nat.not_lt_zero i)⟩
  | succ n ih =>
    rw [List.range_succ, List.foldl_append, List.foldl_cons, List.foldl_nil]
    generalize (List.range n).foldl (State.limitQuad b all a) s = u at ih
    obtain ⟨hc, hr, hout, hin⟩ := ih
    obtain ⟨hc', hr', hq⟩ := limitQuad_spec b all a u n
    refine ⟨hc'.trans hc, ringMoves_trans hr hr', fun k hk => ?_, fun i hi => ?_⟩
    · rw [hq, if_neg (by omega), hout k (by omega)]
    · rw [hq]
      by_cases h : i = n
      · rw [h, if_pos rfl, hout _ (by omega)]
      · rw [if_neg (by omega), hin i (by omega)]

theorem foldl_report (b : Nat) (r : Nat → Report) (l : List Nat) (s : State) :
    let t := l.foldl (fun s n => s.report b (r n)) s
    t.cores = s.cores ∧ t.quads = s.quads ∧ RingMoves b s t := by
  induction l generalizing s with
  | nil => exact ⟨rfl, rfl, ringMoves_refl b s⟩
  | cons n rest ih =>
    obtain ⟨hc, hq, hr⟩ := ih (s.report b (r n))
    exact ⟨hc.trans (report_cores s b _), hq.trans (report_quads s b _),
      ringMoves_trans (report_ringMoves s b _) hr⟩

/-- What a basin becomes at a step that also writes reports: `f` of it, with its ring moved. -/
def BasinBecomes (b : Nat) (f : Basin → Basin) (s t : State) : Prop :=
  (∀ k, k ≠ b → t.basin k = s.basin k) ∧
    ∃ lost tail, t.basin b = { f (s.basin b) with crLost := lost, crTail := tail }

theorem basinBecomes_of_ring {b : Nat} {f : Basin → Basin} {s u t : State}
    (hu : ∀ k, u.basin k = if k = b then f (s.basin b) else s.basin k) (h : RingMoves b u t) :
    BasinBecomes b f s t := by
  obtain ⟨hk, lost, tail, hb⟩ := h
  refine ⟨fun k h => (hk k h).trans ((hu k).trans (if_neg h)), lost, tail, ?_⟩
  rw [hb, hu b, if_pos rfl]

theorem takeSamples_spec (s : State) (b : Nat) (l : List SensorSample) :
    let t := s.takeSamples b l
    t.cores = s.cores ∧ t.quads = s.quads ∧
      BasinBecomes b (fun z => { z with sensors := sampled z.sensors l }) s t := by
  rw [takeSamples_eq]
  obtain ⟨hc, hq, hr⟩ := foldl_report b (fun n => { kind := 7, index := n }) (foundFailed (s.basin b).sensors l)
    (s.setBasin b { s.basin b with sensors := sampled (s.basin b).sensors l })
  exact ⟨hc, hq, basinBecomes_of_ring (fun k => basin_setBasin s b k _) hr⟩

/-- The basin with the intervals of its dies. -/
def withIntervals (z : Basin) (all : Table Sensor) : Basin :=
  { z with interval := (List.range 12).foldl (fun t d => t.set 32 d (dieInterval all d)) z.interval }

theorem applySample_eq (s : State) (b : Nat) (was : Table Sensor) :
    let all := (s.basin b).sensors
    s.applySample b was = (List.range 4).foldl (State.limitQuad b all (hottest all (List.range 24)))
      ((s.setBasin b (withIntervals (s.basin b) (bands was all))).setDeadline b (bandDeadline (bands was all))) := by
  unfold State.applySample State.limitQuad withIntervals bands
  rfl

theorem applySample_spec (s : State) (b : Nat) (was : Table Sensor) :
    let all := (s.basin b).sensors
    let t := s.applySample b was
    (∀ n, n / 16 ≠ b → t.core n = s.core n) ∧ (∀ k, k / 4 ≠ b → t.quad k = s.quad k) ∧
      (∀ i, i < 4 → t.quad (4 * b + i) =
        (s.quad (4 * b + i)).thermal (hottest all [24 + i]) (hottest all (List.range 24))) ∧
      BasinBecomes b (fun z => { withIntervals z (bands was all) with
        retention := bandDeadline (bands was all) }) s t := by
  intro all t
  have ht : t = _ := applySample_eq s b was
  obtain ⟨hdq, hdc, hdb⟩ := setDeadline_spec (s.setBasin b (withIntervals (s.basin b) (bands was all))) b
    (bandDeadline (bands was all))
  generalize State.setDeadline _ b _ = u at ht hdq hdc hdb
  have hquad (k : Nat) : u.quad k = s.quad k := quad_congr hdq k
  obtain ⟨hc, hr, hout, hin⟩ := foldl_limitQuad b all (hottest all (List.range 24)) u 4
  rw [ht]
  refine ⟨fun n hn => ?_, fun k hk => ?_, fun i hi => ?_, basinBecomes_of_ring (fun k => ?_) hr⟩
  · exact (core_congr hc n).trans (hdc n hn)
  · exact (hout k (by omega)).trans (hquad k)
  · exact (hin i hi).trans (by rw [hquad])
  · rw [hdb, basin_setBasin, basin_setBasin, if_pos rfl]
    split <;> rfl

/-- A basin after a sample of its sensors. -/
def Basin.sampledAt (z : Basin) (clk : Nat) (l : List SensorSample) : Basin :=
  let all := sampled z.sensors l
  let taken : Basin := { z with nextSample := clk + 1100000, sampleUs := some (clk / 1100), sensorsWas := z.sensors
                                sensors := all }
  { withIntervals taken (bands z.sensors all) with retention := bandDeadline (bands z.sensors all) }

theorem sampleBasin_spec (s : State) (b : Nat) (l : List SensorSample) :
    let all := sampled (s.basin b).sensors l
    let t := s.sampleBasin b l
    (∀ n, n / 16 ≠ b → t.core n = s.core n) ∧ (∀ k, k / 4 ≠ b → t.quad k = s.quad k) ∧
      (∀ i, i < 4 → t.quad (4 * b + i) =
        (s.quad (4 * b + i)).thermal (hottest all [24 + i]) (hottest all (List.range 24))) ∧
      BasinBecomes b (fun z => z.sampledAt s.clk l) s t := by
  intro all t
  generalize hz : s.setBasin b { s.basin b with
    nextSample := s.clk + 1100000, sampleUs := some (s.clk / 1100), sensorsWas := (s.basin b).sensors } = z
  have ht : t = (z.takeSamples b l).applySample b (s.basin b).sensors := by rw [← hz]; rfl
  have hzb (k : Nat) := (congrArg (State.basin · k) hz).symm.trans (basin_setBasin s b k _)
  obtain ⟨hc, hq, ho, lost, tail, hb⟩ := takeSamples_spec z b l
  obtain ⟨hc', hq', hin, ho', lost', tail', hb'⟩ := applySample_spec (z.takeSamples b l) b (s.basin b).sensors
  have hzq : z.quads = s.quads := by rw [← hz]; rfl
  have hzc : z.cores = s.cores := by rw [← hz]; rfl
  generalize z.takeSamples b l = u at ht hc hq ho hb hc' hq' hin ho' hb'
  have hall : (u.basin b).sensors = all := by rw [hb, hzb, if_pos rfl]
  rw [ht]
  refine ⟨fun n hn => ?_, fun k hk => ?_, fun i hi => ?_, fun k hk => ?_, lost', tail', ?_⟩
  · rw [hc' n hn, core_congr hc, core_congr hzc]
  · rw [hq' k hk, quad_congr hq, quad_congr hzq]
  · rw [hin i hi, hall, quad_congr hq, quad_congr hzq]
  · rw [ho' k hk, ho k hk, hzb, if_neg hk]
  · rw [hb', hall, hb, hzb, if_pos rfl]
    rfl

theorem thermalSample_idle (s : State) (h : s.annex.bootState ≠ 3 ∨ s.clk < (s.basin s.inp.unit).nextSample) :
    exec .thermalSample s = .next s := by
  refine congrArg Host.Outcome.next ?_
  rcases h with h | h
  · rw [whenReady_not _ h, ite_self]
  · exact if_neg (by simp [Nat.not_le.mpr h])

theorem thermalSample_due (s : State) (h3 : s.annex.bootState = 3) (hu : s.inp.unit < 12)
    (h : (s.basin s.inp.unit).nextSample ≤ s.clk) :
    exec .thermalSample s = .next (s.sampleBasin s.inp.unit s.inp.samples) :=
  congrArg Host.Outcome.next ((if_pos (by simp [hu, h])).trans (whenReady_ready _ h3))

/-! ### What a sample sets, as the rules state it -/

section
variable {was : Table Sensor} {l : List SensorSample} (hl : l.length = 28)
include hl

theorem get_bands_sampled {n : Nat} (h : n < 28) : (bands was (sampled was l)).get {} n =
    { (sampled was l).get {} n with failed := (was.get {} n).failed } := by
  refine get_bands fun hd => ?_
  have hrec := congrArg Sensor.recent hd
  rw [get_sampled hl (hl ▸ h)] at hrec
  exact List.cons_ne_nil _ _ hrec

/-- A sensor counts as hot when it had failed before the sample, or reads hot at it. -/
theorem anyAbove_bands {ns : List Nat} (hns : ∀ n ∈ ns, n < 28) (y : Int) :
    AnyAbove (bands was (sampled was l)) ns y ↔
      ∃ n ∈ ns, (was.get {} n).failed = true ∨ y < ((sampled was l).get {} n).temp.toInt := by
  refine exists_congr fun n => and_congr_right fun hn => ?_
  rw [get_bands_sampled hl (hns n hn)]

/-- R462: a sensor at a sample. -/
theorem sampled_spec {n : Nat} (h : n < l.length) :
    let p := l[n]
    let x := (sampled was l).get {} n
    x.temp = p.temp ∧ x.recent = (p.temp :: (was.get {} n).recent).take 10000 ∧
      ((was.get {} n).failed = true ∨ p.fault = true ∨ p.temp.toInt < -640 ∨ 2400 < p.temp.toInt →
        x.failed = true) ∧
      ((was.get {} n).failed = false → p.fault = false → -640 ≤ p.temp.toInt → p.temp.toInt ≤ 2400 →
        (was.get {} n).recent.length < 9999 → x.failed = false) := by
  intro p x
  have hx : x = _ := get_sampled hl h
  rw [hx]
  refine ⟨rfl, rfl, fun hb => ?_, fun hf hp h1 h2 hr => ?_⟩
  · exact Bool.or_eq_true_iff.mpr (hb.imp id (sensorFails_of_bad _))
  · exact Bool.or_eq_false_iff.mpr ⟨hf, sensorFails_of_good hl h hp h1 h2 hr⟩

theorem sampledAt_interval (z : Basin) (clk : Nat) (hz : z.sensors = was) {d : Nat} (hd : d < 12) :
    let above : Prop := ∃ n ∈ [2 * d, 2 * d + 1],
      (was.get {} n).failed = true ∨ 1360 < ((sampled was l).get {} n).temp.toInt
    (above → (z.sampledAt clk l).interval.get 32 d = 16) ∧
      (¬ above → (z.sampledAt clk l).interval.get 32 d = 32) := by
  subst hz
  have hget : (z.sampledAt clk l).interval.get 32 d = dieInterval (bands z.sensors (sampled z.sensors l)) d :=
    (get_foldl_set_range 32 _ 12 _ d).trans (if_pos hd)
  have hab := anyAbove_bands (was := z.sensors) hl (ns := [2 * d, 2 * d + 1]) (by simp; omega) 1360
  rw [hget]
  exact ⟨fun h => dieInterval_hot (hab.mpr h), fun h => dieInterval_cool fun hc => h (hab.mp hc)⟩

theorem sampledAt_retention (z : Basin) (clk : Nat) (hz : z.sensors = was) :
    let above (y : Int) : Prop := ∃ n ∈ [24, 25, 26, 27],
      (was.get {} n).failed = true ∨ y < ((sampled was l).get {} n).temp.toInt
    (above 1360 → (z.sampledAt clk l).retention = 11000) ∧
      (¬ above 1360 → above 880 → (z.sampledAt clk l).retention = 22000) ∧
      (¬ above 880 → (z.sampledAt clk l).retention = 44000) := by
  subst hz
  have hab := anyAbove_bands (was := z.sensors) hl (ns := [24, 25, 26, 27]) (by decide)
  exact ⟨fun h => bandDeadline_hot ((hab 1360).mpr h),
    fun h h' => bandDeadline_warm (fun hc => h ((hab 1360).mp hc)) ((hab 880).mpr h'),
    fun h => bandDeadline_cool fun hc => h ((hab 880).mp hc)⟩
end

theorem temperaturesSetIntervalsAndLimits : TemperaturesSetIntervalsAndLimits := by
  intro s hu b
  refine ⟨thermalSample_idle s, fun h3 hd hlen => ⟨_, thermalSample_due s h3 hu hd, ?_⟩⟩
  obtain ⟨hcore, hquad, hlimit, hother, lost, tail, hb⟩ := sampleBasin_spec s s.inp.unit s.inp.samples
  refine ⟨?_, hother, hquad, hcore⟩
  rw [hb]
  obtain ⟨hhot, hwarm, hcool⟩ := sampledAt_retention hlen b s.clk rfl
  refine ⟨rfl, fun n h => sampled_spec hlen h, fun d hd => sampledAt_interval hlen b s.clk rfl hd, hhot, hwarm, hcool,
    fun i hi => ?_⟩
  rw [hlimit i hi]
  exact thermal_hottest (sampled b.sensors s.inp.samples) (24 + i) (List.range 24) _

theorem temperatureAndPower : TemperatureAndPower := ⟨temperaturesSetIntervalsAndLimits, powerIsGoverned⟩

end Sys2Proof.Machine
end

section
open Sys2Proof.Machine

/-- Settles O55, part by part: the weirs, the counters and the frames of a clk, and what the sensors and the governor
set. -/
theorem weirsTemperatureAndPower : Obligations.WeirsTemperatureAndPower :=
  ⟨weirsAdmitAndFramesLatch, temperatureAndPower⟩
end

section
/-! SUPPORT. The pairwise tree of reductions (R70). -/
namespace Sys2Proof.Machine
open Sys2Proof Sys2Proof.Claims

/-- The leaf at a position of a list; a position from its length up is absent. -/
def leafAt (l : List (Option Elem)) (i : Nat) : Option Elem := (l[i]?).join

section
variable (step : Elem → Elem → Elem)

@[simp] theorem combine_none_right (a : Option Elem) : combine step a none = a := by cases a <;> rfl

/-- A level of the list tree holds, at each position, the combination of two neighbours below it. -/
theorem leafAt_pairUp (l : List (Option Elem)) (i : Nat) :
    leafAt (pairUp step l) i = combine step (leafAt l (2 * i)) (leafAt l (2 * i + 1)) := by
  induction l using pairUp.induct generalizing i with
  | case1 a b t ih =>
    cases i with
    | zero => cases a <;> cases b <;> rfl
    | succ i => exact ih i
  | case2 a =>
    cases i with
    | zero => exact (combine_none_right step a).symm
    | succ i => rfl
  | case3 => rfl

/-- The lowest level of a tree may be combined first. -/
theorem node_succ (leaf : Nat → Option Elem) (n i : Nat) :
    node step leaf (n + 1) i = node step (fun j => combine step (leaf (2 * j)) (leaf (2 * j + 1))) n i := by
  induction n generalizing i with
  | zero => rfl
  | succ n ih => rw [node, ih, ih]; rfl

theorem treeUp_eq_node (n : Nat) (l : List (Option Elem)) : treeUp step n l = node step (leafAt l) n 0 := by
  induction n generalizing l with
  | zero => cases l <;> rfl
  | succ n ih =>
    rw [treeUp, ih, node_succ]
    congr 1
    exact funext (leafAt_pairUp step l)

/-- A node over absent leaves alone is absent. -/
theorem node_eq_none {leaf : Nat → Option Elem} {n i : Nat} (h : ∀ j, i * 2 ^ n ≤ j → leaf j = none) :
    node step leaf n i = none := by
  induction n generalizing i with
  | zero => exact h i (by omega)
  | succ n ih =>
    have hl : node step leaf n (2 * i) = none := ih fun j hj => h j (by rw [pow_succ]; linarith)
    have hr : node step leaf n (2 * i + 1) = none := ih fun j hj => h j (by rw [pow_succ]; nlinarith [Nat.two_pow_pos n])
    rw [node, hl, hr, combine_none_right]

/-- Levels above one that holds every leaf pass its root up. -/
theorem node_root_of_le {leaf : Nat → Option Elem} {n p : Nat} (h : ∀ j, 2 ^ n ≤ j → leaf j = none) (hp : n ≤ p) :
    node step leaf p 0 = node step leaf n 0 := by
  induction p, hp using Nat.le_induction with
  | base => rfl
  | succ p hp ih =>
    have hr : node step leaf p (2 * 0 + 1) = none :=
      node_eq_none step fun j hj => h j ((Nat.pow_le_pow_right (by decide) hp).trans (by simpa using hj))
    rw [node, hr, combine_none_right, Nat.mul_zero, ih]
end

theorem leafAt_of_length_le {l : List (Option Elem)} {i : Nat} (h : l.length ≤ i) : leafAt l i = none := by
  rw [leafAt, List.getElem?_eq_none h]
  rfl

theorem leafAt_append_absent (l : List (Option Elem)) (m i : Nat) : leafAt (l ++ List.replicate m none) i = leafAt l i := by
  rcases Nat.lt_or_ge i l.length with h | h
  · rw [leafAt, List.getElem?_append_left h, leafAt]
  · rw [leafAt_of_length_le h, leafAt, List.getElem?_append_right h, List.getElem?_replicate]
    split <;> rfl

theorem le_two_pow_log2Up (m : Nat) : m ≤ 2 ^ log2Up m := by
  unfold log2Up
  split
  · assumption
  · have := Nat.lt_log2_self (n := m - 1)
    omega

/-- The list tree is the tree over positions with any number of levels that holds the list. -/
theorem treeReduce_eq_node (step : Elem → Elem → Elem) (l : List (Option Elem)) {p : Nat} (h : l.length ≤ 2 ^ p) :
    treeReduce step l = node step (leafAt l) p 0 := by
  have habsent {q : Nat} (hq : l.length ≤ 2 ^ q) (j : Nat) (hj : 2 ^ q ≤ j) : leafAt l j = none :=
    leafAt_of_length_le (hq.trans hj)
  have hlog := le_two_pow_log2Up l.length
  have hpad : leafAt (l ++ List.replicate (2 ^ log2Up l.length - l.length) none) = leafAt l :=
    funext (leafAt_append_absent l _)
  rw [treeReduce, treeUp_eq_node, hpad]
  rcases Nat.le_total (log2Up l.length) p with hp | hp
  · exact (node_root_of_le step (habsent hlog) hp).symm
  · exact node_root_of_le step (habsent h) hp

end Sys2Proof.Machine
end

section
open Sys2Proof.Machine

/-- Settles O24: the levels of the list tree are those of the tree over positions, and levels above the root add nothing. -/
theorem reductionTreeIsThePairwiseTree : Obligations.ReductionTreeIsThePairwiseTree :=
  fun step l _ h => treeReduce_eq_node step l h
end

section
/-! SUPPORT. Rounding to a multiple of a power of two (R48). -/
namespace Sys2Proof.Machine
open Sys2Proof Sys2Proof.Claims

/-- The number of a sign and a magnitude. -/
def signedReal (neg : Bool) (y : ℝ) : ℝ := if neg then -y else y

@[simp] theorem signedReal_false (y : ℝ) : signedReal false y = y := rfl
@[simp] theorem signedReal_true (y : ℝ) : signedReal true y = -y := rfl

@[simp] theorem abs_signedReal (neg : Bool) (y : ℝ) : |signedReal neg y| = |y| := by cases neg <;> simp

@[simp] theorem signedReal_inj {neg : Bool} {y z : ℝ} : signedReal neg y = signedReal neg z ↔ y = z := by
  cases neg <;> simp

theorem signedReal_neg_iff {neg : Bool} {y : ℝ} (h : 0 < y) : neg = true ↔ signedReal neg y < 0 := by
  cases neg
  · simp [h.le]
  · simp [h]

/-- The exact magnitude that `m × 2^e` with a sticky part below the last bit of `m` stands for. -/
def Stands (m : Nat) (e : Int) (sticky : Bool) (y : ℝ) : Prop :=
  if sticky then (m : ℝ) * 2 ^ e < y ∧ y < (m + 1) * 2 ^ e else y = m * 2 ^ e

theorem Stands.bounds {m : Nat} {e : Int} {sticky : Bool} {y : ℝ} (h : Stands m e sticky y) :
    (m : ℝ) * 2 ^ e ≤ y ∧ y < (m + 1) * 2 ^ e := by
  have he : (0 : ℝ) < 2 ^ e := by positivity
  cases sticky
  · have h : y = m * 2 ^ e := h
    exact ⟨h.ge, by rw [h]; linarith⟩
  · obtain ⟨h1, h2⟩ := (h : (m : ℝ) * 2 ^ e < y ∧ y < (m + 1) * 2 ^ e)
    exact ⟨h1.le, h2⟩

/-- The modes that take a magnitude of a sign down, and those that take it up. -/
def TowardZero (mode : Nat) (neg : Bool) : Prop := mode = 1 ∨ (mode = 2 ∧ neg = false) ∨ (mode = 3 ∧ neg = true)
def AwayFromZero (mode : Nat) (neg : Bool) : Prop := (mode = 2 ∧ neg = true) ∨ (mode = 3 ∧ neg = false)

theorem TowardZero.not_away {mode : Nat} {neg : Bool} (h : TowardZero mode neg) :
    mode ≠ 0 ∧ mode < 4 ∧ ¬ AwayFromZero mode neg := by
  unfold AwayFromZero
  rcases h with rfl | ⟨rfl, rfl⟩ | ⟨rfl, rfl⟩ <;> simp

/-- `n` is what a mode makes of the magnitude `t` between the integers `g` and `g + 1` (R48). -/
structure RoundsTo (mode : Nat) (neg : Bool) (t : ℝ) (g n : Nat) : Prop where
  floor_le : (g : ℝ) ≤ t
  lt_succ : t < g + 1
  cases : n = g ∨ n = g + 1
  exact : t = g → n = g
  down : TowardZero mode neg → n = g
  up : AwayFromZero mode neg → t ≠ g → n = g + 1
  near_down : mode = 0 ∨ mode = 4 → n = g → t ≤ g + 1 / 2
  near_up : mode = 0 ∨ mode = 4 → n = g + 1 → g + 1 / 2 ≤ t
  tie_even : mode = 0 → t = g + 1 / 2 → 2 ∣ n
  tie_away : mode = 4 → t = g + 1 / 2 → n = g + 1

theorem roundsTo_self (mode : Nat) (neg : Bool) (g : Nat) : RoundsTo mode neg g g g where
  floor_le := le_rfl
  lt_succ := by linarith
  cases := .inl rfl
  exact _ := rfl
  down _ := rfl
  up _ h := absurd rfl h
  near_down _ _ := by linarith
  near_up _ h := by omega
  tie_even _ h := by linarith
  tie_away _ h := by linarith

/-- What decides the rounding of `t`, whose integer part is `sig`: whether it is an integer, and on which side of the half it
lies, by its remainder and its sticky part. -/
structure Fraction (t : ℝ) (sig rem half : Nat) (sticky : Bool) : Prop where
  floor_le : (sig : ℝ) ≤ t
  lt_succ : t < sig + 1
  int_iff : t = sig ↔ rem = 0 ∧ sticky = false
  lt_half_iff : t < sig + 1 / 2 ↔ rem < half
  eq_half_iff : t = sig + 1 / 2 ↔ rem = half ∧ sticky = false

theorem Fraction.half_lt_iff {t : ℝ} {sig rem half : Nat} {sticky : Bool} (h : Fraction t sig rem half sticky) :
    sig + 1 / 2 < t ↔ half < rem ∨ rem = half ∧ sticky = true := by
  have hlt := not_congr h.lt_half_iff
  have heq := not_congr h.eq_half_iff
  rw [lt_iff_le_and_ne, ← not_lt, hlt, ne_comm, ne_eq, heq]
  cases sticky <;> simp <;> omega

theorem Fraction.half_le_iff {t : ℝ} {sig rem half : Nat} {sticky : Bool} (h : Fraction t sig rem half sticky) :
    sig + 1 / 2 ≤ t ↔ half ≤ rem := by
  rw [← not_lt, h.lt_half_iff, not_lt]

/-- What the comparison of `roundsUp` decides in each mode (R48). -/
theorem Fraction.roundsUp_iff {t : ℝ} {sig rem half : Nat} {sticky : Bool} (h : Fraction t sig rem half sticky)
    (mode : Nat) (neg : Bool) :
    roundsUp mode neg sig rem half sticky = true ↔
      (mode = 0 ∧ (sig + 1 / 2 < t ∨ t = sig + 1 / 2 ∧ sig % 2 = 1)) ∨ (AwayFromZero mode neg ∧ t ≠ sig) ∨
        (4 ≤ mode ∧ sig + 1 / 2 ≤ t) := by
  have hint : t ≠ sig ↔ rem ≠ 0 ∨ sticky = true := by
    rw [ne_eq, h.int_iff]
    cases sticky <;> simp
  rw [h.half_lt_iff, h.half_le_iff, h.eq_half_iff, hint]
  unfold AwayFromZero
  match mode with
  | 0 => cases sticky <;> simp [roundsUp]
  | 1 => simp [roundsUp]
  | 2 => simp [roundsUp]
  | 3 => simp [roundsUp]
  | _ + 4 => simp [roundsUp]

/-- The integer that `roundsUp` chooses is the one that the mode asks for (R48). -/
theorem Fraction.roundsTo {t : ℝ} {sig rem half : Nat} {sticky : Bool} (h : Fraction t sig rem half sticky)
    (mode : Nat) (neg : Bool) :
    RoundsTo mode neg t sig (if roundsUp mode neg sig rem half sticky then sig + 1 else sig) := by
  have hup := h.roundsUp_iff mode neg
  have hfloor := h.floor_le
  have hsucc := h.lt_succ
  split
  next hr =>
    have hup := hup.mp hr
    refine ⟨hfloor, hsucc, .inr rfl, ?_, ?_, fun _ _ => rfl, fun _ hn => by omega, ?_, ?_, fun _ _ => rfl⟩
    · intro ht
      rcases hup with ⟨-, h | ⟨h, -⟩⟩ | ⟨-, h⟩ | ⟨-, h⟩
      · linarith
      · linarith
      · exact absurd ht h
      · linarith
    · intro h1
      obtain ⟨h0, h4, ha⟩ := h1.not_away
      rcases hup with ⟨h, -⟩ | ⟨h, -⟩ | ⟨h, -⟩
      · exact absurd h h0
      · exact absurd h ha
      · exact absurd h4 (not_lt.mpr h)
    · rintro h1 -
      unfold AwayFromZero at hup
      rcases h1 with h1 | h1 <;> simp [h1] at hup
      · rcases hup with h | ⟨h, -⟩ <;> linarith
      · linarith
    · rintro h1 h2
      simp [h1, h2, AwayFromZero] at hup
      omega
  next hr =>
    have hup := mt hup.mpr hr
    refine ⟨hfloor, hsucc, .inl rfl, fun _ => rfl, fun _ => rfl, fun h1 h2 => absurd (.inr (.inl ⟨h1, h2⟩)) hup, ?_,
      fun _ hn => by omega, ?_, fun h1 h2 => absurd (.inr (.inr ⟨h1.ge, h2.ge⟩)) hup⟩
    · rintro h1 -
      by_contra hlt
      have hlt := not_le.mp hlt
      rcases h1 with h1 | h1
      · exact hup (.inl ⟨h1, .inl hlt⟩)
      · exact hup (.inr (.inr ⟨h1.ge, hlt.le⟩))
    · intro h1 h2
      by_contra hodd
      exact hup (.inl ⟨h1, .inr ⟨h2, by omega⟩⟩)

/-- The integer part and the remainder of `m` by 2^d are those of the number that `m` and a sticky part stand for. -/
theorem fraction_of_stands {m d : Nat} {sticky : Bool} {w : ℝ} (hd : 0 < d) (hw : Stands m 0 sticky w) :
    Fraction (w / 2 ^ d) (m / 2 ^ d) (m % 2 ^ d) (2 ^ (d - 1)) sticky := by
  obtain ⟨h, rfl⟩ : ∃ h, d = h + 1 := ⟨d - 1, by omega⟩
  have hH : 0 < 2 ^ h := Nat.two_pow_pos h
  have hm := Nat.div_add_mod m (2 ^ (h + 1))
  have hr := Nat.mod_lt m (Nat.two_pow_pos (h + 1))
  rw [Nat.add_sub_cancel]
  generalize m / 2 ^ (h + 1) = sig at *
  generalize m % 2 ^ (h + 1) = rem at *
  rw [pow_succ] at hm hr ⊢
  have hpow : (2 : ℝ) ^ h = (2 ^ h : Nat) := by push_cast; rfl
  rw [hpow]
  generalize 2 ^ h = half at *
  have hR : (0 : ℝ) < half := by exact_mod_cast hH
  have hmR : (m : ℝ) = half * 2 * sig + rem := by exact_mod_cast hm.symm
  have hsucc : (rem : ℝ) + 1 ≤ half * 2 := by exact_mod_cast hr
  have hrem : (0 : ℝ) ≤ rem := Nat.cast_nonneg rem
  obtain ⟨hlo, hhi⟩ := hw.bounds
  rw [zpow_zero, mul_one] at hlo hhi
  have hw_eq (c : Nat) : w = half * 2 * sig + c ↔ rem = c ∧ sticky = false := by
    constructor
    · intro h
      have h1 : rem < c + 1 := by exact_mod_cast (by linarith : (rem : ℝ) < c + 1)
      have h2 : c < rem + 1 := by exact_mod_cast (by linarith : (c : ℝ) < rem + 1)
      obtain rfl : rem = c := by omega
      cases sticky
      · exact ⟨rfl, rfl⟩
      · have hw : (m : ℝ) * 2 ^ (0 : Int) < w := hw.1
        rw [zpow_zero] at hw
        linarith
    · rintro ⟨rfl, rfl⟩
      have hw : w = m * 2 ^ (0 : Int) := hw
      rw [zpow_zero] at hw
      linarith
  have hD : (0 : ℝ) < half * 2 := by linarith
  refine ⟨?_, ?_, ?_, ?_, ?_⟩
  · rw [le_div_iff₀ hD]
    linarith
  · rw [div_lt_iff₀ hD]
    linarith
  · rw [div_eq_iff hD.ne', ← hw_eq 0, Nat.cast_zero, add_zero, mul_comm]
  · rw [div_lt_iff₀ hD]
    constructor
    · intro h
      exact_mod_cast (by linarith : (rem : ℝ) < half)
    · intro h
      have h : (rem : ℝ) + 1 ≤ half := by exact_mod_cast h
      linarith
  · rw [div_eq_iff hD.ne', ← hw_eq half]
    constructor <;> intro h <;> linarith

/-- `roundAt` gives the multiple of 2^q that the mode asks for, and says whether it is inexact (R48). -/
theorem roundAt_roundsTo (mode : Nat) (neg : Bool) {m : Nat} {e : Int} {sticky : Bool} {q : Int} {y : ℝ}
    (hy : Stands m e sticky y) (hs : sticky = true → e < q) :
    ∃ g, RoundsTo mode neg (y / 2 ^ q) g (roundAt mode neg m e sticky q).1 ∧
      ((roundAt mode neg m e sticky q).2 = false ↔ y / 2 ^ q = g) := by
  unfold roundAt
  split
  next hq =>
    obtain rfl : sticky = false := Bool.eq_false_iff.mpr fun h => absurd (hs h) (by omega)
    have ht : y / 2 ^ q = (m * 2 ^ (e - q).toNat : Nat) := by
      have hy : y = m * 2 ^ e := hy
      push_cast
      rw [hy, div_eq_iff (by positivity), mul_assoc, ← zpow_natCast, ← zpow_add₀ two_ne_zero]
      congr 2
      omega
    exact ⟨_, ht ▸ roundsTo_self mode neg _, by simpa using ht⟩
  next hq =>
    have hd : 0 < (q - e).toNat := by omega
    have hpow : (2 : ℝ) ^ q = 2 ^ e * 2 ^ (q - e).toNat := by
      rw [← zpow_natCast, ← zpow_add₀ two_ne_zero]
      congr 1
      omega
    have he : (0 : ℝ) < 2 ^ e := by positivity
    have hw : Stands m 0 sticky (y / 2 ^ e) := by
      cases sticky
      · have hy : y = m * 2 ^ e := hy
        show y / 2 ^ e = m * 2 ^ (0 : Int)
        rw [hy, zpow_zero, mul_div_assoc, div_self he.ne']
      · obtain ⟨h1, h2⟩ := (hy : (m : ℝ) * 2 ^ e < y ∧ y < (m + 1) * 2 ^ e)
        show (m : ℝ) * 2 ^ (0 : Int) < y / 2 ^ e ∧ y / 2 ^ e < (m + 1) * 2 ^ (0 : Int)
        rw [zpow_zero, mul_one, mul_one, lt_div_iff₀ he, div_lt_iff₀ he]
        exact ⟨h1, h2⟩
    have hf := fraction_of_stands hd hw
    rw [div_div, ← hpow] at hf
    refine ⟨_, hf.roundsTo mode neg, ?_⟩
    rw [hf.int_iff]
    simp

end Sys2Proof.Machine
end

section
/-! SUPPORT. What `RoundsTo` says among the numbers of a set (R48). -/
namespace Sys2Proof.Machine
open Sys2Proof Sys2Proof.Claims

/-- Of the ends `lo` and `hi` of a step, `r` is one that is no farther from `y` than the other. -/
def NearerEnd (lo hi y r : ℝ) : Prop := lo ≤ y ∧ y < hi ∧ (r = lo ∧ 2 * y ≤ lo + hi ∨ r = hi ∧ lo + hi ≤ 2 * y)

theorem NearerEnd.dist_le {lo hi y r z : ℝ} (h : NearerEnd lo hi y r) (hz : z ≤ lo ∨ hi ≤ z) : |y - r| ≤ |y - z| := by
  obtain ⟨hlo, hhi, ⟨rfl, h⟩ | ⟨rfl, h⟩⟩ := h
  · rw [abs_of_nonneg (by linarith : 0 ≤ y - r)]
    rcases hz with hz | hz
    · exact (by linarith : y - r ≤ y - z).trans (le_abs_self _)
    · exact (by linarith : y - r ≤ -(y - z)).trans (neg_le_abs _)
  · rw [abs_of_nonpos (by linarith : y - r ≤ 0)]
    rcases hz with hz | hz
    · exact (by linarith : -(y - r) ≤ y - z).trans (le_abs_self _)
    · exact (by linarith : -(y - r) ≤ -(y - z)).trans (neg_le_abs _)

/-- Another number as near lies at the other end, with `y` half way. -/
theorem NearerEnd.eq_or_tie {lo hi y r z : ℝ} (h : NearerEnd lo hi y r) (hz : z ≤ lo ∨ hi ≤ z)
    (heq : |y - r| = |y - z|) : z = r ∨ 2 * y = lo + hi ∧ z ≤ hi ∧ lo ≤ z := by
  obtain ⟨hlo, hhi, h⟩ := h
  rcases hz with hz | hz
  · rw [abs_of_nonneg (by linarith : 0 ≤ y - z)] at heq
    rcases h with ⟨rfl, h⟩ | ⟨rfl, h⟩
    · rw [abs_of_nonneg (by linarith : 0 ≤ y - r)] at heq
      exact .inl (by linarith)
    · rw [abs_of_nonpos (by linarith : y - r ≤ 0)] at heq
      exact .inr ⟨by linarith, by linarith, by linarith⟩
  · rw [abs_of_nonpos (by linarith : y - z ≤ 0)] at heq
    rcases h with ⟨rfl, h⟩ | ⟨rfl, h⟩
    · rw [abs_of_nonneg (by linarith : 0 ≤ y - r)] at heq
      exact .inr ⟨by linarith, by linarith, by linarith⟩
    · rw [abs_of_nonpos (by linarith : y - r ≤ 0)] at heq
      exact .inl (by linarith)

section
variable {mode g n : Nat} {neg : Bool} {y : ℝ} {q : Int}

/-- A magnitude lies half way in its step. -/
theorem halfway_iff : y / 2 ^ q = g + 1 / 2 ↔ 2 * y = g * (2 : ℝ) ^ q + (g + 1) * 2 ^ q := by
  rw [div_eq_iff (by positivity)]
  constructor <;> intro h <;> linarith

variable (h : RoundsTo mode neg (y / 2 ^ q) g n)
include h

theorem RoundsTo.lo_le : g * (2 : ℝ) ^ q ≤ y := (le_div_iff₀ (by positivity)).mp h.floor_le

theorem RoundsTo.lt_hi : y < (g + 1) * (2 : ℝ) ^ q := (div_lt_iff₀ (by positivity)).mp h.lt_succ

theorem RoundsTo.exact_iff : y / 2 ^ q = g ↔ y = n * (2 : ℝ) ^ q := by
  have hq : (0 : ℝ) < 2 ^ q := by positivity
  constructor
  · intro ht
    rw [h.exact ht, ← div_eq_iff hq.ne', ht]
  · intro hy
    rw [← div_eq_iff hq.ne'] at hy
    rcases h.cases with hn | hn
    · rw [hy, hn]
    · have := h.lt_succ
      rw [hy, hn, Nat.cast_succ] at this
      exact absurd this (lt_irrefl _)

theorem RoundsTo.nearerEnd (hm : mode = 0 ∨ mode = 4) :
    NearerEnd (g * 2 ^ q) ((g + 1) * 2 ^ q) y (n * 2 ^ q) := by
  have hq : (0 : ℝ) < 2 ^ q := by positivity
  refine ⟨h.lo_le, h.lt_hi, h.cases.imp (fun hn => ⟨by rw [hn], ?_⟩) fun hn => ⟨by rw [hn, Nat.cast_succ], ?_⟩⟩
  · have := (div_le_iff₀ hq).mp (h.near_down hm hn)
    linarith
  · have := (le_div_iff₀ hq).mp (h.near_up hm hn)
    linarith

/-- Toward zero, the result is the greatest multiple not above the magnitude. -/
theorem RoundsTo.roundedDown (hd : TowardZero mode neg) {z : ℝ} (hz : z ≤ g * 2 ^ q ∨ (g + 1) * 2 ^ q ≤ z) :
    n * 2 ^ q ≤ y ∧ (z ≤ y → z ≤ n * 2 ^ q) := by
  have hlo := h.lo_le
  have hhi := h.lt_hi
  rw [h.down hd]
  exact ⟨hlo, fun hzy => hz.resolve_right (by linarith)⟩

/-- Away from zero, the result is the least multiple not below the magnitude. -/
theorem RoundsTo.roundedUp (hu : AwayFromZero mode neg) {z : ℝ} (hz : z ≤ g * 2 ^ q ∨ (g + 1) * 2 ^ q ≤ z) :
    y ≤ n * 2 ^ q ∧ (y ≤ z → n * 2 ^ q ≤ z) := by
  have hlo := h.lo_le
  have hhi := h.lt_hi
  by_cases ht : y / 2 ^ q = g
  · rw [← h.exact_iff.mp ht]
    exact ⟨le_rfl, id⟩
  · have hne : y ≠ g * 2 ^ q := mt (div_eq_iff (by positivity)).mpr ht
    rw [h.up hu ht, Nat.cast_succ]
    exact ⟨hhi.le, fun hyz => hz.resolve_left fun hzl => hne (by linarith)⟩

/-- The multiple that `n` names is the one that the mode asks for, among numbers none of which lies inside the step that
holds the magnitude. -/
theorem RoundsTo.roundedIn {P : ℝ → Prop} {even : Prop} (hy : 0 < y)
    (hP : P (signedReal neg (n * 2 ^ q))) (hgap : ∀ z, P z → |z| ≤ g * 2 ^ q ∨ (g + 1) * 2 ^ q ≤ |z|)
    (heven : 2 ∣ n → even) : RoundedIn P even mode (signedReal neg y) (signedReal neg (n * 2 ^ q)) := by
  have hq : (0 : ℝ) < 2 ^ q := by positivity
  have hr : (0 : ℝ) ≤ n * 2 ^ q := by positivity
  have hg : (0 : ℝ) ≤ g * 2 ^ q := by positivity
  refine ⟨hP, ?_, fun z hz => ?_⟩
  · have := mul_nonneg hr hy.le
    cases neg <;> simpa
  have hgap := hgap z hz
  obtain ⟨w, rfl⟩ : ∃ w, z = signedReal neg w := ⟨signedReal neg z, by cases neg <;> simp⟩
  rw [abs_signedReal] at hgap
  have hw : w ≤ g * 2 ^ q ∨ (g + 1) * 2 ^ q ≤ w := by
    rcases hgap with h | h
    · exact .inl ((le_abs_self w).trans h)
    · rcases le_abs'.mp h with h | h
      · exact .inl (by linarith)
      · exact .inr h
  have hdist (v : ℝ) : |signedReal neg y - signedReal neg v| = |y - v| := by
    cases neg
    · rfl
    · rw [signedReal_true, signedReal_true, ← abs_neg]
      congr 1
      ring
  simp only [abs_signedReal, hdist, abs_of_pos hy, abs_of_nonneg hr, signedReal_inj, ne_eq]
  refine ⟨?_, ?_, ?_, ?_, ?_⟩
  · intro h1
    exact h.roundedDown (.inl h1) hgap
  · intro h2
    cases neg
    · exact h.roundedDown (.inr (.inl ⟨h2, rfl⟩)) hw
    · simpa using h.roundedUp (.inl ⟨h2, rfl⟩) hw
  · intro h3
    cases neg
    · exact h.roundedUp (.inr ⟨h3, rfl⟩) hw
    · simpa using h.roundedDown (.inr (.inr ⟨h3, rfl⟩)) hw
  · intro h0
    have hn := h.nearerEnd (.inl h0)
    refine ⟨hn.dist_le hw, fun heq hne => ?_⟩
    rcases hn.eq_or_tie hw heq with h1 | ⟨h1, -⟩
    · exact absurd h1.symm hne
    · exact heven (h.tie_even h0 (halfway_iff.mpr h1))
  · intro h4
    have hn := h.nearerEnd (.inr h4)
    refine ⟨hn.dist_le hw, fun heq => ?_⟩
    rcases hn.eq_or_tie hw heq with rfl | ⟨h1, h2, h3⟩
    · exact (abs_of_nonneg hr).le
    · rw [h.tie_away h4 (halfway_iff.mpr h1), Nat.cast_succ, abs_of_nonneg (hg.trans h3)]
      exact h2
end
end Sys2Proof.Machine
end

section
/-! SUPPORT. The patterns of a format and the numbers that they represent (R45 to R47, R49). -/
namespace Sys2Proof.Machine
open Sys2Proof Sys2Proof.Claims

/-- What the formats of R45 have in common: a fraction of 2 bits to 52, and an exponent field whose greatest value is one
above twice the bias. -/
structure FFmt.Sound (f : FFmt) : Prop where
  two_le_fbits : 2 ≤ f.fbits
  fbits_le : f.fbits ≤ 52
  one_le_bias : 1 ≤ f.bias
  emax_eq : f.emax = 2 * f.bias + 1
  two_pow_ebits : 2 ^ f.ebits = 2 * f.bias + 2

theorem ofCode_cases (c : Nat) : FFmt.ofCode c = ⟨8, 7, true⟩ ∨ FFmt.ofCode c = ⟨5, 10, false⟩ ∨
    FFmt.ofCode c = ⟨8, 23, false⟩ ∨ FFmt.ofCode c = ⟨11, 52, false⟩ := by
  unfold FFmt.ofCode
  split <;> simp

theorem ofCode_sound (c : Nat) : (FFmt.ofCode c).Sound := by
  rcases ofCode_cases c with h | h | h | h <;> rw [h] <;> constructor <;> decide

/-! ### Fields of a pattern -/

section
variable {f : FFmt} {neg : Bool} {ex frac : Nat}

theorem FFmt.pack_lt (hex : ex < 2 ^ f.ebits) (hfrac : frac < 2 ^ f.fbits) : f.pack neg ex frac < 2 ^ f.width := by
  have h1 : ex * 2 ^ f.fbits + frac < 2 ^ f.ebits * 2 ^ f.fbits := by nlinarith
  unfold FFmt.pack FFmt.width
  rw [Nat.add_assoc 1, pow_add 2 1, Nat.add_comm f.ebits, pow_add, Nat.mul_comm (2 ^ f.fbits)]
  split <;> omega

theorem FFmt.pack_frac (hfrac : frac < 2 ^ f.fbits) : f.pack neg ex frac % 2 ^ f.fbits = frac := by
  have h : f.pack neg ex frac = 2 ^ f.fbits * ((if neg then 2 ^ f.ebits else 0) + ex) + frac := by
    unfold FFmt.pack
    rw [pow_add]
    split <;> ring
  rw [h, Nat.mul_add_mod, Nat.mod_eq_of_lt hfrac]

theorem FFmt.pack_exponent (hex : ex < 2 ^ f.ebits) (hfrac : frac < 2 ^ f.fbits) :
    f.pack neg ex frac / 2 ^ f.fbits % 2 ^ f.ebits = ex := by
  have h : f.pack neg ex frac = 2 ^ f.fbits * (2 ^ f.ebits * neg.toNat + ex) + frac := by
    unfold FFmt.pack
    rw [pow_add]
    cases neg <;> simp only [Bool.false_eq_true, if_false, if_true, Bool.toNat_false, Bool.toNat_true] <;> ring
  rw [h, Nat.mul_add_div (Nat.two_pow_pos _), Nat.div_eq_of_lt hfrac, Nat.add_zero, Nat.mul_add_mod, Nat.mod_eq_of_lt hex]

theorem FFmt.pack_sign (hex : ex < 2 ^ f.ebits) (hfrac : frac < 2 ^ f.fbits) :
    decide (f.pack neg ex frac / 2 ^ (f.fbits + f.ebits) % 2 = 1) = neg := by
  have h1 : ex * 2 ^ f.fbits + frac < 2 ^ (f.fbits + f.ebits) := by rw [pow_add]; nlinarith
  have h : f.pack neg ex frac = 2 ^ (f.fbits + f.ebits) * neg.toNat + (ex * 2 ^ f.fbits + frac) := by
    unfold FFmt.pack
    cases neg <;> simp only [Bool.false_eq_true, if_false, if_true, Bool.toNat_false, Bool.toNat_true] <;> ring
  rw [h, Nat.mul_add_div (Nat.two_pow_pos _), Nat.div_eq_of_lt h1]
  cases neg <;> rfl

/-- What a finite pattern reads as (R46, R49). -/
theorem FFmt.read_pack (hf : f.Sound) (hex : ex ≤ 2 * f.bias) (hfrac : frac < 2 ^ f.fbits) :
    f.read (f.pack neg ex frac) =
      if ex = 0 then (if f.flush then .fin neg 0 0 else .fin neg frac (1 - (f.bias : Int) - f.fbits))
      else .fin neg (2 ^ f.fbits + frac) ((ex : Int) - f.bias - f.fbits) := by
  have hlt : ex < 2 ^ f.ebits := by have := hf.two_pow_ebits; omega
  have hne : ex ≠ f.emax := by have := hf.emax_eq; omega
  unfold FFmt.read
  simp only [FFmt.pack_frac hfrac, FFmt.pack_exponent hlt hfrac, FFmt.pack_sign hlt hfrac, if_neg hne]

theorem FFmt.even_pack (hf : f.Sound) : f.pack neg ex frac % 2 = frac % 2 := by
  obtain ⟨k, hk⟩ : ∃ k, f.fbits = k + 1 := ⟨f.fbits - 1, by have := hf.two_le_fbits; omega⟩
  have h : f.pack neg ex frac = 2 * (2 ^ k * ((if neg then 2 ^ f.ebits else 0) + ex)) + frac := by
    unfold FFmt.pack
    rw [pow_add, hk, pow_succ]
    split <;> ring
  rw [h, Nat.mul_add_mod]
end

/-! ### The numbers of a format -/

theorem FFmt.read_mod (f : FFmt) (n : Nat) : f.read (n % 2 ^ f.width) = f.read n := by
  have hw : 2 ^ f.width = 2 ^ f.fbits * 2 ^ (f.ebits + 1) := by rw [← pow_add]; congr 1; unfold FFmt.width; omega
  have hw' : 2 ^ f.width = 2 ^ (f.fbits + f.ebits) * 2 := by rw [← pow_succ]; congr 1; unfold FFmt.width; omega
  have hfrac : n % 2 ^ f.width % 2 ^ f.fbits = n % 2 ^ f.fbits := Nat.mod_mod_of_dvd n (hw ▸ Nat.dvd_mul_right ..)
  have hex : n % 2 ^ f.width / 2 ^ f.fbits % 2 ^ f.ebits = n / 2 ^ f.fbits % 2 ^ f.ebits := by
    rw [hw, Nat.mod_mul_right_div_self, Nat.mod_mod_of_dvd _ (Nat.pow_dvd_pow 2 (Nat.le_succ _))]
  have hsign : n % 2 ^ f.width / 2 ^ (f.fbits + f.ebits) % 2 = n / 2 ^ (f.fbits + f.ebits) % 2 := by
    rw [hw', Nat.mod_mul_right_div_self, Nat.mod_mod]
  unfold FFmt.read
  simp only [hfrac, hex, hsign]

/-- A finite pattern reads as a significand of the format's precision, with an exponent no lower than that of the subnormals,
or as a zero (R46, R49). -/
theorem FFmt.read_fin {f : FFmt} {p : Nat} {neg : Bool} {m : Nat} {e : Int} (h : f.read p = .fin neg m e) :
    m = 0 ∨ m < 2 ^ (f.fbits + 1) ∧ 1 - (f.bias : Int) - f.fbits ≤ e := by
  have hfrac := Nat.mod_lt p (Nat.two_pow_pos f.fbits)
  rw [pow_succ]
  unfold FFmt.read at h
  simp only at h
  split at h
  · split at h <;> cases h
  split at h
  · split at h <;> cases h
    · exact .inl rfl
    · exact .inr ⟨by omega, le_rfl⟩
  · cases h
    exact .inr ⟨by omega, by omega⟩

theorem cast_ratOf_fin (neg : Bool) (m : Nat) (e : Int) :
    ((ratOf (.fin neg m e) : ℚ) : ℝ) = signedReal neg (m * 2 ^ e) := by
  unfold ratOf
  cases neg <;> push_cast <;> simp

/-- A number of a precision does not lie inside a step of the scale `q` that its own scale refines no further, or that lies
above every number of a smaller scale. -/
theorem outside_step {k m g : Nat} {e q : Int} (hm : m < 2 ^ (k + 1)) (h : q ≤ e ∨ 2 ^ k ≤ g) :
    m * (2 : ℝ) ^ e ≤ g * 2 ^ q ∨ (g + 1) * 2 ^ q ≤ m * (2 : ℝ) ^ e := by
  rcases le_or_gt q e with he | he
  · have hz : m * (2 : ℝ) ^ e = (m * 2 ^ (e - q).toNat : Nat) * 2 ^ q := by
      push_cast
      rw [mul_assoc, ← zpow_natCast, ← zpow_add₀ two_ne_zero]
      congr 2
      omega
    rw [hz]
    rcases Nat.lt_or_ge g (m * 2 ^ (e - q).toNat) with hg | hg
    · refine .inr (mul_le_mul_of_nonneg_right ?_ (by positivity))
      exact_mod_cast hg
    · refine .inl (mul_le_mul_of_nonneg_right ?_ (by positivity))
      exact_mod_cast hg
  · refine .inl ?_
    have hg := h.resolve_left (by omega)
    calc m * (2 : ℝ) ^ e ≤ 2 ^ (k + 1) * 2 ^ e := by
          refine mul_le_mul_of_nonneg_right ?_ (by positivity)
          exact_mod_cast hm.le
      _ = 2 ^ k * 2 ^ (e + 1) := by rw [pow_succ, zpow_add_one₀ two_ne_zero]; ring
      _ ≤ 2 ^ k * 2 ^ q := by
          refine mul_le_mul_of_nonneg_left ?_ (by positivity)
          exact zpow_le_zpow_right₀ one_le_two (by omega)
      _ ≤ g * 2 ^ q := by
          refine mul_le_mul_of_nonneg_right ?_ (by positivity)
          exact_mod_cast hg

theorem outside_step_of_grid {f : FFmt} {z : ℝ} {j : ℤ} (hz : Grid f z j) {g : Nat} {q : Int} (hg : 2 ^ f.fbits ≤ g) :
    |z| ≤ g * 2 ^ q ∨ (g + 1) * 2 ^ q ≤ |z| := by
  obtain ⟨-, hj, e, rfl⟩ := hz
  have hj : j.natAbs < 2 ^ (f.fbits + 1) := by zify; exact hj
  have habs : |(j : ℝ) * 2 ^ e| = (j.natAbs : ℝ) * 2 ^ e := by
    rw [abs_mul, abs_of_pos (by positivity : (0 : ℝ) < 2 ^ e), Nat.cast_natAbs, Int.cast_abs]
  rw [habs]
  exact Machine.outside_step hj (.inr hg)

theorem outside_step_of_represents {f : FFmt} {p : Nat} {y : ℚ} (h : Represents f p y) {g : Nat} {q : Int}
    (hq : q = 1 - (f.bias : Int) - f.fbits ∨ 2 ^ f.fbits ≤ g) :
    |(y : ℝ)| ≤ g * 2 ^ q ∨ (g + 1) * 2 ^ q ≤ |(y : ℝ)| := by
  obtain ⟨-, ⟨n, m, e, hr⟩, rfl⟩ := h
  rw [hr, cast_ratOf_fin, abs_signedReal, abs_of_nonneg (by positivity)]
  rcases FFmt.read_fin hr with rfl | ⟨hm, he⟩
  · left
    rw [Nat.cast_zero, zero_mul]
    positivity
  · exact Machine.outside_step hm (hq.imp_left fun hq => hq.trans_le he)

/-! ### The pattern of a rounded magnitude -/

/-- The pattern of `n × 2^q`. -/
def FFmt.encode (f : FFmt) (neg : Bool) (q : Int) (n : Nat) : Nat :=
  if n < 2 ^ f.fbits then f.pack neg 0 n
  else if n = 2 ^ (f.fbits + 1) then f.pack neg (q + 1 + f.fbits + f.bias).toNat 0
  else f.pack neg (q + f.fbits + f.bias).toNat (n - 2 ^ f.fbits)

/-- `n × 2^q` is no larger than the format's numbers are: a significand of the precision, or the power of two above, at
a scale from the subnormals' up to that of the largest numbers. -/
structure FFmt.Fits (f : FFmt) (q : Int) (n : Nat) : Prop where
  le_two_pow : n ≤ 2 ^ (f.fbits + 1)
  lowest : 1 - (f.bias : Int) ≤ q + f.fbits
  subnormal : n < 2 ^ f.fbits → q + f.fbits = 1 - (f.bias : Int)
  highest : q + f.fbits ≤ f.bias
  carry : n = 2 ^ (f.fbits + 1) → q + f.fbits < f.bias

section
variable {f : FFmt} {q : Int} {n : Nat}

theorem FFmt.encode_zero (f : FFmt) (neg : Bool) (q : Int) : f.encode neg q 0 = f.zero neg := if_pos (Nat.two_pow_pos _)

variable (hf : f.Sound) (h : f.Fits q n) (neg : Bool)
include hf h

/-- An encoded magnitude is a subnormal with its fraction, or a normal number whose significand has the precision. -/
theorem FFmt.encode_fields : ∃ ex frac, f.encode neg q n = f.pack neg ex frac ∧
    ex ≤ 2 * f.bias ∧ frac < 2 ^ f.fbits ∧ (2 ∣ n → frac % 2 = 0) ∧
    ((ex = 0 ∧ n < 2 ^ f.fbits ∧ frac = n) ∨
      (0 < ex ∧ (2 ^ f.fbits + frac : Nat) * (2 : ℝ) ^ ((ex : Int) - f.bias - f.fbits) = n * 2 ^ q)) := by
  obtain ⟨hle, hlow, hsub, hhigh, hcarry⟩ := h
  unfold FFmt.encode
  split
  next hn => exact ⟨0, n, rfl, Nat.zero_le _, hn, fun h => by omega, .inl ⟨rfl, hn, rfl⟩⟩
  next hn =>
    split
    next htop =>
      have hc := hcarry htop
      refine ⟨_, 0, rfl, by omega, Nat.two_pow_pos _, fun _ => rfl, .inr ⟨by omega, ?_⟩⟩
      have he : (((q + 1 + f.fbits + f.bias).toNat : Nat) : Int) - f.bias - f.fbits = q + 1 := by omega
      rw [he, htop, Nat.add_zero]
      push_cast
      rw [pow_succ, zpow_add_one₀ two_ne_zero]
      ring
    next htop =>
      have heven : 2 ∣ 2 ^ f.fbits := dvd_pow_self 2 (by have := hf.two_le_fbits; omega)
      refine ⟨_, _, rfl, by omega, by rw [pow_succ] at hle htop; omega, fun h => by omega, .inr ⟨by omega, ?_⟩⟩
      have he : (((q + f.fbits + f.bias).toNat : Nat) : Int) - f.bias - f.fbits = q := by omega
      rw [he, Nat.add_sub_cancel' (not_lt.mp hn)]

theorem FFmt.encode_lt : f.encode neg q n < 2 ^ f.width := by
  obtain ⟨ex, frac, heq, hex, hfrac, -⟩ := FFmt.encode_fields hf h neg
  rw [heq]
  exact FFmt.pack_lt (by have := hf.two_pow_ebits; omega) hfrac

theorem FFmt.even_encode (hn : 2 ∣ n) : f.encode neg q n % 2 = 0 := by
  obtain ⟨ex, frac, heq, -, -, heven, -⟩ := FFmt.encode_fields hf h neg
  rw [heq, FFmt.even_pack hf, heven hn]

/-- The pattern represents the number, but for a subnormal of a format that flushes them. -/
theorem FFmt.encode_represents (hs : n < 2 ^ f.fbits → f.flush = false) :
    ∃ y : ℚ, Represents f (f.encode neg q n) y ∧ (y : ℝ) = signedReal neg (n * 2 ^ q) := by
  obtain ⟨ex, frac, heq, hex, hfrac, -, hval⟩ := FFmt.encode_fields hf h neg
  have hlt := FFmt.encode_lt hf h neg
  rw [heq] at hlt ⊢
  have hread := FFmt.read_pack hf (neg := neg) hex hfrac
  rcases hval with ⟨rfl, hn, rfl⟩ | ⟨hpos, hval⟩
  · rw [if_pos rfl, hs hn, if_neg Bool.false_ne_true] at hread
    refine ⟨_, ⟨hlt, ⟨_, _, _, hread⟩, rfl⟩, ?_⟩
    have hq : 1 - (f.bias : Int) - f.fbits = q := by have := h.subnormal hn; omega
    rw [hread, cast_ratOf_fin, hq]
  · rw [if_neg (by omega)] at hread
    refine ⟨_, ⟨hlt, ⟨_, _, _, hread⟩, rfl⟩, ?_⟩
    rw [hread, cast_ratOf_fin, hval]
end

end Sys2Proof.Machine
end

section
/-! SUPPORT. A magnitude rounded once to a format (R48, R49, R51). -/
namespace Sys2Proof.Machine
open Sys2Proof Sys2Proof.Claims

/-- The exponent of the leading bit of `m × 2^e`. -/
def leading (m : Nat) (e : Int) : Int := (Nat.log2 m : Int) + e

/-- A magnitude rounded to the precision of a format with its exponent unbounded: its significand, its number, and the exponent
of its leading bit. -/
def FFmt.free (f : FFmt) (mode : Nat) (neg : Bool) (m : Nat) (e : Int) (sticky : Bool) : Nat :=
  (roundAt mode neg m e sticky (leading m e - f.fbits)).1
noncomputable def FFmt.freeMag (f : FFmt) (mode : Nat) (neg : Bool) (m : Nat) (e : Int) (sticky : Bool) : ℝ :=
  f.free mode neg m e sticky * 2 ^ (leading m e - f.fbits)
def FFmt.freeTop (f : FFmt) (mode : Nat) (neg : Bool) (m : Nat) (e : Int) (sticky : Bool) : Int :=
  if f.free mode neg m e sticky = 2 ^ (f.fbits + 1) then leading m e + 1 else leading m e

/-- The scale of the numbers of a format about `m × 2^e`: that of its precision, and no finer than the subnormals'. -/
def FFmt.scale (f : FFmt) (m : Nat) (e : Int) : Int := max (leading m e - f.fbits) (1 - (f.bias : Int) - f.fbits)

theorem FFmt.encode_with {α : Type} (f : FFmt) (neg : Bool) (q : Int) (n : Nat) (x : α) : (f.encode neg q n, x) =
    if n < 2 ^ f.fbits then (f.pack neg 0 n, x)
    else if n = 2 ^ (f.fbits + 1) then (f.pack neg (q + 1 + f.fbits + f.bias).toNat 0, x)
    else (f.pack neg (q + f.fbits + f.bias).toNat (n - 2 ^ f.fbits), x) := by
  unfold FFmt.encode
  split
  · rfl
  · split <;> rfl

/-- `roundMag` by its parts: an overflow, a flush, and a number at the format's own scale. -/
theorem FFmt.roundMag_eq (f : FFmt) (mode : Nat) (neg : Bool) (m : Nat) (e : Int) (sticky : Bool) :
    f.roundMag mode neg m e sticky =
      let top := f.freeTop mode neg m e sticky
      let r := roundAt mode neg m e sticky (f.scale m e)
      if (f.bias : Int) < top then (f.overflow mode neg, flagOF ||| flagNX)
      else if top < 1 - (f.bias : Int) && f.flush then (f.zero neg, flagUF ||| flagNX)
      else (f.encode neg (f.scale m e) r.1,
        (if r.2 then flagNX else 0) ||| (if r.2 && top < 1 - (f.bias : Int) then flagUF else 0)) := by
  unfold FFmt.roundMag
  exact if_congr Iff.rfl rfl (if_congr Iff.rfl rfl (f.encode_with neg _ _ _).symm)

/-- Doubled in scale, a magnitude that the finer scale carries into a power of two is carried there too. -/
theorem RoundsTo.carry_half {mode k g g' n : Nat} {neg : Bool} {t : ℝ} (hmode : mode ≤ 4)
    (h : RoundsTo mode neg t g (2 * k)) (hg : g < 2 * k) (h' : RoundsTo mode neg (t / 2) g' n) : k ≤ n := by
  have hg : g + 1 = 2 * k := by
    rcases h.cases with h | h <;> omega
  have hgk : (g : ℝ) + 1 = 2 * k := by exact_mod_cast hg
  have hlo := h.floor_le
  have hn := h'.cases
  have hlo' := h'.floor_le
  have hhi' := h'.lt_succ
  have h1 : g' < k := by
    have hhi := h.lt_succ
    exact_mod_cast (by linarith : (g' : ℝ) < k)
  have h2 : k < g' + 2 := by exact_mod_cast (by linarith : (k : ℝ) < g' + 2)
  obtain rfl : k = g' + 1 := by omega
  push_cast at hgk
  have hne : t / 2 ≠ g' := by intro h; linarith
  suffices n ≠ g' by omega
  intro hg'
  have hdown : ¬ TowardZero mode neg := fun hd => by have := h.down hd; omega
  have hup : ¬ AwayFromZero mode neg := fun hu => by have := h'.up hu hne; omega
  have hnear : mode = 0 ∨ mode = 4 := by
    unfold TowardZero AwayFromZero at *
    cases neg <;> simp at hdown hup <;> omega
  have h3 := h.near_up hnear hg.symm
  have h4 := h'.near_down hnear hg'
  linarith

section
variable {f : FFmt} {m : Nat} {e : Int} {sticky : Bool} {y : ℝ} (hm : 0 < m) (hy : Stands m e sticky y)
include hm hy

theorem Stands.pos : 0 < y := by
  have : (0 : ℝ) < m * 2 ^ e := by positivity
  linarith [hy.bounds.1]

theorem Stands.leading_bounds : (2 : ℝ) ^ leading m e ≤ y ∧ y < 2 ^ (leading m e + 1) := by
  obtain ⟨h1, h2⟩ := hy.bounds
  have hlo : (2 : ℝ) ^ m.log2 ≤ m := by exact_mod_cast Nat.log2_self_le hm.ne'
  have hhi : (m : ℝ) + 1 ≤ 2 ^ (m.log2 + 1) := by exact_mod_cast Nat.lt_log2_self
  have he : (0 : ℝ) < 2 ^ e := by positivity
  have hexp : leading m e + 1 = ((m.log2 + 1 : Nat) : Int) + e := by unfold leading; push_cast; ring
  rw [hexp, leading, zpow_add₀ two_ne_zero, zpow_add₀ two_ne_zero, zpow_natCast, zpow_natCast]
  exact ⟨(mul_le_mul_of_nonneg_right hlo he.le).trans h1, h2.trans_le (mul_le_mul_of_nonneg_right hhi he.le)⟩

/-- At a scale no finer than that of the precision, the integer part has at most as many bits as the significand. -/
theorem RoundsTo.lt_two_pow {mode g n k : Nat} {neg : Bool} {q : Int} (hq : leading m e - k ≤ q)
    (h : RoundsTo mode neg (y / 2 ^ q) g n) : g < 2 ^ (k + 1) := by
  have ht : y / 2 ^ q < 2 ^ (k + 1) := by
    rw [div_lt_iff₀ (by positivity), ← zpow_natCast, ← zpow_add₀ two_ne_zero]
    refine (hy.leading_bounds hm).2.trans_le (zpow_le_zpow_right₀ one_le_two ?_)
    push_cast
    omega
  exact_mod_cast h.floor_le.trans_lt ht

/-- At the scale of the precision, the integer part of a magnitude has as many bits as the significand. -/
theorem RoundsTo.precision {mode g n k : Nat} {neg : Bool} (h : RoundsTo mode neg (y / 2 ^ (leading m e - k)) g n) :
    2 ^ k ≤ g ∧ g < 2 ^ (k + 1) := by
  obtain ⟨hlo, -⟩ := hy.leading_bounds hm
  refine ⟨?_, h.lt_two_pow hm hy le_rfl⟩
  have ht : (2 : ℝ) ^ k ≤ y / 2 ^ (leading m e - k) := by
    rw [le_div_iff₀ (by positivity), ← zpow_natCast, ← zpow_add₀ two_ne_zero, add_sub_cancel]
    exact hlo
  have : (2 : ℝ) ^ k < g + 1 := ht.trans_lt h.lt_succ
  have : 2 ^ k < g + 1 := by exact_mod_cast this
  omega

end

/-! ### Results that are no number of the scale -/

theorem FFmt.overflow_eq (f : FFmt) (mode : Nat) (neg : Bool) : f.overflow mode neg =
    if mode = 1 ∨ (mode = 2 ∧ neg = false) ∨ (mode = 3 ∧ neg = true) then f.largest neg else f.inf neg := by
  unfold FFmt.overflow
  split
  · simp
  · cases neg <;> simp
  · cases neg <;> simp
  next h1 h2 h3 => rw [if_neg (by rintro (h | ⟨h, -⟩ | ⟨h, -⟩) <;> contradiction)]

theorem FFmt.zero_lt (f : FFmt) (neg : Bool) : f.zero neg < 2 ^ f.width :=
  FFmt.pack_lt (Nat.two_pow_pos _) (Nat.two_pow_pos _)

theorem FFmt.inf_lt {f : FFmt} (hf : f.Sound) (neg : Bool) : f.inf neg < 2 ^ f.width :=
  FFmt.pack_lt (by rw [hf.emax_eq, hf.two_pow_ebits]; omega) (Nat.two_pow_pos _)

theorem FFmt.overflow_lt {f : FFmt} (hf : f.Sound) (mode : Nat) (neg : Bool) : f.overflow mode neg < 2 ^ f.width := by
  rw [FFmt.overflow_eq]
  split
  · exact FFmt.pack_lt (by rw [hf.emax_eq, hf.two_pow_ebits]; omega) (Nat.sub_lt (Nat.two_pow_pos _) one_pos)
  · exact FFmt.inf_lt hf neg

/-! ### Rounding with an unbounded exponent -/

theorem abs_signed (neg : Bool) (a : Nat) : |signed neg a| = a := by cases neg <;> simp [signed]

theorem cast_signed (neg : Bool) (a : Nat) (x : ℝ) : ((signed neg a : Int) : ℝ) * x = signedReal neg (a * x) := by
  cases neg <;> simp [signed]

theorem grid_signed {f : FFmt} {a : Nat} (h1 : 2 ^ f.fbits ≤ a) (h2 : a < 2 ^ (f.fbits + 1)) (neg : Bool) (q : Int) :
    Grid f (signedReal neg (a * 2 ^ q)) (signed neg a) := by
  refine ⟨?_, ?_, q, (cast_signed neg a _).symm⟩
  · rw [abs_signed]
    exact_mod_cast h1
  · rw [abs_signed]
    exact_mod_cast h2

theorem two_dvd_signed {neg : Bool} {a : Nat} (h : 2 ∣ a) : (2 : Int) ∣ signed neg a := by
  cases neg <;> simp only [signed] <;> omega

section
variable {f : FFmt} {mode : Nat} {neg : Bool} {m : Nat} {e : Int} {sticky : Bool} {y : ℝ} (hm : 0 < m)
  (hy : Stands m e sticky y) (hs : sticky = true → f.fbits < m.log2)
include hm hy hs

theorem FFmt.free_roundsTo : ∃ g, 2 ^ f.fbits ≤ g ∧ g < 2 ^ (f.fbits + 1) ∧
    RoundsTo mode neg (y / 2 ^ (leading m e - f.fbits)) g (f.free mode neg m e sticky) := by
  obtain ⟨g, h, -⟩ := roundAt_roundsTo mode neg (q := leading m e - f.fbits) hy fun h => by
    have := hs h
    unfold leading
    omega
  obtain ⟨h1, h2⟩ := h.precision hm hy
  exact ⟨g, h1, h2, h⟩

theorem FFmt.free_bounds : 2 ^ f.fbits ≤ f.free mode neg m e sticky ∧ f.free mode neg m e sticky ≤ 2 ^ (f.fbits + 1) := by
  obtain ⟨g, h1, h2, h⟩ := FFmt.free_roundsTo (mode := mode) (neg := neg) hm hy hs
  have := h.cases
  omega

/-- The number rounded with an unbounded exponent has a significand of the precision, at the scale of its leading bit. -/
theorem FFmt.freeMag_eq (hf : f.Sound) : ∃ a : Nat, 2 ^ f.fbits ≤ a ∧ a < 2 ^ (f.fbits + 1) ∧
    (2 ∣ f.free mode neg m e sticky → 2 ∣ a) ∧
    f.freeMag mode neg m e sticky = a * 2 ^ (f.freeTop mode neg m e sticky - f.fbits) := by
  obtain ⟨h1, h2⟩ := FFmt.free_bounds (mode := mode) (neg := neg) hm hy hs
  unfold FFmt.freeMag FFmt.freeTop
  split
  next h =>
    refine ⟨2 ^ f.fbits, le_rfl, Nat.pow_lt_pow_right one_lt_two (Nat.lt_succ_self _),
      fun _ => dvd_pow_self 2 (by have := hf.two_le_fbits; omega), ?_⟩
    rw [h, pow_succ, add_sub_right_comm, zpow_add_one₀ two_ne_zero]
    push_cast
    ring
  next h => exact ⟨_, h1, by omega, id, rfl⟩

theorem FFmt.freeMag_lt_iff (hf : f.Sound) (j : Int) :
    f.freeMag mode neg m e sticky < 2 ^ j ↔ f.freeTop mode neg m e sticky < j := by
  obtain ⟨a, h1, h2, -, heq⟩ := FFmt.freeMag_eq (mode := mode) (neg := neg) hm hy hs hf
  have hpow (k : Nat) : (2 : ℝ) ^ k * 2 ^ (f.freeTop mode neg m e sticky - f.fbits) =
      2 ^ (f.freeTop mode neg m e sticky - f.fbits + k) := by
    rw [zpow_add₀ two_ne_zero, zpow_natCast, mul_comm]
  have h1 : (2 : ℝ) ^ f.fbits ≤ a := by exact_mod_cast h1
  have h2 : (a : ℝ) < 2 ^ (f.fbits + 1) := by exact_mod_cast h2
  have hq : (0 : ℝ) < 2 ^ (f.freeTop mode neg m e sticky - f.fbits) := by positivity
  rw [heq]
  constructor
  · intro h
    have := ((hpow f.fbits).ge.trans (mul_le_mul_of_nonneg_right h1 hq.le)).trans_lt h
    have := (zpow_lt_zpow_iff_right₀ one_lt_two).mp this
    omega
  · intro h
    refine (mul_lt_mul_of_pos_right h2 hq).trans_le ((hpow (f.fbits + 1)).trans_le ?_)
    exact zpow_le_zpow_right₀ one_le_two (by push_cast; omega)

theorem FFmt.free_grid (hf : f.Sound) : ∃ k, Grid f (signedReal neg (f.freeMag mode neg m e sticky)) k ∧
    RoundedIn (fun z => ∃ j, Grid f z j) (2 ∣ k) mode (signedReal neg y) (signedReal neg (f.freeMag mode neg m e sticky)) := by
  obtain ⟨a, h1, h2, heven, heq⟩ := FFmt.freeMag_eq (mode := mode) (neg := neg) hm hy hs hf
  obtain ⟨g, hg, -, h⟩ := FFmt.free_roundsTo (mode := mode) (neg := neg) hm hy hs
  have hgrid : Grid f (signedReal neg (f.freeMag mode neg m e sticky)) (signed neg a) := heq ▸ grid_signed h1 h2 neg _
  refine ⟨_, hgrid, h.roundedIn (hy.pos hm) ⟨_, hgrid⟩ ?_ fun h => two_dvd_signed (heven h)⟩
  rintro z ⟨j, hz⟩
  exact outside_step_of_grid hz hg

/-- What is no overflow fits the format. -/
theorem FFmt.scale_fits (hf : f.Sound) (ht : f.freeTop mode neg m e sticky ≤ f.bias) :
    f.Fits (f.scale m e) (roundAt mode neg m e sticky (f.scale m e)).1 := by
  have hle : leading m e - f.fbits ≤ f.scale m e := le_max_left ..
  obtain ⟨g, h, -⟩ := roundAt_roundsTo mode neg (q := f.scale m e) hy fun h => by
    have := hs h
    unfold leading at hle
    omega
  have hlt := h.lt_two_pow hm hy hle
  have hcases := h.cases
  have hlead : leading m e ≤ f.freeTop mode neg m e sticky := by unfold FFmt.freeTop; split <;> omega
  have hbias := hf.one_le_bias
  refine ⟨by omega, by unfold FFmt.scale; omega, fun hn => ?_, by unfold FFmt.scale; omega, fun hn => ?_⟩
  · unfold FFmt.scale
    by_contra hne
    have hscale : f.scale m e = leading m e - f.fbits := by unfold FFmt.scale; omega
    have := (FFmt.free_bounds (mode := mode) (neg := neg) hm hy hs).1
    rw [hscale] at hn
    unfold FFmt.free at this
    omega
  · by_cases hscale : f.scale m e = leading m e - f.fbits
    · have : f.freeTop mode neg m e sticky = leading m e + 1 := by
        unfold FFmt.freeTop FFmt.free
        rw [← hscale, if_pos hn]
      omega
    · have : f.scale m e = 1 - (f.bias : Int) - f.fbits := by unfold FFmt.scale at hscale ⊢; omega
      omega

/-- What is not tiny after rounding has a significand of the precision. -/
theorem FFmt.two_pow_le_of_not_tiny (hmode : mode ≤ 4) (ht : 1 - (f.bias : Int) ≤ f.freeTop mode neg m e sticky) :
    2 ^ f.fbits ≤ (roundAt mode neg m e sticky (f.scale m e)).1 := by
  obtain ⟨g, h1, h2, h⟩ := FFmt.free_roundsTo (f := f) (mode := mode) (neg := neg) hm hy hs
  by_cases hscale : f.scale m e = leading m e - f.fbits
  · rw [hscale]
    exact (FFmt.free_bounds hm hy hs).1
  · unfold FFmt.freeTop at ht
    split at ht
    next hfree =>
      have hs' : f.scale m e = leading m e - f.fbits + 1 := by unfold FFmt.scale at hscale ⊢; omega
      obtain ⟨g', h', -⟩ := roundAt_roundsTo mode neg (q := f.scale m e) hy fun h => by
        have := hs h
        unfold leading at hs'
        omega
      rw [hfree, pow_succ, Nat.mul_comm] at h
      rw [hs', zpow_add_one₀ two_ne_zero, ← div_div, ← hs'] at h'
      rw [pow_succ, Nat.mul_comm] at h2
      exact h.carry_half hmode h2 h'
    next => unfold FFmt.scale at hscale; omega

theorem FFmt.roundMag_lt (hf : f.Sound) : (f.roundMag mode neg m e sticky).1 < 2 ^ f.width := by
  rw [FFmt.roundMag_eq]
  simp only
  split
  next => exact FFmt.overflow_lt hf mode neg
  next ht =>
    split
    next => exact f.zero_lt neg
    next => exact FFmt.encode_lt hf (FFmt.scale_fits hm hy hs hf (not_lt.mp ht)) neg

/-- A rounding within the range of the format: a represented number, with the flags that say whether it is exact. -/
theorem FFmt.encode_rounds (hf : f.Sound) (hmode : mode ≤ 4) (ht : f.freeTop mode neg m e sticky ≤ f.bias)
    (hflush : 1 - (f.bias : Int) ≤ f.freeTop mode neg m e sticky ∨ f.flush = false) :
    let r := roundAt mode neg m e sticky (f.scale m e)
    let p := f.encode neg (f.scale m e) r.1
    ∃ x : ℚ, Represents f p x ∧
      RoundedIn (fun z => ∃ (p : Nat) (y : ℚ), Represents f p y ∧ z = (y : ℝ)) (p % 2 = 0) mode (signedReal neg y) (x : ℝ) ∧
      (x = 0 → p = f.zero neg) ∧ ((x : ℝ) = signedReal neg y ↔ r.2 = false) := by
  intro r p
  have hfits := FFmt.scale_fits (mode := mode) (neg := neg) hm hy hs hf ht
  obtain ⟨x, hx, hxr⟩ := FFmt.encode_represents hf hfits neg fun hn => hflush.resolve_left fun h =>
    absurd (FFmt.two_pow_le_of_not_tiny hm hy hs hmode h) (not_le.mpr hn)
  have hle : leading m e - f.fbits ≤ f.scale m e := le_max_left ..
  obtain ⟨g, h, hexact⟩ := roundAt_roundsTo mode neg (q := f.scale m e) hy fun h => by
    have := hs h
    unfold leading at hle
    omega
  have hg : f.scale m e = 1 - (f.bias : Int) - f.fbits ∨ 2 ^ f.fbits ≤ g := by
    rcases max_choice (leading m e - f.fbits) (1 - (f.bias : Int) - f.fbits) with hq | hq
    · have hq : f.scale m e = _ := hq
      exact .inr (RoundsTo.precision hm hy (hq ▸ h)).1
    · exact .inl hq
  refine ⟨x, hx, ?_, fun hx0 => ?_, ?_⟩
  · rw [hxr]
    refine h.roundedIn (hy.pos hm) ⟨_, x, hx, hxr.symm⟩ ?_ (FFmt.even_encode hf hfits neg)
    rintro z ⟨p, w, hw, rfl⟩
    exact outside_step_of_represents hw hg
  · have h0 : |signedReal neg (r.1 * 2 ^ f.scale m e)| = 0 := by rw [← hxr, hx0, Rat.cast_zero, abs_zero]
    have h0 : r.1 = 0 := by simpa [zpow_ne_zero] using h0
    show f.encode neg _ r.1 = _
    rw [h0, FFmt.encode_zero]
  · rw [hexact, h.exact_iff, hxr, signedReal_inj, eq_comm]

/-- A nonzero magnitude is rounded once to a format, as the mode asks (R48, R49, R51). -/
theorem FFmt.roundMag_rounds (hf : f.Sound) (hmode : mode ≤ 4) :
    Rounds f mode (signedReal neg y) (f.roundMag mode neg m e sticky) := by
  obtain ⟨k, hgrid, hround⟩ := FFmt.free_grid (mode := mode) (neg := neg) hm hy hs hf
  have habs : |signedReal neg (f.freeMag mode neg m e sticky)| = f.freeMag mode neg m e sticky := by
    rw [abs_signedReal, abs_of_nonneg]
    unfold FFmt.freeMag
    positivity
  have htop : f.freeMag mode neg m e sticky < 2 ^ (f.bias + 1) ↔ f.freeTop mode neg m e sticky ≤ f.bias := by
    rw [← zpow_natCast, FFmt.freeMag_lt_iff hm hy hs hf]
    omega
  have htiny := FFmt.freeMag_lt_iff (mode := mode) (neg := neg) hm hy hs hf (1 - f.bias)
  rw [FFmt.roundMag_eq]
  refine ⟨_, k, neg, signedReal_neg_iff (hy.pos hm), hgrid, hround, ?_⟩
  simp only [habs]
  refine ⟨fun h => ?_, fun h hfl => ?_, fun h h' => ?_⟩
  · rw [← not_lt, htop, not_le] at h
    rw [if_pos h, FFmt.overflow_eq]
  · rw [htiny] at h
    rw [if_neg (by have := hf.one_le_bias; omega), if_pos (by simp [h, hfl])]
  · rw [htop] at h
    rw [← not_lt, htiny, not_lt] at h'
    obtain ⟨x, hx, hround, hzero, hexact⟩ := FFmt.encode_rounds hm hy hs hf hmode h h'
    rw [if_neg (by omega), if_neg (by rcases h' with h' | h' <;> simp [h'])]
    refine ⟨x, hx, hround, hzero, fun hx => ?_, fun hx ht => ?_, fun hx ht => ?_⟩
    · simp [hexact.mp hx]
    · rw [← not_lt, htiny] at ht
      simp [Bool.eq_true_of_not_eq_false (mt hexact.mpr hx), ht]
    · rw [htiny] at ht
      simp [Bool.eq_true_of_not_eq_false (mt hexact.mpr hx), ht, BitVec.or_comm]
end
end Sys2Proof.Machine
end

section
/-! SUPPORT. Rounding an exact number, zero included (R49). -/
namespace Sys2Proof.Machine
open Sys2Proof Sys2Proof.Claims

@[simp] theorem FFmt.round_zero (f : FFmt) (mode : Nat) (neg : Bool) (e : Int) (sticky : Bool) :
    f.round mode neg 0 e sticky = (f.zero neg, 0) := rfl

theorem FFmt.round_of_pos (f : FFmt) (mode : Nat) (neg : Bool) {m : Nat} (e : Int) (sticky : Bool) (hm : 0 < m) :
    f.round mode neg m e sticky = f.roundMag mode neg m e sticky := if_neg hm.ne'

theorem FFmt.round_rounds {f : FFmt} (hf : f.Sound) {mode : Nat} (hmode : mode ≤ 4) (neg : Bool) {m : Nat} {e : Int}
    {sticky : Bool} {y : ℝ} (hm : 0 < m) (hy : Stands m e sticky y) (hs : sticky = true → f.fbits < m.log2) :
    Rounds f mode (signedReal neg y) (f.round mode neg m e sticky) := by
  rw [f.round_of_pos mode neg e sticky hm]
  exact FFmt.roundMag_rounds hm hy hs hf hmode

theorem FFmt.round_rounds_exact {f : FFmt} (hf : f.Sound) {mode : Nat} (hmode : mode ≤ 4) (neg : Bool) {m : Nat} {e : Int}
    (hm : 0 < m) : Rounds f mode (signedReal neg (m * 2 ^ e)) (f.round mode neg m e) :=
  FFmt.round_rounds hf hmode neg hm (rfl : Stands m e false (m * 2 ^ e)) fun h => absurd h Bool.false_ne_true

/-- Whatever the mode, a rounded number is a pattern of the format's width. -/
theorem FFmt.round_lt {f : FFmt} (hf : f.Sound) (mode : Nat) (neg : Bool) (m : Nat) (e : Int) {sticky : Bool}
    (hs : sticky = true → f.fbits < m.log2) : (f.round mode neg m e sticky).1 < 2 ^ f.width := by
  rcases Nat.eq_zero_or_pos m with rfl | hm
  · exact f.zero_lt neg
  obtain ⟨y, hy⟩ : ∃ y, Stands m e sticky y := by
    have he : (0 : ℝ) < 2 ^ e := by positivity
    cases sticky
    · exact ⟨_, rfl⟩
    · exact ⟨(m + 1 / 2) * 2 ^ e, mul_lt_mul_of_pos_right (by linarith) he, mul_lt_mul_of_pos_right (by linarith) he⟩
  rw [f.round_of_pos mode neg e sticky hm]
  exact FFmt.roundMag_lt hm hy hs hf

end Sys2Proof.Machine
end

section
open Sys2Proof.Machine Sys2Proof.Claims

/-- Settles O3: rounding at a scale gives the neighbour that the mode asks for, and neither the numbers of the precision nor
those of the format lie between the neighbours. -/
theorem roundingIsCorrect : Obligations.RoundingIsCorrect := by
  intro c mode n m e hmode f
  refine ⟨fun hm => ?_, f.round_zero mode n e false⟩
  rw [cast_ratOf_fin]
  exact FFmt.round_rounds_exact (ofCode_sound c) hmode n hm
end

section
/-! SUPPORT. The exact results of the arithmetic operations (R49, R225). -/
namespace Sys2Proof.Machine
open Sys2Proof Sys2Proof.Claims

/-! ### Signs -/

theorem signedReal_eq_zero {neg : Bool} {y : ℝ} : signedReal neg y = 0 ↔ y = 0 := by cases neg <;> simp

theorem signedReal_mul (a b : Bool) (x y : ℝ) : signedReal a x * signedReal b y = signedReal (a != b) (x * y) := by
  cases a <;> cases b <;> simp

theorem signedReal_div (a b : Bool) (x y : ℝ) : signedReal a x / signedReal b y = signedReal (a != b) (x / y) := by
  cases a <;> cases b <;> simp [div_neg, neg_div]

theorem signedReal_not (a : Bool) (x : ℝ) : signedReal (!a) x = -signedReal a x := by cases a <;> simp

theorem magnitude_eq_zero {m : Nat} {e : Int} : (m : ℝ) * 2 ^ e = 0 ↔ m = 0 := by
  rw [mul_eq_zero, or_iff_left (zpow_ne_zero e two_ne_zero), Nat.cast_eq_zero]

/-- A finite number at a scale no greater than its own. -/
theorem signed_rescaled (neg : Bool) (m : Nat) {e q : Int} (h : q ≤ e) :
    ((signed neg (m * 2 ^ (e - q).toNat) : Int) : ℝ) * 2 ^ q = signedReal neg (m * 2 ^ e) := by
  rw [cast_signed]
  congr 1
  push_cast
  rw [mul_assoc, ← zpow_natCast, ← zpow_add₀ two_ne_zero]
  congr 2
  omega

/-! ### Sums -/

section
variable (mode : Nat) (n1 : Bool) (m1 : Nat) (e1 : Int) (n2 : Bool) (m2 : Nat) (e2 : Int)

/-- The aligned sum of the significands of two finite numbers. -/
def alignedSum : Int :=
  signed n1 (m1 * 2 ^ (e1 - min e1 e2).toNat) + signed n2 (m2 * 2 ^ (e2 - min e1 e2).toNat)

theorem alignedSum_eq : (alignedSum n1 m1 e1 n2 m2 e2 : ℝ) * 2 ^ min e1 e2 =
    signedReal n1 (m1 * 2 ^ e1) + signedReal n2 (m2 * 2 ^ e2) := by
  unfold alignedSum
  push_cast
  rw [add_mul, signed_rescaled n1 m1 (min_le_left e1 e2), signed_rescaled n2 m2 (min_le_right e1 e2)]

theorem alignedSum_eq_zero :
    alignedSum n1 m1 e1 n2 m2 e2 = 0 ↔ signedReal n1 (m1 * 2 ^ e1) + signedReal n2 (m2 * 2 ^ e2) = 0 := by
  rw [← alignedSum_eq, mul_eq_zero, or_iff_left (zpow_ne_zero _ two_ne_zero), Int.cast_eq_zero]

theorem addExact_eq : addExact mode n1 m1 e1 n2 m2 e2 =
    if alignedSum n1 m1 e1 n2 m2 e2 = 0 then (if n1 = n2 then n1 else decide (mode = 2), 0, 0)
    else (decide (alignedSum n1 m1 e1 n2 m2 e2 < 0), (alignedSum n1 m1 e1 n2 m2 e2).natAbs, min e1 e2) := rfl

theorem signedReal_natAbs (x : Int) (y : ℝ) : signedReal (decide (x < 0)) (x.natAbs * y) = x * y := by
  rw [← cast_signed]
  congr 2
  unfold signed
  split
  next h =>
    rw [decide_eq_true_eq] at h
    omega
  next h =>
    rw [decide_eq_true_eq] at h
    omega

/-- The rounding of an exact sum (R225). -/
theorem round_addExact {f : FFmt} (hf : f.Sound) {mode : Nat} (hmode : mode ≤ 4) {x : ℝ}
    (hx : x = signedReal n1 (m1 * 2 ^ e1) + signedReal n2 (m2 * 2 ^ e2)) {r : Nat × FFlags}
    (hr : r = f.round mode (addExact mode n1 m1 e1 n2 m2 e2).1 (addExact mode n1 m1 e1 n2 m2 e2).2.1
      (addExact mode n1 m1 e1 n2 m2 e2).2.2) :
    (x ≠ 0 → Rounds f mode x r) ∧ (x = 0 → r = (f.zero (if n1 = n2 then n1 else decide (mode = 2)), 0)) := by
  subst hr
  rw [addExact_eq]
  refine ⟨fun h => ?_, fun h => ?_⟩
  · have hne : alignedSum n1 m1 e1 n2 m2 e2 ≠ 0 := by rwa [ne_eq, alignedSum_eq_zero, ← hx]
    rw [if_neg hne, hx, ← alignedSum_eq, ← signedReal_natAbs]
    exact FFmt.round_rounds_exact hf hmode _ (Int.natAbs_pos.mpr hne)
  · rw [if_pos ((alignedSum_eq_zero ..).mpr (hx ▸ h)), FFmt.round_zero]
end

/-! ### Quotients -/

/-- An integer quotient, its remainder told by a sticky part, stands for the exact quotient. -/
theorem stands_div (a : Nat) {b : Nat} (hb : 0 < b) (e : Int) :
    Stands (a / b) e (decide (a % b ≠ 0)) ((a : ℝ) / b * 2 ^ e) := by
  have he : (0 : ℝ) < 2 ^ e := by positivity
  have hbR : (0 : ℝ) < b := by exact_mod_cast hb
  have hdiv : (a : ℝ) = b * (a / b : Nat) + (a % b : Nat) := by exact_mod_cast (Nat.div_add_mod a b).symm
  have hlt : ((a % b : Nat) : ℝ) < b := by exact_mod_cast Nat.mod_lt a hb
  by_cases hz : a % b = 0
  · rw [hz, Nat.cast_zero, add_zero] at hdiv
    simp only [hz, Stands, ne_eq, not_true_eq_false, decide_false, Bool.false_eq_true, if_false]
    rw [hdiv, mul_div_cancel_left₀ _ hbR.ne']
  · have hpos : (0 : ℝ) < (a % b : Nat) := by exact_mod_cast Nat.pos_of_ne_zero hz
    simp only [hz, Stands, ne_eq, not_false_eq_true, decide_true, if_true]
    constructor
    · refine mul_lt_mul_of_pos_right ?_ he
      rw [lt_div_iff₀ hbR]
      linarith
    · refine mul_lt_mul_of_pos_right ?_ he
      rw [div_lt_iff₀ hbR]
      linarith

/-- The bits that a quotient is taken to are more than any format holds. -/
theorem lt_log2_quotient {f : FFmt} (hf : f.Sound) {m1 m2 : Nat} (h1 : 0 < m1) (h2 : 0 < m2) :
    f.fbits < (m1 * 2 ^ (70 + m2.log2) / m2).log2 := by
  have hm2 : m2 < 2 ^ (m2.log2 + 1) := Nat.lt_log2_self
  have hq : 2 ^ 69 ≤ m1 * 2 ^ (70 + m2.log2) / m2 := by
    rw [Nat.le_div_iff_mul_le h2]
    calc 2 ^ 69 * m2 ≤ 2 ^ 69 * 2 ^ (m2.log2 + 1) := Nat.mul_le_mul_left _ hm2.le
      _ = 1 * 2 ^ (70 + m2.log2) := by rw [← pow_add, one_mul]; congr 1; omega
      _ ≤ m1 * 2 ^ (70 + m2.log2) := Nat.mul_le_mul_right _ h1
  have := (Nat.le_log2 (Nat.pos_of_ne_zero (by omega)).ne').mpr hq
  have := hf.fbits_le
  omega

/-! ### Roots -/

theorem isqrtFrom_spec (n k r : Nat) (hr : r * r ≤ n) (hn : n < (r + 2 ^ (k + 1)) * (r + 2 ^ (k + 1))) :
    isqrtFrom n k r * isqrtFrom n k r ≤ n ∧ n < (isqrtFrom n k r + 1) * (isqrtFrom n k r + 1) := by
  induction k generalizing r with
  | zero =>
    unfold isqrtFrom
    split
    next h => exact ⟨h, by simpa using hn⟩
    next h => exact ⟨hr, not_le.mp h⟩
  | succ k ih =>
    unfold isqrtFrom
    refine ih _ ?_ ?_
    · split
      next h => exact h
      next => exact hr
    · split
      next => rwa [Nat.add_assoc, ← Nat.two_mul, ← pow_succ']
      next h => exact not_le.mp h

/-- `isqrt` is the integer square root. -/
theorem isqrt_eq_sqrt (n : Nat) : isqrt n = n.sqrt := by
  have hlt : n < (0 + 2 ^ (n.log2 / 2 + 1 + 1)) * (0 + 2 ^ (n.log2 / 2 + 1 + 1)) := by
    rw [Nat.zero_add, ← pow_add]
    exact Nat.lt_log2_self.trans_le (Nat.pow_le_pow_right two_pos (by omega))
  exact Nat.eq_sqrt.mpr (isqrtFrom_spec n _ 0 (Nat.zero_le n) hlt)

/-- An integer root, its remainder told by a sticky part, stands for the exact root. -/
theorem stands_sqrt (n : Nat) (e : Int) :
    Stands (isqrt n) e (decide (isqrt n * isqrt n ≠ n)) (√(n : ℝ) * 2 ^ e) := by
  have he : (0 : ℝ) < 2 ^ e := by positivity
  rw [isqrt_eq_sqrt]
  by_cases hz : n.sqrt * n.sqrt = n
  · simp only [hz, Stands, ne_eq, not_true_eq_false, decide_false, Bool.false_eq_true, if_false]
    rw [(Real.sqrt_eq_iff_mul_self_eq (Nat.cast_nonneg n) (Nat.cast_nonneg _)).mpr (by exact_mod_cast hz.symm)]
  · simp only [hz, Stands, ne_eq, not_false_eq_true, decide_true, if_true]
    have hne : (n.sqrt : ℝ) ≠ √(n : ℝ) := fun h => hz (by
      have : (n.sqrt : ℝ) * n.sqrt = n := by rw [h, Real.mul_self_sqrt (Nat.cast_nonneg n)]
      exact_mod_cast this)
    exact ⟨mul_lt_mul_of_pos_right (lt_of_le_of_ne Real.nat_sqrt_le_real_sqrt hne) he,
      mul_lt_mul_of_pos_right Real.real_sqrt_lt_nat_sqrt_succ he⟩

/-- The bits that a root is taken to are more than any format holds. -/
theorem lt_log2_root {f : FFmt} (hf : f.Sound) {m : Nat} (hm : 0 < m) : f.fbits < (isqrt (m * 2 ^ 140)).log2 := by
  have hr : 2 ^ 70 ≤ isqrt (m * 2 ^ 140) := by
    rw [isqrt_eq_sqrt, Nat.le_sqrt]
    exact (Nat.le_mul_of_pos_left (2 ^ 140) hm)
  have := (Nat.le_log2 (by omega)).mpr hr
  have := hf.fbits_le
  omega

/-- The significand and the exponent that `FFmt.sqrt` takes the root of. -/
def evenSig (m : Nat) (e : Int) : Nat := if e % 2 = 0 then m else 2 * m
def evenExp (e : Int) : Int := if e % 2 = 0 then e else e - 1

theorem sqrt_eq_root (m : Nat) (e : Int) :
    √((m : ℝ) * 2 ^ e) = √((evenSig m e * 2 ^ 140 : Nat) : ℝ) * 2 ^ (evenExp e / 2 - 70) := by
  have hsq : (m : ℝ) * 2 ^ e = (evenSig m e * 2 ^ 140 : Nat) * (2 ^ (evenExp e / 2 - 70)) ^ 2 := by
    rw [← zpow_natCast ((2 : ℝ) ^ (evenExp e / 2 - 70)), ← zpow_mul]
    unfold evenSig evenExp
    split
    next h =>
      have he : (e / 2 - 70) * (2 : Nat) = e - 140 := by push_cast; omega
      rw [he, zpow_sub₀ two_ne_zero]
      push_cast
      field_simp
      norm_num
    next h =>
      have he : ((e - 1) / 2 - 70) * (2 : Nat) = e - 141 := by push_cast; omega
      rw [he, zpow_sub₀ two_ne_zero]
      push_cast
      field_simp
      norm_num
  rw [hsq, Real.sqrt_mul (Nat.cast_nonneg _), Real.sqrt_sq (by positivity)]

theorem FFmt.sqrt_fin (f : FFmt) (mode : Nat) {m : Nat} (e : Int) (hm : 0 < m) : f.sqrt mode (.fin false m e) =
    f.round mode false (isqrt (evenSig m e * 2 ^ 140)) (evenExp e / 2 - 70)
      (isqrt (evenSig m e * 2 ^ 140) * isqrt (evenSig m e * 2 ^ 140) ≠ evenSig m e * 2 ^ 140) := by
  unfold FFmt.sqrt evenSig evenExp
  split
  next h => cases h
  next h => cases h
  next h =>
    cases h
    rw [if_neg hm.ne', if_neg Bool.false_ne_true]

theorem FFmt.sqrt_negative (f : FFmt) (mode : Nat) {m : Nat} (e : Int) (hm : 0 < m) :
    f.sqrt mode (.fin true m e) = (f.nan, flagNV) := by
  unfold FFmt.sqrt
  split
  next h => cases h
  next h => cases h
  next h =>
    cases h
    rw [if_neg hm.ne', if_pos rfl]

theorem FFmt.sqrt_fin_zero (f : FFmt) (mode : Nat) (neg : Bool) (e : Int) : f.sqrt mode (.fin neg 0 e) = (f.zero neg, 0) :=
  rfl

end Sys2Proof.Machine
end

section
/-! SUPPORT. The sum, the difference, the product, the quotient, the root and the fused form of finite operands (R49, R225). -/
namespace Sys2Proof.Machine
open Sys2Proof Sys2Proof.Claims

theorem FFmt.div_fin (f : FFmt) (mode : Nat) (n1 : Bool) (m1 : Nat) (e1 : Int) (n2 : Bool) {m2 : Nat} (e2 : Int)
    (hm : 0 < m2) : f.div mode (.fin n1 m1 e1) (.fin n2 m2 e2) =
      f.round mode (n1 != n2) (m1 * 2 ^ (70 + m2.log2) / m2) (e1 - e2 - (70 + m2.log2 : Nat))
        (decide (m1 * 2 ^ (70 + m2.log2) % m2 ≠ 0)) := if_neg hm.ne'

/-- The exact product of two finite numbers. -/
theorem product_eq (n1 : Bool) (m1 : Nat) (e1 : Int) (n2 : Bool) (m2 : Nat) (e2 : Int) :
    signedReal n1 (m1 * 2 ^ e1) * signedReal n2 (m2 * 2 ^ e2) =
      signedReal (n1 != n2) ((m1 * m2 : Nat) * 2 ^ (e1 + e2)) := by
  rw [signedReal_mul, zpow_add₀ two_ne_zero]
  push_cast
  congr 1
  ring

section
variable {f : FFmt} (hf : f.Sound) {mode : Nat} (hmode : mode ≤ 4)
include hf hmode

theorem FFmt.mul_fin_exact (n1 : Bool) (m1 : Nat) (e1 : Int) (n2 : Bool) (m2 : Nat) (e2 : Int) {x : ℝ}
    (hx : x = signedReal n1 (m1 * 2 ^ e1) * signedReal n2 (m2 * 2 ^ e2)) :
    (x ≠ 0 → Rounds f mode x (f.mul mode (.fin n1 m1 e1) (.fin n2 m2 e2))) ∧
      (x = 0 → f.mul mode (.fin n1 m1 e1) (.fin n2 m2 e2) = (f.zero (n1 != n2), 0)) := by
  have hprod : x = signedReal (n1 != n2) ((m1 * m2 : Nat) * 2 ^ (e1 + e2)) := by
    rw [hx, product_eq]
  have hzero : x = 0 ↔ m1 * m2 = 0 := by rw [hprod, signedReal_eq_zero, magnitude_eq_zero]
  show (x ≠ 0 → Rounds f mode x (f.round mode (n1 != n2) (m1 * m2) (e1 + e2))) ∧
    (x = 0 → f.round mode (n1 != n2) (m1 * m2) (e1 + e2) = _)
  refine ⟨fun h => ?_, fun h => ?_⟩
  · rw [hprod]
    exact FFmt.round_rounds_exact hf hmode _ (Nat.pos_of_ne_zero (mt hzero.mpr h))
  · rw [hzero.mp h, FFmt.round_zero]

theorem FFmt.div_fin_exact (n1 : Bool) (m1 : Nat) (e1 : Int) (n2 : Bool) {m2 : Nat} (e2 : Int) (hm : 0 < m2) :
    (m1 ≠ 0 → Rounds f mode (signedReal n1 (m1 * 2 ^ e1) / signedReal n2 (m2 * 2 ^ e2))
        (f.div mode (.fin n1 m1 e1) (.fin n2 m2 e2))) ∧
      (m1 = 0 → f.div mode (.fin n1 m1 e1) (.fin n2 m2 e2) = (f.zero (n1 != n2), 0)) := by
  rw [FFmt.div_fin f mode n1 m1 e1 n2 e2 hm]
  refine ⟨fun h => ?_, fun h => ?_⟩
  · have hm1 := Nat.pos_of_ne_zero h
    have hlog := lt_log2_quotient hf hm1 hm
    have hquot : (m1 : ℝ) * 2 ^ e1 / (m2 * 2 ^ e2) =
        ((m1 * 2 ^ (70 + m2.log2) : Nat) : ℝ) / m2 * 2 ^ (e1 - e2 - (70 + m2.log2 : Nat)) := by
      rw [zpow_sub₀ two_ne_zero, zpow_sub₀ two_ne_zero, zpow_natCast]
      push_cast
      field_simp
    rw [signedReal_div, hquot]
    refine FFmt.round_rounds hf hmode _ (Nat.pos_of_ne_zero fun h => ?_) (stands_div _ hm _) fun _ => hlog
    rw [h] at hlog
    exact absurd hlog (Nat.not_lt_zero _)
  · subst h
    simp

theorem FFmt.sqrt_fin_exact {m : Nat} (e : Int) (hm : 0 < m) :
    Rounds f mode √((m : ℝ) * 2 ^ e) (f.sqrt mode (.fin false m e)) := by
  have hsig : 0 < evenSig m e := by unfold evenSig; split <;> omega
  have hlog := lt_log2_root hf hsig
  rw [f.sqrt_fin mode e hm, sqrt_eq_root]
  refine FFmt.round_rounds (neg := false) hf hmode (Nat.pos_of_ne_zero fun h => ?_) (stands_sqrt _ _) fun _ => hlog
  rw [h] at hlog
  exact absurd hlog (Nat.not_lt_zero _)
end

/-- The arithmetic of finite operands is exact before its one rounding, and an exact zero has the sign of R225. -/
theorem floatArithmeticIsExact : FloatArithmeticIsExact := by
  intro c mode n1 n2 n3 m1 m2 m3 e1 e2 e3 hmode f x y z X Y Z zero
  have hf : f.Sound := ofCode_sound c
  have hX : X = signedReal n1 (m1 * 2 ^ e1) := cast_ratOf_fin n1 m1 e1
  have hY : Y = signedReal n2 (m2 * 2 ^ e2) := cast_ratOf_fin n2 m2 e2
  have hZ : Z = signedReal n3 (m3 * 2 ^ e3) := cast_ratOf_fin n3 m3 e3
  have hX0 : X = 0 ↔ m1 = 0 := by rw [hX, signedReal_eq_zero, magnitude_eq_zero]
  have hY0 : Y = 0 ↔ m2 = 0 := by rw [hY, signedReal_eq_zero, magnitude_eq_zero]
  have hprod : X * Y + Z = signedReal (n1 != n2) ((m1 * m2 : Nat) * 2 ^ (e1 + e2)) + signedReal n3 (m3 * 2 ^ e3) := by
    rw [hX, hY, hZ, product_eq]
  obtain ⟨hadd, hadd0⟩ := round_addExact n1 m1 e1 n2 m2 e2 hf hmode (by rw [hX, hY] : X + Y = _) (r := f.add mode x y) rfl
  obtain ⟨hsub, hsub0⟩ := round_addExact n1 m1 e1 (!n2) m2 e2 hf hmode
    (by rw [hX, hY, signedReal_not, sub_eq_add_neg] : X - Y = _) (r := f.sub mode x y) rfl
  obtain ⟨hmul, hmul0⟩ := FFmt.mul_fin_exact hf hmode n1 m1 e1 n2 m2 e2 (by rw [hX, hY] : X * Y = _)
  obtain ⟨hfma, hfma0⟩ := round_addExact (n1 != n2) (m1 * m2) (e1 + e2) n3 m3 e3 hf hmode hprod (r := f.fma mode x y z) rfl
  refine ⟨hadd, hadd0, hsub, hsub0, hmul, hmul0, fun hy => ?_, fun hx => ?_, fun hx => ?_, hfma, fun h => ?_⟩
  · obtain ⟨hdiv, hdiv0⟩ := FFmt.div_fin_exact hf hmode n1 m1 e1 n2 e2 (Nat.pos_of_ne_zero (mt hY0.mpr hy))
    rw [← hX, ← hY] at hdiv
    exact ⟨fun h => hdiv (mt hX0.mpr h), fun h => hdiv0 (hX0.mp h)⟩
  · obtain rfl : n1 = false := by
      rw [← Bool.not_eq_true]
      rintro rfl
      have : (0 : ℝ) ≤ m1 * 2 ^ e1 := by positivity
      rw [hX, signedReal_true] at hx
      linarith
    rw [hX]
    exact FFmt.sqrt_fin_exact hf hmode e1 (Nat.pos_of_ne_zero (mt hX0.mpr hx.ne'))
  · obtain rfl := hX0.mp hx
    exact f.sqrt_fin_zero mode n1 e1
  · rw [hfma0 h]
    simp only [zero]
    congr 2
    split
    next h => exact h
    next => rfl
end Sys2Proof.Machine
end

section
/-! SUPPORT. The operands of the arithmetic operations that are not finite, or that have no exact result (R225). -/
namespace Sys2Proof.Machine
open Sys2Proof Sys2Proof.Claims

/-- A NaN operand gives the canonical NaN, with NV when an operand signals. -/
theorem FFmt.nan_operand (f : FFmt) (mode : Nat) (s : Bool) (y : FVal) :
    f.add mode (.nan s) y = f.nanOf (s || y.snan) ∧ f.add mode y (.nan s) = f.nanOf (s || y.snan) ∧
      f.mul mode (.nan s) y = f.nanOf (s || y.snan) ∧ f.mul mode y (.nan s) = f.nanOf (s || y.snan) ∧
      f.div mode (.nan s) y = f.nanOf (s || y.snan) ∧ f.div mode y (.nan s) = f.nanOf (s || y.snan) := by
  cases y with
  | nan r => exact ⟨rfl, congrArg f.nanOf (Bool.or_comm r s), rfl, congrArg f.nanOf (Bool.or_comm r s), rfl,
      congrArg f.nanOf (Bool.or_comm r s)⟩
  | inf n => exact ⟨rfl, rfl, rfl, rfl, rfl, rfl⟩
  | fin n m e => exact ⟨rfl, rfl, rfl, rfl, rfl, rfl⟩

theorem FFmt.add_inf (f : FFmt) (mode : Nat) (n : Bool) :
    f.add mode (.inf n) (.inf !n) = (f.nan, flagNV) ∧ f.sub mode (.inf n) (.inf n) = (f.nan, flagNV) ∧
      f.add mode (.inf n) (.inf n) = (f.inf n, 0) := by cases n <;> exact ⟨rfl, rfl, rfl⟩

/-- Equal magnitudes of opposite signs sum to the zero of the mode's sign. -/
theorem FFmt.add_opposite (f : FFmt) (mode : Nat) (n : Bool) (m : Nat) (e : Int) :
    f.add mode (.fin n m e) (.fin (!n) m e) = (f.zero (decide (mode = 2)), 0) := by
  have hsum : alignedSum n m e (!n) m e = 0 := by
    rw [alignedSum_eq_zero, signedReal_not, add_neg_cancel]
  show f.round mode _ _ _ = _
  rw [addExact_eq, if_pos hsum, if_neg (by cases n <;> decide), FFmt.round_zero]

theorem FFmt.add_zeros (f : FFmt) (mode : Nat) (n : Bool) (e : Int) :
    f.add mode (.fin n 0 e) (.fin n 0 e) = (f.zero n, 0) := by
  have hsum : alignedSum n 0 e n 0 e = 0 := by rw [alignedSum_eq_zero]; simp [signedReal_eq_zero]
  show f.round mode _ _ _ = _
  rw [addExact_eq, if_pos hsum, if_pos rfl, FFmt.round_zero]

theorem FFmt.div_by_zero (f : FFmt) (mode : Nat) (n p : Bool) {m : Nat} (e e' : Int) (hm : 0 < m) :
    f.div mode (.fin n m e) (.fin p 0 e') = (f.inf (n != p), flagDZ) := by
  simp only [FFmt.div, if_true, hm.ne', if_false]

theorem floatSpecialOperands : FloatSpecialOperands := by
  intro c mode f zero
  refine ⟨fun y s => ?_, f.add_inf mode, fun n p e z => ?_, fun n p m e e' hm => f.div_by_zero mode n p e e' hm, fun n p e e' => ⟨rfl, rfl⟩,
    fun m e hm => f.sqrt_negative mode e hm, rfl, f.sqrt_fin_zero mode true 0, fun n m e _ => f.add_opposite mode n m e, fun n => f.add_zeros mode n 0⟩
  · obtain ⟨h1, h2, h3, h4, h5, h6⟩ := f.nan_operand mode s y
    exact ⟨h1, h2, h3, h4, h5, h6, rfl⟩
  · exact ⟨rfl, rfl, rfl, rfl⟩

end Sys2Proof.Machine
end

section
/-! SUPPORT. Scalar floating point (R224, R225): a result is a pattern of its format, and how an instruction delivers it. -/
namespace Sys2Proof.Machine
open Sys2Proof Sys2Proof.Claims

/-! ### Results fit their format -/

section
variable {f : FFmt} (hf : f.Sound)
include hf

theorem FFmt.nan_lt : f.nan < 2 ^ f.width :=
  FFmt.pack_lt (by rw [hf.emax_eq, hf.two_pow_ebits]; omega) (Nat.pow_lt_pow_right one_lt_two (by have := hf.two_le_fbits; omega))

theorem FFmt.round_exact_lt (mode : Nat) (neg : Bool) (m : Nat) (e : Int) : (f.round mode neg m e).1 < 2 ^ f.width :=
  FFmt.round_lt hf mode neg m e fun h => absurd h Bool.false_ne_true

theorem FFmt.add_lt (mode : Nat) (x y : FVal) : (f.add mode x y).1 < 2 ^ f.width := by
  unfold FFmt.add
  split
  · exact FFmt.nan_lt hf
  · exact FFmt.nan_lt hf
  · split
    · exact FFmt.inf_lt hf _
    · exact FFmt.nan_lt hf
  · exact FFmt.inf_lt hf _
  · exact FFmt.inf_lt hf _
  · exact FFmt.round_exact_lt hf ..

theorem FFmt.mul_lt (mode : Nat) (x y : FVal) : (f.mul mode x y).1 < 2 ^ f.width := by
  unfold FFmt.mul
  split
  · exact FFmt.nan_lt hf
  · exact FFmt.nan_lt hf
  · exact FFmt.inf_lt hf _
  · split
    · exact FFmt.nan_lt hf
    · exact FFmt.inf_lt hf _
  · split
    · exact FFmt.nan_lt hf
    · exact FFmt.inf_lt hf _
  · exact FFmt.round_exact_lt hf ..

theorem FFmt.div_lt (mode : Nat) (x y : FVal) : (f.div mode x y).1 < 2 ^ f.width := by
  unfold FFmt.div
  split
  · exact FFmt.nan_lt hf
  · exact FFmt.nan_lt hf
  · exact FFmt.nan_lt hf
  · exact FFmt.inf_lt hf _
  · exact f.zero_lt _
  next n1 m1 e1 n2 m2 e2 =>
    split
    · split
      · exact FFmt.nan_lt hf
      · exact FFmt.inf_lt hf _
    next hm2 =>
      refine FFmt.round_lt hf _ _ _ _ fun h => ?_
      rcases Nat.eq_zero_or_pos m1 with rfl | hm1
      · simp at h
      · exact lt_log2_quotient hf hm1 (Nat.pos_of_ne_zero hm2)

theorem FFmt.sqrt_lt (mode : Nat) (x : FVal) : (f.sqrt mode x).1 < 2 ^ f.width := by
  rcases x with s | n | ⟨n, m, e⟩
  · exact FFmt.nan_lt hf
  · cases n
    · exact FFmt.inf_lt hf _
    · exact FFmt.nan_lt hf
  · rcases Nat.eq_zero_or_pos m with rfl | hm
    · exact f.zero_lt _
    cases n
    · rw [f.sqrt_fin mode e hm]
      refine FFmt.round_lt hf _ _ _ _ fun _ => lt_log2_root hf ?_
      unfold evenSig
      split <;> omega
    · rw [f.sqrt_negative mode e hm]
      exact FFmt.nan_lt hf

theorem FFmt.fma_lt (mode : Nat) (x y z : FVal) : (f.fma mode x y z).1 < 2 ^ f.width := by
  have hnan := FFmt.nan_lt hf
  have hinf := FFmt.inf_lt hf
  have htimes (b : Prop) [Decidable b] (c : Nat × FFlags) (hc : c.1 < 2 ^ f.width) :
      (if b then (f.nan, flagNV) else c).1 < 2 ^ f.width := by
    split
    · exact hnan
    · exact hc
  unfold FFmt.fma
  split
  next =>
    refine htimes _ _ ?_
    split
    · exact hnan
    · split
      · exact hinf _
      · exact hnan
    · exact hinf _
  next =>
    refine htimes _ _ ?_
    split
    · exact hnan
    · split
      · exact hinf _
      · exact hnan
    · exact hinf _
  · exact hnan
  · exact hnan
  · exact hnan
  · split
    · exact hinf _
    · exact hnan
  · exact hinf _
  · exact hnan
  · exact hinf _
  · exact FFmt.round_exact_lt hf ..
end

/-! ### Delivery -/

theorem sameMemory_setSelf (s : State) (u : Strand) : SameMemory s (s.setSelf u) :=
  ⟨fun _ => rfl, fun _ => rfl, fun _ _ => rfl, fun _ => rfl⟩

theorem onlySelf_modSelf (s : State) (g : Strand → Strand) : OnlySelf s (s.modSelf g) :=
  ⟨by rw [self_modSelf]; rfl, sameMemory_setSelf s _⟩

/-- A float result delivers its value and its flags (R51, R54). -/
theorem deliversF_of_floatResult {i : Instr} {s : State} {d : BitVec 5} {r : Nat × FFlags}
    (h : exec i s = .next (s.floatResult d r)) : DeliversF i s d (BitVec.ofNat 64 r.1) r.2 := by
  have hself : (s.floatResult d r).self =
      ((s.self.setG d (BitVec.ofNat 64 r.1)).orFlags r.2).setPc (s.self.pc + 4) := self_modSelf ..
  have hread (x : BitVec 5) : (s.floatResult d r).getG x = (s.self.setG d (BitVec.ofNat 64 r.1)).getG x := by
    rw [State.getG, hself]
    rfl
  refine ⟨_, h, onlySelf_modSelf s _, ⟨?_, fun x hx => ?_⟩, ?_⟩
  · rw [hread, getG_setG, if_pos rfl]
  · rw [hread, getG_setG, if_neg hx]
    rfl
  · rw [hself, setG_eq]
    rfl

/-- The same, for a result that fits the format and so has zeros above its width. -/
theorem deliversF_of_lt {i : Instr} {s : State} {d : BitVec 5} {r : Nat × FFlags} {w : Nat}
    (h : exec i s = .next (s.floatResult d r)) (hr : r.1 < 2 ^ w) :
    DeliversF i s d (BitVec.ofNat 64 (r.1 % 2 ^ w)) r.2 := by
  rw [Nat.mod_eq_of_lt hr]
  exact deliversF_of_floatResult h

theorem scalarFloatArithmetic : ScalarFloatArithmetic := by
  intro s d a b m c f mode x y z gives
  have hf : f.Sound := ofCode_sound c.toNat
  have hread (r : BitVec 5) : f.read ((s.getG r).toNat % 2 ^ f.width) = s.readF f r := f.read_mod _
  simp only [gives, x, y, z, hread]
  exact ⟨deliversF_of_lt rfl (FFmt.add_lt hf ..), deliversF_of_lt rfl (FFmt.add_lt hf ..),
    deliversF_of_lt rfl (FFmt.mul_lt hf ..), deliversF_of_lt rfl (FFmt.div_lt hf ..),
    deliversF_of_lt rfl (FFmt.sqrt_lt hf ..), deliversF_of_lt rfl (FFmt.fma_lt hf ..)⟩

end Sys2Proof.Machine
end

section
/-! SUPPORT. Scalar float comparison and conversion (R226 to R229, R55). -/
namespace Sys2Proof.Machine
open Sys2Proof Sys2Proof.Claims

/-! ### The order of values (R226, R227) -/

theorem FVal.cmp_swap (x y : FVal) : y.cmp x = (x.cmp y).swap := by
  rcases x with s | a | ⟨n1, m1, e1⟩ <;> rcases y with s' | b | ⟨n2, m2, e2⟩
  case inf.inf => cases a <;> cases b <;> rfl
  case inf.fin => cases a <;> rfl
  case fin.inf => cases b <;> rfl
  case fin.fin =>
    unfold FVal.cmp
    simp only [min_comm e2 e1]
    exact Std.OrientedCmp.eq_swap
  all_goals rfl

theorem FVal.cmp_self (x : FVal) : x.cmp x = .eq := by
  have h := x.cmp_swap x
  cases hx : x.cmp x <;> simp_all

theorem FVal.less_irrefl (x : FVal) : x.less x = false := by
  simp [FVal.less, FVal.cmp_self]

theorem FVal.less_asymm {x y : FVal} (h : x.less y = true) : y.less x = false := by
  unfold FVal.less at *
  rw [FVal.cmp_swap]
  cases hxy : x.cmp y <;> simp_all

/-! ### The operand that fmin and fmax deliver (R226) -/

/-- A pattern as an operation delivers it: a zero as the zero of its sign. -/
def FFmt.asRead (f : FFmt) (v : FVal) (n : Nat) : Nat :=
  match v with
  | .fin s 0 _ => f.zero s
  | _ => n % 2 ^ f.width

theorem FFmt.asRead_lt (f : FFmt) (v : FVal) (n : Nat) : f.asRead v n < 2 ^ f.width := by
  unfold FFmt.asRead
  split
  · exact f.zero_lt _
  · exact Nat.mod_lt _ (Nat.two_pow_pos _)

/-- A zero reads with the exponent that the zero of its sign has. -/
theorem FFmt.read_zero {f : FFmt} (hf : f.Sound) {n : Nat} {s : Bool} {e : Int} (h : f.read n = .fin s 0 e) :
    f.read (f.zero s) = .fin s 0 e := by
  rw [FFmt.zero, FFmt.read_pack hf (Nat.zero_le _) (Nat.two_pow_pos _), if_pos rfl]
  unfold FFmt.read at h
  simp only at h
  split at h
  · split at h <;> cases h
  split at h
  · split at h
    next hflush =>
      rw [if_pos hflush]
      cases h
      rfl
    next hflush =>
      rw [if_neg hflush]
      injection h with h1 h2 h3
      rw [h3]
  · injection h with h1 h2 h3
    have := Nat.two_pow_pos f.fbits
    omega

theorem FFmt.read_asRead {f : FFmt} (hf : f.Sound) (n : Nat) : f.read (f.asRead (f.read n) n) = f.read n := by
  unfold FFmt.asRead
  split
  next h => rw [h, FFmt.read_zero hf h]
  next => exact f.read_mod n

section
variable (f : FFmt) (a b : Nat)

theorem FVal.snan_of_not_nan {x : FVal} (h : x.isNan = false) : x.snan = false := by
  cases x with
  | nan s => cases h
  | inf n => rfl
  | fin n m e => rfl

/-- NV of a pair of operands, one of which signals. -/
def nvOf (x y : FVal) : FFlags := if x.snan || y.snan then flagNV else 0

theorem FFmt.minMax_nan_nan (max : Bool) (hx : (f.read a).isNan = true) (hy : (f.read b).isNan = true) :
    f.minMax max a b = (f.nan, nvOf (f.read a) (f.read b)) := by
  simp only [FFmt.minMax, hx, hy, if_true]
  rfl

theorem FFmt.minMax_nan_left (max : Bool) (hx : (f.read a).isNan = true) (hy : (f.read b).isNan = false) :
    f.minMax max a b = (f.asRead (f.read b) b, nvOf (f.read a) (f.read b)) := by
  simp only [FFmt.minMax, hx, hy, if_true, Bool.false_eq_true, if_false]
  rfl

theorem FFmt.minMax_nan_right (max : Bool) (hx : (f.read a).isNan = false) (hy : (f.read b).isNan = true) :
    f.minMax max a b = (f.asRead (f.read a) a, nvOf (f.read a) (f.read b)) := by
  simp only [FFmt.minMax, hx, hy, if_true, Bool.false_eq_true, if_false]
  rfl

theorem FFmt.minMax_max (hx : (f.read a).isNan = false) (hy : (f.read b).isNan = false) :
    f.minMax true a b = (if (f.read a).less (f.read b) then f.asRead (f.read b) b else f.asRead (f.read a) a,
      nvOf (f.read a) (f.read b)) := by
  simp only [FFmt.minMax, hx, hy, if_true, Bool.false_eq_true, if_false]
  split <;> rfl

theorem FFmt.minMax_min (hx : (f.read a).isNan = false) (hy : (f.read b).isNan = false) :
    f.minMax false a b = (if (f.read b).less (f.read a) then f.asRead (f.read b) b else f.asRead (f.read a) a,
      nvOf (f.read a) (f.read b)) := by
  simp only [FFmt.minMax, hx, hy, Bool.false_eq_true, if_false]
  split <;> rfl

theorem FFmt.minMax_flags (max : Bool) : (f.minMax max a b).2 = nvOf (f.read a) (f.read b) := by
  cases hx : (f.read a).isNan <;> cases hy : (f.read b).isNan
  · cases max
    · rw [f.minMax_min a b hx hy]
    · rw [f.minMax_max a b hx hy]
  · rw [f.minMax_nan_right a b max hx hy]
  · rw [f.minMax_nan_left a b max hx hy]
  · rw [f.minMax_nan_nan a b max hx hy]

theorem FFmt.minMax_lt {f : FFmt} (hf : f.Sound) (max : Bool) : (f.minMax max a b).1 < 2 ^ f.width := by
  have hread := f.asRead_lt
  cases hx : (f.read a).isNan <;> cases hy : (f.read b).isNan
  · cases max
    · rw [f.minMax_min a b hx hy]
      dsimp only
      split <;> exact hread ..
    · rw [f.minMax_max a b hx hy]
      dsimp only
      split <;> exact hread ..
  · rw [f.minMax_nan_right a b max hx hy]
    exact hread ..
  · rw [f.minMax_nan_left a b max hx hy]
    exact hread ..
  · rw [f.minMax_nan_nan a b max hx hy]
    exact FFmt.nan_lt hf

/-- What fmax delivers reads as an operand, and no operand is greater. -/
theorem FFmt.read_max {f : FFmt} (hf : f.Sound) (hx : (f.read a).isNan = false) (hy : (f.read b).isNan = false) :
    let v := f.read (f.minMax true a b).1
    (v = f.read a ∨ v = f.read b) ∧ v.less (f.read a) = false ∧ v.less (f.read b) = false := by
  rw [f.minMax_max a b hx hy]
  dsimp only
  split
  next h =>
    rw [FFmt.read_asRead hf]
    exact ⟨.inr rfl, FVal.less_asymm h, FVal.less_irrefl _⟩
  next h =>
    rw [FFmt.read_asRead hf]
    exact ⟨.inl rfl, FVal.less_irrefl _, by simpa using h⟩

/-- What fmin delivers reads as an operand, and no operand is less. -/
theorem FFmt.read_min {f : FFmt} (hf : f.Sound) (hx : (f.read a).isNan = false) (hy : (f.read b).isNan = false) :
    let u := f.read (f.minMax false a b).1
    (u = f.read a ∨ u = f.read b) ∧ (f.read a).less u = false ∧ (f.read b).less u = false := by
  rw [f.minMax_min a b hx hy]
  dsimp only
  split
  next h =>
    rw [FFmt.read_asRead hf]
    exact ⟨.inr rfl, FVal.less_asymm h, FVal.less_irrefl _⟩
  next h =>
    rw [FFmt.read_asRead hf]
    exact ⟨.inl rfl, FVal.less_irrefl _, by simpa using h⟩

/-! ### The predicates of fcmp (R227) -/

/-- The truth value of fcmp, by its predicate. -/
theorem FFmt.compare_value (p : BitVec 2) : ((f.compare p.toNat a b).1 = true) ↔
    if (f.read a).isNan || (f.read b).isNan then p = 3
    else (p = 0 ∧ (f.read a).cmp (f.read b) = .eq) ∨ (p = 1 ∧ (f.read a).cmp (f.read b) = .lt) ∨
      (p = 2 ∧ (f.read a).cmp (f.read b) ≠ .gt) := by
  have hp : p = 0 ∨ p = 1 ∨ p = 2 ∨ p = 3 := by revert p; decide
  unfold FFmt.compare
  dsimp only
  split
  · rcases hp with rfl | rfl | rfl | rfl <;> simp
  · rcases hp with rfl | rfl | rfl | rfl <;> simp

theorem FFmt.compare_flags (p : BitVec 2) : (f.compare p.toNat a b).2 =
    if ((f.read a).isNan || (f.read b).isNan) && (p = 1 || p = 2) then flagNV else nvOf (f.read a) (f.read b) := by
  have hp : p = 0 ∨ p = 1 ∨ p = 2 ∨ p = 3 := by revert p; decide
  unfold FFmt.compare nvOf
  dsimp only
  split
  next h => rcases hp with rfl | rfl | rfl | rfl <;> simp [h]
  next h =>
    rw [Bool.or_eq_true, not_or, Bool.not_eq_true, Bool.not_eq_true] at h
    simp [h.1, h.2, FVal.snan_of_not_nan h.1, FVal.snan_of_not_nan h.2]
end

theorem delivers_of_result {i : Instr} {s : State} {d : BitVec 5} {v : Word} (h : exec i s = .next (s.result d v)) :
    Delivers i s d v := by
  obtain ⟨hself, hd, hother⟩ := result_self s d v
  exact ⟨_, h, onlySelf_modSelf s _, ⟨hd, hother⟩, hself⟩

theorem flagWord_eq {p : Prop} [Decidable p] {b : Bool} (h : b = true ↔ p) : BitVec.ofNat 64 (if b then 1 else 0) = flagWord p := by
  unfold flagWord
  by_cases hp : p
  · rw [if_pos hp, if_pos (h.mpr hp)]
    rfl
  · rw [if_neg hp, if_neg (mt h.mp hp)]
    rfl

/-- fmin and fmax by the order of the operands as read (R226). -/
theorem minMax_delivers (s : State) (d a b : BitVec 5) (c : BitVec 2) (max : Bool) :
    let f := FFmt.ofCode c.toNat
    DeliversF (if max then .fmax d a b c else .fmin d a b c) s d
      (BitVec.ofNat 64 (f.minMax max (s.getG a).toNat (s.getG b).toNat).1)
      (nvOf (f.read (s.getG a).toNat) (f.read (s.getG b).toNat)) := by
  intro f
  rw [← FFmt.minMax_flags f _ _ max]
  cases max <;> exact deliversF_of_floatResult rfl

theorem fclass_delivers (s : State) (d a : BitVec 5) (c : BitVec 2) :
    let f := FFmt.ofCode c.toNat
    Delivers (.fclass d a c) s d (match f.read (s.getG a).toNat with
      | .inf true => 1
      | .fin true m _ => if m = 0 then 8 else if m < 2 ^ f.fbits then 4 else 2
      | .fin false m _ => if m = 0 then 16 else if m < 2 ^ f.fbits then 32 else 64
      | .inf false => 128
      | .nan true => 256
      | .nan false => 512) := by
  intro f
  have h : Delivers (.fclass d a c) s d (BitVec.ofNat 64 (2 ^ f.classBit (s.getG a).toNat)) := delivers_of_result rfl
  convert h using 1
  unfold FFmt.classBit
  rcases f.read (s.getG a).toNat with n | n | ⟨n, m, e⟩
  · cases n <;> rfl
  · cases n <;> rfl
  · cases n
    · dsimp only
      split
      · rfl
      · split <;> rfl
    · dsimp only
      split
      · rfl
      · split <;> rfl

theorem scalarFloatCompare : ScalarFloatCompare := by
  intro s d a b c p f x y nv
  have hf : f.Sound := ofCode_sound c.toNat
  let A := (s.getG a).toNat
  let B := (s.getG b).toNat
  have hmin : DeliversF (.fmin d a b c) s d (BitVec.ofNat 64 (f.minMax false A B).1) nv := minMax_delivers s d a b c false
  have hmax : DeliversF (.fmax d a b c) s d (BitVec.ofNat 64 (f.minMax true A B).1) nv := minMax_delivers s d a b c true
  refine ⟨fun hx hy => ?_, ⟨_, _, hmin, hmax, FFmt.minMax_lt _ _ hf _, FFmt.minMax_lt _ _ hf _, fun hx hy => ?_,
    fun hx hy => ?_, fun hx hy => ?_⟩, ?_, fclass_delivers s d a c⟩
  · rw [f.minMax_nan_nan A B _ hx hy] at hmin hmax
    exact ⟨hmin, hmax⟩
  · rw [f.minMax_nan_right A B _ hx hy, f.minMax_nan_right A B _ hx hy]
    exact ⟨FFmt.read_asRead hf _, FFmt.read_asRead hf _⟩
  · rw [f.minMax_nan_left A B _ hx hy, f.minMax_nan_left A B _ hx hy]
    exact ⟨FFmt.read_asRead hf _, FFmt.read_asRead hf _⟩
  · obtain ⟨hu, hxu, hyu⟩ := FFmt.read_min _ _ hf hx hy
    obtain ⟨hv, hvx, hvy⟩ := FFmt.read_max _ _ hf hx hy
    exact ⟨hu, hv, hxu, hyu, hvx, hvy⟩
  · have h := deliversF_of_floatResult (i := .fcmp d a b c p) (s := s) rfl
    rw [FFmt.compare_flags, flagWord_eq (FFmt.compare_value ..)] at h
    exact h

/-! ### Conversion (R55, R229) -/

theorem fcvt_delivers (s : State) (d a : BitVec 5) (cs cd : BitVec 4) (m : BitVec 3) :
    DeliversF (.fcvt d a cs m cd) s d (convert cs cd (s.self.mode m) (s.getG a)).1
      (convert cs cd (s.self.mode m) (s.getG a)).2 := by
  have h : DeliversF (.fcvt d a cs m cd) s d _ _ := deliversF_of_floatResult rfl
  rwa [BitVec.ofNat_toNat, BitVec.setWidth_eq] at h

theorem lowCode {n : Nat} (c : BitVec n) : (c.extractLsb' 0 2).toNat = c.toNat % 4 := by
  rw [BitVec.extractLsb'_toNat, Nat.shiftRight_zero]

theorem codeWidth_eq (c : BitVec 4) : codeWidth c = 8 * 2 ^ (c.toNat % 4) := by rw [codeWidth, lowCode]

theorem signedOf_eq_signedLow (x : Word) {w : Nat} (hw : 0 < w) : signedOf x.toNat w = signedLow x w := by
  obtain ⟨k, rfl⟩ : ∃ k, w = k + 1 := ⟨w - 1, by omega⟩
  have hpow : (2 : Int) ^ (k + 1) = 2 * ((2 ^ k : Nat) : Int) := by rw [pow_succ']; norm_cast
  have hpow' : 2 ^ (k + 1) = 2 * 2 ^ k := pow_succ' 2 k
  unfold signedOf signedLow
  rw [Nat.add_sub_cancel, hpow, show (2 : Int) ^ k = ((2 ^ k : Nat) : Int) by norm_cast, hpow']
  dsimp only
  split <;> split <;> omega

/-- The value of an integer source (R229). -/
theorem intValue_eq (c : BitVec 4) (x : Word) : intValue (codeUnsigned c) (codeWidth c) x.toNat =
    if c.getLsbD 2 then ((x.toNat % 2 ^ (8 * 2 ^ (c.toNat % 4)) : Nat) : Int) else signedLow x (8 * 2 ^ (c.toNat % 4)) := by
  rw [codeWidth_eq, ← signedOf_eq_signedLow x (by positivity)]
  rfl

theorem intMin_eq (u : Bool) (w : Nat) : intMin u w = if u then 0 else -(2 : Int) ^ (w - 1) := by
  unfold intMin
  push_cast
  rfl

theorem intMax_eq (u : Bool) (w : Nat) : intMax u w = if u then (2 : Int) ^ w - 1 else (2 : Int) ^ (w - 1) - 1 := by
  unfold intMax
  push_cast
  rfl

/-- A finite number as an integer: rounded, and bounded to its type (R55). -/
theorem floatToInt_fin (mode : Nat) (u : Bool) (w : Nat) (neg : Bool) (m : Nat) (e : Int) :
    let r := roundAt mode neg m e false 0
    let v := signed neg r.1
    floatToInt mode u w (.fin neg m e) =
      (if v < intMin u w then intMin u w else if intMax u w < v then intMax u w else v,
        if v < intMin u w ∨ intMax u w < v then flagNV else if r.2 then flagNX else 0) := by
  intro r v
  show (if (saturate u w v).2 = true then ((saturate u w v).1, flagNV) else (v, if r.2 then flagNX else 0)) = _
  unfold saturate
  by_cases h1 : v < intMin u w
  · simp [h1]
  · by_cases h2 : intMax u w < v <;> simp [h1, h2]

section
variable {cs cd : BitVec 4} {mode : Nat} {x : Word}

theorem convert_int_float (hs : cs.getLsbD 3 = true) : convert cs cd mode x =
    (BitVec.ofNat 64 ((FFmt.ofCode (cd.toNat % 4)).ofInt mode (intValue (codeUnsigned cs) (codeWidth cs) x.toNat)).1,
      ((FFmt.ofCode (cd.toNat % 4)).ofInt mode (intValue (codeUnsigned cs) (codeWidth cs) x.toNat)).2) := by
  simp only [convert, hs, if_true, lowCode]

theorem convert_float_float (hs : cs.getLsbD 3 = false) (hd : cd.getLsbD 3 = false) : convert cs cd mode x =
    (BitVec.ofNat 64 ((FFmt.ofCode (cd.toNat % 4)).deliver mode ((FFmt.ofCode (cs.toNat % 4)).read x.toNat)).1,
      ((FFmt.ofCode (cd.toNat % 4)).deliver mode ((FFmt.ofCode (cs.toNat % 4)).read x.toNat)).2) := by
  simp only [convert, hs, hd, Bool.false_eq_true, if_false, lowCode]

theorem convert_float_int (hs : cs.getLsbD 3 = false) (hd : cd.getLsbD 3 = true) : convert cs cd mode x =
    (BitVec.ofInt 64 (floatToInt mode (codeUnsigned cd) (codeWidth cd) ((FFmt.ofCode (cs.toNat % 4)).read x.toNat)).1,
      (floatToInt mode (codeUnsigned cd) (codeWidth cd) ((FFmt.ofCode (cs.toNat % 4)).read x.toNat)).2) := by
  simp only [convert, hs, hd, Bool.false_eq_true, if_false, if_true, lowCode]
end

theorem scalarFloatConvert : ScalarFloatConvert := by
  intro s d a cs cd m A mode isInt unsig w f n
  have hconv := fcvt_delivers s d a cs cd m
  refine ⟨fun hs hd => ?_, fun hs hd => ?_, fun hs hd => ?_⟩
  · rw [convert_int_float hs, intValue_eq] at hconv
    dsimp only
    rw [Nat.mod_eq_of_lt (FFmt.round_exact_lt (ofCode_sound _) ..)]
    exact hconv
  · rw [convert_float_float hs hd] at hconv
    dsimp only
    split
    next sig hr =>
      rw [hr] at hconv
      exact hconv
    next neg hr =>
      rw [hr] at hconv
      exact hconv
    next neg q e hr =>
      rw [hr] at hconv
      rw [Nat.mod_eq_of_lt (FFmt.round_exact_lt (ofCode_sound _) ..)]
      exact hconv
  · rw [convert_float_int hs hd, codeWidth_eq] at hconv
    dsimp only
    simp only [unsig, w, ← intMin_eq, ← intMax_eq]
    split
    next hr =>
      rw [hr] at hconv
      exact hconv
    next neg hr =>
      rw [hr] at hconv
      exact hconv
    next neg q e hr =>
      rw [hr, floatToInt_fin] at hconv
      exact hconv

end Sys2Proof.Machine
end

section
open Sys2Proof.Machine

/-- Settles O2, part by part. -/
theorem scalarFloatForms : Obligations.ScalarFloatForms :=
  ⟨scalarFloatArithmetic, floatArithmeticIsExact, floatSpecialOperands, scalarFloatCompare, scalarFloatConvert⟩
end

section
/-! SUPPORT. How a vector instruction on the strand's registers completes (R246, R291, R292). -/
namespace Sys2Proof.Machine
open Sys2Proof Sys2Proof.Claims

/-- The machine once a strand has passed an open weir: but for the level of its core's cistern and its launch's charge, only the
strand's pass has changed. -/
theorem afterWeir_cases {s : State} {ch : Charge} (h : WeirOpen s ch) : afterWeir s ch = s ∨
    ∃ w l a, afterWeir s ch = { s.setSelf { s.self with weirPass := w } with
      cores := s.cores.set {} s.myCore { (s.core s.myCore).settle s.clk with level := l }, annex := a } := by
  unfold afterWeir
  split
  · exact .inl rfl
  next hp =>
    obtain ⟨hst, -⟩ := h.resolve_left hp
    cases hu : s.strand s.cur with
    | none =>
      left
      unfold State.letThrough
      rw [hu]
    | some u =>
      have hself : s.self = u := self_of_strand hu
      rw [hself] at hst
      have hpassed (w : Nat) : u.passed w = { u with weirPass := some w } := by
        unfold Strand.passed
        rw [if_neg hst]
      obtain ⟨a, ha⟩ := letThrough_passes ch hu fun h => hst h.1
      rw [hpassed] at ha
      rw [hself]
      exact .inr ⟨_, _, a, ha⟩

theorem throughWeir_open {s : State} {ch : Charge} (h : WeirOpen s ch) : s.throughWeir ch = .ok () (afterWeir s ch) := by
  unfold State.throughWeir afterWeir
  split
  · rfl
  next hp =>
    obtain ⟨-, hq, hheld, hadm⟩ := h.resolve_left hp
    have hq : ((s.core s.myCore).settle s.clk).queue = [] := hq
    simp [hq, hheld, hadm]

/-- A scratchpad byte does not depend on the levels of the cisterns. -/
theorem spadByte_of_levels {s t : State} (ht : t = { s with strands := t.strands, cores := t.cores, annex := t.annex })
    (hcores : ∀ c, ∃ x y, t.core c = { s.core c with level := x, levelClk := y }) (c o : Nat) :
    t.spadByte c o = s.spadByte c o := by
  obtain ⟨x, y, hcore⟩ := hcores c
  unfold State.spadByte State.expired State.rowLast State.spanOf
  rw [hcore, ht]
  rfl

theorem core_setLevel (s : State) (k l n c : Nat) : ∃ x y,
    Table.get {} (s.cores.set {} k { (s.core k).settle n with level := l }) c = { s.core c with level := x, levelClk := y } := by
  rw [Table.get_set]
  split
  next h =>
    subst h
    exact ⟨_, _, rfl⟩
  next => exact ⟨_, _, rfl⟩

section
variable {s : State} {ch : Charge} (h : WeirOpen s ch)
include h

theorem afterWeir_self : ∃ w, (afterWeir s ch).self = { s.self with weirPass := w } := by
  rcases afterWeir_cases h with h | ⟨w, l, a, h⟩
  · exact ⟨s.self.weirPass, by rw [h]⟩
  · exact ⟨w, by rw [h]; exact self_setSelf s _⟩

theorem afterWeir_vec : (afterWeir s ch).vec = s.vec := by
  rcases afterWeir_cases h with h | ⟨w, l, a, h⟩
  · rw [h]
  · rw [h]
    rfl

theorem sameMemory_afterWeir (u : Strand) : SameMemory s ((afterWeir s ch).setSelf u) := by
  rcases afterWeir_cases h with h | ⟨w, l, a, h⟩
  · rw [h]
    exact sameMemory_setSelf s u
  · rw [h]
    exact ⟨fun _ => rfl, fun _ => rfl, spadByte_of_levels rfl (core_setLevel s s.myCore l s.clk), fun _ => rfl⟩
end

/-- An instruction on the strand's registers completes, with its charge, and leaves of the strand what its effect does. -/
theorem vdone_of_regPlan {i : Instr} {plan : Plan} {s : State} {ch : Charge} {wmax : Nat} {g : Strand → Strand}
    {P : Strand → Prop} (hexec : exec i s = .next (s.runVector i plan)) (hstatic : staticOk i = true)
    (hplan : plan s.self.venv s.self = regPlan wmax ch g) (hready : VReady s ch wmax)
    (hpass : ∀ u w, g { u with weirPass := w } = { g u with weirPass := w })
    (hpc : (g s.self).pc = s.self.pc) (hP : P (g s.self)) : VDone i s ch P := by
  obtain ⟨hopen, hlen, -, -⟩ := hready
  obtain ⟨w, hw⟩ := afterWeir_self hopen
  have hvec := afterWeir_vec hopen
  have hattempt : s.attempt s.self.venv (plan s.self.venv s.self) = .ok () ((afterWeir s ch).modSelf g) := by
    rw [hplan, attempt_regPlan s s.self.venv wmax ch g hlen, throughWeir_open hopen]
    show Res.ok () { (afterWeir s ch).modSelf g with vec := s.vec } = _
    rw [← hvec]
    rfl
  refine ⟨g s.self, _, hexec, ?_, ?_, hP⟩
  · rw [runVector_ok hstatic hattempt, modSelf_modSelf, State.modSelf, hw, hpass, ← hpc]
    rfl
  · rw [runVector_ok hstatic hattempt, modSelf_modSelf]
    exact sameMemory_afterWeir hopen _

/-! ### Active elements (R247) -/

theorem getLsbD_lowMask {n : Nat} (hn : n ≤ 4096) (i : Nat) : (lowMask n).getLsbD i = decide (i < n) := by
  unfold lowMask
  rw [BitVec.getLsbD_ofNat, Nat.testBit_two_pow_sub_one]
  by_cases h : i < n
  · simp [h, h.trans_le hn]
  · simp [h]

theorem getLsbD_act {s : State} (hn : s.self.vn ≤ 4096) (k : BitVec 3) (i : Nat) :
    (s.self.venv.act s.self k).getLsbD i = isActive s k i := by
  have hact : s.self.venv.act s.self k = s.self.getK s.self.vn k &&& lowMask s.self.vn := rfl
  unfold isActive
  rw [hact, BitVec.getLsbD_and, getLsbD_lowMask hn, Bool.and_comm]
  unfold Strand.getK
  split
  next hk => simp [hk, getLsbD_lowMask hn]
  next hk => rw [decide_eq_false hk, Bool.false_or]

end Sys2Proof.Machine
end

section
/-! SUPPORT. What a reduction combines (R70 to R73, R266). -/
namespace Sys2Proof.Machine
open Sys2Proof Sys2Proof.Claims

/-! ### The leaves and the root (R70, R72, R73) -/

/-- The leaf of a position: the element, when it is active. -/
def activeLeaf (s : State) (k : BitVec 3) (leaf : Nat → Nat) (i : Nat) : Option Elem :=
  if isActive s k i then some ⟨leaf i, 0, false⟩ else none

theorem leaves_eq {s : State} (hn : s.self.vn ≤ 4096) (k : BitVec 3) (leaf : Nat → Nat) :
    leaves s.self.vn (s.self.venv.act s.self k) leaf = (List.range s.self.vn).map (activeLeaf s k leaf) := by
  unfold leaves activeLeaf
  simp only [getLsbD_act hn]

theorem leafAt_leaves (s : State) (k : BitVec 3) (leaf : Nat → Nat) :
    leafAt ((List.range s.self.vn).map (activeLeaf s k leaf)) = activeLeaf s k leaf := by
  funext i
  unfold leafAt
  rw [List.getElem?_map]
  rcases Nat.lt_or_ge i s.self.vn with h | h
  · rw [List.getElem?_range h]
    rfl
  · rw [List.getElem?_eq_none (by simpa using h)]
    have hi : isActive s k i = false := by
      unfold isActive
      rw [decide_eq_false (not_lt.mpr h), Bool.false_and]
    unfold activeLeaf
    rw [hi]
    rfl

/-- A reduction of the model is the one of R70 to R73, for any number of levels that holds the elements. -/
theorem reduce_eq_reduced {s : State} (hn : s.self.vn ≤ 4096) (k : BitVec 3) (leaf : Nat → Nat) (step : Elem → Elem → Elem)
    (identity : Nat) (start : Option Nat) {p : Nat} (hp : s.self.vn ≤ 2 ^ p) :
    reduce s.self.vn (s.self.venv.act s.self k) leaf step identity start = reduced s k leaf step identity start p := by
  unfold reduce reduced
  rw [leaves_eq hn, treeReduce_eq_node step _ (by simpa using hp), leafAt_leaves]
  cases start <;> rfl

/-! ### Invariants of a tree -/

/-- Where two steps agree on elements of a kind that they keep, they build the same tree, of elements of that kind. -/
theorem node_congr {step step' : Elem → Elem → Elem} {leaf : Nat → Option Elem} {P : Elem → Prop}
    (hleaf : ∀ i, ∀ a ∈ leaf i, P a) (hstep : ∀ a b, P a → P b → step a b = step' a b ∧ P (step' a b)) (n i : Nat) :
    node step leaf n i = node step' leaf n i ∧ ∀ a ∈ node step' leaf n i, P a := by
  induction n generalizing i with
  | zero => exact ⟨rfl, hleaf i⟩
  | succ n ih =>
    obtain ⟨hl, hlP⟩ := ih (2 * i)
    obtain ⟨hr, hrP⟩ := ih (2 * i + 1)
    rw [node, node, hl, hr]
    generalize node step' leaf n (2 * i) = x at hlP ⊢
    generalize node step' leaf n (2 * i + 1) = y at hrP ⊢
    rcases x with _ | a <;> rcases y with _ | b
    · exact ⟨rfl, hrP⟩
    · exact ⟨rfl, hrP⟩
    · exact ⟨rfl, hlP⟩
    · obtain ⟨heq, hP⟩ := hstep a b (hlP a rfl) (hrP b rfl)
      exact ⟨congrArg some heq, fun x hx => by cases hx; exact hP⟩

theorem reduced_congr {s : State} {k : BitVec 3} {leaf : Nat → Nat} {step step' : Elem → Elem → Elem} {identity : Nat}
    {start : Option Nat} {P : Elem → Prop} (hleaf : ∀ i, P ⟨leaf i, 0, false⟩) (hid : P ⟨identity, 0, false⟩)
    (hstart : ∀ x ∈ start, P ⟨x, 0, false⟩) (hstep : ∀ a b, P a → P b → step a b = step' a b ∧ P (step' a b)) (p : Nat) :
    reduced s k leaf step identity start p = reduced s k leaf step' identity start p ∧
      P (reduced s k leaf step' identity start p) := by
  have hleaf' : ∀ i, ∀ a ∈ activeLeaf s k leaf i, P a := by
    intro i a ha
    unfold activeLeaf at ha
    split at ha
    · cases ha
      exact hleaf i
    · cases ha
  obtain ⟨heq, hP⟩ := node_congr hleaf' hstep p 0
  have hroot : P ((node step' (activeLeaf s k leaf) p 0).getD ⟨identity, 0, false⟩) := by
    cases h : node step' (activeLeaf s k leaf) p 0 with
    | none => exact hid
    | some a => exact hP a h
  cases start with
  | none => exact ⟨congrArg (Option.getD · _) heq, hroot⟩
  | some x =>
    obtain ⟨h, hP'⟩ := hstep _ _ (hstart x rfl) hroot
    refine ⟨?_, hP'⟩
    show step _ ((node step (activeLeaf s k leaf) p 0).getD _) = _
    rw [heq, h]
    rfl

/-! ### A reduction by an associative operation -/

theorem pairUp_cons (step : Elem → Elem → Elem) (a b : Option Elem) (t : List (Option Elem)) :
    pairUp step (a :: b :: t) = combine step a b :: pairUp step t := by cases a <;> cases b <;> rfl

theorem length_pairUp (step : Elem → Elem → Elem) (l : List (Option Elem)) : (pairUp step l).length = (l.length + 1) / 2 := by
  induction l using pairUp.induct with
  | case1 a b t ih =>
    rw [pairUp_cons, List.length_cons, ih, List.length_cons, List.length_cons]
    omega
  | case2 a => exact (Nat.div_self two_pos).symm
  | case3 => rfl

section
variable {M : Type} {step : Elem → Elem → Elem} {φ : Option Elem → M} {op : M → M → M}
  (hφ : ∀ a b, φ (combine step a b) = op (φ a) (φ b)) (hassoc : ∀ x y z, op (op x y) z = op x (op y z))
include hφ hassoc

/-- A level of the tree leaves the fold of its values. -/
theorem foldr_pairUp (l : List (Option Elem)) :
    ((pairUp step l).map φ).foldr op (φ none) = (l.map φ).foldr op (φ none) := by
  induction l using pairUp.induct with
  | case1 a b t ih =>
    rw [pairUp_cons, List.map_cons, List.foldr_cons, ih, hφ, hassoc]
    rfl
  | case2 a => rfl
  | case3 => rfl

theorem treeUp_foldr (n : Nat) (l : List (Option Elem)) (h : l.length ≤ 2 ^ n) :
    φ (treeUp step n l) = (l.map φ).foldr op (φ none) := by
  induction n generalizing l with
  | zero =>
    match l, h with
    | [], _ => rfl
    | [a], _ =>
      show φ a = op (φ a) (φ none)
      rw [← hφ, combine_none_right]
  | succ n ih =>
    rw [treeUp, ih _ ?_, foldr_pairUp hφ hassoc]
    rw [length_pairUp]
    rw [pow_succ] at h
    omega

/-- The tree over a list has the value of the list's fold (R70). -/
theorem treeReduce_foldr (l : List (Option Elem)) : φ (treeReduce step l) = (l.map φ).foldr op (φ none) := by
  have hlen := le_two_pow_log2Up l.length
  have habsent (m : Nat) : (List.replicate m (φ none)).foldr op (φ none) = φ none := by
    induction m with
    | zero => rfl
    | succ m ih =>
      rw [List.replicate_succ, List.foldr_cons, ih, ← hφ]
      rfl
  rw [treeReduce, treeUp_foldr hφ hassoc _ _ (by simp; omega), List.map_append, List.foldr_append, List.map_replicate, habsent]

omit hassoc in
/-- Absent leaves add nothing to a fold. -/
theorem foldr_activeLeaf (s : State) (k : BitVec 3) (leaf : Nat → Nat) (l : List Nat) :
    ((l.map (activeLeaf s k leaf)).map φ).foldr op (φ none) =
      ((l.filter (isActive s k)).map fun i => φ (some ⟨leaf i, 0, false⟩)).foldr op (φ none) := by
  have hvalue (l : List (Option Elem)) : ∃ x, (l.map φ).foldr op (φ none) = φ x := by
    induction l with
    | nil => exact ⟨none, rfl⟩
    | cons a l ih =>
      obtain ⟨x, hx⟩ := ih
      exact ⟨combine step a x, by rw [List.map_cons, List.foldr_cons, hx, hφ]⟩
  induction l with
  | nil => rfl
  | cons i l ih =>
    rw [List.map_cons, List.map_cons, List.foldr_cons, ih, List.filter_cons]
    unfold activeLeaf
    split
    · rfl
    · obtain ⟨x, hx⟩ := hvalue (l.map (activeLeaf s k leaf))
      rw [← ih, hx, ← hφ]
      rfl
end

/-- The value of a reduction whose step is an associative operation on values, with the identity's value neutral. -/
theorem reduce_value {s : State} (hn : s.self.vn ≤ 4096) {M : Type} {step : Elem → Elem → Elem} {val : Elem → M}
    {op : M → M → M} {identity : Nat} (hstep : ∀ a b, val (step a b) = op (val a) (val b))
    (hassoc : ∀ x y z, op (op x y) z = op x (op y z))
    (hleft : ∀ a, op (val ⟨identity, 0, false⟩) (val a) = val a)
    (hright : ∀ a, op (val a) (val ⟨identity, 0, false⟩) = val a) (k : BitVec 3) (leaf : Nat → Nat) (start : Option Nat) :
    let root := (((List.range s.self.vn).filter (isActive s k)).map fun i => val ⟨leaf i, 0, false⟩).foldr op
      (val ⟨identity, 0, false⟩)
    val (reduce s.self.vn (s.self.venv.act s.self k) leaf step identity start) =
      (start.map fun x => val ⟨x, 0, false⟩).elim root fun x => op x root := by
  have hφ : ∀ a b : Option Elem, val ((combine step a b).getD ⟨identity, 0, false⟩) =
      op (val (a.getD ⟨identity, 0, false⟩)) (val (b.getD ⟨identity, 0, false⟩)) := by
    rintro (_ | a) (_ | b)
    · exact (hleft _).symm
    · exact (hleft b).symm
    · exact (hright a).symm
    · exact hstep a b
  have hroot := treeReduce_foldr (φ := fun a : Option Elem => val (a.getD ⟨identity, 0, false⟩)) hφ hassoc
    ((List.range s.self.vn).map (activeLeaf s k leaf))
  rw [foldr_activeLeaf (φ := fun a : Option Elem => val (a.getD ⟨identity, 0, false⟩)) hφ] at hroot
  unfold reduce
  rw [leaves_eq hn]
  cases start with
  | none => exact hroot
  | some x => exact (hstep _ _).trans (congrArg (op _) hroot)

end Sys2Proof.Machine
end

section
/-! SUPPORT. Integer types (R41 to R43), and the integer reductions (R266). -/
namespace Sys2Proof.Machine
open Sys2Proof Sys2Proof.Claims

/-! ### Values of a type -/

theorem iwidth_eq (t : BitVec 3) : iwidth t = widthOf t := by rw [iwidth, tyLog, lowCode, widthOf]

theorem widthOf_pos (t : BitVec 3) : 0 < widthOf t := by unfold widthOf; positivity

theorem cast_two_pow (w : Nat) : ((2 ^ w : Nat) : Int) = 2 ^ w := by push_cast; rfl

theorem wrapNat_eq (x : Int) (w : Nat) : wrapNat x w = (x % 2 ^ w).toNat := by rw [wrapNat, cast_two_pow]

theorem cast_wrapNat (x : Int) (w : Nat) : (wrapNat x w : Int) = x % 2 ^ w := by
  rw [wrapNat_eq, Int.toNat_of_nonneg (Int.emod_nonneg _ (by positivity))]

theorem wrapNat_lt (x : Int) (w : Nat) : wrapNat x w < 2 ^ w := by
  zify
  rw [cast_wrapNat]
  exact Int.emod_lt_of_pos _ (by positivity)

theorem intValue_eq_valueOf (t : BitVec 3) (w n : Nat) : intValue (tyUnsigned t) w n = valueOf t w (n % 2 ^ w) := by
  unfold intValue valueOf tyUnsigned signedOf sOf
  rw [cast_two_pow]

theorem intValue_modEq (u : Bool) (w n : Nat) : intValue u w n ≡ n [ZMOD 2 ^ w] := by
  have hmod : ((n % 2 ^ w : Nat) : Int) ≡ n [ZMOD 2 ^ w] := by
    push_cast
    exact Int.mod_modEq _ _
  unfold intValue signedOf
  split
  · exact hmod
  · dsimp only
    split
    · exact hmod
    · rw [cast_two_pow]
      exact (Int.modEq_iff_dvd.mpr ⟨1, by ring⟩).trans hmod

theorem intValue_mem (u : Bool) {w : Nat} (hw : 0 < w) (n : Nat) : intMin u w ≤ intValue u w n ∧ intValue u w n ≤ intMax u w := by
  obtain ⟨k, rfl⟩ : ∃ k, w = k + 1 := ⟨w - 1, by omega⟩
  have hlt := Nat.mod_lt n (Nat.two_pow_pos (k + 1))
  have hpow : 2 ^ (k + 1) = 2 * 2 ^ k := pow_succ' 2 k
  unfold intMin intMax intValue signedOf
  rw [Nat.add_sub_cancel]
  dsimp only
  cases u
  · simp only [Bool.false_eq_true, if_false]
    split <;> omega
  · simp only [if_true]
    omega

/-- A value of a type is the one that its residue reads as. -/
theorem intValue_of_modEq {u : Bool} {w n : Nat} {x : Int} (hw : 0 < w) (h : (n : Int) ≡ x [ZMOD 2 ^ w])
    (hmin : intMin u w ≤ x) (hmax : x ≤ intMax u w) : intValue u w n = x := by
  obtain ⟨h1, h2⟩ := intValue_mem u hw n
  have hdvd : (2 : Int) ^ w ∣ intValue u w n - x := ((intValue_modEq u w n).trans h).symm.dvd
  have hwidth : intMax u w - intMin u w < 2 ^ w := by
    obtain ⟨k, rfl⟩ : ∃ k, w = k + 1 := ⟨w - 1, by omega⟩
    rw [intMin_eq, intMax_eq, Nat.add_sub_cancel, pow_succ]
    have : (0 : Int) < 2 ^ k := by positivity
    split <;> omega
  have habs : |intValue u w n - x| < 2 ^ w := abs_lt.mpr ⟨by omega, by omega⟩
  exact sub_eq_zero.mp (Int.eq_zero_of_abs_lt_dvd hdvd habs)

theorem intValue_wrapNat {u : Bool} {w : Nat} {x : Int} (hw : 0 < w) (hmin : intMin u w ≤ x) (hmax : x ≤ intMax u w) :
    intValue u w (wrapNat x w) = x := by
  refine intValue_of_modEq hw ?_ hmin hmax
  rw [cast_wrapNat]
  exact Int.mod_modEq _ _

/-- A register receives the typed word of a number that the pattern is congruent to. -/
theorem intWord_eq_typedWord {t : BitVec 3} {n : Nat} {x : Int} (h : (n : Int) ≡ x [ZMOD 2 ^ widthOf t]) :
    intWord (tyUnsigned t) (widthOf t) n = typedWord t x := by
  have hn : n % 2 ^ widthOf t = (x % 2 ^ widthOf t).toNat := by
    zify
    rw [Int.toNat_of_nonneg (Int.emod_nonneg _ (by positivity))]
    exact h
  rw [intWord, typedWord, intValue_eq_valueOf, hn]

/-! ### The integer reductions -/

theorem setG_weirPass (u : Strand) (w : Option Nat) (d : BitVec 5) (v : Word) :
    ({ u with weirPass := w } : Strand).setG d v = { u.setG d v with weirPass := w } := by
  unfold Strand.setG
  split <;> rfl

theorem setG_pc (u : Strand) (d : BitVec 5) (v : Word) : (u.setG d v).pc = u.pc := by rw [setG_eq]

/-- The start value that a reduction captures (R73). -/
def startValue (s : State) (g : BitVec 5) (w : Nat) : Option Nat := if g = 0 then none else some ((s.getG g).toNat % 2 ^ w)

/-- The root of an integer reduction. -/
def redRoot (s : State) (a g : BitVec 5) (k t : BitVec 3) (f : Int → Int → Int) (sat : Bool) (identity : Int) : Elem :=
  reduce s.self.vn (s.self.venv.act s.self k) (fun i => elem (s.self.getV a) (widthOf t) i)
    (intStep (tyUnsigned t) (widthOf t) f sat) (wrapNat identity (widthOf t)) (startValue s g (widthOf t))

section
variable (s : State) (d a g : BitVec 5) (k t : BitVec 3) (f : Int → Int → Int) (sat : Bool) (identity : Int)

theorem redInt_self : redInt d a g k t f sat identity s.self.venv s.self =
    (s.self.setG d (intWord (tyUnsigned t) (widthOf t) (redRoot s a g k t f sat identity).val)).orSat
      (redRoot s a g k t f sat identity).sat := by
  unfold redInt redRoot
  rw [iwidth_eq]
  rfl

theorem redInt_weirPass (e : VEnv) (u : Strand) (w : Option Nat) :
    redInt d a g k t f sat identity e { u with weirPass := w } =
      { redInt d a g k t f sat identity e u with weirPass := w } := by
  unfold redInt
  dsimp only
  rw [setG_weirPass]
  rfl

/-- An integer reduction writes its register, and FCTL.SAT when a step clamped. -/
theorem vdone_redInt {i : Instr} {s : State}
    (hexec : exec i s = .next (s.runVector i (wholePlan (iwidth t) (redInt d a g k t f sat identity))))
    (hstatic : staticOk i = true) (hready : VReady s [(5, s.self.vn)] (widthOf t)) {P : Strand → Prop}
    (hP : P ((s.self.setG d (intWord (tyUnsigned t) (widthOf t) (redRoot s a g k t f sat identity).val)).orSat
      (redRoot s a g k t f sat identity).sat)) : VDone i s [(5, s.self.vn)] P := by
  refine vdone_of_regPlan (g := redInt d a g k t f sat identity s.self.venv) hexec hstatic ?_ hready
    (fun u w => redInt_weirPass d a g k t f sat identity _ u w) ?_ ?_
  · rw [← iwidth_eq]
    rfl
  · rw [redInt_self]
    exact setG_pc ..
  · rwa [redInt_self]

theorem register_setG (s : State) (d : BitVec 5) (v : Word) : Register s d v (s.self.setG d v) := by
  refine ⟨setG_eq .., ?_, fun r hr => ?_⟩
  · rw [getG_setG, if_pos rfl]
  · rw [getG_setG, if_neg hr]
    rfl

/-- A step that does not saturate never notes a clamp. -/
theorem redRoot_sat (hn : s.self.vn ≤ 4096) : (redRoot s a g k t f false identity).sat = false := by
  unfold redRoot
  rw [reduce_eq_reduced hn _ _ _ _ _ (p := 12) hn]
  exact (reduced_congr (P := fun x => x.sat = false) (fun _ => rfl) rfl (fun _ _ => rfl) (fun _ _ _ _ => ⟨rfl, rfl⟩) 12).2

theorem vdone_redInt_wrap {i : Instr} {s : State} {x : Int}
    (hexec : exec i s = .next (s.runVector i (wholePlan (iwidth t) (redInt d a g k t f false identity))))
    (hstatic : staticOk i = true) (hready : VReady s [(5, s.self.vn)] (widthOf t))
    (hx : ((redRoot s a g k t f false identity).val : Int) ≡ x [ZMOD 2 ^ widthOf t]) :
    VDone i s [(5, s.self.vn)] (Register s d (typedWord t x)) := by
  have hn := hready.2.2.2
  refine vdone_redInt d a g k t f false identity hexec hstatic hready ?_
  rw [redRoot_sat s a g k t f identity hn, intWord_eq_typedWord hx, Strand.orSat, Bool.or_false]
  exact register_setG s d _
end

/-! ### Sums, minima and maxima (R71, R266) -/

theorem lowest_eq (t : BitVec 3) : intMin (tyUnsigned t) (widthOf t) = lowest t := intMin_eq ..
theorem highest_eq (t : BitVec 3) : intMax (tyUnsigned t) (widthOf t) = highest t := intMax_eq ..

theorem lowest_le_highest (t : BitVec 3) : lowest t ≤ highest t := by
  rw [← lowest_eq, ← highest_eq]
  obtain ⟨h1, h2⟩ := intValue_mem (tyUnsigned t) (widthOf_pos t) 0
  exact h1.trans h2

theorem zmod_eq_iff {w : Nat} {x y : Int} : (x : ZMod (2 ^ w)) = y ↔ x ≡ y [ZMOD 2 ^ w] := by
  rw [ZMod.intCast_eq_intCast_iff, cast_two_pow]

theorem cast_intValue (u : Bool) (w n : Nat) : ((intValue u w n : Int) : ZMod (2 ^ w)) = n := by
  rw [← Int.cast_natCast n, zmod_eq_iff]
  exact intValue_modEq u w n

theorem cast_wrapNat_zmod (x : Int) (w : Nat) : ((wrapNat x w : Nat) : ZMod (2 ^ w)) = x := by
  rw [← Int.cast_natCast, zmod_eq_iff, cast_wrapNat]
  exact Int.mod_modEq _ _

theorem intValue_elem (t : BitVec 3) (x : VReg) (w i : Nat) : intValue (tyUnsigned t) w (elem x w i) = valueOf t w (elem x w i) := by
  rw [intValue_eq_valueOf, elem, Nat.mod_mod]

section
variable {s : State} (hn : s.self.vn ≤ 4096) (a g : BitVec 5) (k t : BitVec 3)
include hn

theorem redRoot_sum : ((redRoot s a g k t (· + ·) false 0).val : Int) ≡
    (activeList s k fun i => valueOf t (widthOf t) (elem (s.self.getV a) (widthOf t) i)).sum +
      (if g = 0 then 0 else valueOf t (widthOf t) ((s.getG g).toNat % 2 ^ widthOf t)) [ZMOD 2 ^ widthOf t] := by
  have hzero : ((wrapNat 0 (widthOf t) : Nat) : ZMod (2 ^ widthOf t)) = 0 := by rw [wrapNat_eq]; simp
  have hvalue := reduce_value hn (val := fun x => (x.val : ZMod (2 ^ widthOf t))) (op := (· + ·))
    (step := intStep (tyUnsigned t) (widthOf t) (· + ·) false) (identity := wrapNat 0 (widthOf t)) (fun x y => ?_) add_assoc
    (fun x => by rw [hzero, zero_add]) (fun x => by rw [hzero, add_zero]) k
    (fun i => elem (s.self.getV a) (widthOf t) i) (startValue s g (widthOf t))
  · rw [hzero, ← List.sum_eq_foldr] at hvalue
    rw [← zmod_eq_iff, Int.cast_natCast, Int.cast_add, Int.cast_list_sum]
    refine hvalue.trans ?_
    have hlist : ((activeList s k fun i => valueOf t (widthOf t) (elem (s.self.getV a) (widthOf t) i)).map
        (Int.cast : Int → ZMod (2 ^ widthOf t))).sum =
        (((List.range s.self.vn).filter (isActive s k)).map
          fun i => ((elem (s.self.getV a) (widthOf t) i : Nat) : ZMod (2 ^ widthOf t))).sum := by
      unfold activeList
      rw [List.map_map]
      congr 2
      funext i
      rw [Function.comp_apply, ← intValue_elem, cast_intValue]
    rw [hlist, startValue]
    split
    next =>
      rw [Int.cast_zero, add_zero]
      rfl
    next =>
      rw [Option.map_some, Option.elim_some, ← cast_intValue (tyUnsigned t), intValue_eq_valueOf, Nat.mod_mod, add_comm]
  · show ((wrapNat _ _ : Nat) : ZMod (2 ^ widthOf t)) = _
    rw [cast_wrapNat_zmod, Int.cast_add, cast_intValue, cast_intValue]

/-- The value of the root of a minimum or of a maximum. -/
theorem redRoot_lattice {f : Int → Int → Int} {identity : Int} (hf : ∀ x y, f x y = x ∨ f x y = y)
    (hassoc : ∀ x y z, f (f x y) z = f x (f y z)) (hcomm : ∀ x y, f x y = f y x)
    (hmin : lowest t ≤ identity) (hmax : identity ≤ highest t)
    (hid : ∀ x, lowest t ≤ x → x ≤ highest t → f identity x = x) :
    ((redRoot s a g k t f false identity).val : Int) ≡
      (if g = 0 then activeList s k fun i => valueOf t (widthOf t) (elem (s.self.getV a) (widthOf t) i)
        else valueOf t (widthOf t) ((s.getG g).toNat % 2 ^ widthOf t) ::
          activeList s k fun i => valueOf t (widthOf t) (elem (s.self.getV a) (widthOf t) i)).foldl f identity
      [ZMOD 2 ^ widthOf t] := by
  have hw := widthOf_pos t
  have hmem (n : Nat) := intValue_mem (tyUnsigned t) hw n
  have hident : intValue (tyUnsigned t) (widthOf t) (wrapNat identity (widthOf t)) = identity :=
    intValue_wrapNat hw (lowest_eq t ▸ hmin) (highest_eq t ▸ hmax)
  have hleft (n : Nat) : f identity (intValue (tyUnsigned t) (widthOf t) n) = intValue (tyUnsigned t) (widthOf t) n :=
    hid _ (lowest_eq t ▸ (hmem n).1) (highest_eq t ▸ (hmem n).2)
  have hvalue := reduce_value hn (val := fun x => intValue (tyUnsigned t) (widthOf t) x.val) (op := f)
    (step := intStep (tyUnsigned t) (widthOf t) f false) (identity := wrapNat identity (widthOf t)) (fun x y => ?_) hassoc
    (fun x => by rw [hident, hleft]) (fun x => by rw [hident, hcomm, hleft]) k
    (fun i => elem (s.self.getV a) (widthOf t) i) (startValue s g (widthOf t))
  · refine (intValue_modEq (tyUnsigned t) (widthOf t) _).symm.trans (congrArg (· % _) (hvalue.trans ?_))
    have : Std.Commutative f := ⟨hcomm⟩
    have : Std.Associative f := ⟨hassoc⟩
    rw [hident, List.foldl_eq_foldr]
    simp only [intValue_elem]
    unfold startValue
    split
    next => rfl
    next =>
      rw [Option.map_some, Option.elim_some, intValue_eq_valueOf, Nat.mod_mod]
      rfl
  · show intValue _ _ (wrapNat (f _ _) _) = _
    rcases hf (intValue (tyUnsigned t) (widthOf t) x.val) (intValue (tyUnsigned t) (widthOf t) y.val) with h | h
    · rw [h, intValue_wrapNat hw (hmem _).1 (hmem _).2]
    · rw [h, intValue_wrapNat hw (hmem _).1 (hmem _).2]
end

/-- The wrapping sum, the minimum and the maximum (R266). -/
theorem integerReductions : IntegerReductions := by
  intro s d a g k t hready w xs start
  have hn := hready.2.2.2
  have hrange := lowest_le_highest t
  refine ⟨vdone_redInt_wrap d a g k t _ _ rfl rfl hready (redRoot_sum hn a g k t), ?_, ?_⟩
  · refine vdone_redInt_wrap d a g k t min _ rfl rfl hready ?_
    rw [iwidth_eq, highest_eq]
    exact redRoot_lattice hn a g k t min_choice min_assoc min_comm hrange le_rfl fun x _ hx => min_eq_right hx
  · refine vdone_redInt_wrap d a g k t max _ rfl rfl hready ?_
    rw [iwidth_eq, lowest_eq]
    exact redRoot_lattice hn a g k t max_choice max_assoc max_comm le_rfl hrange fun x hx _ => max_eq_right hx

end Sys2Proof.Machine
end

section
/-! SUPPORT. The reductions whose steps have an order: the saturating sum, and the float sum and maximum (R70 to R73, R266). -/
namespace Sys2Proof.Machine
open Sys2Proof Sys2Proof.Claims

theorem elem_lt (x : VReg) (w i : Nat) : elem x w i < 2 ^ w := Nat.mod_lt _ (Nat.two_pow_pos w)

/-! ### The saturating sum -/

/-- Saturation clamps, and says whether it did (R43, R44). -/
theorem saturate_eq_clamp (t : BitVec 3) (x : Int) :
    saturate (tyUnsigned t) (widthOf t) x = (clamp t x, decide (clamp t x ≠ x)) := by
  have hle := lowest_le_highest t
  unfold saturate clamp
  rw [lowest_eq, highest_eq]
  split
  next h =>
    have : max (lowest t) (min (highest t) x) = lowest t := by omega
    rw [this, decide_eq_true (by omega)]
  next h =>
    split
    next h' =>
      have : max (lowest t) (min (highest t) x) = highest t := by omega
      rw [this, decide_eq_true (by omega)]
    next h' =>
      have : max (lowest t) (min (highest t) x) = x := by omega
      rw [this, decide_eq_false (by simp)]

theorem intValue_of_lt (t : BitVec 3) {w n : Nat} (h : n < 2 ^ w) : intValue (tyUnsigned t) w n = valueOf t w n := by
  rw [intValue_eq_valueOf, Nat.mod_eq_of_lt h]

theorem intStep_eq_satStep (t : BitVec 3) (a b : Elem) (ha : a.val < 2 ^ widthOf t) (hb : b.val < 2 ^ widthOf t) :
    intStep (tyUnsigned t) (widthOf t) (· + ·) true a b = satStep t a b ∧ (satStep t a b).val < 2 ^ widthOf t := by
  have heq : intStep (tyUnsigned t) (widthOf t) (· + ·) true a b = satStep t a b := by
    unfold intStep satStep
    simp only [if_true, intValue_of_lt t ha, intValue_of_lt t hb, saturate_eq_clamp, wrapNat_eq]
  exact ⟨heq, heq ▸ wrapNat_lt _ _⟩

theorem redRoot_saturating {s : State} (hn : s.self.vn ≤ 4096) (a g : BitVec 5) (k t : BitVec 3) {p : Nat}
    (hp : s.self.vn ≤ 2 ^ p) :
    let r := reduced s k (fun i => elem (s.self.getV a) (widthOf t) i) (satStep t) 0 (startValue s g (widthOf t)) p
    redRoot s a g k t (· + ·) true 0 = r ∧ r.val < 2 ^ widthOf t := by
  have hzero : wrapNat 0 (widthOf t) = 0 := by rw [wrapNat_eq]; simp
  unfold redRoot
  rw [reduce_eq_reduced hn _ _ _ _ _ hp, hzero]
  refine reduced_congr (P := fun x => x.val < 2 ^ widthOf t) (fun i => elem_lt _ _ i) (Nat.two_pow_pos _) (fun x hx => ?_)
    (intStep_eq_satStep t) p
  unfold startValue at hx
  split at hx
  · cases hx
  · cases hx
    exact Nat.mod_lt _ (Nat.two_pow_pos _)

/-! ### Float reductions -/

theorem asDelivered_eq (f : FFmt) (n : Nat) : f.delivered n = asDelivered f n := by
  unfold FFmt.delivered asDelivered
  rcases f.read n with s | s | ⟨s, _ | m, e⟩ <;> rfl

theorem redFloatSum_weirPass (d a g : BitVec 5) (k t : BitVec 3) (e : VEnv) (u : Strand) (w : Option Nat) :
    redFloatSum d a g k t e { u with weirPass := w } = { redFloatSum d a g k t e u with weirPass := w } := by
  unfold redFloatSum
  dsimp only
  rw [setG_weirPass]
  rfl

theorem redFloatMax_weirPass (d a g : BitVec 5) (k t : BitVec 3) (e : VEnv) (u : Strand) (w : Option Nat) :
    redFloatMax d a g k t e { u with weirPass := w } = { redFloatMax d a g k t e u with weirPass := w } := by
  unfold redFloatMax
  dsimp only
  rw [setG_weirPass]
  rfl

/-- What a float reduction leaves of the strand: the register and the flags (R51, R266). -/
def floatReduced (s : State) (d : BitVec 5) (f : FFmt) (r : Elem) : Strand :=
  (s.self.setG d (BitVec.ofNat 64 (asDelivered f r.val).1)).orFlags (r.fl ||| (asDelivered f r.val).2)

/-- A float reduction writes its register, and ORs into FCTL the flags of its steps and of the delivery (R51, R266). -/
theorem vdone_floatReduced {i : Instr} {s : State} {d : BitVec 5} {f : FFmt} {r : Elem} {red : VEnv → Strand → Strand}
    (hexec : exec i s = .next (s.runVector i (wholePlan f.width red))) (hstatic : staticOk i = true)
    (hready : VReady s [(5, s.self.vn)] f.width)
    (hpass : ∀ e u w, red e { u with weirPass := w } = { red e u with weirPass := w })
    (hred : red s.self.venv s.self = floatReduced s d f r) :
    VDone i s [(5, s.self.vn)] fun u =>
      u = { s.self with g := u.g, fflags := s.self.fflags ||| r.fl ||| (asDelivered f r.val).2 } ∧
        u.getG d = (if d = 0 then 0 else BitVec.ofNat 64 (asDelivered f r.val).1) ∧ ∀ x, x ≠ d → u.getG x = s.getG x := by
  obtain ⟨hset, hget⟩ := register_setG s d (BitVec.ofNat 64 (asDelivered f r.val).1)
  refine vdone_of_regPlan (g := red s.self.venv) hexec hstatic rfl hready (fun u w => hpass _ u w) ?_ ?_
  · rw [hred]
    exact setG_pc ..
  · rw [hred]
    refine ⟨?_, hget⟩
    unfold floatReduced Strand.orFlags
    rw [BitVec.or_assoc, hset]

section
variable {s : State} (hn : s.self.vn ≤ 4096) (d a g : BitVec 5) (k t : BitVec 3) {p : Nat} (hp : s.self.vn ≤ 2 ^ p)
include hn hp

theorem redFloatSum_self : redFloatSum d a g k t s.self.venv s.self =
    let f := FFmt.ofCode t.toNat
    floatReduced s d f (reduced s k (fun i => elem (s.self.getV a) f.width i) (sumStep f s.self.rm.toNat) (f.zero false)
      (startValue s g f.width) p) := by
  dsimp only
  rw [← reduce_eq_reduced hn _ _ _ _ _ hp]
  unfold redFloatSum floatReduced
  rw [← asDelivered_eq]
  rfl

theorem redFloatMax_self : redFloatMax d a g k t s.self.venv s.self =
    let f := FFmt.ofCode t.toNat
    floatReduced s d f (reduced s k (fun i => elem (s.self.getV a) f.width i) (maxStep f) (f.inf true)
      (startValue s g f.width) p) := by
  dsimp only
  rw [← reduce_eq_reduced hn _ _ _ _ _ hp]
  unfold redFloatMax floatReduced
  rw [← asDelivered_eq]
  rfl
end

/-! ### The reductions in the order of the tree -/

/-- The saturating sum (R43, R71, R266). -/
theorem vdone_vredsumSat {s : State} (d a g : BitVec 5) (k t : BitVec 3) {p : Nat} (hp : s.self.vn ≤ 2 ^ p)
    (hready : VReady s [(5, s.self.vn)] (widthOf t)) :
    let r := reduced s k (fun i => elem (s.self.getV a) (widthOf t) i) (satStep t) 0 (startValue s g (widthOf t)) p
    VDone (.vredsumSat d a g k t) s [(5, s.self.vn)] fun u =>
      u = { s.self with g := u.g, sat := s.self.sat || r.sat } ∧
        u.getG d = (if d = 0 then 0 else BitVec.ofInt 64 (valueOf t (widthOf t) r.val)) ∧
        ∀ x, x ≠ d → u.getG x = s.getG x := by
  have hn := hready.2.2.2
  intro r
  obtain ⟨hroot, hlt⟩ : redRoot s a g k t (· + ·) true 0 = r ∧ r.val < 2 ^ widthOf t :=
    redRoot_saturating hn a g k t hp
  obtain ⟨hset, hget⟩ := register_setG s d (BitVec.ofInt 64 (valueOf t (widthOf t) r.val))
  refine vdone_redInt d a g k t (· + ·) true 0 rfl rfl hready ?_
  rw [hroot, intWord, intValue_of_lt t hlt]
  refine ⟨?_, hget⟩
  unfold Strand.orSat
  rw [hset]

/-- The reductions whose result depends on the tree (R70 to R73, R266). -/
theorem orderedReductions : OrderedReductions := by
  intro s d a g k t p hp f ch start leaf gets floats
  refine ⟨vdone_vredsumSat d a g k t hp, fun hready => ?_⟩
  have hn := hready.2.2.2
  exact ⟨vdone_floatReduced rfl rfl hready (redFloatSum_weirPass d a g k t) (redFloatSum_self hn d a g k t hp),
    vdone_floatReduced rfl rfl hready (redFloatMax_weirPass d a g k t) (redFloatMax_self hn d a g k t hp)⟩

end Sys2Proof.Machine
end

section
open Sys2Proof.Machine

/-- Settles O23, part by part: the sums, minima and maxima do not depend on the tree, since their steps are associative with
their identity; the saturating sum and the float reductions are the tree of the model, which is the pairwise one (O24). -/
theorem reductions : Obligations.Reductions := ⟨integerReductions, orderedReductions⟩
end

section
/-! SUPPORT. An admission whose root strand's context descriptor cannot be delivered correct (R152, R459): the start raises a
condition report, and the report's bytes reach the ring in device memory (R461). -/
namespace Sys2Proof.Machine
open Sys2Proof Sys2Proof.Claims

/-- A runnable launch in context 1, on core 0 alone. -/
def lostContextLaunch : Launch :=
  { id := 1, queue := 0, recno := 0, ctx := 1, bind := { launch := 1, ctx := 1, w := 1, h := 1 }, phase := .runnable none }

/-- It is the head of queue 0 of a device that is READY. The context table stands at address 0, the codeword at 0x20, where the
descriptor of context 1 begins, has a double-bit error, and the report ring of basin 0 stands at 0x1000. -/
def lostContextState : State :=
  { State.reset with
    ctxtabWritten := true, ctxtabLog2n := 16, errs := [(2, 3)]
    basins := [(0, { crBase := 1, crLog2n := 6 })]
    annex := { bootState := 3, queues := [(0, { en := true })], launches := [lostContextLaunch] } }

/-- The launch is the one runnable head, and nothing stands in its way. -/
theorem lostContext_admissible : lostContextState.runnables = [] ++ lostContextLaunch :: [] ∧
    lostContextState.reservedFrom lostContextLaunch = false ∧ lostContextState.fits lostContextLaunch = true ∧
    lostContextLaunch.bind.cores.Nodup := by decide +kernel

/-- The first byte of the report ring after a step. -/
def ringByte : Result → Option Byte
  | .next t => some (t.byteAt 0x1000)
  | _ => none

/-- The admission writes the kind of a machine-check report, 0x03, into the ring, which held 0. -/
theorem lostContext_admission :
    ringByte (exec .admission lostContextState) = some 3 ∧ lostContextState.byteAt 0x1000 = 0 := by decide +kernel

/-- An admission may write device memory: the start of a root strand takes the fault of its context descriptor. -/
theorem not_admissionStartsTheRoots : ¬ AdmissionStartsTheRoots := by
  intro h
  obtain ⟨hrun, hres, hfits, hcores⟩ := lostContext_admissible
  obtain ⟨hring, hzero⟩ := lostContext_admission
  obtain ⟨-, hadmit, -⟩ := h lostContextState lostContextLaunch [] []
  obtain ⟨hstart, -⟩ := hadmit rfl (by decide) (by decide) hrun (by simp) (by simp [Launch.place, lostContextLaunch]) hres
    (by simp)
  obtain ⟨t, ht, -, hsame, -⟩ := hstart hfits hcores
  rw [ht, ringByte, hsame, hzero] at hring
  exact absurd hring (by decide)

end Sys2Proof.Machine
end

section
open Sys2Proof.Machine

/-- Refutes O44: an admission whose root strand's context descriptor has a double-bit error raises the machine-check report of
R459, so that the bytes of device memory at the report ring change, where the statement says that none does. -/
theorem not_launchesBegin : ¬ Obligations.LaunchesBegin := fun ⟨_, _, h, _⟩ => not_admissionStartsTheRoots h
end

section
/-! SUPPORT. Little-endian numbers and the bytes of lines (R7). -/
namespace Sys2Proof.Machine
open Sys2Proof

theorem leRead_congr {f g : Nat → Byte} {a b n : Nat} (h : ∀ i, i < n → f (a + i) = g (b + i)) :
    leRead f a n = leRead g b n := by
  induction n generalizing a b with
  | zero => rfl
  | succ n ih =>
    have h0 : f a = g b := h 0 (Nat.succ_pos n)
    have hr : leRead f (a + 1) n = leRead g (b + 1) n := ih fun i hi => by
      rw [show a + 1 + i = a + (i + 1) by omega, show b + 1 + i = b + (i + 1) by omega, h (i + 1) (by omega)]
    rw [leRead, leRead, h0, hr]

theorem leRead_lt (f : Nat → Byte) (a n : Nat) : leRead f a n < 256 ^ n := by
  induction n generalizing a with
  | zero => exact Nat.one_pos
  | succ n ih =>
    have hb : (f a).toNat < 256 := (f a).isLt
    have hr := ih (a + 1)
    rw [leRead, Nat.pow_succ]
    omega

/-- Byte `i` of a number that is read is the byte at its place. -/
theorem leRead_div (f : Nat → Byte) (a n i : Nat) (h : i < n) : leRead f a n / 256 ^ i % 256 = (f (a + i)).toNat := by
  induction n generalizing a i with
  | zero => omega
  | succ n ih =>
    have hb : (f a).toNat < 256 := (f a).isLt
    cases i with
    | zero => rw [leRead, pow_zero, Nat.div_one, Nat.add_mul_mod_self_left, Nat.mod_eq_of_lt hb, Nat.add_zero]
    | succ i =>
      rw [leRead, Nat.pow_succ', ← Nat.div_div_eq_div_mul, show ((f a).toNat + 256 * leRead f (a + 1) n) / 256
        = leRead f (a + 1) n by omega, ih (a + 1) i (by omega), show a + 1 + i = a + (i + 1) by omega]

theorem leByte_leRead (f : Nat → Byte) (a n i : Nat) (h : i < n) : leByte (leRead f a n) i = f (a + i) := by
  apply BitVec.eq_of_toNat_eq
  rw [leByte, BitVec.toNat_ofNat]
  exact leRead_div f a n i h

/-- A read of bytes that are those of a number gives that number. -/
theorem leRead_of_leByte {f : Nat → Byte} {a n v : Nat} (h : ∀ i, i < n → f (a + i) = leByte v i) :
    leRead f a n = v % 256 ^ n := by
  induction n generalizing a v with
  | zero => simp [leRead, Nat.mod_one]
  | succ n ih =>
    have h0 : (f a).toNat = v % 256 := by
      rw [show f a = leByte v 0 from h 0 (Nat.succ_pos n), leByte, BitVec.toNat_ofNat, pow_zero, Nat.div_one]
    have hr : leRead f (a + 1) n = v / 256 % 256 ^ n := ih fun i hi => by
      rw [show a + 1 + i = a + (i + 1) by omega, h (i + 1) (by omega), leByte, leByte, Nat.pow_succ',
        Nat.div_div_eq_div_mul]
    rw [leRead, h0, hr, Nat.pow_succ', Nat.mod_mul]

/-- A byte of a line that is read from memory. -/
theorem lineByte_leRead (f : Nat → Byte) (a i : Nat) (h : i < 64) :
    lineByte (BitVec.ofNat 512 (leRead f a 64)) i = f (a + i) := by
  have hl : leRead f a 64 < 2 ^ 512 := lt_of_lt_of_eq (leRead_lt f a 64) (by rw [show 256 = 2 ^ 8 from rfl, ← Nat.pow_mul])
  apply BitVec.eq_of_toNat_eq
  rw [lineByte, BitVec.extractLsb'_toNat, BitVec.toNat_ofNat, Nat.mod_eq_of_lt hl, Nat.shiftRight_eq_div_pow, Nat.pow_mul]
  exact leRead_div f a 64 i h

end Sys2Proof.Machine
end

section
/-! SUPPORT. The reservoir and host memory behind it (R169, R304, R328). -/
namespace Sys2Proof.Machine
open Sys2Proof Sys2Proof.Claims

/-- Only the reservoir and host memory change. -/
def ReservoirMoves (s t : State) : Prop :=
  t = { s with resv := t.resv, hostMem := t.hostMem, hostPoison := t.hostPoison }

theorem reservoirMoves_trans {s t u : State} (h : ReservoirMoves s t) (h' : ReservoirMoves t u) : ReservoirMoves s u :=
  Eq.trans h' (by rw [h])

theorem get_setHostLine_go (hl : Nat) (d : BitVec 512) (n : Nat) (m : List Host.Cell) (x : Nat) :
    Table.get 0 (State.setHostLine.go hl d m n) x =
      if 64 * hl ≤ x ∧ x < 64 * hl + n then lineByte d (x - 64 * hl) else Table.get 0 m x := by
  induction n generalizing m with
  | zero => rw [if_neg (by omega)]; rfl
  | succ n ih =>
    rw [State.setHostLine.go, ih, Table.get_set]
    by_cases hx : x = 64 * hl + n
    · subst hx
      simp
    · rw [if_neg hx]
      exact if_congr (by omega) rfl rfl

/-- Host memory after one of its lines has been written. -/
theorem hostRaw_setHostLine (s : State) (hl : Nat) (d : BitVec 512) (x : Nat) :
    (s.setHostLine hl d).hostRaw x = if x / 64 = hl then lineByte d (x % 64) else s.hostRaw x := by
  refine (get_setHostLine_go hl d 64 s.hostMem x).trans ?_
  by_cases h : x / 64 = hl
  · rw [if_pos h, if_pos (by omega), show x - 64 * hl = x % 64 by omega]
  · rw [if_neg h, if_neg (by omega)]
    rfl

/-- A dirty line reaches host memory, and a clean or absent one changes nothing. -/
theorem hostRaw_cleanResv_some {s : State} {hl : Nat} {l : RLine} (h : s.resv.find hl = some l) (x : Nat) :
    (s.cleanResv hl).hostRaw x = if l.dirty ∧ x / 64 = hl then lineByte l.data (x % 64) else s.hostRaw x := by
  unfold State.cleanResv
  rw [h]
  by_cases hd : l.dirty = true
  · simp only [hd, if_true, true_and]
    exact hostRaw_setHostLine s hl l.data x
  · simp [hd]

theorem cleanResv_none {s : State} {hl : Nat} (h : s.resv.find hl = none) : s.cleanResv hl = s := by
  unfold State.cleanResv
  rw [h]

theorem cleanResv_moves (s : State) (hl : Nat) : ReservoirMoves s (s.cleanResv hl) := by
  unfold State.cleanResv
  split
  · split
    · rfl
    · rfl
  · rfl

/-- The line stays in the reservoir, clean. -/
theorem find_cleanResv (s : State) (hl k : Nat) : (s.cleanResv hl).resv.find k =
    if k = hl then (s.resv.find hl).map fun l => { l with dirty := false } else s.resv.find k := by
  unfold State.cleanResv
  split
  next l hf =>
    by_cases hd : l.dirty = true
    · rw [if_pos hd]
      refine (Table.find_put ..).trans ?_
      simp [hf]
    · rw [if_neg hd, hf]
      by_cases hk : k = hl
      · rw [if_pos hk, hk, hf, Option.map_some, ← Bool.not_eq_true _ |>.mp hd]
      · rw [if_neg hk]
  next hf =>
    rw [hf, Option.map_none]
    by_cases hk : k = hl
    · rw [if_pos hk, hk, hf]
    · rw [if_neg hk]

theorem dropResv_moves (s : State) (hl : Nat) : ReservoirMoves s (s.dropResv hl) :=
  reservoirMoves_trans (cleanResv_moves s hl) rfl

theorem find_dropResv (s : State) (hl k : Nat) :
    (s.dropResv hl).resv.find k = if k = hl then none else s.resv.find k := by
  refine (Table.find_drop _ hl k).trans ?_
  by_cases hk : k = hl
  · rw [if_pos hk, if_pos hk]
  · rw [if_neg hk, if_neg hk, find_cleanResv, if_neg hk]

theorem dropWithViews_moves (s : State) (hl : Nat) : ReservoirMoves s (s.dropWithViews hl) :=
  reservoirMoves_trans (dropResv_moves s hl) rfl

/-- A line of a view that is decoded from line `hl` (R169). -/
def State.derivedFrom (s : State) (hl l : Nat) : Bool :=
  match s.viewOf (64 * l) with
  | some (base, fmt) => viewSource base fmt l = hl
  | none => false

theorem dropWithViews_resv (s : State) (hl : Nat) : (s.dropWithViews hl).resv =
    (s.dropResv hl).resv.filter fun e => !(s.dropResv hl).derivedFrom hl e.1 := by
  refine List.filter_congr fun e _ => ?_
  unfold State.derivedFrom
  cases h : (s.dropResv hl).viewOf (64 * e.1) with
  | none => simp [h]
  | some p => simp [h]

/-- A line leaves the reservoir, and with it the view lines derived from it. -/
theorem dropWithViews_gone (s : State) (hl : Nat) : ReservoirLineGone s (s.dropWithViews hl) hl := by
  have hm := dropWithViews_moves s hl
  refine ⟨?_, (congrArg State.mem hm :), (congrArg State.cache hm :), fun x => ?_⟩
  · rw [dropWithViews_resv, Table.find_filter_key _ fun l => !(s.dropResv hl).derivedFrom hl l, find_dropResv, if_pos rfl,
      ite_self]
  · change (s.cleanResv hl).hostRaw x = _
    cases h : s.resv.find hl with
    | some l => exact hostRaw_cleanResv_some h x
    | none => rw [cleanResv_none h]

end Sys2Proof.Machine
end

section
/-! SUPPORT. Messages of a host, and the answers to its snoops (R124, R304, R408, R409). -/
namespace Sys2Proof.Machine
open Sys2Proof Sys2Proof.Claims

theorem hostRaw_congr {s t : State} (h : t.hostMem = s.hostMem) (x : Nat) : t.hostRaw x = s.hostRaw x := by
  rw [State.hostRaw, h, ← State.hostRaw]

theorem portUp_of_fromHost {s : State} (h : FromHost s) : s.portUp s.inp.port = true := h.1

theorem incOf_of_fromHost {s : State} (h : FromHost s) : s.inp.inc = s.incOf s.inp.port := h.2

/-- A message of a host whose link is up, with the present incarnation, has its effect. -/
theorem fromHost_of_fromHost {s : State} (h : FromHost s) (f : State → State) : s.fromHost f = f s := by
  unfold State.fromHost
  rw [if_neg (by simp [portUp_of_fromHost h]), if_pos (incOf_of_fromHost h)]

/-- A message with an earlier incarnation is dropped and counted. -/
theorem fromHost_stale {s : State} (hl : s.annex.linkUp.contains s.inp.port = true)
    (h : s.inp.inc ≠ s.incOf s.inp.port) (f : State → State) :
    s.fromHost f = { s with annex := { s.annex with stale := satInc s.annex.stale } } := by
  unfold State.fromHost
  have hp : s.portUp s.inp.port = true := hl
  rw [if_neg (by simp [hp]), if_neg h]

theorem ready_of_bootState {s : State} (h : s.annex.bootState = 3) : s.ready = true := decide_eq_true h

/-- No host's copy is called back where no host holds one. -/
theorem breakLinks_out {s : State} {l : Nat} (h : ∀ e ∈ s.hostCopies, e.2 ≠ l) : (s.breakLinks l).out = s.out := by
  have hn : (s.hostCopies.filter fun e => decide (e.2 = l)) = [] :=
    List.filter_eq_nil_iff.mpr fun e he => by simpa using h e he
  change (s.hostCopies.filter fun e => decide (e.2 = l)).map _ ++ s.out = s.out
  rw [hn, List.map_nil, List.nil_append]

/-- No strand has a link on a line whose links are broken. -/
theorem breakLinks_unlinked {s : State} {l n : Nat} {u : Strand} (h : (s.breakLinks l).strand n = some u) :
    u.slink ≠ some l ∧ ∀ e ∈ u.vlinks, e.2 ≠ l := by
  have hf : (s.breakLinks l).strand n = (s.strand n).map (unlinked fun k => decide (k = l)) :=
    Table.find_map s.strands (fun _ => unlinked fun k => decide (k = l)) n
  rw [hf] at h
  obtain ⟨t, -, rfl⟩ := Option.map_eq_some_iff.mp h
  refine ⟨fun hs => ?_, fun e he => ?_⟩
  · simpa using (Option.filter_eq_some_iff.mp hs).2
  · simpa using (List.mem_filter.mp he).2

/-- Of the machine a snoop that takes the line changes the reservoir, host memory, and what stands on the line. -/
theorem snoop_eq (s : State) (hl : Nat) : s.snoop hl =
    { s with
      resv := (s.dropWithViews hl).resv, hostMem := (s.dropWithViews hl).hostMem
      hostPoison := (s.dropWithViews hl).hostPoison, strands := (s.snoop hl).strands, rlinks := (s.snoop hl).rlinks
      hostCopies := (s.snoop hl).hostCopies, out := (s.snoop hl).out } := by
  have hm := dropWithViews_moves s hl
  unfold State.snoop
  generalize s.dropWithViews hl = z at hm ⊢
  rw [hm]
  rfl

theorem snoop_inp (s : State) (hl : Nat) : (s.snoop hl).inp = s.inp := (congrArg State.inp (snoop_eq s hl) :)

/-- Host memory receives the line that the host writes, poisoned or not (R408). -/
def State.hostWrites (s : State) (hl : Nat) (d : BitVec 512) (poison : Bool) : State :=
  let t := s.setHostLine hl d
  if poison then { t with hostPoison := hl :: t.hostPoison } else t

theorem hostWrites_eq (s : State) (hl : Nat) (d : BitVec 512) (poison : Bool) : s.hostWrites hl d poison =
    { s with hostMem := (s.setHostLine hl d).hostMem, hostPoison := (s.hostWrites hl d poison).hostPoison } := by
  cases poison
  · rfl
  · rfl

theorem hostRaw_hostWrites (s : State) (hl : Nat) (d : BitVec 512) (poison : Bool) (x : Nat) :
    (s.hostWrites hl d poison).hostRaw x = if x / 64 = hl then lineByte d (x % 64) else s.hostRaw x := by
  rw [hostWrites_eq]
  exact hostRaw_setHostLine s hl d x

theorem mem_hostPoison_hostWrites (s : State) (hl : Nat) (d : BitVec 512) (poison : Bool) :
    hl ∈ (s.hostWrites hl d poison).hostPoison ↔ poison = true := by
  have hno : hl ∉ (s.setHostLine hl d).hostPoison := fun h => by simpa using (List.mem_filter.mp h).2
  unfold State.hostWrites
  cases poison
  · simpa using hno
  · simp

section
variable {s : State} (hh : FromHost s) (hready : s.annex.bootState = 3)
include hh hready

theorem hostSnoop_shared (hc : s.inp.code = 2) : exec .hostSnoop s = .next (s.snoopShared (s.inp.addr.toNat / 64)) := by
  change Host.Outcome.next _ = _
  rw [fromHost_of_fromHost hh]
  simp only [ready_of_bootState hready, hc, Bool.not_true, Bool.false_eq_true, if_false, if_true]

theorem hostSnoop_taken (hc : s.inp.code ≠ 2) (hl : s.inp.line = none) :
    exec .hostSnoop s = .next (s.snoop (s.inp.addr.toNat / 64)) := by
  have hi := snoop_inp s (s.inp.addr.toNat / 64)
  change Host.Outcome.next _ = _
  rw [fromHost_of_fromHost hh]
  simp only [ready_of_bootState hready, hc, Bool.not_true, Bool.false_eq_true, if_false, hi, hl]

theorem hostSnoop_written (hc : s.inp.code ≠ 2) {d : BitVec 512} (hl : s.inp.line = some d) :
    exec .hostSnoop s = .next ((s.snoop (s.inp.addr.toNat / 64)).hostWrites (s.inp.addr.toNat / 64) d
      (decide (s.inp.code = 1))) := by
  have hi := snoop_inp s (s.inp.addr.toNat / 64)
  have hi' : ((s.snoop (s.inp.addr.toNat / 64)).setHostLine (s.inp.addr.toNat / 64) d).inp = s.inp := hi
  change Host.Outcome.next _ = _
  rw [fromHost_of_fromHost hh, State.hostWrites]
  simp only [ready_of_bootState hready, hc, Bool.not_true, Bool.false_eq_true, if_false, hi, hl, hi', decide_eq_true_eq]
end

/-- What a snoop that takes the line leaves: the line is gone, the answer is sent, and no link on the line stands. -/
theorem snoop_spec {s : State} {hl : Nat} (hcopies : ∀ e ∈ s.hostCopies, e.2 ≠ 2 ^ 60 + hl) :
    (s.snoop hl).out = .snoopReply s.inp.port s.sender.2 hl (s.dirtyLine hl) :: s.out ∧
      ∀ n u, (s.snoop hl).strand n = some u → u.slink ≠ some (2 ^ 60 + hl) ∧ ∀ e ∈ u.vlinks, e.2 ≠ 2 ^ 60 + hl := by
  have hm := dropWithViews_moves s hl
  have hsend : (s.snoop hl).out = .snoopReply (s.dropWithViews hl).inp.port (s.dropWithViews hl).sender.2 hl
    (s.dirtyLine hl) :: ((s.dropWithViews hl).breakLinks (2 ^ 60 + hl)).out := rfl
  have hc : (s.dropWithViews hl).hostCopies = s.hostCopies := (congrArg State.hostCopies hm :)
  refine ⟨?_, fun n u => breakLinks_unlinked⟩
  rw [hsend, breakLinks_out (by rwa [hc]), hm]
  rfl

/-- A snoop that takes the line, with the host's write behind it (R169, R304, R408). -/
theorem snoop_takes (s : State) (hh : FromHost s) (hready : s.annex.bootState = 3)
    (hcopies : ∀ e ∈ s.hostCopies, e.2 ≠ 2 ^ 60 + s.inp.addr.toNat / 64) (hc : s.inp.code ≠ 2) :
    let hl := s.inp.addr.toNat / 64
    ∃ t z, exec .hostSnoop s = .next t ∧ ReservoirLineGone s z hl ∧
      t.out = .snoopReply s.inp.port s.sender.2 hl (s.dirtyLine hl) :: s.out ∧
      t.resv = z.resv ∧ t.mem = s.mem ∧ t.cache = s.cache ∧
      (∀ x, t.hostRaw x = match s.inp.line with
        | some d => if x / 64 = hl then lineByte d (x % 64) else z.hostRaw x
        | none => z.hostRaw x) ∧
      (s.inp.line.isSome = true → (hl ∈ t.hostPoison ↔ s.inp.code = 1)) ∧
      ∀ n u, t.strand n = some u → u.slink ≠ some (2 ^ 60 + hl) ∧ ∀ e ∈ u.vlinks, e.2 ≠ 2 ^ 60 + hl := by
  intro hl
  obtain ⟨hout, hlinks⟩ := snoop_spec hcopies
  have hgone := dropWithViews_gone s hl
  have hs := snoop_eq s hl
  have hresv : (s.snoop hl).resv = (s.dropWithViews hl).resv := (congrArg State.resv hs :)
  have hhost : (s.snoop hl).hostMem = (s.dropWithViews hl).hostMem := (congrArg State.hostMem hs :)
  have hmem : (s.snoop hl).mem = s.mem := (congrArg State.mem hs :)
  have hcache : (s.snoop hl).cache = s.cache := (congrArg State.cache hs :)
  cases hline : s.inp.line with
  | none =>
    exact ⟨s.snoop hl, s.dropWithViews hl, hostSnoop_taken hh hready hc hline, hgone, hout, hresv, hmem, hcache,
      hostRaw_congr hhost, by simp, hlinks⟩
  | some d =>
    have he := hostWrites_eq (s.snoop hl) hl d (decide (s.inp.code = 1))
    refine ⟨(s.snoop hl).hostWrites hl d (decide (s.inp.code = 1)), s.dropWithViews hl,
      hostSnoop_written hh hready hc hline, hgone, (congrArg State.out he :).trans hout,
      (congrArg State.resv he :).trans hresv, (congrArg State.mem he :).trans hmem,
      (congrArg State.cache he :).trans hcache, fun x => ?_, fun _ => ?_, fun n u hu => hlinks n u ?_⟩
    · rw [hostRaw_hostWrites, hostRaw_congr hhost]
    · rw [mem_hostPoison_hostWrites, decide_eq_true_eq]
    · rwa [he] at hu

theorem dirtyLine_some {s : State} {hl : Nat} {l : RLine} (h : s.resv.find hl = some l) :
    s.dirtyLine hl = if l.dirty then some l.data else none := by
  rw [State.dirtyLine, h, Option.bind_some]

theorem hostByte_some {s : State} {x : Nat} {l : RLine} (h : s.resv.find (x / 64) = some l) :
    s.hostByte x = lineByte l.data (x % 64) := by
  rw [State.hostByte, h]

theorem hostByte_none {s : State} {x : Nat} (h : s.resv.find (x / 64) = none) : s.hostByte x = s.hostRaw x := by
  rw [State.hostByte, h]

/-- The reservoir line that the host has read: clean and shared (R304). -/
theorem snoopShared_some {s : State} {hl : Nat} {l : RLine} (h : s.resv.find hl = some l) : s.snoopShared hl =
    ({ s.cleanResv hl with resv := (s.cleanResv hl).resv.put hl { l with dirty := false, owned := false } }).snoopReply hl
      (s.dirtyLine hl) := by
  unfold State.snoopShared
  simp only [find_cleanResv, h, if_true, Option.map_some]

theorem snoopShared_none {s : State} {hl : Nat} (h : s.resv.find hl = none) :
    s.snoopShared hl = s.snoopReply hl none := by
  unfold State.snoopShared
  simp only [cleanResv_none h, h, State.dirtyLine, Option.bind_none]

/-- Only the reservoir and host memory change, and the answer is sent. -/
theorem snoopShared_eq (s : State) (hl : Nat) : s.snoopShared hl =
    { s with
      resv := (s.snoopShared hl).resv, hostMem := (s.cleanResv hl).hostMem, hostPoison := (s.cleanResv hl).hostPoison
      out := .snoopReply s.inp.port s.sender.2 hl (s.dirtyLine hl) :: s.out } := by
  cases h : s.resv.find hl with
  | none => rw [snoopShared_none h, cleanResv_none h, State.dirtyLine, h]; rfl
  | some l =>
    have hm := cleanResv_moves s hl
    rw [snoopShared_some h]
    generalize s.cleanResv hl = z at hm ⊢
    rw [hm]
    rfl

theorem find_snoopShared (s : State) (hl k : Nat) : (s.snoopShared hl).resv.find k =
    if k = hl then (s.resv.find hl).map fun l => { l with dirty := false, owned := false } else s.resv.find k := by
  cases h : s.resv.find hl with
  | none =>
    have hr : (s.snoopShared hl).resv = s.resv := (congrArg State.resv (snoopShared_none h) :)
    rw [hr]
    by_cases hk : k = hl
    · rw [if_pos hk, hk, h, Option.map_none]
    · rw [if_neg hk]
  | some l =>
    have hr : (s.snoopShared hl).resv = _ := (congrArg State.resv (snoopShared_some h) :)
    rw [hr]
    refine (Table.find_put ..).trans ?_
    by_cases hk : k = hl
    · rw [if_pos hk, if_pos hk, Option.map_some]
    · rw [if_neg hk, if_neg hk, find_cleanResv, if_neg hk]

/-- A snoop for the host's read leaves the line, clean and shared, and its dirty data reach host memory (R304). -/
theorem snoop_shares (s : State) (hl : Nat) :
    let t := s.snoopShared hl
    t.out = .snoopReply s.inp.port s.sender.2 hl (s.dirtyLine hl) :: s.out ∧ t.strands = s.strands ∧
      t.mem = s.mem ∧ t.cache = s.cache ∧ (∀ x, t.hostByte x = s.hostByte x) ∧
      (∀ x, t.hostRaw x = if x / 64 = hl ∧ (s.dirtyLine hl).isSome = true then s.hostByte x else s.hostRaw x) ∧
      t.resv.find hl = (s.resv.find hl).map fun l => { l with dirty := false, owned := false } := by
  intro t
  have ht := snoopShared_eq s hl
  have hraw (x : Nat) : t.hostRaw x = (s.cleanResv hl).hostRaw x := hostRaw_congr (congrArg State.hostMem ht :) x
  have hfind (k : Nat) := find_snoopShared s hl k
  refine ⟨(congrArg State.out ht :), (congrArg State.strands ht :), (congrArg State.mem ht :), (congrArg State.cache ht :),
    fun x => ?_, fun x => ?_, (hfind hl).trans (if_pos rfl)⟩
  · by_cases hx : x / 64 = hl
    · have hk := (hfind (x / 64)).trans (if_pos hx)
      cases h : s.resv.find hl with
      | none => rw [hostByte_none (hk.trans (by rw [h]; rfl)), hostByte_none (hx ▸ h), hraw, cleanResv_none h]
      | some l => rw [hostByte_some (hk.trans (by rw [h]; rfl)), hostByte_some (hx ▸ h)]
    · have hk := (hfind (x / 64)).trans (if_neg hx)
      have hr : t.hostRaw x = s.hostRaw x := by
        rw [hraw]
        cases h : s.resv.find hl with
        | none => rw [cleanResv_none h]
        | some l => rw [hostRaw_cleanResv_some h, if_neg fun hc => hx hc.2]
      rw [State.hostByte, State.hostByte, hk, hr]
  · rw [hraw]
    cases h : s.resv.find hl with
    | none => rw [cleanResv_none h, State.dirtyLine, h]; simp
    | some l =>
      rw [hostRaw_cleanResv_some h, dirtyLine_some h]
      by_cases hx : x / 64 = hl
      · rw [hostByte_some (hx ▸ h)]
        by_cases hd : l.dirty = true
        · simp [hd]
        · simp [hd]
      · simp [hx]

/-- Snoops for a host's write and for its read (R169, R304, R408). -/
theorem snoopsAreAnswered : SnoopsAreAnswered := by
  intro s hl dirty reply hh hready hcopies
  exact ⟨snoop_takes s hh hready hcopies, fun hc => ⟨_, hostSnoop_shared hh hready hc, snoop_shares s hl⟩⟩

end Sys2Proof.Machine
end

section
/-! SUPPORT. Device memory through the hosts' windows (R110, R112, R170, R408, R409). -/
namespace Sys2Proof.Machine
open Sys2Proof Sys2Proof.Claims

/-! ### Bytes that are written one at a time -/

theorem migOf_congr {s t : State} (h : t.basins = s.basins) (x : Nat) : t.migOf x = s.migOf x := by
  rw [State.migOf, h, ← State.migOf]

theorem migOf_of_stores {s t : State} (h : s.Stores t) (x : Nat) : t.migOf x = s.migOf x :=
  migOf_congr (congrArg State.basins h :) x

theorem setByteAt_hostCopies (s : State) (a : Nat) (b : Byte) : (s.setByteAt a b).hostCopies = s.hostCopies := by
  unfold State.setByteAt
  simp only
  split
  · rfl
  · rfl

theorem writeBytes_hostCopies (n : Nat) (s : State) (a v : Nat) : (s.writeBytes a n v).hostCopies = s.hostCopies := by
  induction n generalizing s a v with
  | zero => rfl
  | succ n ih => exact (ih _ _ _).trans (setByteAt_hostCopies s a _)

/-- A write outside every migration calls back the hosts' copies of its line (R170, R408). -/
theorem mem_hostCopies_writeCo {s : State} {a : Nat} (n v : Nat) (h : s.migOf a = []) (c : BitVec 1 × Nat) :
    c ∈ (s.writeCo a n v).hostCopies ↔ c ∈ s.hostCopies ∧ c.2 ≠ a / 64 := by
  have hc : (s.writeCo a n v).hostCopies =
      (s.writeBytes a n v).hostCopies.filter fun e => !decide (e.2 = a / 64) := by
    rw [State.writeCo, migWrites_none s a h]
    rfl
  rw [hc, writeBytes_hostCopies, List.mem_filter]
  simp

theorem leByte_zero_toNat (b : Byte) : leByte b.toNat 0 = b :=
  BitVec.eq_of_toNat_eq (by simp [leByte])

/-- One named byte of a line written. -/
def State.putByte (s : State) (pa : Nat) (d : BitVec 512) (bytes : BitVec 64) (i : Nat) : State :=
  if bytes.getLsbD i then s.writeCo (pa + i) 1 (lineByte d i).toNat else s

theorem putByte_stores (s : State) (pa : Nat) (d : BitVec 512) (bytes : BitVec 64) (i : Nat) :
    s.Stores (s.putByte pa d bytes i) := by
  unfold State.putByte
  split
  · exact writeCo_stores s _ 1 _
  · rfl

theorem byteAt_putByte {s : State} (hm : ∀ x, s.migOf x = []) (pa : Nat) (d : BitVec 512) (bytes : BitVec 64) (i x : Nat) :
    (s.putByte pa d bytes i).byteAt x = if x = pa + i ∧ bytes.getLsbD i = true then lineByte d i else s.byteAt x := by
  unfold State.putByte
  by_cases hb : bytes.getLsbD i = true
  · rw [if_pos hb, byteAt_writeCo s _ 1 _ x (hm _)]
    by_cases hx : x = pa + i
    · rw [if_pos (by omega), if_pos ⟨hx, hb⟩, hx, Nat.sub_self, leByte_zero_toNat]
    · rw [if_neg (by omega), if_neg fun h => hx h.1]
  · rw [if_neg hb, if_neg fun h => hb h.2]

/-- The named bytes of a line from a list of places. -/
theorem byteAt_putBytes {s : State} (hm : ∀ x, s.migOf x = []) (pa : Nat) (d : BitVec 512) (bytes : BitVec 64)
    (l : List Nat) (x : Nat) :
    (l.foldl (fun s i => s.putByte pa d bytes i) s).byteAt x =
      if pa ≤ x ∧ x - pa ∈ l ∧ bytes.getLsbD (x - pa) = true then lineByte d (x - pa) else s.byteAt x := by
  induction l generalizing s with
  | nil => simp
  | cons i r ih =>
    have hm' (y : Nat) : (s.putByte pa d bytes i).migOf y = [] := (migOf_of_stores (putByte_stores s pa d bytes i) y).trans (hm y)
    rw [List.foldl_cons, ih hm', byteAt_putByte hm]
    by_cases hx : x = pa + i
    · have hi : x - pa = i := by omega
      rw [hi]
      by_cases hb : bytes.getLsbD i = true
      · simp [hb, hx]
      · simp [hb]
    · have hi : pa ≤ x → x - pa ≠ i := by omega
      by_cases hp : pa ≤ x
      · simp [hx, hp, hi hp]
      · simp [hx, hp]

theorem hostCopies_putBytes {s : State} (hm : ∀ x, s.migOf x = []) {pa : Nat} (ha : pa % 64 = 0) (d : BitVec 512)
    (bytes : BitVec 64) (l : List Nat) (hl : ∀ i ∈ l, i < 64) (c : BitVec 1 × Nat) :
    c ∈ (l.foldl (fun s i => s.putByte pa d bytes i) s).hostCopies ↔
      c ∈ s.hostCopies ∧ ((∃ i ∈ l, bytes.getLsbD i = true) → c.2 ≠ pa / 64) := by
  induction l generalizing s with
  | nil => simp
  | cons i r ih =>
    have hm' (y : Nat) : (s.putByte pa d bytes i).migOf y = [] := (migOf_of_stores (putByte_stores s pa d bytes i) y).trans (hm y)
    have hi : i < 64 := hl i List.mem_cons_self
    rw [List.foldl_cons, ih hm' fun j hj => hl j (List.mem_cons_of_mem i hj)]
    unfold State.putByte
    by_cases hb : bytes.getLsbD i = true
    · rw [if_pos hb, mem_hostCopies_writeCo 1 _ (hm _), show (pa + i) / 64 = pa / 64 by omega]
      simp only [List.mem_cons, exists_eq_or_imp, hb, true_or, true_imp_iff]
      exact ⟨fun h => h.1, fun h => ⟨h, fun _ => h.2⟩⟩
    · simp [hb]

theorem putLine_eq (s : State) (pa : Nat) (d : BitVec 512) (bytes : BitVec 64) :
    s.putLine pa d bytes = (List.range 64).foldl (fun s i => s.putByte pa d bytes i) s := rfl

/-- The named bytes of a line are written, and no other (R170). -/
theorem byteAt_putLine {s : State} (hm : ∀ x, s.migOf x = []) (pa : Nat) (d : BitVec 512) (bytes : BitVec 64) (x : Nat) :
    (s.putLine pa d bytes).byteAt x =
      if pa ≤ x ∧ x < pa + 64 ∧ bytes.getLsbD (x - pa) = true then lineByte d (x - pa) else s.byteAt x := by
  rw [putLine_eq, byteAt_putBytes hm]
  refine if_congr (and_congr_right fun h => ?_) rfl rfl
  rw [List.mem_range, Nat.sub_lt_iff_lt_add h, Nat.add_comm]

theorem exists_getLsbD_of_ne_zero {b : BitVec 64} (h : b ≠ 0) : ∃ i ∈ List.range 64, b.getLsbD i = true := by
  by_contra hno
  refine h (BitVec.eq_of_getLsbD_eq fun i hi => ?_)
  have := fun hb => hno ⟨i, List.mem_range.mpr hi, hb⟩
  simpa using this

theorem mem_hostCopies_putLine {s : State} (hm : ∀ x, s.migOf x = []) {pa : Nat} (ha : pa % 64 = 0) (d : BitVec 512)
    {bytes : BitVec 64} (hb : bytes ≠ 0) (c : BitVec 1 × Nat) :
    c ∈ (s.putLine pa d bytes).hostCopies ↔ c ∈ s.hostCopies ∧ c.2 ≠ pa / 64 := by
  rw [putLine_eq, hostCopies_putBytes hm ha d bytes _ (fun i => List.mem_range.mp)]
  exact and_congr_right fun _ => ⟨fun h => h (exists_getLsbD_of_ne_zero hb), fun h _ => h⟩

/-! ### A line as its home serves it -/

theorem checkOf_of_clean {s : State} (h : s.errs = []) (pa n : Nat) : s.checkOf pa n = 0 := by
  unfold State.checkOf
  rw [h]
  split
  · rfl
  · rfl

theorem corrected_of_clean {s : State} (h : s.errs = []) (pa n : Nat) : s.corrected pa n = s := by
  unfold State.corrected
  rw [h]
  split
  · rfl
  · rfl

theorem homeByte_of_clean {s : State} (h : s.errs = []) (x : Nat) : s.homeByte x = s.byteAt x := by
  unfold State.homeByte State.byteAt State.fixedByte
  rw [h]
  rfl

theorem homeLine_of_clean {s : State} (he : s.errs = []) {pa : Nat} (hm : s.migOf pa = []) :
    s.homeLine pa = (some (s.lineNow (pa / 64)), s) := by
  unfold State.homeLine State.lostAt
  simp only [migRead_none s pa hm, checkOf_of_clean he, corrected_of_clean he]
  simp

theorem lineByte_lineNow {s : State} (he : s.errs = []) {pa : Nat} (ha : pa % 64 = 0) {i : Nat} (hi : i < 64) :
    lineByte (s.lineNow (pa / 64)) i = s.byteAt (pa + i) := by
  rw [State.lineNow, lineByte_leRead _ _ i hi, homeByte_of_clean he, show 64 * (pa / 64) = pa by omega]

/-! ### Where a window leads -/

theorem granuleOk_iff (s : State) (base : Nat) (pools : Bool) : s.granuleOk base pools = true ↔
    isDevMem base = true ∧ isDevMem (base + 2 ^ 20) = true ∧
      (pools = true → s.inPool base = false ∧ s.inPool (base + 2 ^ 20) = false) := by
  unfold State.granuleOk
  cases pools <;> simp [and_assoc]

theorem hdmTarget_direct {s : State} {p off : Nat} (hw : s.hdmtWritten.get false p = false)
    (hg : s.granuleOk (off / 2 ^ 21 * 2 ^ 21) false = true) : s.hdmTarget p off = some off := by
  unfold State.hdmTarget
  simp only [hw, hg, Bool.not_false, if_true]

section
variable {s : State} {p off : Nat} (hw : s.hdmtWritten.get false p = true)
  (ha : isDevMem ((s.hdmt.get 0 p).toNat * 4096 + 8 * (off / 2 ^ 21)) = true)
include hw ha

theorem hdmTarget_table {e : Nat} (he : s.readCo ((s.hdmt.get 0 p).toNat * 4096 + 8 * (off / 2 ^ 21)) 8 = e)
    (hv : e % 2 ^ 21 = 1) (hlt : e < 2 ^ 52) (hg : s.granuleOk (e - 1) true = true) :
    s.hdmTarget p off = some (e - 1 + off % 2 ^ 21) := by
  have hbase : e / 2 ^ 21 * 2 ^ 21 = e - 1 := by omega
  unfold State.hdmTarget
  simp only [hw, ha, he, hbase, hv, hlt, hg, Bool.not_true, Bool.false_eq_true, if_false, decide_true, Bool.and_self, if_true]

theorem hdmTarget_invalid {e : Nat} (he : s.readCo ((s.hdmt.get 0 p).toNat * 4096 + 8 * (off / 2 ^ 21)) 8 = e)
    (hv : e % 2 = 0) : s.hdmTarget p off = none := by
  have h1 : e % 2 ^ 21 ≠ 1 := by omega
  unfold State.hdmTarget
  simp only [hw, ha, he, h1, Bool.not_true, Bool.false_eq_true, if_false, decide_false, Bool.false_and]
end

/-! ### Accesses of a host -/

section
variable {s : State} {p : BitVec 1} {off : Nat} (hup : s.portUp p = true)
include hup

theorem hdm_beyond (h : s.windowSize p ≤ off) : s.hdm p off = s := by
  unfold State.hdm
  simp only [hup, h, Bool.not_true, decide_true, Bool.or_true, if_true]

variable (hin : off < s.windowSize p)
include hin

theorem hdm_stale_write {d : BitVec 512} (hl : s.inp.line = some d) (h : s.inp.inc ≠ s.incOf p) :
    s.hdm p off = s.fromHost id := by
  unfold State.hdm
  simp only [hup, Nat.not_le.mpr hin, hl, h, Bool.not_true, decide_false, Bool.or_false, Bool.false_eq_true, if_false,
    ne_eq, not_false_eq_true, if_true]

theorem hdm_stale_read (hl : s.inp.line = none) (h : s.inp.inc ≠ s.incOf p) :
    s.hdm p off = (s.fromHost id).poisonedRead p off := by
  unfold State.hdm
  simp only [hup, Nat.not_le.mpr hin, hl, h, Bool.not_true, decide_false, Bool.or_false, Bool.false_eq_true, if_false,
    ne_eq, not_false_eq_true, if_true]

variable (hinc : s.inp.inc = s.incOf p) (hidle : (s.retained || !s.ready) = false)
include hinc hidle

theorem hdm_write {d : BitVec 512} (hl : s.inp.line = some d) {pa : Nat} (ht : s.hdmTarget p.toNat off = some pa)
    (hlease : s.leased (pa / 64) = false) : s.hdm p off = (s.hostGives p (pa / 64)).putLine pa d s.inp.value := by
  unfold State.hdm
  simp only [hup, Nat.not_le.mpr hin, hl, hinc, hidle, ht, hlease, Bool.not_true, decide_false, Bool.or_false,
    Bool.false_eq_true, if_false, ne_eq, not_true_eq_false]

theorem hdm_read (hl : s.inp.line = none) {pa : Nat} (ht : s.hdmTarget p.toNat off = some pa) {d : BitVec 512} {t : State}
    (hd : s.homeLine pa = (some d, t)) :
    s.hdm p off = (t.hostTakes p (pa / 64)).send (.hostData p s.sender.2 (off / 64) d false) := by
  unfold State.hdm
  simp only [hup, Nat.not_le.mpr hin, hl, hinc, hidle, ht, hd, Bool.not_true, decide_false, Bool.or_false,
    Bool.false_eq_true, if_false, ne_eq, not_true_eq_false]

theorem hdm_read_invalid (hl : s.inp.line = none) (ht : s.hdmTarget p.toNat off = none) :
    s.hdm p off = (s.report 0 { kind := 0x0A, index := p.toNat, addr := off }).poisonedRead p off := by
  unfold State.hdm
  simp only [hup, Nat.not_le.mpr hin, hl, hinc, hidle, ht, Bool.not_true, decide_false, Bool.or_false,
    Bool.false_eq_true, if_false, ne_eq, not_true_eq_false]
end

end Sys2Proof.Machine
end

section
/-! SUPPORT. What a host's access through its window does, as the rules state it (R110, R170, R408, R409). -/
namespace Sys2Proof.Machine
open Sys2Proof Sys2Proof.Claims

theorem sender_report (s : State) (b : Nat) (r : Report) : (s.report b r).sender = s.sender := by
  rw [State.sender, (report_eq s b r).1]
  rfl

/-- A READY device that is not suspended serves its windows (R115, R466). -/
theorem serves_of_awake {s : State} (h3 : s.annex.bootState = 3) (h4 : s.annex.suspState ≠ 4)
    (h5 : s.annex.suspState ≠ 5) : (s.retained || !s.ready) = false := by
  rw [State.retained, ready_of_bootState h3, decide_eq_false h4, decide_eq_false h5]
  rfl

/-- A host that has read a line holds a copy of it. -/
theorem hostTakes_spec (s : State) (p : BitVec 1) (line : Nat) :
    s.hostTakes p line = { s with hostCopies := (s.hostTakes p line).hostCopies } ∧
      ∀ c, c ∈ (s.hostTakes p line).hostCopies ↔ c = (p, line) ∨ c ∈ s.hostCopies := by
  unfold State.hostTakes
  by_cases h : s.hostCopies.contains (p, line) = true
  · rw [if_pos h]
    refine ⟨rfl, fun c => ⟨.inr, fun hc => hc.elim (fun hc => ?_) id⟩⟩
    rw [hc]
    exact List.contains_iff_mem.mp h
  · rw [if_neg h]
    exact ⟨rfl, fun c => List.mem_cons⟩

section
variable {s : State} {off pa : Nat} (hup : s.portUp s.inp.port = true) (hoff : off % 64 = 0)
  (hin : off < s.windowSize s.inp.port) (hinc : s.inp.inc = s.incOf s.inp.port)
  (hidle : (s.retained || !s.ready) = false) (hmig : ∀ x, s.migOf x = [])
  (ht : s.hdmTarget s.inp.port.toNat off = some pa) (ha : pa % 64 = 0)
include hup hin hinc hidle hmig ht ha

/-- A read hands the host a copy of the line (R170, R408). -/
theorem hdm_reads_line (herrs : s.errs = []) (hl : s.inp.line = none) :
    ∃ t d, s.hdm s.inp.port off = t ∧ (s.inp.port, pa / 64) ∈ t.hostCopies ∧
      (∀ c, c ∈ t.hostCopies ↔ c = (s.inp.port, pa / 64) ∨ c ∈ s.hostCopies) ∧
      t = { s with
        hostCopies := t.hostCopies, out := .hostData s.inp.port s.sender.2 (off / 64) d false :: s.out } ∧
      ∀ i, i < 64 → lineByte d i = s.byteAt (pa + i) := by
  obtain ⟨heq, hmem⟩ := hostTakes_spec s s.inp.port (pa / 64)
  refine ⟨_, s.lineNow (pa / 64), hdm_read hup hin hinc hidle hl ht (homeLine_of_clean herrs (hmig pa)), (hmem _).mpr (.inl rfl),
    hmem, ?_, fun i hi => lineByte_lineNow herrs ha hi⟩
  rw [heq]
  rfl

/-- A write puts the named bytes into the line and calls back the copies of it (R170, R408). -/
theorem hdm_writes_line {d : BitVec 512} (hl : s.inp.line = some d) (hlease : s.leased (pa / 64) = false) :
    ∃ t, s.hdm s.inp.port off = t ∧
      (∀ x, t.byteAt x = if pa ≤ x ∧ x < pa + 64 ∧ s.inp.value.getLsbD (x - pa) = true then lineByte d (x - pa)
        else s.byteAt x) ∧
      (s.inp.value ≠ 0 → ∀ c, c ∈ t.hostCopies ↔ c ∈ s.hostCopies ∧ c.2 ≠ pa / 64) := by
  have hmig' (x : Nat) : (s.hostGives s.inp.port (pa / 64)).migOf x = [] := hmig x
  refine ⟨_, hdm_write hup hin hinc hidle hl ht hlease, byteAt_putLine hmig' pa d _, fun hv c => ?_⟩
  rw [mem_hostCopies_putLine hmig' ha d hv c]
  refine ⟨fun ⟨h, hc⟩ => ⟨List.mem_of_mem_filter h, hc⟩, fun ⟨h, hc⟩ => ⟨List.mem_filter.mpr ⟨h, ?_⟩, hc⟩⟩
  have hne : c ≠ (s.inp.port, pa / 64) := fun he => hc (by rw [he])
  simpa using hne
end

/-- The address that an offset of a window reaches, directly or through a valid entry of the window's table. -/
theorem hdmTarget_reaches {s : State} {p off pa : Nat}
    (hd : isDevMem (pa / 2 ^ 21 * 2 ^ 21) = true) (hd' : isDevMem (pa / 2 ^ 21 * 2 ^ 21 + 2 ^ 20) = true)
    (h : (s.hdmtWritten.get false p = false ∧ pa = off) ∨
      (s.hdmtWritten.get false p = true ∧ isDevMem ((s.hdmt.get 0 p).toNat * 4096 + 8 * (off / 2 ^ 21)) = true ∧
        s.readCo ((s.hdmt.get 0 p).toNat * 4096 + 8 * (off / 2 ^ 21)) 8 % 2 ^ 21 = 1 ∧
        s.readCo ((s.hdmt.get 0 p).toNat * 4096 + 8 * (off / 2 ^ 21)) 8 < 2 ^ 52 ∧
        pa = s.readCo ((s.hdmt.get 0 p).toNat * 4096 + 8 * (off / 2 ^ 21)) 8 - 1 + off % 2 ^ 21 ∧
        s.inPool (pa / 2 ^ 21 * 2 ^ 21) = false ∧ s.inPool (pa / 2 ^ 21 * 2 ^ 21 + 2 ^ 20) = false)) :
    s.hdmTarget p off = some pa ∧ (off % 64 = 0 → pa % 64 = 0) := by
  rcases h with ⟨hw, rfl⟩ | ⟨hw, ha, hv, hlt, hpa, hp, hp'⟩
  · exact ⟨hdmTarget_direct hw ((granuleOk_iff s _ false).mpr ⟨hd, hd', by simp⟩), id⟩
  · generalize he : s.readCo ((s.hdmt.get 0 p).toNat * 4096 + 8 * (off / 2 ^ 21)) 8 = e at hv hlt hpa
    have hbase : pa / 2 ^ 21 * 2 ^ 21 = e - 1 := by omega
    rw [hbase] at hd hd' hp hp'
    refine ⟨?_, by omega⟩
    rw [hpa]
    exact hdmTarget_table hw ha he hv hlt ((granuleOk_iff s _ true).mpr ⟨hd, hd', fun _ => ⟨hp, hp'⟩⟩)

/-- A host's accesses through its window (R110, R112, R170, R408, R409). -/
theorem windowsReachMemory : WindowsReachMemory := by
  intro s pa hup port p off base a e window fresh old poison
  have hexec : exec .hdmAccess s = .next (s.hdm port off) := rfl
  have hoff : off % 64 = 0 := Nat.mul_mod_left _ _
  have hstale (h : ¬ fresh) : s.fromHost id = old := fromHost_stale hup h id
  refine ⟨fun h => ?_, fun hin h => ?_, fun hin hfresh h3 h4 h5 herrs hmig => ⟨?_, ?_⟩⟩
  · rw [hexec, hdm_beyond hup h]
  · rw [hexec]
    cases hl : s.inp.line with
    | some d => rw [hdm_stale_write hup hin hl h, hstale h]; rfl
    | none => rw [hdm_stale_read hup hin hl h, hstale h]; rfl
  · intro ⟨hd, hd', hreach⟩
    obtain ⟨ht, ha⟩ := hdmTarget_reaches hd hd' hreach
    have hidle := serves_of_awake h3 h4 h5
    refine ⟨fun hl => ?_, fun d hl hlease => ?_⟩
    · obtain ⟨t, d, h, hrest⟩ := hdm_reads_line hup hin hfresh hidle hmig ht (ha hoff) herrs hl
      exact ⟨t, d, by rw [hexec, h], hrest⟩
    · obtain ⟨t, h, hrest⟩ := hdm_writes_line hup hin hfresh hidle hmig ht (ha hoff) hl hlease
      exact ⟨t, by rw [hexec, h], hrest⟩
  · intro hw ha he hl
    have hidle := serves_of_awake h3 h4 h5
    refine ⟨_, by rw [hexec, hdm_read_invalid hup hin hfresh hidle hl (hdmTarget_invalid hw ha rfl he)], rfl, ?_⟩
    rw [State.poisonedRead, sender_report]
    rfl

end Sys2Proof.Machine
end

section
/-! SUPPORT. Copies that leave the caches (R174, R301, R304, R328, R400). -/
namespace Sys2Proof.Machine
open Sys2Proof Sys2Proof.Claims

theorem rawByte_congr {s t : State} (h : t.mem = s.mem) (x : Nat) : t.rawByte x = s.rawByte x := by
  rw [State.rawByte, h, ← State.rawByte]

theorem rawByte_writeBack_go (line : Nat) (d : BitVec 512) (n : Nat) (s : State) (x : Nat) :
    (State.writeBack.go line d s n).rawByte x =
      if 64 * line ≤ x ∧ x < 64 * line + n then lineByte d (x - 64 * line) else s.rawByte x := by
  induction n generalizing s with
  | zero => rw [if_neg (by omega)]; rfl
  | succ n ih =>
    rw [State.writeBack.go, ih, rawByte_setRawByte]
    by_cases hx : x = 64 * line + n
    · subst hx
      simp
    · rw [if_neg hx]
      exact if_congr (by omega) rfl rfl

/-- The DRAM after a line has been written back. -/
theorem rawByte_writeBack (s : State) (line : Nat) (d : BitVec 512) (x : Nat) :
    (s.writeBack line d).rawByte x = if x / 64 = line then lineByte d (x % 64) else s.rawByte x := by
  have hm : (s.writeBack line d).mem = (State.writeBack.go line d s 64).mem := by
    unfold State.writeBack
    generalize State.writeBack.go line d s 64 = z
    rfl
  rw [rawByte_congr hm, rawByte_writeBack_go]
  by_cases h : x / 64 = line
  · rw [if_pos h, if_pos (by omega), show x - 64 * line = x % 64 by omega]
  · rw [if_neg h, if_neg (by omega)]

theorem writeBack_go_eq (line : Nat) (d : BitVec 512) (n : Nat) (s : State) :
    State.writeBack.go line d s n = { s with mem := (State.writeBack.go line d s n).mem } := by
  induction n generalizing s with
  | zero => rfl
  | succ n ih => exact (ih _).trans rfl

theorem writeBack_eq (s : State) (line : Nat) (d : BitVec 512) : s.writeBack line d =
    { s with mem := (s.writeBack line d).mem, errs := (s.writeBack line d).errs } := by
  have h := writeBack_go_eq line d 64 s
  unfold State.writeBack
  generalize State.writeBack.go line d s 64 = z at h ⊢
  rw [h]

theorem byteAt_owned {s : State} {x : Nat} {c : CLine} (h : s.cache.find (x / 64) = some c) :
    s.byteAt x = lineByte c.data (x % 64) := by
  rw [State.byteAt, h]

theorem byteAt_home {s : State} {x : Nat} (h : s.cache.find (x / 64) = none) : s.byteAt x = s.rawByte x := by
  rw [State.byteAt, h]

/-- A line that a cache owns reaches the DRAM, and a clean copy stays (R328). -/
theorem cleanLine_owned {s : State} {line : Nat} {c : CLine} (h : s.cache.find line = some c) : s.cleanLine line =
    { s with
      mem := (s.writeBack line c.data).mem, errs := (s.writeBack line c.data).errs, cache := s.cache.drop line
      copies := s.copies.put (2048 * line + c.holder) ⟨c.data, s.clk, c.bank⟩ } := by
  have hw := writeBack_eq s line c.data
  unfold State.cleanLine
  simp only [h]
  generalize s.writeBack line c.data = z at hw ⊢
  rw [hw]

theorem cleanLine_home {s : State} {line : Nat} (h : s.cache.find line = none) : s.cleanLine line = s := by
  unfold State.cleanLine
  rw [h]

section
variable {s : State} {line : Nat} {c : CLine} (h : s.cache.find line = some c)
include h

theorem rawByte_cleanLine (x : Nat) : (s.cleanLine line).rawByte x =
    if x / 64 = line then lineByte c.data (x % 64) else s.rawByte x := by
  have hm : (s.cleanLine line).mem = (s.writeBack line c.data).mem := (congrArg State.mem (cleanLine_owned h) :)
  rw [rawByte_congr hm, rawByte_writeBack]

theorem find_cache_cleanLine (k : Nat) : (s.cleanLine line).cache.find k = if k = line then none else s.cache.find k := by
  have hc : (s.cleanLine line).cache = s.cache.drop line := (congrArg State.cache (cleanLine_owned h) :)
  rw [hc, Table.find_drop]
end

/-- Cleaning a line changes no byte as it is served (R328). -/
theorem byteAt_cleanLine (s : State) (line x : Nat) : (s.cleanLine line).byteAt x = s.byteAt x := by
  cases h : s.cache.find line with
  | none => rw [cleanLine_home h]
  | some c =>
    by_cases hx : x / 64 = line
    · rw [byteAt_home ((find_cache_cleanLine h _).trans (if_pos hx)), rawByte_cleanLine h, if_pos hx, byteAt_owned (hx ▸ h)]
    · rw [State.byteAt, State.byteAt, find_cache_cleanLine h, if_neg hx, rawByte_cleanLine h, if_neg hx]

/-- The owner of a line evicts it: the line reaches the DRAM, and the unit keeps no copy (R301). -/
theorem evict_owned {s : State} {unit line : Nat} {c : CLine} (h : s.cache.find line = some c) (hu : c.holder = unit) :
    s.evict unit line = { s.cleanLine line with copies := (s.cleanLine line).copies.drop (2048 * line + unit) } := by
  unfold State.evict
  simp only [h, hu, Option.map_some, if_true]

/-- Another unit's line stays where it is. -/
theorem evict_other {s : State} {unit line : Nat} (h : ∀ c, s.cache.find line = some c → c.holder ≠ unit) :
    s.evict unit line = { s with copies := s.copies.drop (2048 * line + unit) } := by
  have hn : (s.cache.find line).map (·.holder) ≠ some unit := fun he => by
    obtain ⟨c, hc, hu⟩ := Option.map_eq_some_iff.mp he
    exact h c hc hu
  unfold State.evict
  simp only [if_neg hn]

/-- Evictions and the end of logical leases (R174, R301, R304, R400). -/
theorem copiesLeaveTheCaches : CopiesLeaveTheCaches := by
  intro s line unit key
  have hexec : exec .cacheEviction s = execCacheEviction s := rfl
  have hexpire : exec .logicalLeaseExpiry s = execLogicalLeaseExpiry s := rfl
  unfold execCacheEviction at hexec
  unfold execLogicalLeaseExpiry at hexpire
  refine ⟨fun c hcode h hu => ?_, fun hcode h => ?_, fun hcode h => ?_, fun hcode h => ?_, fun hcode => ?_,
    fun p hcode hp ho => ?_, fun hcode hu => ?_, fun c hcode hc hd => ?_⟩
  · have he := evict_owned h hu
    rw [hexec, hcode]
    refine ⟨s.evict unit line, rfl, ?_, fun k hk => ?_, fun x => ?_, fun x => ?_, fun k => ?_⟩
    · rw [he]; exact (find_cache_cleanLine h line).trans (if_pos rfl)
    · rw [he]; exact (find_cache_cleanLine h k).trans (if_neg hk)
    · rw [he]; exact rawByte_cleanLine h x
    · rw [he]; exact byteAt_cleanLine s line x
    · have hcp : (s.evict unit line).copies = (s.copies.put key ⟨c.data, s.clk, c.bank⟩).drop key := by
        rw [he, cleanLine_owned h, hu]
      rw [hcp, Table.find_drop]
      by_cases hk : k = key
      · rw [if_pos hk, if_pos hk]
      · rw [if_neg hk, if_neg hk, Table.find_put_ne _ _ _ _ hk]
  · rw [hexec, hcode]
    exact congrArg Host.Outcome.next (evict_other h)
  · rw [hexec, hcode]
    refine ⟨s.dropWithViews line, ?_, dropWithViews_gone s line⟩
    exact congrArg Host.Outcome.next (if_neg (by rw [h]; exact Bool.false_ne_true))
  · rw [hexec, hcode]
    exact congrArg Host.Outcome.next (if_pos h)
  · rw [hexec, hcode]
    rfl
  · rw [hexec, hcode]
    exact congrArg Host.Outcome.next (if_pos (by rw [hp, Option.map_some, ho]))
  · rw [hexpire, hcode]
    exact congrArg Host.Outcome.next (if_pos hu)
  · rw [hexpire, hcode]
    exact congrArg Host.Outcome.next (if_pos (by rw [hc, Option.map_some, hd]))

end Sys2Proof.Machine
end

section
open Sys2Proof.Machine

/-- Settles O48, part by part: snoops and host writes, accesses through the windows, and the copies that leave the caches. -/
theorem hostAccessesAndEvictions : Obligations.HostAccessesAndEvictions :=
  ⟨snoopsAreAnswered, windowsReachMemory, copiesLeaveTheCaches⟩
end

section
/-! SUPPORT. Bring-up (R115 to R119). -/
namespace Sys2Proof.Machine
open Sys2Proof Sys2Proof.Claims

/-! ### The checks of the firmware image (R116) -/

theorem imageByte_eq (s : State) : s.annex.imageByte = imageAt s := by
  funext i
  unfold Annex.imageByte imageAt
  split
  · rfl
  · rfl

theorem mem_ite_nil_singleton {c : Prop} [Decidable c] (x n : Nat) : (x ∈ if c then [] else [n]) ↔ ¬ c ∧ x = n := by
  by_cases h : c
  · simp [h]
  · simp [h]

/-- The security version of an image is the low half of its version. -/
theorem rollback_le_iff (r : BitVec 32) (v : Word) : r ≤ v.extractLsb' 0 32 ↔ r.toNat ≤ v.toNat % 2 ^ 32 := by
  rw [BitVec.le_def, BitVec.extractLsb'_toNat, Nat.shiftRight_zero]

/-- The causes of the checks that the image fails. -/
def State.imageFails (s : State) : List Nat := failedChecks s.annex.fusedKey s.annex.rollback s.annex.imageByte

theorem mem_imageFails (s : State) (x : Nat) : x ∈ s.imageFails ↔ ∃ k, k < 4 ∧ ¬ checkPasses s k ∧ x = k + 1 := by
  have h2 : ¬ s.annex.rollback ≤ (Config.imageVersion (imageAt s)).extractLsb' 0 32 ↔ ¬ checkPasses s 2 :=
    not_congr (rollback_le_iff _ _)
  unfold State.imageFails failedChecks
  simp only [imageByte_eq, List.mem_append, mem_ite_nil_singleton, h2]
  constructor
  · rintro (((h | h) | h) | h)
    · exact ⟨0, by decide, h⟩
    · exact ⟨1, by decide, h⟩
    · exact ⟨2, by decide, h⟩
    · exact ⟨3, by decide, h⟩
  · rintro ⟨k, hk, h⟩
    match k, hk with
    | 0, _ => exact .inl (.inl (.inl h))
    | 1, _ => exact .inl (.inl (.inr h))
    | 2, _ => exact .inl (.inr h)
    | 3, _ => exact .inr h

theorem imageFails_nil {s : State} (h : ∀ k, k < 4 → checkPasses s k) : s.imageFails = [] :=
  List.eq_nil_iff_forall_not_mem.mpr fun x hx => by
    obtain ⟨k, hk, hn, -⟩ := (mem_imageFails s x).mp hx
    exact hn (h k hk)

theorem getD_mod_mem {l : List Nat} (h : l ≠ []) (n d : Nat) : l.getD (n % l.length) d ∈ l := by
  have hlt : n % l.length < l.length := Nat.mod_lt _ (List.length_pos_iff.mpr h)
  rw [List.getD_eq_getElem _ _ hlt]
  exact List.getElem_mem hlt

theorem verify_passes {s : State} (h1 : s.annex.bootState = 1) (h : ∀ k, k < 4 → checkPasses s k) :
    exec .verify s = .next { s with annex := { s.annex with
      bootState := 2, bootCause := 0, fwver := Config.imageVersion (imageAt s), digest := Config.imageDigest (imageAt s) } } := by
  have hn : (failedChecks s.annex.fusedKey s.annex.rollback s.annex.imageByte).isEmpty = true :=
    List.isEmpty_iff.mpr (imageFails_nil h)
  change execVerify s = _
  unfold execVerify
  simp only [h1, ne_eq, not_true_eq_false, if_false, hn, if_true]
  rw [imageByte_eq]
  rfl

/-- An image that fails a check: CAUSE names a check that it fails. -/
theorem verify_fails {s : State} (h1 : s.annex.bootState = 1) (h : ∃ k, k < 4 ∧ ¬ checkPasses s k) :
    ∃ t, exec .verify s = .next t ∧ t.annex.bootState = 4 ∧
      (∃ k, k < 4 ∧ ¬ checkPasses s k ∧ t.annex.bootCause.toNat = k + 1) ∧
      t = { s with freeCtr := s.freeCtr + 1, annex := { s.annex with bootState := 4, bootCause := t.annex.bootCause } } := by
  obtain ⟨k, hk, hp⟩ := h
  have hne : s.imageFails ≠ [] := List.ne_nil_of_mem ((mem_imageFails s _).mpr ⟨k, hk, hp, rfl⟩)
  have hn : s.imageFails.isEmpty = false := List.isEmpty_eq_false_iff.mpr hne
  let cause := s.imageFails.getD ((Config.freeWord s.freeCtr).toNat % s.imageFails.length) 1
  have hexec : exec .verify s = .next { s with freeCtr := s.freeCtr + 1, annex := { s.annex with
      bootState := 4, bootCause := BitVec.ofNat 8 cause } } := by
    change execVerify s = _
    unfold execVerify
    unfold State.imageFails at hn
    simp only [h1, ne_eq, not_true_eq_false, if_false, hn, Bool.false_eq_true]
    rfl
  obtain ⟨j, hj, hnj, hcause⟩ := (mem_imageFails s cause).mp (getD_mod_mem hne _ _)
  refine ⟨_, hexec, rfl, ⟨j, hj, hnj, ?_⟩, rfl⟩
  change cause % 256 = j + 1
  omega

/-! ### INIT (R117, R366) -/

theorem calibrateAll_nil (s : State) : s.calibrateAll [] = { s with sense := [] } := rfl

theorem init_eq {s : State} (h2 : s.annex.bootState = 2) (ha : s.inp.amounts = []) :
    exec .init s = .next { s.clearAll with sense := [], annex := { s.annex with bootState := 3 } } := by
  change execInit s = _
  unfold execInit
  rw [if_pos h2, ha, calibrateAll_nil]
  rfl

/-- A core whose scratchpad rows have no age, no lost content and no report. -/
def Core.forgetRows (x : Core) : Core := { x with rowClk := [], rowDead := [], rowReported := [] }

theorem core_clearAll (s : State) (c : Nat) : s.clearAll.core c = (s.core c).forgetRows := by
  have h : s.clearAll.cores.find c = (s.cores.find c).map Core.forgetRows :=
    Table.find_map s.cores (fun _ => Core.forgetRows) c
  unfold State.core Table.get
  rw [h]
  cases s.cores.find c with
  | none => rfl
  | some x => rfl

theorem init_clears {s : State} (h2 : s.annex.bootState = 2) (ha : s.inp.amounts = []) :
    ∃ t, exec .init s = .next t ∧ t.annex.bootState = 3 ∧
      (∀ x, t.byteAt x = 0 ∧ t.rawByte x = 0) ∧ (∀ f, t.frame f = {}) ∧ t.errs = [] ∧
      (∀ c, t.core c = { s.core c with rowClk := [], rowDead := [], rowReported := [] }) ∧
      t = { s with
        mem := [], errs := [], unchecked := [], cache := [], copies := [], resv := [], casts := [], frames := []
        latches := [], comp := [], spInit := s.clk, sense := [], cores := t.cores
        annex := { s.annex with bootState := 3 } } :=
  ⟨_, init_eq h2 ha, rfl, fun _ => ⟨rfl, rfl⟩, fun _ => rfl, rfl, core_clearAll s, rfl⟩

/-- Bring-up from state to state (R115 to R119). -/
theorem bringUpSteps : BringUpSteps := by
  intro s
  refine ⟨⟨_, rfl, rfl, rfl, rfl, rfl⟩, fun h => ?_, verify_passes, verify_fails, init_clears, fun h hh hv => ?_⟩
  · exact congrArg Host.Outcome.next (if_pos h)
  · refine congrArg Host.Outcome.next ((fromHost_of_fromHost hh _).trans (if_pos ?_))
    simp [h, hv]

end Sys2Proof.Machine
end

section
/-! SUPPORT. The mailbox of the attestation (R120). -/
namespace Sys2Proof.Machine
open Sys2Proof Sys2Proof.Claims

/-! ### Bytes written into the mailbox -/

theorem length_bytesOf (v n : Nat) : (bytesOf v n).length = n := by
  induction n generalizing v with
  | zero => rfl
  | succ n ih => exact congrArg Nat.succ (ih (v / 256))

theorem getD_bytesOf (v : Nat) {i n : Nat} (h : i < n) : (bytesOf v n).getD i 0 = leByte v i := by
  induction n generalizing v i with
  | zero => omega
  | succ n ih =>
    cases i with
    | zero => simp [bytesOf, leByte]
    | succ i =>
      have hi := ih (v / 256) (Nat.lt_of_succ_lt_succ h)
      simp only [bytesOf, List.getD_cons_succ, hi, leByte]
      rw [Nat.div_div_eq_div_mul, ← Nat.pow_succ']

theorem get_foldl_set (off : Nat) (l : List Byte) (k : Nat) (m : Table Byte) (x : Nat) :
    Table.get 0 ((l.zipIdx k).foldl (fun (m : Table Byte) e => m.set 0 (off + e.2) e.1) m) x =
      if off + k ≤ x ∧ x < off + k + l.length then l.getD (x - (off + k)) 0 else Table.get 0 m x := by
  induction l generalizing k m with
  | nil => simp
  | cons b r ih =>
    rw [List.zipIdx_cons, List.foldl_cons, ih, Table.get_set]
    simp only [List.length_cons]
    by_cases h0 : x = off + k
    · subst h0
      rw [if_neg (by omega), if_pos rfl, if_pos (by omega), Nat.sub_self, List.getD_cons_zero]
    · by_cases h : off + (k + 1) ≤ x ∧ x < off + (k + 1) + r.length
      · rw [if_pos h, if_pos (by omega), show x - (off + k) = x - (off + (k + 1)) + 1 by omega, List.getD_cons_succ]
      · rw [if_neg h, if_neg h0, if_neg (by omega)]

theorem get_putMail (a : Annex) (off : Nat) (l : List Byte) (x : Nat) :
    Table.get 0 (a.putMail off l).mailbox x = if off ≤ x ∧ x < off + l.length then l.getD (x - off) 0
      else Table.get 0 a.mailbox x := get_foldl_set off l 0 a.mailbox x

/-- A number of `n` bytes in the mailbox. -/
def Annex.mailNat (a : Annex) (off n : Nat) : Nat := leRead (fun i => Table.get 0 a.mailbox i) off n

theorem mailNat_putMail_apart (a : Annex) {off at' n : Nat} {l : List Byte} (h : at' + n ≤ off ∨ off + l.length ≤ at') :
    (a.putMail off l).mailNat at' n = a.mailNat at' n := by
  refine leRead_congr fun i hi => ?_
  exact (get_putMail a off l _).trans (if_neg (by omega))

/-- A part of a number that is written. -/
theorem mailNat_putMail_part (a : Annex) (off v : Nat) {k m n : Nat} (h : k + m ≤ n) :
    (a.putMail off (bytesOf v n)).mailNat (off + k) m = v / 256 ^ k % 256 ^ m := by
  refine leRead_of_leByte fun i hi => ?_
  have hb := getD_bytesOf v (show k + i < n by omega)
  rw [get_putMail, length_bytesOf, if_pos (by omega), show off + k + i - off = k + i by omega, hb, leByte, leByte,
    Nat.pow_add, Nat.div_div_eq_div_mul]

theorem mailNat_putMail_same (a : Annex) (off v n : Nat) : (a.putMail off (bytesOf v n)).mailNat off n = v % 256 ^ n := by
  have h := mailNat_putMail_part a off v (show 0 + n ≤ n by omega)
  rwa [pow_zero, Nat.div_one, Nat.add_zero] at h

theorem foldl_set_shift (off k : Nat) (l : List Byte) (j : Nat) (m : Table Byte) :
    (l.zipIdx (k + j)).foldl (fun (m : Table Byte) e => m.set 0 (off + e.2) e.1) m =
      (l.zipIdx j).foldl (fun (m : Table Byte) e => m.set 0 (off + k + e.2) e.1) m := by
  induction l generalizing j m with
  | nil => rfl
  | cons b r ih =>
    simp only [List.zipIdx_cons, List.foldl_cons, Nat.add_assoc] at ih ⊢
    exact ih (j + 1) _

theorem putMail_append (a : Annex) (off : Nat) (l r : List Byte) :
    a.putMail off (l ++ r) = (a.putMail off l).putMail (off + l.length) r := by
  unfold Annex.putMail
  rw [List.zipIdx_append, List.foldl_append]
  rw [Nat.add_comm]
  exact congrArg (fun m : Table Byte => { a with mailbox := m }) (foldl_set_shift off l.length r 0 _)

/-- Of the annex, the mailbox alone changes. -/
def OnlyMail (a b : Annex) : Prop := b = { a with mailbox := b.mailbox }

theorem onlyMail_refl (a : Annex) : OnlyMail a a := rfl

theorem putMail_onlyMail {a b : Annex} (h : OnlyMail a b) (off : Nat) (l : List Byte) : OnlyMail a (b.putMail off l) := by
  rw [OnlyMail] at h
  rw [h]
  rfl

/-- The command dword as a number. -/
theorem command_eq_iff (a : Annex) {k : Nat} (hk : k < 2 ^ 64) : a.command = BitVec.ofNat 64 k ↔ a.mailNat 0xF8 8 = k := by
  have hlt : a.mailNat 0xF8 8 < 2 ^ 64 := leRead_lt _ _ _
  refine ⟨fun h => ?_, fun h => congrArg (BitVec.ofNat 64) h⟩
  have h' : a.mailNat 0xF8 8 % 2 ^ 64 = k % 2 ^ 64 := (congrArg BitVec.toNat h :)
  omega

theorem mailNat_setCommand (a : Annex) (v : Nat) : (a.setCommand v).mailNat 0xF8 8 = v % 256 ^ 8 :=
  mailNat_putMail_same a 0xF8 v 8

theorem mailNat_setCommand_below (a : Annex) (v : Nat) {x n : Nat} (h : x + n ≤ 0xF8) :
    (a.setCommand v).mailNat x n = a.mailNat x n := mailNat_putMail_apart a (.inl h)

theorem get_setCommand_below (a : Annex) (v : Nat) {k : Nat} (h : k < 0xF8) :
    Table.get 0 (a.setCommand v).mailbox k = Table.get 0 a.mailbox k :=
  (get_putMail a 0xF8 _ k).trans (if_neg (by omega))

/-! ### Commands that begin -/

theorem mailBusy_of_rest {s : State} (h : mailAt s 0xF8 8 ∉ ([1, 3, 4] : List Nat)) : s.annex.mailBusy = false := by
  have hne {k : Nat} (hk : k < 2 ^ 64) (hm : k ∈ ([1, 3, 4] : List Nat)) : decide (s.annex.command = BitVec.ofNat 64 k) = false :=
    decide_eq_false fun he => h (by rwa [show mailAt s 0xF8 8 = k from (command_eq_iff s.annex hk).mp he])
  have h1 : decide (s.annex.command = 1) = false := hne (by decide) (by decide)
  have h3 : decide (s.annex.command = 3) = false := hne (by decide) (by decide)
  have h4 : decide (s.annex.command = 4) = false := hne (by decide) (by decide)
  unfold Annex.mailBusy
  rw [h1, h3, h4]
  rfl

/-- A command that is written is begun. -/
theorem begins_of_eq {i : Instr} {s : State} {cmd piece : Nat} (hc : cmd < 256 ^ 8)
    (h : exec i s = .next (s.modAnnex fun a => { a.setCommand cmd with piece := piece })) : Begins i s cmd piece :=
  ⟨_, h, rfl, (mailNat_setCommand s.annex cmd).trans (Nat.mod_eq_of_lt hc), rfl,
    fun _ hk => get_setCommand_below s.annex cmd hk⟩

theorem attestationQuote_begins {s : State} (hh : FromHost s) (hb : s.annex.mailBusy = false) : Begins .attestationQuote s 1 0 :=
  begins_of_eq (by decide) (congrArg Host.Outcome.next ((fromHost_of_fromHost hh _).trans (if_neg (by rw [hb]; decide))))

theorem certificatePieceFirst_begins {s : State} (hh : FromHost s) (hb : s.annex.mailBusy = false) :
    Begins .certificatePieceFirst s 3 0 :=
  begins_of_eq (by decide) (congrArg Host.Outcome.next ((fromHost_of_fromHost hh _).trans (if_neg (by rw [hb]; decide))))

theorem certificatePieceNext_begins {s : State} (hh : FromHost s) (hb : s.annex.mailBusy = false)
    (h0 : 0 < s.annex.piece) (h1 : s.annex.piece * 192 < Config.certLength) :
    Begins .certificatePieceNext s 4 s.annex.piece := by
  have hn : s.annex.noNext = false := by
    unfold Annex.noNext
    rw [decide_eq_false (Nat.ne_of_gt h0), decide_eq_false (Nat.not_le.mpr h1)]
    rfl
  exact begins_of_eq (by decide)
    (congrArg Host.Outcome.next ((fromHost_of_fromHost hh _).trans (if_neg (by rw [hb, hn]; decide))))

/-! ### Commands that are done -/

/-- The fields of a quote, at their places. -/
theorem mailNat_quote (s : State) (a : Annex) :
    let q := a.putMail 0x20 s.quote
    q.mailNat 0x20 4 = 1 ∧ q.mailNat 0x24 4 = 0x00124100 ∧ q.mailNat 0x28 8 = s.annex.fwver.toNat ∧
      q.mailNat 0x30 32 = s.annex.digest.toNat ∧ q.mailNat 0x50 32 = mailAt s 0 32 ∧ q.mailNat 0x70 8 = s.us.toNat := by
  have hn : mailAt s 0 32 < 256 ^ 32 := leRead_lt _ _ _
  have hf : s.annex.fwver.toNat < 256 ^ 8 := s.annex.fwver.isLt
  have hd : s.annex.digest.toNat < 256 ^ 32 := lt_of_lt_of_eq s.annex.digest.isLt (by decide)
  have hu : s.us.toNat < 256 ^ 8 := lt_of_lt_of_le s.us.isLt (by decide)
  have hq : s.quote = bytesOf 1 4 ++ bytesOf 0x00124100 4 ++ bytesOf s.annex.fwver.toNat 8 ++
    bytesOf s.annex.digest.toNat 32 ++ bytesOf (mailAt s 0 32) 32 ++ bytesOf s.us.toNat 8 ++ bytesOf 0 8 ++
    (List.range 64).map fun i => Config.quoteByte (BitVec.ofNat 256 (mailAt s 0 32)) (64 * s.freeCtr + i) := rfl
  rw [hq]
  generalize (List.range 64).map _ = sig
  simp only [putMail_append, List.length_append, length_bytesOf, Nat.reduceAdd]
  simp only [mailNat_putMail_apart, mailNat_putMail_same, length_bytesOf, Nat.reduceAdd, Nat.reduceLeDiff, true_or]
  exact ⟨rfl, rfl, Nat.mod_eq_of_lt hf, Nat.mod_eq_of_lt hd, Nat.mod_eq_of_lt hn, Nat.mod_eq_of_lt hu⟩

/-- The quote with the completion of its command. -/
def State.quoted (s : State) : State :=
  { s with freeCtr := s.freeCtr + 1, annex := (s.annex.putMail 0x20 s.quote).setCommand 2 }

theorem attestationCommandDone_quote {s : State} (h : mailAt s 0xF8 8 = 1) :
    exec .attestationCommandDone s = .next s.quoted := by
  have hc : s.annex.command = 1 := (command_eq_iff s.annex (k := 1) (by decide)).mpr h
  change execAttestationCommandDone s = _
  exact congrArg Host.Outcome.next (if_pos hc)

/-- The quote of the mailbox's nonce (R120). -/
theorem quoted_spec (s : State) : let t := s.quoted
    mailAt t 0xF8 8 = 2 ∧ mailAt t 0x20 4 = 1 ∧ mailAt t 0x24 4 = 0x00124100 ∧ mailAt t 0x28 8 = s.annex.fwver.toNat ∧
      mailAt t 0x30 32 = s.annex.digest.toNat ∧ mailAt t 0x50 32 = mailAt s 0 32 ∧ mailAt t 0x70 8 = s.us.toNat ∧
      t = { s with freeCtr := s.freeCtr + 1, annex := { s.annex with mailbox := t.annex.mailbox } } := by
  obtain ⟨h20, h24, h28, h30, h50, h70⟩ := mailNat_quote s s.annex
  have hbelow (x n : Nat) (hx : x + n ≤ 0xF8) : mailAt s.quoted x n = (s.annex.putMail 0x20 s.quote).mailNat x n :=
    mailNat_setCommand_below _ 2 hx
  have hdone : mailAt s.quoted 0xF8 8 = 2 := mailNat_setCommand (s.annex.putMail 0x20 s.quote) 2
  intro t
  refine ⟨hdone, ?_, ?_, ?_, ?_, ?_, ?_, ?_⟩
  · exact (hbelow 0x20 4 (by decide)).trans h20
  · exact (hbelow 0x24 4 (by decide)).trans h24
  · exact (hbelow 0x28 8 (by decide)).trans h28
  · exact (hbelow 0x30 32 (by decide)).trans h30
  · exact (hbelow 0x50 32 (by decide)).trans h50
  · exact (hbelow 0x70 8 (by decide)).trans h70
  · exact congrArg (fun a : Annex => { s with freeCtr := s.freeCtr + 1, annex := a })
      (putMail_onlyMail (putMail_onlyMail (onlyMail_refl s.annex) 0x20 s.quote) 0xF8 (bytesOf 2 8))

/-- The mailbox with a piece of the certificate and its descriptor. -/
def Annex.certified (a : Annex) : Annex :=
  ((a.putMail 0x20 (certPiece a.piece).1).putMail 0xE0 (bytesOf (certPiece a.piece).2 8)).setCommand 2

theorem length_certPiece (k : Nat) : (certPiece k).1.length = 192 := by simp [certPiece]

theorem mailNat_certified_byte (a : Annex) {i : Nat} (hi : i < 192) : a.certified.mailNat (0x20 + i) 1 =
    if 192 * a.piece + i < Config.certLength then (Config.certByte (192 * a.piece + i)).toNat else 0 := by
  have hp : (certPiece a.piece).1.getD i 0 =
      if 192 * a.piece + i < Config.certLength then Config.certByte (192 * a.piece + i) else 0 := by
    simp [certPiece, List.getD_eq_getElem?_getD, hi]
  unfold Annex.certified
  rw [mailNat_setCommand_below _ 2 (by omega), mailNat_putMail_apart _ (.inl (by omega))]
  unfold Annex.mailNat
  rw [leRead, leRead, get_putMail, length_certPiece, if_pos (by omega), Nat.add_sub_cancel_left, hp]
  split
  · rfl
  · rfl

theorem mailNat_certified_descriptor (a : Annex) :
    a.certified.mailNat 0xE0 4 = Config.certLength % 2 ^ 32 ∧ a.certified.mailNat 0xE4 2 = a.piece % 2 ^ 16 := by
  have hd : (certPiece a.piece).2 = Config.certLength % 2 ^ 32 + 2 ^ 32 * (a.piece % 2 ^ 16) +
      if Config.certLength ≤ 192 * (a.piece + 1) then 2 ^ 63 else 0 := rfl
  unfold Annex.certified
  rw [mailNat_setCommand_below _ 2 (by omega), mailNat_setCommand_below _ 2 (by omega)]
  constructor
  · refine (mailNat_putMail_part _ 0xE0 _ (k := 0) (m := 4) (n := 8) (by omega)).trans ?_
    rw [hd]
    split <;> omega
  · refine (mailNat_putMail_part _ 0xE0 _ (k := 4) (m := 2) (n := 8) (by omega)).trans ?_
    rw [hd]
    split <;> omega

/-- The piece with the completion of its command. -/
def State.certified (s : State) : State := { s with annex := { s.annex.certified with piece := s.annex.piece + 1 } }

theorem mailAt_annex (s : State) (a : Annex) (piece x n : Nat) :
    mailAt { s with annex := { a with piece := piece } } x n = a.mailNat x n := rfl

theorem mailAt_certified (s : State) (x n : Nat) : mailAt s.certified x n = s.annex.certified.mailNat x n :=
  mailAt_annex s s.annex.certified (s.annex.piece + 1) x n

theorem attestationCommandDone_piece {s : State} (h : mailAt s 0xF8 8 = 3 ∨ mailAt s 0xF8 8 = 4) :
    exec .attestationCommandDone s = .next s.certified := by
  have hc : s.annex.command = 3 ∨ s.annex.command = 4 :=
    h.imp (command_eq_iff s.annex (k := 3) (by omega)).mpr (command_eq_iff s.annex (k := 4) (by omega)).mpr
  have h1 : s.annex.command ≠ 1 := by
    rintro he
    rcases hc with hc | hc <;> exact absurd (he.symm.trans hc) (by decide)
  have hd : (decide (s.annex.command = 3) || decide (s.annex.command = 4)) = true := by
    rw [Bool.or_eq_true, decide_eq_true_eq, decide_eq_true_eq]
    exact hc
  change execAttestationCommandDone s = _
  exact congrArg Host.Outcome.next ((if_neg h1).trans (if_pos hd))

theorem attestationCommandDone_certifies {s : State} (h : mailAt s 0xF8 8 = 3 ∨ mailAt s 0xF8 8 = 4) :
    ∃ t, exec .attestationCommandDone s = .next t ∧ mailAt t 0xF8 8 = 2 ∧ t.annex.piece = s.annex.piece + 1 ∧
      (∀ i, i < 192 → mailAt t (0x20 + i) 1 = if 192 * s.annex.piece + i < Config.certLength then
        (Config.certByte (192 * s.annex.piece + i)).toNat else 0) ∧
      mailAt t 0xE0 4 = Config.certLength % 2 ^ 32 ∧ mailAt t 0xE4 2 = s.annex.piece % 2 ^ 16 ∧ OnlyAnnex s t := by
  obtain ⟨h0, h4⟩ := mailNat_certified_descriptor s.annex
  have hdone : mailAt s.certified 0xF8 8 = 2 := (mailAt_certified s 0xF8 8).trans (mailNat_setCommand _ 2)
  refine ⟨s.certified, attestationCommandDone_piece h, hdone, rfl, fun i hi => ?_, ?_, ?_, rfl⟩
  · exact (mailAt_certified s (0x20 + i) 1).trans (mailNat_certified_byte s.annex hi)
  · exact (mailAt_certified s 0xE0 4).trans h0
  · exact (mailAt_certified s 0xE4 2).trans h4

end Sys2Proof.Machine
end

section
/-! SUPPORT. Ports whose links change, and leases that end (R111, R124, R126, R308, R457). -/
namespace Sys2Proof.Machine
open Sys2Proof Sys2Proof.Claims

/-! ### The copies that a write calls back -/

/-- Hosts' copies are called back, and nothing else is sent (R170, R408). -/
def CallsBack (s t : State) : Prop :=
  (∀ e ∈ t.hostCopies, e ∈ s.hostCopies) ∧
    ∃ back, t.out = back ++ s.out ∧ ∀ o ∈ back, ∃ q i l, o = Out.backInvalidate q i l

theorem callsBack_of_eq {s t : State} (hc : t.hostCopies = s.hostCopies) (ho : t.out = s.out) : CallsBack s t :=
  ⟨fun _ he => hc ▸ he, [], ho, by simp⟩

theorem callsBack_trans {s t u : State} (h : CallsBack s t) (h' : CallsBack t u) : CallsBack s u := by
  obtain ⟨hc, b, ho, hb⟩ := h
  obtain ⟨hc', b', ho', hb'⟩ := h'
  refine ⟨fun e he => hc e (hc' e he), b' ++ b, by rw [ho', ho, List.append_assoc], fun o hm => ?_⟩
  exact (List.mem_append.mp hm).elim (hb' o) (hb o)

theorem breakWhere_callsBack (s : State) (on : Nat → Bool) : CallsBack s (s.breakWhere on) := by
  refine ⟨fun e he => List.mem_of_mem_filter he, _, rfl, fun o hm => ?_⟩
  obtain ⟨e, -, rfl⟩ := List.mem_map.mp hm
  exact ⟨_, _, _, rfl⟩

theorem setByteAt_out (s : State) (a : Nat) (b : Byte) : (s.setByteAt a b).out = s.out := by
  unfold State.setByteAt
  simp only
  split
  · rfl
  · rfl

theorem writeBytes_callsBack (n : Nat) (s : State) (a v : Nat) : CallsBack s (s.writeBytes a n v) := by
  induction n generalizing s a v with
  | zero => exact callsBack_of_eq rfl rfl
  | succ n ih => exact callsBack_trans (callsBack_of_eq (setByteAt_hostCopies s a _) (setByteAt_out s a _)) (ih _ _ _)

theorem writeEach_callsBack (n v : Nat) (l : List Nat) (s : State) : CallsBack s (s.writeEach n v l) := by
  induction l generalizing s with
  | nil => exact callsBack_of_eq rfl rfl
  | cons a r ih => exact callsBack_trans (callsBack_trans (writeBytes_callsBack n s a v) (breakWhere_callsBack _ _)) (ih _)

theorem writeCo_callsBack (s : State) (a n v : Nat) : CallsBack s (s.writeCo a n v) :=
  callsBack_trans (callsBack_trans (writeEach_callsBack n v _ s) (writeBytes_callsBack n _ a v)) (breakWhere_callsBack _ _)

theorem writeList_callsBack (l : List Byte) (s : State) (a : Nat) : CallsBack s (s.writeList a l) := by
  induction l generalizing s a with
  | nil => exact callsBack_of_eq rfl rfl
  | cons b r ih => exact callsBack_trans (writeCo_callsBack s a 1 _) (ih _ _)

theorem ownWrite_callsBack (s : State) (a : Nat) (l : List Byte) : CallsBack s (s.ownWrite a l) := by
  unfold State.ownWrite
  split
  · exact callsBack_of_eq rfl rfl
  · exact writeList_callsBack l s a

/-! ### Page requests that are lost (R457) -/

/-- The records of some page requests are LOST. -/
def State.losePages (s : State) (l : List PageReq) : State := l.foldl (fun s r => s.ownWrite (r.record + 1) [5]) s

theorem losePages_stores (l : List PageReq) (s : State) : s.Stores (s.losePages l) := by
  induction l generalizing s with
  | nil => rfl
  | cons r l ih => exact stores_trans (ownWrite_stores s (r.record + 1) [5]) (ih (s.ownWrite (r.record + 1) [5]))

theorem losePages_callsBack (l : List PageReq) (s : State) : CallsBack s (s.losePages l) := by
  induction l generalizing s with
  | nil => exact callsBack_of_eq rfl rfl
  | cons r l ih => exact callsBack_trans (ownWrite_callsBack s _ _) (ih _)

theorem ownWrite_of_free {s : State} (hg : s.granted = []) (a : Nat) (l : List Byte) : s.ownWrite a l = s.writeList a l := by
  have hn : s.leasedIn a l.length = none := if_pos (by rw [hg]; rfl)
  unfold State.ownWrite
  rw [hn]
  rfl

theorem byteAt_ownWrite_one {s : State} (hm : ∀ x, s.migOf x = []) (hg : s.granted = []) (a : Nat) (b : Byte) (x : Nat) :
    (s.ownWrite a [b]).byteAt x = if x = a then b else s.byteAt x := by
  rw [ownWrite_of_free hg]
  refine (byteAt_writeCo s a 1 b.toNat x (hm a)).trans ?_
  by_cases hx : x = a
  · rw [if_pos (by omega), if_pos hx, hx, Nat.sub_self, leByte_zero_toNat]
  · rw [if_neg (by omega), if_neg hx]

theorem byteAt_losePages {l : List PageReq} {s : State} (hm : ∀ x, s.migOf x = []) (hg : s.granted = []) (x : Nat) :
    (s.losePages l).byteAt x = if l.any (fun r => decide (r.record + 1 = x)) then 5 else s.byteAt x := by
  induction l generalizing s with
  | nil => rfl
  | cons r l ih =>
    have hst := ownWrite_stores s (r.record + 1) [5]
    have hb := byteAt_ownWrite_one hm hg (r.record + 1) 5 x
    have h := ih (s := s.ownWrite (r.record + 1) [5]) (fun y => (migOf_of_stores hst y).trans (hm y))
      ((congrArg State.granted hst :).trans hg)
    refine h.trans ?_
    rw [hb, List.any_cons]
    by_cases hx : r.record + 1 = x
    · simp [hx]
    · simp [hx, Ne.symm hx]

theorem loseReplies_eq (s : State) (p : BitVec 1) : s.loseReplies p =
    (State.losePages { s with pageReqs := s.pageReqs.filter fun r => r.port ≠ p
                              pageHeld := s.pageHeld.filter fun o => o.pagePort ≠ some p }
      (s.pageReqs.filter fun r => r.port = p)).wakeAts := rfl

/-- What the loss of a port's replies changes. -/
theorem loseReplies_frame (s : State) (p : BitVec 1) : let t := s.loseReplies p
    t = { s with mem := t.mem, errs := t.errs, cache := t.cache, copies := t.copies, strands := t.strands
                 rlinks := t.rlinks, hostCopies := t.hostCopies, out := t.out, deferred := t.deferred
                 pageReqs := s.pageReqs.filter fun r => r.port ≠ p
                 pageHeld := s.pageHeld.filter fun o => o.pagePort ≠ some p } := by
  intro t
  have ht : t = s.loseReplies p := rfl
  rw [loseReplies_eq] at ht
  have h := losePages_stores (s.pageReqs.filter fun r => r.port = p)
    { s with pageReqs := s.pageReqs.filter fun r => r.port ≠ p, pageHeld := s.pageHeld.filter fun o => o.pagePort ≠ some p }
  generalize State.losePages _ _ = u at h ht
  rw [ht]
  rw [State.Stores] at h
  rw [h]
  rfl

theorem loseReplies_callsBack (s : State) (p : BitVec 1) : CallsBack s (s.loseReplies p) := by
  have h := losePages_callsBack (s.pageReqs.filter fun r => r.port = p)
    { s with pageReqs := s.pageReqs.filter fun r => r.port ≠ p, pageHeld := s.pageHeld.filter fun o => o.pagePort ≠ some p }
  rw [loseReplies_eq]
  generalize State.losePages _ _ = u at h ⊢
  exact h

theorem byteAt_loseReplies {s : State} (hm : ∀ x, s.migOf x = []) (hg : s.granted = []) (p : BitVec 1) (x : Nat) :
    (s.loseReplies p).byteAt x = if s.pageReqs.any (fun r => decide (r.port = p) && decide (r.record + 1 = x)) then 5
      else s.byteAt x := by
  have h := byteAt_losePages (l := s.pageReqs.filter fun r => r.port = p)
    (s := { s with pageReqs := s.pageReqs.filter fun r => r.port ≠ p, pageHeld := s.pageHeld.filter fun o => o.pagePort ≠ some p })
    hm hg x
  rw [List.any_filter] at h
  rw [loseReplies_eq]
  generalize State.losePages _ _ = u at h ⊢
  exact h

/-! ### Links (R111) -/

theorem holds_iff (s : State) (p : BitVec 1) : Holds s p ↔ s.leaseLive = true ∧ s.leasePort = p := by
  unfold Holds State.leaseLive
  rw [Bool.and_eq_true, decide_eq_true_eq, decide_eq_true_eq, and_assoc]
  exact and_congr_right fun _ => and_congr_right fun _ => eq_comm

/-- A link that trains wide and fast enough comes up. -/
theorem linkTraining_up {s : State} (hw : 8 ≤ s.inp.code) (hf : 32 ≤ s.inp.len)
    (hu : s.annex.linkUp.contains s.inp.port = false) :
    let u := State.sendHeld { s with annex := { s.annex with linkUp := s.inp.port :: s.annex.linkUp } } s.inp.port
    exec .linkTraining s = .next
      (if s.inp.code < 16 ∨ s.inp.len < 64 then u.report 0 { kind := 9, index := s.inp.port.toNat } else u) := by
  have hstay : ¬ (decide (s.inp.code < 8) || decide (s.inp.len < 32) || s.portUp s.inp.port) = true := by
    rw [show s.portUp s.inp.port = false from hu, decide_eq_false (Nat.not_lt.mpr hw), decide_eq_false (Nat.not_lt.mpr hf)]
    decide
  have hslow : (decide (s.inp.code < 16) || decide (s.inp.len < 64)) = true ↔ s.inp.code < 16 ∨ s.inp.len < 64 := by simp
  intro u
  refine congrArg Host.Outcome.next ((if_neg hstay).trans ?_)
  exact if_congr hslow rfl rfl

/-- The replies of the port that holds the lease are lost with its link. -/
def State.replyLoss (s : State) : State :=
  if s.leaseLive && s.leasePort = s.inp.port then s.loseReplies s.inp.port else s

/-- The link of a port goes down. -/
def State.unlink (s : State) (p : BitVec 1) : State :=
  { s with hostCopies := s.hostCopies.filter fun e => e.1 ≠ p
           annex := { s.annex with linkUp := s.annex.linkUp.filter (· ≠ p) } }

theorem portLinkDown_eq (s : State) : exec .portLinkDown s = .next (s.replyLoss.unlink s.inp.port) := rfl

theorem replyLoss_held {s : State} (h : Holds s s.inp.port) : s.replyLoss = s.loseReplies s.inp.port := by
  obtain ⟨hl, hp⟩ := (holds_iff s s.inp.port).mp h
  exact if_pos (by rw [hl, hp, decide_eq_true rfl]; rfl)

theorem replyLoss_free {s : State} (h : ¬ Holds s s.inp.port) : s.replyLoss = s := by
  refine if_neg fun hc => h ((holds_iff s s.inp.port).mpr ?_)
  rwa [Bool.and_eq_true, decide_eq_true_eq] at hc

theorem portLinkDown_spec (s : State) :
    ∃ t, exec .portLinkDown s = .next t ∧ t.annex.linkUp = s.annex.linkUp.filter (· ≠ s.inp.port) ∧
      (∀ e ∈ t.hostCopies, e ∈ s.hostCopies ∧ e.1 ≠ s.inp.port) ∧
      (¬ Holds s s.inp.port → t = { s with annex := t.annex, hostCopies := t.hostCopies }) ∧
      (Holds s s.inp.port → (∀ r, r ∈ t.pageReqs ↔ r ∈ s.pageReqs ∧ r.port ≠ s.inp.port) ∧
        ((∀ x, s.migOf x = []) → s.granted = [] → ∀ x, t.byteAt x =
          if s.pageReqs.any (fun r => decide (r.port = s.inp.port) && decide (r.record + 1 = x)) then 5
          else s.byteAt x)) := by
  refine ⟨_, portLinkDown_eq s, ?_⟩
  by_cases h : Holds s s.inp.port
  · have hframe := loseReplies_frame s s.inp.port
    obtain ⟨hcopies, -⟩ := loseReplies_callsBack s s.inp.port
    have hbyte := fun hm hg x => byteAt_loseReplies (s := s) hm hg s.inp.port x
    rw [replyLoss_held h]
    generalize s.loseReplies s.inp.port = u at hframe hcopies hbyte ⊢
    have hup : u.annex = s.annex := (congrArg State.annex hframe :)
    have hreqs : u.pageReqs = s.pageReqs.filter fun r => r.port ≠ s.inp.port := (congrArg State.pageReqs hframe :)
    refine ⟨congrArg (fun a : Annex => a.linkUp.filter (· ≠ s.inp.port)) hup, fun e he => ?_, fun hn => absurd h hn,
      fun _ => ⟨fun r => ?_, hbyte⟩⟩
    · obtain ⟨hm, hne⟩ := List.mem_filter.mp he
      exact ⟨hcopies e hm, of_decide_eq_true hne⟩
    · change r ∈ u.pageReqs ↔ _
      rw [hreqs, List.mem_filter, decide_eq_true_eq]
  · rw [replyLoss_free h]
    refine ⟨rfl, fun e he => ?_, fun _ => rfl, fun hh => absurd hh h⟩
    obtain ⟨hm, hne⟩ := List.mem_filter.mp he
    exact ⟨hm, of_decide_eq_true hne⟩

/-- Attestation and the links of the ports (R120, R111). -/
theorem attestationAndLinks : AttestationAndLinks := by
  intro s
  refine ⟨fun hh hrest => ?_, fun h => ⟨s.quoted, attestationCommandDone_quote h, quoted_spec s⟩,
    attestationCommandDone_certifies, linkTraining_up, portLinkDown_spec s⟩
  have hb := mailBusy_of_rest hrest
  exact ⟨attestationQuote_begins hh hb, certificatePieceFirst_begins hh hb, certificatePieceNext_begins hh hb⟩

end Sys2Proof.Machine
end

section
/-! SUPPORT. The host lease changes hands (R122 to R126). -/
namespace Sys2Proof.Machine
open Sys2Proof Sys2Proof.Claims

/-! ### The three accepted writes of HLEASE -/

theorem leaseExpiry_toNat (v : Word) : (leaseExpiry v).toNat = v.toNat % 2 ^ 48 := by
  rw [leaseExpiry, BitVec.extractLsb'_toNat, Nat.shiftRight_zero]

theorem admissible_iff (s : State) (p : BitVec 1) (v : Word) : Admissible s p v ↔ namesPort v p = true ∧ s.expiryOk v = true := by
  unfold Admissible State.expiryOk namesPort
  rw [Bool.and_eq_true, decide_eq_true_eq, decide_eq_true_eq, decide_eq_true_eq, leaseExpiry_toNat]
  rfl

theorem renews_iff (s : State) (p : BitVec 1) (v : Word) : s.renews p v = true ↔ Holds s p ∧ Admissible s p v := by
  rw [holds_iff, admissible_iff, State.renews]
  simp only [Bool.and_eq_true, decide_eq_true_eq, and_assoc]

theorem claims_iff (s : State) (p : BitVec 1) (v : Word) :
    s.claims p v = true ↔ s.leaseLive = false ∧ Admissible s p v := by
  rw [admissible_iff, State.claims]
  simp only [Bool.and_eq_true, Bool.not_eq_true', and_assoc]

theorem releases_iff (s : State) (p : BitVec 1) (v : Word) :
    s.releases p v = true ↔ Holds s p ∧ v.extractLsb' 62 2 = 0 := by
  rw [holds_iff, State.releases]
  simp only [Bool.and_eq_true, decide_eq_true_eq]
  rfl

/-- An admissible write names a port: its ACTIVE is not clear. -/
theorem active_of_admissible {s : State} {p : BitVec 1} {v : Word} (h : Admissible s p v) : v.extractLsb' 62 2 ≠ 0 := by
  obtain ⟨ha, -, -⟩ := h
  rw [ha]
  split
  · decide
  · decide

theorem live_of_holds {s : State} {p : BitVec 1} (h : Holds s p) : s.leaseLive = true := ((holds_iff s p).mp h).1

theorem holds_unique {s : State} {p q : BitVec 1} (h : Holds s p) (h' : Holds s q) : p = q :=
  ((holds_iff s p).mp h).2.symm.trans ((holds_iff s q).mp h').2

theorem xor_one_ne (p : BitVec 1) : p ≠ p ^^^ 1 := by revert p; decide

/-- A write that meets none of the three cases. -/
def Unmet (s : State) (p : BitVec 1) (v : Word) : Prop :=
  (Holds s p ∧ ¬ Admissible s p v ∧ v.extractLsb' 62 2 ≠ 0) ∨ Holds s (p ^^^ 1) ∨
    (¬ Holds s p ∧ ¬ Holds s (p ^^^ 1) ∧ ¬ Admissible s p v)

theorem unmet_spec {s : State} {p : BitVec 1} {v : Word} (h : Unmet s p v) :
    s.renews p v = false ∧ s.claims p v = false ∧ s.releases p v = false := by
  simp only [Bool.eq_false_iff, ne_eq, renews_iff, claims_iff, releases_iff]
  rcases h with ⟨hp, ha, hz⟩ | hq | ⟨hp, -, ha⟩
  · exact ⟨fun h => ha h.2, fun h => ha h.2, fun h => hz h.2⟩
  · have hn : ¬ Holds s p := fun hp => xor_one_ne p (holds_unique hp hq)
    have hl := live_of_holds hq
    exact ⟨fun h => hn h.1, fun h => h.1 hl, fun h => hn h.1⟩
  · exact ⟨fun h => hp h.1, fun h => ha h.2, fun h => hp h.1⟩

theorem if_all_false {α : Type} {a b c : Bool} {x y z : α} (ha : a = false) (hb : b = false) (hc : c = false) :
    (if a then x else if b || c then y else z) = z := by
  rw [ha, hb, hc]
  rfl

section
variable {s : State} {p : BitVec 1} {v : Word} (h3 : s.annex.bootState = 3)
include h3

theorem writeHlease_unmet (h : Unmet s p v) : s.writeHlease p v = s.reject := by
  obtain ⟨hr, hc, hl⟩ := unmet_spec h
  unfold State.writeHlease
  rw [if_neg (not_not_intro h3), hr, hc, hl]
  rfl

theorem writeHlease_renews (h : s.renews p v = true) : s.writeHlease p v = s.renew v := by
  unfold State.writeHlease
  rw [if_neg (not_not_intro h3), if_pos h]

theorem writeHlease_claims (hr : s.renews p v = false) (h : s.claims p v = true) : s.writeHlease p v = s.claim p v := by
  unfold State.writeHlease
  rw [if_neg (not_not_intro h3), hr, if_pos h]
  rfl

theorem writeHlease_releases (hr : s.renews p v = false) (hc : s.claims p v = false) (h : s.releases p v = true) :
    s.writeHlease p v = s.release := by
  unfold State.writeHlease
  rw [if_neg (not_not_intro h3), hr, hc, if_pos h]
  rfl

end

section
variable {s : State} (hh : FromHost s) (h3 : s.annex.bootState = 3)
include hh h3

/-- A write that meets no case is rejected and counted (R122, R125). -/
theorem unmet_rejected {i : Instr} (hi : i ∈ ([.renewal, .claim, .release] : List Instr))
    (h : Unmet s s.inp.port s.inp.value) :
    exec i s = .next { s with annex := { s.annex with rej := satInc s.annex.rej } } := by
  obtain ⟨hr, hc, hl⟩ := unmet_spec h
  have hw := writeHlease_unmet h3 h
  simp only [List.mem_cons, List.not_mem_nil, or_false] at hi
  rcases hi with rfl | rfl | rfl
  · exact congrArg Host.Outcome.next ((fromHost_of_fromHost hh _).trans ((if_all_false hr hc hl).trans hw))
  · exact congrArg Host.Outcome.next ((fromHost_of_fromHost hh _).trans ((if_all_false hc hr hl).trans hw))
  · exact congrArg Host.Outcome.next ((fromHost_of_fromHost hh _).trans ((if_all_false hl hc hr).trans hw))

theorem renewal_renews (hp : Holds s s.inp.port) (ha : Admissible s s.inp.port s.inp.value) :
    exec .renewal s = .next { s with annex := { s.annex with expiry := s.inp.value.extractLsb' 0 48 } } := by
  have hr := (renews_iff s s.inp.port s.inp.value).mpr ⟨hp, ha⟩
  refine congrArg Host.Outcome.next ((fromHost_of_fromHost hh _).trans ?_)
  exact (if_pos hr).trans (writeHlease_renews h3 hr)

theorem claim_claims (hl : s.leaseLive = false) (ha : Admissible s s.inp.port s.inp.value) :
    exec .claim s = .next (s.claim s.inp.port s.inp.value) := by
  have hc := (claims_iff s s.inp.port s.inp.value).mpr ⟨hl, ha⟩
  have hr : s.renews s.inp.port s.inp.value = false :=
    Bool.eq_false_iff.mpr fun h => absurd ((live_of_holds ((renews_iff s _ _).mp h).1).symm.trans hl) (by decide)
  refine congrArg Host.Outcome.next ((fromHost_of_fromHost hh _).trans ?_)
  exact (if_pos hc).trans (writeHlease_claims h3 hr hc)

theorem release_releases (hp : Holds s s.inp.port) (hz : s.inp.value.extractLsb' 62 2 = 0) :
    exec .release s = .next s.release := by
  have hl := (releases_iff s s.inp.port s.inp.value).mpr ⟨hp, hz⟩
  have hr : s.renews s.inp.port s.inp.value = false :=
    Bool.eq_false_iff.mpr fun h => active_of_admissible ((renews_iff s _ _).mp h).2 hz
  have hc : s.claims s.inp.port s.inp.value = false :=
    Bool.eq_false_iff.mpr fun h => active_of_admissible ((claims_iff s _ _).mp h).2 hz
  refine congrArg Host.Outcome.next ((fromHost_of_fromHost hh _).trans ?_)
  exact (if_pos hl).trans (writeHlease_releases h3 hr hc hl)

end

/-! ### The end of a lease -/

/-- The annex when the lease of a port has ended. -/
def Annex.ended (a : Annex) (p : BitVec 1) : Annex :=
  { a with active := 0, inc0 := if p = 0 then a.inc0 + 1 else a.inc0, inc1 := if p = 0 then a.inc1 else a.inc1 + 1 }

/-- What a port whose lease ends loses: its translations and the replies to its page requests. -/
def State.stripped (s : State) (p : BitVec 1) : State :=
  State.loseReplies { s with annex := s.annex.ended p, ats := s.ats.filter fun e => e.port ≠ p } p

theorem endLease_eq (s : State) : s.endLease =
    let t := s.stripped s.leasePort
    if t.portUp (otherPort s.leasePort) then t.send (.msix (otherPort s.leasePort) t.sender.2 0) else t := by
  have h : (s.modAnnex fun a => if s.leasePort = 0 then { a with active := 0, inc0 := a.inc0 + 1 }
      else { a with active := 0, inc1 := a.inc1 + 1 }) = { s with annex := s.annex.ended s.leasePort } := by
    unfold State.modAnnex Annex.ended
    by_cases hp : s.leasePort = 0
    · simp only [if_pos hp]
    · simp only [if_neg hp]
  unfold State.endLease State.stripped
  simp only [h]

/-- The end of a lease in the annex; the sender is the same. -/
theorem endLease_annex (s : State) : s.endLease.annex = s.annex.ended s.leasePort ∧ s.endLease.sender = s.sender := by
  have hf := loseReplies_frame { s with annex := s.annex.ended s.leasePort, ats := s.ats.filter fun e => e.port ≠ s.leasePort }
    s.leasePort
  rw [endLease_eq]
  unfold State.stripped
  generalize State.loseReplies _ _ = u at hf ⊢
  have hu : u.annex = s.annex.ended s.leasePort := (congrArg State.annex hf :)
  have hs : u.sender = s.sender := (congrArg State.sender hf :)
  simp only
  split
  · exact ⟨hu, hs⟩
  · exact ⟨hu, hs⟩

theorem leaseEnds_endLease (s : State) : LeaseEnds s s.endLease s.leasePort := by
  let z : State := { s with annex := s.annex.ended s.leasePort, ats := s.ats.filter fun e => e.port ≠ s.leasePort }
  have hf := loseReplies_frame z s.leasePort
  obtain ⟨-, back, hout, hback⟩ := loseReplies_callsBack z s.leasePort
  have he : s.endLease = let t := z.loseReplies s.leasePort
      if t.portUp (otherPort s.leasePort) then t.send (.msix (otherPort s.leasePort) t.sender.2 0) else t := endLease_eq s
  have ha := (endLease_annex s).1
  generalize State.loseReplies _ _ = u at hf hout he
  have hats : u.ats = s.ats.filter fun e => e.port ≠ s.leasePort := (congrArg State.ats hf :)
  have hreqs : u.pageReqs = s.pageReqs.filter fun r => r.port ≠ s.leasePort := (congrArg State.pageReqs hf :)
  have hsend : u.sender = s.sender := (congrArg State.sender hf :)
  have hup : u.portUp (otherPort s.leasePort) = s.annex.linkUp.contains (s.leasePort ^^^ 1) :=
    (congrArg (State.portUp · (otherPort s.leasePort)) hf :)
  have hmem : s.endLease.ats = u.ats ∧ s.endLease.pageReqs = u.pageReqs ∧ s.endLease.out =
      (if s.annex.linkUp.contains (s.leasePort ^^^ 1) then [Out.msix (s.leasePort ^^^ 1) s.sender.2 0] else []) ++ u.out := by
    rw [he]
    simp only [hup, hsend]
    split
    · exact ⟨rfl, rfl, rfl⟩
    · exact ⟨rfl, rfl, rfl⟩
  obtain ⟨h1, h2, h3⟩ := hmem
  refine ⟨(congrArg Annex.active ha :), (congrArg Annex.inc0 ha :), (congrArg Annex.inc1 ha :), fun e => ?_, fun r => ?_,
    back, ?_, hback⟩
  · rw [h1, hats, List.mem_filter, decide_eq_true_eq]
  · rw [h2, hreqs, List.mem_filter, decide_eq_true_eq]
  · rw [h3, hout, List.append_assoc]

theorem lapse_ends {s : State} (ha : s.annex.active ≠ 0) (he : s.annex.expiry ≤ s.us) : s.lapse = s.endLease :=
  if_pos (by rw [decide_eq_true ha, decide_eq_true he]; rfl)

theorem lapse_clear {s : State} (ha : s.annex.active = 0) : s.lapse = s :=
  if_neg (by rw [decide_eq_false (not_not_intro ha)]; exact Bool.false_ne_true)

theorem not_live_of_clear {s : State} (ha : s.annex.active = 0) : s.leaseLive = false := by
  unfold State.leaseLive
  rw [decide_eq_false (not_not_intro ha)]
  rfl

theorem not_live_of_expired {s : State} (he : s.annex.expiry ≤ s.us) : s.leaseLive = false := by
  unfold State.leaseLive
  rw [decide_eq_false (BitVec.not_lt.mpr he), Bool.and_false]

/-! ### Claims -/

/-- The interrupts of a fold that sends them all carry the sender's incarnation of its start. -/
theorem foldl_msix (p : BitVec 1) (l : List Nat) (s : State) :
    l.foldl (fun s k => s.send (.msix p s.sender.2 k)) s =
      { s with out := (l.map (Out.msix p s.sender.2)).reverse ++ s.out } := by
  induction l generalizing s with
  | nil => rfl
  | cons k r ih =>
    rw [List.foldl_cons, ih, List.map_cons, List.reverse_cons, List.append_assoc]
    rfl

theorem claim_eq {s : State} (hag : s.agenda = []) (p : BitVec 1) (v : Word) : s.claim p v =
    { s.lapse with
      annex := { s.lapse.annex with active := v.extractLsb' 62 2, expiry := v.extractLsb' 0 48, msixPending := [] }
      out := (s.lapse.annex.msixPending.map (Out.msix p s.lapse.sender.2)).reverse ++ s.lapse.out } := by
  have hahead : s.claimAhead = false := by
    unfold State.claimAhead
    rw [hag]
    rfl
  unfold State.claim
  rw [hahead, Bool.and_false, if_neg (by decide)]
  exact foldl_msix p _ _

theorem claim_clear {s : State} (hag : s.agenda = []) (ha : s.annex.active = 0) (p : BitVec 1) (v : Word) : s.claim p v =
    { s with
      annex := { s.annex with active := v.extractLsb' 62 2, expiry := v.extractLsb' 0 48, msixPending := [] }
      out := (s.annex.msixPending.map (Out.msix p s.sender.2)).reverse ++ s.out } := by
  have h := claim_eq hag p v
  rwa [lapse_clear ha] at h

/-- A claim of a lease that has run out ends it first. -/
theorem claim_expired {s : State} (hag : s.agenda = []) (ha : s.annex.active ≠ 0) (he : s.annex.expiry ≤ s.us) (p : BitVec 1)
    (v : Word) : s.claim p v =
    { s.endLease with
      annex := { s.endLease.annex with active := v.extractLsb' 62 2, expiry := v.extractLsb' 0 48, msixPending := [] }
      out := (s.annex.msixPending.map (Out.msix p s.sender.2)).reverse ++ s.endLease.out } := by
  have h := claim_eq hag p v
  obtain ⟨hannex, hsender⟩ := endLease_annex s
  have hpending : s.endLease.annex.msixPending = s.annex.msixPending := (congrArg Annex.msixPending hannex :)
  rwa [lapse_ends ha he, hpending, hsender] at h

theorem leaseEnds_expiry {s u : State} {p : BitVec 1} (h : LeaseEnds s u p) (e : BitVec 48) :
    LeaseEnds s (u.modAnnex fun a => { a with expiry := e }) p := h

/-- The host lease from hand to hand (R122 to R126). -/
theorem hostLeaseChangesHands : HostLeaseChangesHands := by
  intro s
  refine ⟨fun hh h3 => ⟨renewal_renews hh h3, fun ha hag => ⟨fun h0 => ?_, fun h0 he => ?_⟩, fun hp hz => ?_, fun i hi h => ?_⟩,
    fun h0 he => ?_⟩
  · exact (claim_claims hh h3 (not_live_of_clear h0) ha).trans (congrArg Host.Outcome.next (claim_clear hag h0 _ _))
  · exact ⟨s.endLease, leaseEnds_endLease s, (claim_claims hh h3 (not_live_of_expired he) ha).trans
      (congrArg Host.Outcome.next (claim_expired hag h0 he _ _))⟩
  · have hport : s.leasePort = s.inp.port := ((holds_iff s s.inp.port).mp hp).2
    exact ⟨s.release, release_releases hh h3 hp hz, hport ▸ leaseEnds_expiry (leaseEnds_endLease s) 0, rfl⟩
  · exact unmet_rejected hh h3 hi h
  · exact ⟨s.endLease, congrArg Host.Outcome.next (lapse_ends h0 he), leaseEnds_endLease s⟩

end Sys2Proof.Machine
end

section
open Sys2Proof.Machine

/-- Settles O42, from its three parts: bring-up, attestation and links, and the host lease. -/
theorem bringUpAttestationAndLease : Obligations.BringUpAttestationAndLease :=
  ⟨bringUpSteps, attestationAndLinks, hostLeaseChangesHands⟩

end

section
/-! SUPPORT. Launch queues, and register writes of hosts (R13, R112, R114, R127 to R130, R133). -/
namespace Sys2Proof.Machine
open Sys2Proof Sys2Proof.Claims

/-! ### A write by the owner of the lease -/

theorem leaseUp_of_owner {s : State} (h : OwnerWrites s) : s.leaseUp = true ∧ s.leasePort = s.inp.port := by
  obtain ⟨hh, -, hp⟩ := h
  obtain ⟨hl, hport⟩ := (holds_iff s s.inp.port).mp hp
  refine ⟨?_, hport⟩
  unfold State.leaseUp
  rw [hl, hport, portUp_of_fromHost hh]
  rfl

theorem leaseWrite_of_owner {s : State} (h : OwnerWrites s) (f : State → State) : s.leaseWrite s.inp.port f = f s := by
  obtain ⟨-, h3, hp⟩ := h
  obtain ⟨hl, hport⟩ := (holds_iff s s.inp.port).mp hp
  unfold State.leaseWrite
  rw [ready_of_bootState h3, hl, hport, decide_eq_true rfl]
  rfl

/-! ### Queues that take new registers -/

/-- The annex and the interrupt of a queue that stops, or goes on. -/
def State.putQueue (s : State) (q : Nat) (y : LaunchQueue) (stops : Bool) : State :=
  if stops then (s.setLq q y).stopQueue q else s.setLq q y

theorem lq_setLq (s : State) (q k : Nat) (y : LaunchQueue) : (s.setLq q y).lq k = if k = q then y else s.lq k :=
  Table.get_set ({} : LaunchQueue) s.annex.queues q k y

theorem stopQueue_eq {s : State} (hup : s.leaseUp = true) {q : Nat} {y : LaunchQueue} (hy : s.lq q = y) : s.stopQueue q =
    { s with annex := { s.annex with queues := s.annex.queues.set {} q { y with err := true } }
             out := Out.msix s.leasePort s.sender.2 y.vec.toNat :: s.out } := by
  unfold State.stopQueue
  rw [hy]
  exact if_pos (c := (s.setLq q { y with err := true }).leaseUp = true) hup

/-- A queue that stops sets ERR and raises its vector (R129, R133). -/
theorem putQueue_eq {s : State} (h : OwnerWrites s) (q : Nat) (y : LaunchQueue) (stops : Bool) : ∃ m : Table LaunchQueue,
    (∀ k, m.get {} k = if k = q then { y with err := y.err || stops } else s.annex.queues.get {} k) ∧
      s.putQueue q y stops = { s with
        annex := { s.annex with queues := m }
        out := (if stops then [Out.msix s.inp.port s.sender.2 y.vec.toNat] else []) ++ s.out } := by
  have hy (k : Nat) : (s.annex.queues.set {} q y).get {} k = if k = q then y else s.annex.queues.get {} k := lq_setLq s q k y
  cases stops with
  | false => exact ⟨s.annex.queues.set {} q y, fun k => by rw [hy, Bool.or_false], rfl⟩
  | true =>
    obtain ⟨hup, hport⟩ := leaseUp_of_owner h
    refine ⟨(s.annex.queues.set {} q y).set {} q { y with err := true }, fun k => ?_, ?_⟩
    · rw [Table.get_set, hy, Bool.or_true]
      by_cases hk : k = q
      · rw [if_pos hk, if_pos hk]
      · rw [if_neg hk, if_neg hk, if_neg hk]
    · have hq : (s.setLq q y).lq q = y := (lq_setLq s q q y).trans (if_pos rfl)
      rw [← hport]
      exact stopQueue_eq (s := s.setLq q y) hup hq

theorem putQueue_spec {s : State} (h : OwnerWrites s) (q : Nat) (y : LaunchQueue) (stops : Bool) :
    Claims.Queued s (s.putQueue q y stops) q { y with err := y.err || stops } ∧
      s.putQueue q y stops = { s with
        annex := { s.annex with queues := (s.putQueue q y stops).annex.queues }
        out := (if stops then [Out.msix s.inp.port s.sender.2 y.vec.toNat] else []) ++ s.out } := by
  obtain ⟨m, hm, heq⟩ := putQueue_eq h q y stops
  rw [heq]
  exact ⟨⟨(hm q).trans (if_pos rfl), fun k hk => (hm k).trans (if_neg hk)⟩, rfl⟩

theorem doorbell_spec {s : State} (h : OwnerWrites s) :
    let q := s.inp.queue.toNat
    let x := s.annex.queues.get {} q
    let y : LaunchQueue := { x with tail := s.inp.value.extractLsb' 0 32 }
    let full : Bool := x.en && decide (2 ^ x.log2.toNat < (y.tail - x.head).toNat)
    ∃ t, exec .doorbell s = .next t ∧ Claims.Queued s t q { y with err := x.err || full } ∧
      t = { s with annex := { s.annex with queues := t.annex.queues }
                   out := (if full then [Out.msix s.inp.port s.sender.2 x.vec.toNat] else []) ++ s.out } := by
  intro q x y full
  refine ⟨s.putQueue q y full, ?_, putQueue_spec h q y full⟩
  exact congrArg Host.Outcome.next ((fromHost_of_fromHost h.1 _).trans (leaseWrite_of_owner h _))

/-! ### LQCTL -/

/-- A queue that is not enabled takes the fields of LQCTL (R127, R128). -/
def LaunchQueue.latched (x : LaunchQueue) (v : Word) : LaunchQueue := { x with
  vec := if (v.extractLsb' 16 6 : BitVec 6) < 2 then 2 else v.extractLsb' 16 6
  ctx := v.extractLsb' 48 16
  log2 := if (v.extractLsb' 8 4 : BitVec 4) < 4 then 4 else v.extractLsb' 8 4
  err := x.err && !v.getLsbD 2
  head := if v.getLsbD 1 then 0 else x.head
  tail := if v.getLsbD 1 then 0 else x.tail
  en := v.getLsbD 0 }

theorem toNat_extractLsb' (v : Word) (lo n : Nat) : (v.extractLsb' lo n).toNat = bitsOf v lo n := by
  rw [BitVec.extractLsb'_toNat, Nat.shiftRight_eq_div_pow]
  rfl

/-- The context descriptor of an annex activity can be read (R152). -/
def State.readable (s : State) (ctx : BitVec 16) : Bool := s.inBoot ctx || (s.ctxDesc ctx).isSome

theorem ctxBad_isSome (s : State) (ctx : BitVec 16) : (s.ctxBad ctx).isSome = !s.readable ctx := by
  unfold State.ctxBad State.readable
  cases s.inBoot ctx || (s.ctxDesc ctx).isSome with
  | true => rfl
  | false => rfl

/-- LQCTL of a queue that is not enabled. -/
theorem writeLqctl_closed {s : State} {q : Nat} (v : Word) (h : (s.lq q).en = false) :
    s.writeLqctl q v = s.putQueue q ((s.lq q).latched v)
      (v.getLsbD 0 && (((s.lq q).latched v).over || !s.readable ((s.lq q).latched v).ctx)) := by
  have hvec : (bitsOf v 16 6 < 2) ↔ (v.extractLsb' 16 6 : BitVec 6) < 2 := by
    rw [BitVec.lt_def, toNat_extractLsb']
    rfl
  have hlog : (bitsOf v 8 4 < 4) ↔ (v.extractLsb' 8 4 : BitVec 4) < 4 := by
    rw [BitVec.lt_def, toNat_extractLsb']
    rfl
  unfold State.writeLqctl
  simp only [h, hvec, hlog, Bool.not_false, Bool.and_true, Bool.false_and, Bool.false_eq_true, if_false, Bool.true_and]
  rw [← ctxBad_isSome]
  rfl

section
variable {s : State} (h : OwnerWrites s) (hoff : (s.lq s.inp.queue.toNat).en = false)
include h hoff

theorem queueEnable_spec (hen : s.inp.value.getLsbD 0 = true) :
    let q := s.inp.queue.toNat
    let lat := (s.lq q).latched s.inp.value
    let stops : Bool := decide (2 ^ lat.log2.toNat < (lat.tail - lat.head).toNat) || !s.readable lat.ctx
    ∃ t, exec .queueEnable s = .next t ∧ Claims.Queued s t q { lat with err := lat.err || stops } ∧
      t = { s with annex := { s.annex with queues := t.annex.queues }
                   out := (if stops then [Out.msix s.inp.port s.sender.2 lat.vec.toNat] else []) ++ s.out } := by
  intro q lat stops
  have hw : s.writeLqctl q s.inp.value = s.putQueue q lat stops := by
    rw [writeLqctl_closed s.inp.value hoff, hen, Bool.true_and]
    rfl
  refine ⟨s.putQueue q lat stops, ?_, putQueue_spec h q lat stops⟩
  refine congrArg Host.Outcome.next ((fromHost_of_fromHost h.1 _).trans ((leaseWrite_of_owner h _).trans ?_))
  exact (if_pos (by rw [hoff, hen]; rfl)).trans hw

theorem queueReset_spec (hrst : s.inp.value.getLsbD 1 = true)
    (hen : s.inp.value.getLsbD 0 = false ∨ s.readable ((s.lq s.inp.queue.toNat).latched s.inp.value).ctx = true) :
    let q := s.inp.queue.toNat
    let lat := (s.lq q).latched s.inp.value
    ∃ t, exec .queueReset s = .next t ∧ Claims.Queued s t q lat ∧ lat.head = 0 ∧ lat.tail = 0 ∧ OnlyAnnex s t := by
  intro q lat
  have hhead : lat.head = 0 := if_pos hrst
  have htail : lat.tail = 0 := if_pos hrst
  have hover : lat.over = false := by
    unfold LaunchQueue.over
    rw [hhead, htail]
    exact decide_eq_false (Nat.not_lt.mpr (Nat.zero_le _))
  have hgo : (s.inp.value.getLsbD 0 && (lat.over || !s.readable lat.ctx)) = false := by
    rw [hover]
    rcases hen with hen | hen
    · rw [hen, Bool.false_and]
    · rw [hen]
      exact Bool.and_false _
  have hw : s.writeLqctl q s.inp.value = s.setLq q lat := by
    rw [writeLqctl_closed s.inp.value hoff, hgo]
    rfl
  refine ⟨s.setLq q lat, ?_, ⟨(lq_setLq s q q lat).trans (if_pos rfl), fun k hk => (lq_setLq s q k lat).trans (if_neg hk)⟩,
    hhead, htail, rfl⟩
  refine congrArg Host.Outcome.next ((fromHost_of_fromHost h.1 _).trans ((leaseWrite_of_owner h _).trans ?_))
  exact (if_pos (by rw [hoff, hrst]; rfl)).trans hw

end

/-- LQCTL that disables a queue drops its heads (R130). -/
theorem writeLqctl_disables {s : State} {q : Nat} {v : Word} (h : (s.lq q).en = true) (hv : v.getLsbD 0 = false) :
    ∃ y : LaunchQueue, y.en = false ∧ s.writeLqctl q v = (s.setLq q y).dropHeads q := by
  unfold State.writeLqctl
  simp only [h, hv, Bool.not_false, Bool.and_true, if_true]
  exact ⟨_, rfl, rfl⟩

theorem queueDisable_spec {s : State} (h : OwnerWrites s) (hon : (s.lq s.inp.queue.toNat).en = true)
    (hv : s.inp.value.getLsbD 0 = false) :
    let q := s.inp.queue.toNat
    ∃ t, exec .queueDisable s = .next t ∧ (t.annex.queues.get {} q).en = false ∧
      (∀ l, l ∈ t.annex.launches ↔ l ∈ s.annex.launches ∧ ¬ (l.queue = q ∧ l.slots = [])) := by
  intro q
  obtain ⟨y, hy, hw⟩ := writeLqctl_disables hon hv
  refine ⟨(s.setLq q y).dropHeads q, ?_, ?_, fun l => ?_⟩
  · refine congrArg Host.Outcome.next ((fromHost_of_fromHost h.1 _).trans ((leaseWrite_of_owner h _).trans ?_))
    exact (if_pos (by rw [hon, hv]; rfl)).trans hw
  · exact (congrArg LaunchQueue.en ((lq_setLq s q q y).trans (if_pos rfl))).trans hy
  · have hl : ((s.setLq q y).dropHeads q).annex.launches = s.annex.launches.filter fun l => !(l.queue = q && l.isHead) := rfl
    rw [hl, List.mem_filter]
    unfold Launch.isHead
    simp [imp_iff_not_or]

end Sys2Proof.Machine
end

section
/-! SUPPORT. Register accesses that are steps of their own (R13, R112, R114). -/
namespace Sys2Proof.Machine
open Sys2Proof Sys2Proof.Claims

/-! ### A host's accesses to the annex register block -/

section
variable {s : State} (hpart : s.inp.part = 0) (hh : FromHost s)
include hpart hh

theorem registerWrite_writes (hread : s.inp.canRead = false) : exec .registerWrite s =
    .next (if dwordAt s.inp.off.toNat s.inp.size then s.annexWrite s.inp.port s.inp.off.toNat s.inp.value else s) := by
  change execRegisterWrite s = _
  unfold execRegisterWrite
  simp only [hpart, hread, Nat.reduceEqDiff, if_false, Bool.false_eq_true]
  exact congrArg Host.Outcome.next (fromHost_of_fromHost hh _)

theorem registerWrite_reads (hread : s.inp.canRead = true) : exec .registerWrite s =
    .next (s.send (.mmioRead s.inp.port s.sender.2
      (if dwordAt s.inp.off.toNat s.inp.size then s.annexRead s.inp.off.toNat else BitVec.allOnes 64))) := by
  have hp : s.portUp s.inp.port = true := portUp_of_fromHost hh
  have hinc : ¬ s.inp.inc ≠ s.incOf s.inp.port := not_not_intro (incOf_of_fromHost hh)
  change execRegisterWrite s = _
  unfold execRegisterWrite
  simp only [hpart, hread, Nat.reduceEqDiff, if_false, if_true]
  unfold State.hostRead
  simp only [hp, Bool.not_true, Bool.false_eq_true, if_false]
  exact congrArg Host.Outcome.next (if_neg hinc)

/-- A write of an aligned dword. -/
theorem registerWrite_at (hread : s.inp.canRead = false) (hsize : s.inp.size = 8) {off : Nat} (hoff : s.inp.off.toNat = off)
    (hal : off % 8 = 0) : exec .registerWrite s = .next (s.annexWrite s.inp.port off s.inp.value) := by
  have hd : dwordAt off 8 = true := by
    unfold dwordAt
    rw [hal]
    rfl
  rw [registerWrite_writes hpart hh hread, hoff, hsize]
  exact congrArg Host.Outcome.next (if_pos hd)

/-- An access that is no aligned dword (R114). -/
theorem registerWrite_odd (hbad : s.inp.size ≠ 8 ∨ s.inp.off.toNat % 8 ≠ 0) : exec .registerWrite s =
    .next (if s.inp.canRead then { s with out := .mmioRead s.inp.port s.sender.2 (BitVec.allOnes 64) :: s.out } else s) := by
  have hd : dwordAt s.inp.off.toNat s.inp.size = false := by
    unfold dwordAt
    rcases hbad with hb | hb
    · rw [decide_eq_false hb, Bool.and_false]
    · rw [decide_eq_false hb, Bool.false_and]
  cases hread : s.inp.canRead with
  | true =>
    rw [registerWrite_reads hpart hh hread, hd]
    rfl
  | false =>
    rw [registerWrite_writes hpart hh hread, hd]
    rfl

end

theorem annexWrite_suspTime (s : State) (p : BitVec 1) (v : Word) :
    s.annexWrite p 0x40 v = s.leaseWrite p fun s => s.modAnnex fun a => { a with suspTime := v } := rfl

theorem annexWrite_cap (s : State) (p : BitVec 1) (v : Word) :
    s.annexWrite p 0x58 v = s.leaseWrite p fun s => s.modAnnex fun a => { a with cap := capOf v } := rfl

theorem capOf_eq (v : Word) : capOf v =
    if 1 ≤ v.toNat % 2 ^ 16 ∧ v.toNat % 2 ^ 16 ≤ 199 then 200 else v.extractLsb' 0 16 := by
  unfold capOf bitsOf
  simp only [pow_zero, Nat.div_one, Bool.and_eq_true, decide_eq_true_eq]

/-- The window of a port (R110, R112). -/
theorem registerWrite_window {s : State} (hpart : s.inp.part = 2) (hh : FromHost s) :
    let other := s.annex.hdmGib.get 128 (if s.inp.port = 0 then 1 else 0)
    exec .registerWrite s = .next (if s.inp.value.toNat + other ≤ 256 then
      { s with annex := { s.annex with hdmGib := s.annex.hdmGib.set 128 s.inp.port.toNat s.inp.value.toNat } } else s) := by
  have hother : (otherPort s.inp.port).toNat = if s.inp.port = 0 then 1 else 0 := by
    generalize s.inp.port = p
    revert p
    decide
  intro other
  change execRegisterWrite s = _
  unfold execRegisterWrite
  simp only [hpart, Nat.reduceEqDiff, if_false, if_true]
  refine congrArg Host.Outcome.next ((fromHost_of_fromHost hh _).trans ?_)
  unfold State.setWindow
  rw [hother]
  rfl

/-! ### A strand's writes -/

theorem asWriter_privileged {s : State} {n : Nat} {u : Strand} (hu : s.strand n = some u) (hc : u.cur = true)
    (f : State → State) : s.asWriter n f = { f { s with cur := n } with cur := s.cur } := by
  unfold State.asWriter
  rw [hu]
  exact if_pos (congrArg some hc)

/-- A write that changes the strand in a slot alone. -/
theorem inSlot_modSelf {s : State} {n : Nat} {u : Strand} (hu : s.strand n = some u) (f : Strand → Strand) :
    s.inSlot n (fun s => s.modSelf f) = { s with strands := s.strands.put n (f u) } := by
  have hself : State.self { s with cur := n } = u := by
    unfold State.self
    exact congrArg (fun o : Option Strand => o.getD {}) hu
  exact congrArg (fun x : Strand => ({ s with strands := s.strands.put n (f x) } : State)) hself

theorem busyIn_nil (s : State) (n : Nat) : s.busyIn n [] = false := by
  unfold State.busyIn
  simp

theorem registerWrite_scratch {s : State} {u : Strand} (hpart : s.inp.part = 1) (hu : s.strand s.inp.unit = some u)
    (hc : u.cur = true) (hcode : s.inp.code = 0xC5) :
    exec .registerWrite s = .next { s with strands := s.strands.put s.inp.unit { u with xscratch := s.inp.value } } := by
  have hsome : (s.strand s.inp.unit).isNone = false := by rw [hu]; rfl
  have haway : s.arfAway 0xC5 s.inp.value = none := rfl
  have hwaits : sysWaits 0xC5 true = [] := rfl
  have hpriv : sysPrivileged 0xC5 = true := rfl
  change execRegisterWrite s = _
  unfold execRegisterWrite
  simp only [hpart, if_true, hcode]
  refine congrArg Host.Outcome.next ?_
  change s.strandWrite s.inp.unit 0xC5 s.inp.value = _
  unfold State.strandWrite
  have hgo : ((s.strand s.inp.unit).isNone || s.busyIn s.inp.unit (sysWaits 0xC5 true) ||
      (decide ((0xC5 : BitVec 16) = 0x8) && !(s.strand s.inp.unit).any Strand.vectorIdle) ||
      (s.arfAway (0xC5 : BitVec 16).toNat s.inp.value).isSome) = false := by
    rw [hsome, hwaits, busyIn_nil]
    rfl
  rw [hgo, hpriv]
  refine (asWriter_privileged hu hc _).trans ?_
  exact inSlot_modSelf hu fun t => { t with xscratch := s.inp.value }

/-- Launch queues, and the accesses to registers (R13, R112, R114, R127 to R130, R133). -/
theorem queuesAndRegisterWrites : QueuesAndRegisterWrites := by
  intro s v q x lat readable host
  refine ⟨fun h => ⟨doorbell_spec h, queueEnable_spec h, queueReset_spec h, queueDisable_spec h⟩, ?_, ?_, ?_, ?_,
    registerWrite_odd, registerWrite_window, fun u hpart hu hc hcode => ?_⟩
  · rintro i ⟨rfl, hpart, hread, hsize, hoff, hh⟩ h
    rw [registerWrite_at hpart hh hread hsize hoff rfl, annexWrite_suspTime, leaseWrite_of_owner h]
    rfl
  · rintro i ⟨rfl, hpart, hread, hsize, hoff, hh⟩ h
    rw [registerWrite_at hpart hh hread hsize hoff rfl, ← capOf_eq, annexWrite_cap, leaseWrite_of_owner h]
    rfl
  · rintro i ⟨rfl, hpart, hread, hsize, hoff, hh⟩
    exact registerWrite_at hpart hh hread hsize hoff rfl
  · rintro i ⟨rfl, hpart, hread, hsize, hoff, hh⟩
    rw [registerWrite_reads hpart hh hread, hoff, hsize]
    rfl
  · have hw := registerWrite_scratch hpart hu hc hcode
    have hs (n : Nat) : Table.find n (s.strands.put s.inp.unit { u with xscratch := s.inp.value }) =
        if n = s.inp.unit then some { u with xscratch := s.inp.value } else s.strand n := Table.find_put s.strands _ n _
    exact ⟨_, hw, (hs s.inp.unit).trans (if_pos rfl), fun n hn => (hs n).trans (if_neg hn), rfl⟩

end Sys2Proof.Machine
end

section
/-! SUPPORT. The writes of system registers that are steps of their own (R53, R151, R168 to R170, R173, R443, R444). -/
namespace Sys2Proof.Machine
open Sys2Proof Sys2Proof.Claims

/-! ### One strand's registers -/

/-- A step that puts a strand in its slot changes that strand alone. -/
theorem onlyStrand_of_put {i : Instr} {s : State} {n : Nat} {u : Strand}
    (h : exec i s = .next { s with strands := s.strands.put n u }) : OnlyStrand i s n u := by
  have hs (k : Nat) : Table.find k (s.strands.put n u) = if k = n then some u else s.strand k := Table.find_put s.strands n k u
  exact ⟨_, h, (hs n).trans (if_pos rfl), fun k hk => (hs k).trans (if_neg hk), rfl⟩

/-- FCTL keeps its rounding mode on the values 5 to 7 (R53). -/
theorem setFctl_eq (u : Strand) (v : Word) : u.setFctl v = { u with
    sat := v.getLsbD 11, fflags := v.extractLsb' 0 5
    rm := if (v.extractLsb' 8 3).toNat < 5 then v.extractLsb' 8 3 else u.rm } := by
  have hrm : ∀ r : BitVec 3, (if r = 5 || r = 6 || r = 7 then u.rm else r) = if r.toNat < 5 then r else u.rm := by
    intro r
    by_cases h : r.toNat < 5
    · have hn : ¬ (r = 5 || r = 6 || r = 7) = true := by
        simp only [Bool.or_eq_true, decide_eq_true_eq]
        rintro ((rfl | rfl) | rfl) <;> exact absurd h (by decide)
      rw [if_pos h, if_neg hn]
    · have hp : (r = 5 || r = 6 || r = 7) = true := by
        revert h
        revert r
        decide
      rw [if_neg h, if_pos hp]
  unfold Strand.setFctl
  simp only [hrm]

section
variable {s : State} {u : Strand} (hu : s.strand s.inp.unit = some u)
include hu

theorem fctlWrite_sets (hb : s.busyIn s.inp.unit [5] = false) (hq : u.vq = []) (hi : u.inside = none) (hm : u.midway = false) :
    exec .fctlWrite s = .next { s with strands := s.strands.put s.inp.unit (u.setFctl s.inp.value) } := by
  have hidle : (s.strand s.inp.unit).any Strand.vectorIdle = true := by
    rw [hu, Option.any_some, Strand.vectorIdle, hq, hi, hm]
    rfl
  refine congrArg Host.Outcome.next ((if_pos ?_).trans (inSlot_modSelf hu fun t => t.setFctl s.inp.value))
  rw [hidle, hb]
  rfl

/-- FCTL waits for the strand's earlier vector instructions (R53). -/
theorem fctlWrite_waits (hq : u.vq ≠ [] ∨ u.inside ≠ none) : exec .fctlWrite s = .next s := by
  have hidle : (s.strand s.inp.unit).any Strand.vectorIdle = false := by
    rw [hu, Option.any_some, Strand.vectorIdle]
    rcases hq with hq | hi
    · rw [List.isEmpty_eq_false_iff.mpr hq]
      rfl
    · rw [Option.isNone_eq_false_iff.mpr (Option.isSome_iff_ne_none.mpr hi), Bool.and_false]
      rfl
  refine congrArg Host.Outcome.next (if_neg ?_)
  rw [hidle]
  exact Bool.false_ne_true

end

section
variable {s : State} {u : Strand} (hu : s.strand s.inp.unit = some u) (hc : u.cur = true)
include hu hc

theorem ctxidWrite_sets : OnlyStrand .ctxidWrite s s.inp.unit
    { u with ctxid := s.inp.value.extractLsb' 0 16, slink := none, vlinks := [] } :=
  onlyStrand_of_put (congrArg Host.Outcome.next
    ((asWriter_privileged hu hc _).trans (inSlot_modSelf hu fun t => t.setCtx s.inp.value)))

theorem ctxtabWrite_sets : exec .ctxtabWrite s = .next { s with
    ctxtabBase := s.inp.value.extractLsb' 12 40
    ctxtabLog2n := if 16 < s.inp.value.toNat % 32 then 16 else s.inp.value.extractLsb' 0 5
    ctxtabWritten := true } := by
  have hn : bitsOf s.inp.value 0 5 = s.inp.value.toNat % 32 := by
    unfold bitsOf
    rw [pow_zero, Nat.div_one]
    rfl
  rw [← hn]
  exact congrArg Host.Outcome.next (asWriter_privileged hu hc _)

theorem hdmtWrite_sets : ∃ t, exec .hdmtWrite s = .next t ∧ t = { s with hdmt := t.hdmt, hdmtWritten := t.hdmtWritten } ∧
    ∀ p, t.hdmt.get 0 p = (if p = s.inp.port.toNat then s.inp.value.extractLsb' 12 40 else s.hdmt.get 0 p) ∧
      t.hdmtWritten.get false p = (decide (p = s.inp.port.toNat) || s.hdmtWritten.get false p) := by
  refine ⟨_, congrArg Host.Outcome.next (asWriter_privileged hu hc _), rfl,
    fun p => ⟨Table.get_set (0 : BitVec 40) s.hdmt s.inp.port.toNat p _, ?_⟩⟩
  refine (Table.get_set false s.hdmtWritten s.inp.port.toNat p true).trans ?_
  by_cases hp : p = s.inp.port.toNat
  · rw [if_pos hp, decide_eq_true hp]
    rfl
  · rw [if_neg hp, decide_eq_false hp]
    rfl

end

/-! ### Decoded views (R168, R169) -/

/-- Reservoir lines dropped one after the other. -/
theorem foldl_dropResv (l : List (Nat × RLine)) (s : State) :
    ReservoirMoves s (l.foldl (fun s e => s.dropResv e.1) s) ∧ ∀ k,
      (l.foldl (fun s e => s.dropResv e.1) s).resv.find k = if k ∈ l.map (·.1) then none else s.resv.find k := by
  induction l generalizing s with
  | nil => exact ⟨rfl, fun _ => rfl⟩
  | cons e r ih =>
    obtain ⟨hm, hf⟩ := ih (s.dropResv e.1)
    refine ⟨reservoirMoves_trans (dropResv_moves s e.1) hm, fun k => (hf k).trans ?_⟩
    rw [find_dropResv]
    by_cases hk : k = e.1
    · simp [hk]
    · rw [if_neg hk]
      exact if_congr (by rw [List.map_cons, List.mem_cons, or_iff_right hk]) rfl rfl

theorem dropView_moves (s : State) (k : Nat) : ReservoirMoves s (s.dropView k) := (foldl_dropResv _ s).1

theorem find_dropView (s : State) (k hl : Nat) :
    (s.dropView k).resv.find hl = if s.inRange k hl then none else s.resv.find hl := by
  refine ((foldl_dropResv _ s).2 hl).trans ?_
  by_cases hin : s.inRange k hl = true
  · rw [if_pos hin]
    split
    next => rfl
    next hn =>
      refine Table.find_eq_none_of_not_mem _ _ fun hm => hn ?_
      obtain ⟨e, he, rfl⟩ := List.mem_map.mp hm
      exact List.mem_map.mpr ⟨e, List.mem_filter.mpr ⟨he, hin⟩, rfl⟩
  · rw [if_neg hin, if_neg]
    intro hm
    obtain ⟨e, he, rfl⟩ := List.mem_map.mp hm
    exact hin (List.mem_filter.mp he).2

/-- The registers of a range after a write do not depend on the reservoir. -/
theorem setArf_congr {s d : State} (h : ReservoirMoves s d) (n : Nat) (v : Word) :
    d.setArf n v = { s.setArf n v with resv := d.resv, hostMem := d.hostMem, hostPoison := d.hostPoison } := by
  rw [ReservoirMoves] at h
  rw [h]
  unfold State.setArf
  simp only
  split
  · rfl
  · rfl

theorem inRange_congr {s t : State} (hb : t.arfb = s.arfb) (hl : t.arfcLimit = s.arfcLimit) (k x : Nat) :
    t.inRange k x = s.inRange k x := by
  unfold State.inRange
  rw [hb, hl]

/-- A write of a range drops the lines of the old range and of the new one (R169). -/
theorem writeArf_spec (s : State) (n : Nat) (v : Word) :
    let k := (n - 0x20) / 2
    let t := s.writeArf n v
    let w := s.setArf n v
    t = { w with resv := t.resv, hostMem := t.hostMem, hostPoison := t.hostPoison } ∧
      ∀ hl, s.inRange k hl = true ∨ w.inRange k hl = true → t.resv.find hl = none := by
  intro k t w
  have hd := setArf_congr (dropView_moves s k) n v
  have ht := dropView_moves ((s.dropView k).setArf n v) k
  have hb : ((s.dropView k).setArf n v).arfb = w.arfb := (congrArg State.arfb hd :)
  have hl : ((s.dropView k).setArf n v).arfcLimit = w.arfcLimit := (congrArg State.arfcLimit hd :)
  have hr : ((s.dropView k).setArf n v).resv = (s.dropView k).resv := (congrArg State.resv hd :)
  have hfind (x : Nat) : t.resv.find x = if w.inRange k x then none else if s.inRange k x then none else s.resv.find x := by
    refine (find_dropView ((s.dropView k).setArf n v) k x).trans ?_
    rw [inRange_congr hb hl, hr, find_dropView]
  refine ⟨?_, fun x hx => ?_⟩
  · have htw : ReservoirMoves ((s.dropView k).setArf n v) t := ht
    generalize t = z at htw ⊢
    rw [ReservoirMoves, hd] at htw
    exact htw
  · rw [hfind]
    rcases hx with hx | hx
    · rw [if_pos hx, ite_self]
    · rw [if_pos hx]

theorem arfAway_none {s : State} (h : ∀ e ∈ s.resv, e.2.dirty = true → s.annex.linkUp.contains e.2.port = true) (n : Nat) (v : Word) :
    s.arfAway n v = none := by
  have haway (on : Nat → Bool) : s.awayPort on = none := by
    unfold State.awayPort
    rw [Option.map_eq_none_iff, List.find?_eq_none]
    intro e he hc
    rw [Bool.and_eq_true, Bool.and_eq_true, Bool.not_eq_true'] at hc
    obtain ⟨⟨-, hd⟩, hp⟩ := hc
    have hup : s.portUp e.2.port = true := h e he hd
    exact absurd (hup.symm.trans hp) (by decide)
  unfold State.arfAway
  split
  · exact haway _
  · rfl

theorem arfWrite_writes {s : State} {u : Strand} (hu : s.strand s.inp.unit = some u) (hc : u.cur = true) {k : Nat} (hk : k < 16)
    (hcode : s.inp.code = 0x20 + 2 * k ∨ s.inp.code = 0x21 + 2 * k)
    (h : ∀ e ∈ s.resv, e.2.dirty = true → s.annex.linkUp.contains e.2.port = true) :
    exec .arfWrite s = .next { State.writeArf { s with cur := s.inp.unit } s.inp.code s.inp.value with cur := s.cur } := by
  have hgo : (decide (0x20 ≤ s.inp.code) && decide (s.inp.code ≤ 0x3F) && (s.arfAway s.inp.code s.inp.value).isNone) = true := by
    rw [arfAway_none h, decide_eq_true (by omega), decide_eq_true (by omega)]
    rfl
  exact congrArg Host.Outcome.next ((if_pos hgo).trans (asWriter_privileged hu hc _))

theorem setArf_base (s : State) {n k : Nat} (h : n = 0x20 + 2 * k) (v : Word) :
    (s.setArf n v).arfb.get 0 k = v.extractLsb' 21 31 := by
  have hk : (n - 0x20) / 2 = k := by omega
  unfold State.setArf
  rw [if_pos (by omega), hk]
  exact (Table.get_set (0 : BitVec 31) s.arfb k k _).trans (if_pos rfl)

theorem setArf_control (s : State) {n k : Nat} (h : n = 0x21 + 2 * k) (v : Word) :
    (s.setArf n v).arfcLimit.get 0 k = v.extractLsb' 21 31 ∧ (s.setArf n v).arfcFmt.get 0 k = v.extractLsb' 1 3 ∧
      (s.setArf n v).arfcEn.get false k = v.getLsbD 0 := by
  have hk : (n - 0x20) / 2 = k := by omega
  unfold State.setArf
  rw [if_neg (by omega), hk]
  exact ⟨(Table.get_set (0 : BitVec 31) s.arfcLimit k k _).trans (if_pos rfl),
    (Table.get_set (0 : BitVec 3) s.arfcFmt k k _).trans (if_pos rfl),
    (Table.get_set false s.arfcEn k k _).trans (if_pos rfl)⟩

theorem setArf_strands_mem (s : State) (n : Nat) (v : Word) : (s.setArf n v).strands = s.strands ∧ (s.setArf n v).mem = s.mem := by
  unfold State.setArf
  simp only
  split
  · exact ⟨rfl, rfl⟩
  · exact ⟨rfl, rfl⟩

theorem inRange_iff (s : State) (k hl : Nat) : s.inRange k hl = true ↔
    (s.arfb.get 0 k).toNat * 2 ^ 21 ≤ 64 * hl ∧ 64 * hl < (s.arfcLimit.get 0 k).toNat * 2 ^ 21 := by
  unfold State.inRange
  rw [Bool.and_eq_true, decide_eq_true_eq, decide_eq_true_eq]

theorem arfWrite_spec {s : State} {u : Strand} (hu : s.strand s.inp.unit = some u) (hc : u.cur = true) {k : Nat} (hk : k < 16)
    (hcode : s.inp.code = 0x20 + 2 * k ∨ s.inp.code = 0x21 + 2 * k)
    (h : ∀ e ∈ s.resv, e.2.dirty = true → s.annex.linkUp.contains e.2.port = true) :
    ∃ t, exec .arfWrite s = .next t ∧ t.strands = s.strands ∧ t.mem = s.mem ∧
      (s.inp.code = 0x20 + 2 * k → t.arfb.get 0 k = s.inp.value.extractLsb' 21 31) ∧
      (s.inp.code = 0x21 + 2 * k → t.arfcLimit.get 0 k = s.inp.value.extractLsb' 21 31 ∧
        t.arfcFmt.get 0 k = s.inp.value.extractLsb' 1 3 ∧ t.arfcEn.get false k = s.inp.value.getLsbD 0) ∧
      ∀ x ∈ [s, t], ∀ hl, (x.arfb.get 0 k).toNat * 2 ^ 21 ≤ 64 * hl → 64 * hl < (x.arfcLimit.get 0 k).toNat * 2 ^ 21 →
        t.resv.find hl = none := by
  have hkk : (s.inp.code - 0x20) / 2 = k := by omega
  have hex := arfWrite_writes hu hc hk hcode h
  obtain ⟨ht, hgone⟩ := writeArf_spec { s with cur := s.inp.unit } s.inp.code s.inp.value
  have hbase := fun hb => setArf_base { s with cur := s.inp.unit } (k := k) (n := s.inp.code) hb s.inp.value
  have hcontrol := fun hb => setArf_control { s with cur := s.inp.unit } (k := k) (n := s.inp.code) hb s.inp.value
  obtain ⟨hstrands, hmem⟩ := setArf_strands_mem { s with cur := s.inp.unit } s.inp.code s.inp.value
  simp only [hkk] at hgone
  generalize State.writeArf _ _ _ = z at hex ht hgone
  generalize State.setArf _ _ _ = w at ht hgone hbase hcontrol hstrands hmem
  have hzb : z.arfb = w.arfb := (congrArg State.arfb ht :)
  have hzl : z.arfcLimit = w.arfcLimit := (congrArg State.arfcLimit ht :)
  have hzf : z.arfcFmt = w.arfcFmt := (congrArg State.arfcFmt ht :)
  have hze : z.arfcEn = w.arfcEn := (congrArg State.arfcEn ht :)
  have hzs : z.strands = w.strands := (congrArg State.strands ht :)
  have hzm : z.mem = w.mem := (congrArg State.mem ht :)
  refine ⟨{ z with cur := s.cur }, hex, hzs.trans hstrands, hzm.trans hmem, fun hb => ?_, fun hb => ?_, fun x hx hl h1 h2 => ?_⟩
  · exact (congrArg (fun m : Table (BitVec 31) => m.get 0 k) hzb).trans (hbase hb)
  · obtain ⟨c1, c2, c3⟩ := hcontrol hb
    exact ⟨(congrArg (fun m : Table (BitVec 31) => m.get 0 k) hzl).trans c1,
      (congrArg (fun m : Table (BitVec 3) => m.get 0 k) hzf).trans c2,
      (congrArg (fun m : Table Bool => m.get false k) hze).trans c3⟩
  · refine hgone hl ?_
    rw [List.mem_cons, List.mem_singleton] at hx
    rcases hx with rfl | rfl
    · exact .inl ((inRange_iff _ k hl).mpr ⟨h1, h2⟩)
    · rw [← inRange_congr hzb hzl]
      exact .inr ((inRange_iff _ k hl).mpr ⟨h1, h2⟩)

/-! ### Cast pools (R173) -/

/-- CASTPOOL in the registers of a basin. -/
def Basin.setPool (b : Basin) (v : Word) : Basin := { b with
  poolDie := if 11 < (v.extractLsb' 12 4 : BitVec 4) then 11 else v.extractLsb' 12 4
  poolSub := if 64 < (v.extractLsb' 1 7 : BitVec 7) then 64 else v.extractLsb' 1 7
  poolEn := v.getLsbD 0 }

theorem setPool_eq (b : Basin) (v : Word) : { b with
    poolDie := if 11 < bitsOf v 12 4 then 11 else v.extractLsb' 12 4
    poolSub := if 64 < bitsOf v 1 7 then 64 else v.extractLsb' 1 7
    poolEn := v.getLsbD 0 } = b.setPool v := by
  have hd : 11 < bitsOf v 12 4 ↔ 11 < (v.extractLsb' 12 4 : BitVec 4) := by
    rw [BitVec.lt_def, toNat_extractLsb']
    rfl
  have hs : 64 < bitsOf v 1 7 ↔ 64 < (v.extractLsb' 1 7 : BitVec 7) := by
    rw [BitVec.lt_def, toNat_extractLsb']
    rfl
  unfold Basin.setPool
  simp only [hd, hs]

theorem poolOn_setPool {v : Word} (h : v.getLsbD 0 = false) (b : Basin) : (b.setPool v).poolOn = false := by
  unfold Basin.poolOn Basin.setPool
  rw [h]
  rfl

/-- CASTPOOL changes the pool of the writer's basin, and a pool that closes keeps no cast. -/
theorem writeCastpool_spec (s : State) (v : Word) : let t := s.writeCastpool v
    t = { s with basins := s.basins.set {} s.myBasin ((s.basin s.myBasin).setPool v), casts := t.casts } ∧
      (v.getLsbD 0 = false → t.casts = s.casts.filter fun c => c.basin ≠ s.myBasin) := by
  have key (on keeps : Bool) (hon : v.getLsbD 0 = false → on = false) :
      let z := s.setBasin s.myBasin ((s.basin s.myBasin).setPool v)
      let t := if on && keeps then z else { z with casts := z.casts.filter fun c => c.basin ≠ s.myBasin }
      t = { s with basins := s.basins.set {} s.myBasin ((s.basin s.myBasin).setPool v), casts := t.casts } ∧
        (v.getLsbD 0 = false → t.casts = s.casts.filter fun c => c.basin ≠ s.myBasin) := by
    cases h : on && keeps with
    | true =>
      refine ⟨rfl, fun hv => absurd h ?_⟩
      rw [hon hv]
      exact Bool.false_ne_true
    | false => exact ⟨rfl, fun _ => rfl⟩
  unfold State.writeCastpool
  simp only [setPool_eq, Bool.and_assoc]
  exact key _ _ fun hv => poolOn_setPool hv _

theorem castpoolWrite_spec {s : State} {u : Strand} (hu : s.strand s.inp.unit = some u) (hc : u.cur = true) :
    let j := s.inp.unit / 8 / 16
    ∃ t, exec .castpoolWrite s = .next t ∧ t = { s with basins := t.basins, casts := t.casts } ∧
      t.basin j = (s.basin j).setPool s.inp.value ∧ (∀ k, k ≠ j → t.basin k = s.basin k) ∧
      (s.inp.value.getLsbD 0 = false → ∀ c, c ∈ t.casts ↔ c ∈ s.casts ∧ c.basin ≠ j) := by
  intro j
  have hex : exec .castpoolWrite s = .next _ := congrArg Host.Outcome.next (asWriter_privileged hu hc _)
  obtain ⟨ht, hcasts⟩ := writeCastpool_spec { s with cur := s.inp.unit } s.inp.value
  generalize State.writeCastpool _ _ = z at hex ht hcasts
  have hbasin (k : Nat) : z.basin k = if k = j then (s.basin j).setPool s.inp.value else s.basin k := by
    have hz : z.basins = s.basins.set {} j ((s.basin j).setPool s.inp.value) := (congrArg State.basins ht :)
    rw [State.basin, hz, Table.get_set]
    rfl
  refine ⟨_, hex, ?_, (hbasin j).trans (if_pos rfl), fun k hk => (hbasin k).trans (if_neg hk), fun hv c => ?_⟩
  · rw [ht]
  · change c ∈ z.casts ↔ _
    rw [hcasts hv, List.mem_filter, decide_eq_true_eq]
    rfl

end Sys2Proof.Machine
end

section
/-! SUPPORT. Migrations (R177, R178). -/
namespace Sys2Proof.Machine
open Sys2Proof Sys2Proof.Claims

/-- A migration slot of a basin takes new fields. -/
def State.setMig (s : State) (basin k : Nat) (m : Migration) : State :=
  s.setBasin basin { s.basin basin with mig := (s.basin basin).mig.set {} k m }

theorem setMig_spec (s : State) (basin k : Nat) (m : Migration) : let t := s.setMig basin k m
    (t.basin basin).mig.get {} k = m ∧
      (∀ b j, b ≠ basin ∨ j ≠ k → (t.basin b).mig.get {} j = (s.basin b).mig.get {} j) ∧ t = { s with basins := t.basins } := by
  intro t
  have hb (b : Nat) : t.basin b = if b = basin then { s.basin basin with mig := (s.basin basin).mig.set {} k m } else s.basin b :=
    basin_setBasin s basin b _
  refine ⟨?_, fun b j h => ?_, rfl⟩
  · rw [hb, if_pos rfl]
    exact (Table.get_set ({} : Migration) (s.basin basin).mig k k m).trans (if_pos rfl)
  · rw [hb]
    by_cases hk : b = basin
    · rw [if_pos hk, hk]
      exact (Table.get_set ({} : Migration) (s.basin basin).mig k j m).trans (if_neg (h.resolve_left (not_not_intro hk)))
    · rw [if_neg hk]

theorem migNamed_of_lt {basin k : Nat} (hb : basin < 12) (hk : k < 4) : migNamed basin k = true := by
  unfold migNamed
  rw [decide_eq_true hb, decide_eq_true hk]
  rfl

section
variable {s : State} (hn : s.inp.unit < 12) (hk : s.inp.part < 4)
include hn hk

theorem migrationIdle_eq : exec .migrationIdle s = .next (s.setMig s.inp.unit s.inp.part
    { (s.basin s.inp.unit).mig.get {} s.inp.part with state := 0 }) :=
  congrArg Host.Outcome.next (if_pos (migNamed_of_lt hn hk))

theorem migrationCopy_eq : exec .migrationCopy s = .next (s.setMig s.inp.unit s.inp.part
    (let m := (s.basin s.inp.unit).mig.get {} s.inp.part
     if s.migStarts s.inp.unit s.inp.part m then { m with state := 1, prog := 0 } else { m with state := 3 })) :=
  congrArg Host.Outcome.next (if_pos (migNamed_of_lt hn hk))

theorem migrationLineCopy_eq : exec .migrationLineCopy s = .next (s.copyLine s.inp.unit s.inp.part) :=
  congrArg Host.Outcome.next (if_pos (migNamed_of_lt hn hk))

end

/-- A reserved SIZE starts no migration. -/
theorem migStarts_reserved (s : State) (basin k : Nat) {m : Migration} (h : m.size = 3) : s.migStarts basin k m = false := by
  have hs : migSize m.size = 0 := by rw [h]; rfl
  unfold State.migStarts
  simp [hs]

/-! ### A line that is copied -/

section
variable {s : State} {old : Nat} (hal : old % 64 = 0) (herrs : ∀ e ∈ s.errs, e.1 / 4 ≠ old / 64)
include hal herrs

theorem corrected_of_clean_line : s.corrected old 64 = s := by
  have hnone : (s.errs.filter fun e => old / 16 ≤ e.1 && e.1 ≤ (old + 64 - 1) / 16 && e.2 = 2 ^ e.2.log2) = [] := by
    refine List.filter_eq_nil_iff.mpr fun e he hc => herrs e he ?_
    simp only [Bool.and_eq_true, decide_eq_true_eq] at hc
    omega
  unfold State.corrected
  rw [hnone]
  exact ite_self s

theorem homeByte_of_clean_line {i : Nat} (hi : i < 64) : s.homeByte (old + i) = s.byteAt (old + i) := by
  have hf : s.errs.find ((old + i) / 16) = none := Table.find_eq_none_of_not_mem _ _ fun hm => by
    obtain ⟨e, he, heq⟩ := List.mem_map.mp hm
    exact herrs e he (by omega)
  unfold State.homeByte State.byteAt State.fixedByte
  rw [hf]

end

/-- A line as a migration writes it in the new frame. -/
def State.fillLine (s : State) (new v : Nat) : State := (s.dropLine (new / 64)).writeEach 64 v [new]

theorem byteAt_writeEach_one (n v a : Nat) (s : State) (x : Nat) :
    (s.writeEach n v [a]).byteAt x = if a ≤ x ∧ x < a + n then leByte v (x - a) else s.byteAt x := byteAt_writeBytes n s a v x

theorem byteAt_dropLine (s : State) (line x : Nat) : (s.dropLine line).byteAt x = s.byteAt x := byteAt_cleanLine s line x

theorem byteAt_fillLine (s : State) (new v x : Nat) :
    (s.fillLine new v).byteAt x = if new ≤ x ∧ x < new + 64 then leByte v (x - new) else s.byteAt x := by
  unfold State.fillLine
  rw [byteAt_writeEach_one, byteAt_dropLine]

theorem copyLine_eq {s : State} {basin k old new : Nat} {m : Migration} (hm : (s.basin basin).mig.get {} k = m)
    (hold : m.old.toNat * 4096 + m.prog = old) (hnew : m.new.toNat * 4096 + m.prog = new) (hstate : m.state = 1)
    (hprog : m.prog % 64 = 0) (hlease : s.leased (new / 64) = false) (hmig : s.migOf new = [])
    (herrs : ∀ e ∈ s.errs, e.1 / 4 ≠ old / 64) :
    s.copyLine basin k = (s.fillLine new (leRead s.homeByte old 64)).setMig basin k m.advance := by
  have hal : old % 64 = 0 := by omega
  have hlost : (s.errs.filter fun e => e.1 / 4 = old / 64 && s.lostAt (16 * e.1) 16) = [] := by
    refine List.filter_eq_nil_iff.mpr fun e he hc => herrs e he ?_
    rw [Bool.and_eq_true, decide_eq_true_eq] at hc
    exact hc.1
  have hfill (v : Nat) : s.fillLine new v = ([new].foldl (fun s a => s.dropLine (a / 64)) s).writeEach 64 v [new] := by
    unfold State.fillLine
    rfl
  have hgo : ¬ (decide (m.state ≠ 1) || s.leased (new / 64)) = true := by
    rw [hlease, hstate]
    decide
  unfold State.copyLine
  simp only [hm, hold, hnew]
  rw [if_neg hgo, corrected_of_clean_line hal herrs, migWrites_none s new hmig, hlost, ← hfill]
  generalize s.fillLine new _ = z
  rfl

/-- The line of the old frame stands in the new one (R178). -/
theorem migrationLineCopy_spec {s : State} (hn : s.inp.unit < 12) (hk : s.inp.part < 4) :
    let m := (s.basin s.inp.unit).mig.get {} s.inp.part
    let old := m.old.toNat * 4096 + m.prog
    let new := m.new.toNat * 4096 + m.prog
    m.state = 1 → m.prog % 64 = 0 → s.leased (new / 64) = false → s.migOf new = [] → (∀ e ∈ s.errs, e.1 / 4 ≠ old / 64) →
    ∃ t, exec .migrationLineCopy s = .next t ∧
      (∀ x, t.byteAt x = if new ≤ x ∧ x < new + 64 then s.byteAt (old + (x - new)) else s.byteAt x) ∧
      (t.basin s.inp.unit).mig.get {} s.inp.part = m.advance := by
  intro m old new hstate hprog hlease hmig herrs
  have hal : old % 64 = 0 := by
    change (m.old.toNat * 4096 + m.prog) % 64 = 0
    omega
  have hex := (migrationLineCopy_eq hn hk).trans (congrArg Host.Outcome.next
    (copyLine_eq (basin := s.inp.unit) (k := s.inp.part) (m := m) (old := old) (new := new) rfl rfl rfl hstate hprog hlease
      hmig herrs))
  have hbyte := byteAt_fillLine s new (leRead s.homeByte old 64)
  generalize s.fillLine new _ = z at hex hbyte
  refine ⟨_, hex, fun x => ?_, (setMig_spec z s.inp.unit s.inp.part m.advance).1⟩
  refine (hbyte x).trans ?_
  by_cases hx : new ≤ x ∧ x < new + 64
  · have hi : x - new < 64 := by omega
    rw [if_pos hx, if_pos hx, leByte_leRead _ _ _ _ hi, homeByte_of_clean_line hal herrs hi]
  · rw [if_neg hx, if_neg hx]

/-- The writes of registers that change more than their own fields, and migrations. -/
theorem registerWritesWithEffects : RegisterWritesWithEffects := by
  intro s u v n
  refine ⟨fun hu hc => ⟨ctxtabWrite_sets hu hc, ctxidWrite_sets hu hc, hdmtWrite_sets hu hc,
      fun k hk hcode h => arfWrite_spec hu hc hk hcode h, castpoolWrite_spec hu hc⟩,
    fun hu hb hq hi hm => ?_, fctlWrite_waits, fun hn hk => ?_⟩
  · have h := onlyStrand_of_put (fctlWrite_sets hu hb hq hi hm)
    rwa [setFctl_eq] at h
  · have hput (m' : Migration) := setMig_spec s n s.inp.part m'
    refine ⟨⟨_, migrationIdle_eq hn hk, hput _⟩, fun hs => ⟨_, migrationCopy_eq hn hk, ?_⟩,
      fun hs => ⟨_, migrationCopy_eq hn hk, ?_⟩, migStarts_reserved s n s.inp.part, migrationLineCopy_spec hn hk⟩
    · rw [if_pos hs]
      exact hput _
    · rw [if_neg (Bool.eq_false_iff.mp hs)]
      exact hput _

end Sys2Proof.Machine
end

section
open Sys2Proof.Machine

/-- Settles O43, from its two parts: the queues with the registers of the hosts, and the register writes with effects. -/
theorem queuesAndRegisterSteps : Obligations.QueuesAndRegisterSteps := ⟨queuesAndRegisterWrites, registerWritesWithEffects⟩

end
